-- ==== Sys2Proof/Word.lean ====
section
/-! DEFINITION. The word types of the Bireel X8 (00_scope R6, R7). Byte-order helpers stand in Machine/Bits.lean. -/

namespace Sys2Proof

/-- One byte of a memory structure (R7). -/
abbrev Byte := BitVec 8

/-- A 16-bit ring counter or field. -/
abbrev Half := BitVec 16

/-- A 32-bit register or field (R9: all registers are 32 bits wide). -/
abbrev Word := BitVec 32

/-- A 64-bit engine address or field (R244). -/
abbrev Addr := BitVec 64

end Sys2Proof
end

