-- ==== Sys2Proof/Syntax.lean ====
section
/-! DEFINITION. The commands and events of the block: one constructor of Instr per row of spec/opcode_table.json,
in the table's order, with the operands that the row's rules leave to its sender. -/

namespace Sys2Proof

/-- What a unit's reads of a task find (R459 to R464, R473): the environment's choice at issue. -/
inductive Health where
  /-- Every word read was intact. -/
  | clean
  /-- One HBM burst at the address was corrected (R459). -/
  | hbmCorrected (addr : Nat)
  /-- One SRAM word was corrected (R461). -/
  | sramCorrected
  /-- An HBM burst at the address was uncorrectable (R462). -/
  | hbmUncorrectable (addr : Nat)
  /-- An SRAM word was uncorrectable (R462): one of the scratchpad, the accumulator file or the task store of a cell, or with
  none one of a cluster store, which is no cell's memory (R466). -/
  | sramUncorrectable (cell? : Option Nat)
  /-- The unit failed an internal parity or handshake check (R464 UNIT_CHECK). -/
  | unitCheck
  /-- The cluster's shared unit failed such a check and has failed for good (R466). -/
  | unitFailed
  deriving DecidableEq, Repr

/-- A fabric packet: the header words of R323 as they arrive, reserved bits included, and the payload bytes. -/
structure Packet where
  /-- Bytes 0 to 3, DST. -/
  dst : BitVec 32
  /-- Bytes 4 to 7, SRC. -/
  src : BitVec 32
  /-- Bytes 8 to 9, JOB. -/
  job : BitVec 16
  /-- Byte 10, VC_OP: bits [7:5] the virtual channel, bits [4:0] OP. -/
  vcop : BitVec 8
  /-- Byte 11, FLAGS (R324). -/
  flags : BitVec 8
  /-- Bytes 12 to 19, ADDR. -/
  addr : BitVec 64
  /-- Bytes 20 to 21, LENGTH. -/
  length : BitVec 16
  /-- Bytes 22 to 23, ARR. -/
  arr : BitVec 16
  /-- Bytes 24 to 27, PSN (R327). -/
  psn : BitVec 32
  /-- Bytes 28 to 31, HCRC. -/
  hcrc : BitVec 32
  /-- The payload. -/
  payload : List Byte
  deriving DecidableEq, Repr

/-- Who made the engine access that a MEM_CPL answers (R411). -/
inductive MemUser where
  /-- A task, or a promotion from a HOST home. -/
  | task
  /-- A command that reads or writes at an address of its arguments. -/
  | command
  /-- A write into the event ring or the report ring. -/
  | ring
  /-- The monitor's copy of the control firmware (R449). -/
  | loadRecord
  deriving DecidableEq, Repr

/-- What a MEM_CPL carries (R409, R411). -/
inductive MemAnswer where
  /-- The bytes of the host-die memory read. -/
  | data (bytes : List Byte)
  /-- UNBACKED for an access of the given length. -/
  | unbacked (len : Nat)
  deriving DecidableEq, Repr

/-- The NAND population that a mount finds (R269, R271). -/
structure FlashGeometry where
  targets : Nat
  dies : Nat
  partEntry : Nat
  planes : Nat
  blocksPerDie : Nat
  pagesPerBlock : Nat
  rdLimit : Nat
  retMargin : Nat
  endurance : Nat
  /-- Read-level entries of the part's retry table. -/
  retryEntries : Nat
  /-- Every channel is populated, all alike, and every die is of one part (R269). -/
  alike : Bool
  /-- Bits a cell: 3 TLC, 4 QLC. -/
  cellBits : Nat
  /-- Spare bytes of a page. -/
  spare : Nat
  /-- Array read and program times in nanoseconds. -/
  tR : Nat
  tProg : Nat
  deriving DecidableEq, Repr

/-- An extent as the map of a medium names it (R273, R285): its data from byte 0 on, the rest zeros, and its blocks. -/
structure MediumExtent where
  id : Nat
  length : Nat
  data : List Byte
  blocks : List Nat
  deriving DecidableEq, Repr

/-- What a first mount reads from the metadata of a medium that it does not know (R285 to R287; log 7). -/
structure FlashMedium where
  /-- The map: the sealed extents, and the id that the next one takes (R273, R279). -/
  extents : List MediumExtent
  nextExtent : Nat
  /-- Read counts as checkpointed, by block, and that of every other block (R277). -/
  reads : List (Nat × Nat)
  readDefault : Nat
  /-- Erase counts, by block, and that of every other block (R281). -/
  erases : List (Nat × Nat)
  eraseDefault : Nat
  /-- The patrol checkpoints: the turn in which a block was last patrolled; 0 for every other block (R278). -/
  patrols : List (Nat × Nat)
  /-- The blocks out of service, by their factory marks at the last format or grown since (R282). -/
  bad : List Nat
  /-- The die ids that were retired since the last format (R283). -/
  retired : List Nat
  /-- The newest superblock: its sequence number and the metadata copy that it names. -/
  superSeq : Nat
  superCopy : Nat
  deriving DecidableEq, Repr

/-- How a flash mount ends (R285, R286). -/
inductive MountResult where
  /-- Step 6 is reached. -/
  | online (g : FlashGeometry) (m : FlashMedium)
  /-- No die holds a valid superblock. -/
  | unformatted (g : FlashGeometry)
  /-- A cause of R286, and what of the population the mount had learnt. -/
  | failed (cause : Nat) (g : FlashGeometry)
  /-- No channel is populated: the device has no flash tier (R269). -/
  | none
  deriving DecidableEq, Repr

/-- How a promotion ends (R251, R263, R463). -/
inductive PromoteResult where
  /-- The last byte is visible in the frame. -/
  | done
  /-- The source read was a faster copy and was uncorrectable (R463). -/
  | copyBad
  /-- The home could not be read (R263). -/
  | homeBad
  deriving DecidableEq, Repr

/-- At which step of the ladder of R275 a codeword read ended. -/
inductive Ladder where
  | hard
  | retry (entries : Nat)
  | soft
  /-- Rebuilt from the stripe, in which the member on the given channel, if any, could not be read either. -/
  | rebuild (second : Option Nat)
  | failure
  deriving DecidableEq, Repr

/-- How a training of a port ends (R310, R315). -/
inductive Training where
  | upFull (phys : BitVec 24) (logical : BitVec 20)
  | upHalf (phys : BitVec 24) (logical : BitVec 20)
  | down
  deriving DecidableEq, Repr

/-- A codeword read (R275): the block, the stripe of its extent whose member it is, and whether the page is sensed for it
rather than for another of its four codewords (R272, R276). -/
structure CodewordAt where
  block : Nat
  stripe : Nat
  sensed : Bool
  deriving DecidableEq, Repr

/-- What the flash patrol found in a block's sample pages (R278). -/
structure PatrolFinding where
  block : Nat
  /-- The most corrected bits of a codeword. -/
  corrected : Nat
  /-- The worst ladder step of a codeword. -/
  ladder : Ladder
  deriving DecidableEq, Repr

/-- What the HBM patrol scrub finds in a burst (R459, R463). -/
inductive ScrubFinding where
  | clean
  | corrected
  | uncorrectable
  deriving DecidableEq, Repr

/-- A memory that the SRAM patrol scrub reads: those of a cluster, with the engine address of the word where it has one;
mailbox RAM and the conductor memories; or a buffer of a port die, at a word of the n-th packet that waits in one (R461 to
R463). -/
inductive SramSite where
  | cluster (k : Nat) (word : Option Nat)
  | conductor
  | portDie (packet : Nat)
  deriving DecidableEq, Repr

/-- What the SRAM patrol scrub finds in a word (R461). -/
structure SramFinding where
  site : SramSite
  found : ScrubFinding
  deriving DecidableEq, Repr

/-- How a cell test ends (R466, R473): whether the cell under test failed, and a second cell of its cluster that failed
during the test, with how its own test ended. -/
structure TestEnd where
  failed : Bool
  second : Option (Nat × Bool)
  deriving DecidableEq, Repr

/-- The acknowledgements of a setpoint command by the AVSBus targets (R491). -/
structure AvsAck where
  vsram : Bool
  vcore : Bool
  deriving DecidableEq, Repr

/-- A reference clock of R496. -/
inductive RefClk where
  | core (dieB : Bool)
  | ser (dieB : Bool) (quad : Nat)
  | hbm (i : Nat)
  deriving DecidableEq, Repr

/-- One 10 microsecond sample of the governor's sensors (R482, R484, R485, R491). -/
structure Sample where
  /-- VCORE in millivolts, and its current in milliamperes. -/
  vcoreMv : Nat
  currentMa : Nat
  /-- Voltage and current, in the same units, of every rail that answers at AVSBus rail addresses 2 to 7. -/
  rails : List (Nat × Nat)
  /-- The junction sensors in tenths of a degree: 3 of each of the 16 clusters, then 4 of each port die. -/
  junctions : List Int
  /-- The temperature of each HBM stack in degrees, and the array-cycle rate of each cluster in units of 1,000,000 a
  second. -/
  hbmTemp : List Int
  pace : List Nat
  deriving DecidableEq, Repr

/-- How a management packet arrives (R474, R475): over I3C, or in an Ethernet frame with its destination and source
addresses, its EtherType, and whether its FCS is good. -/
inductive MgmtVia where
  | i3c
  | ethernet (dst src : BitVec 48) (etherType : BitVec 16) (fcsGood : Bool)
  deriving DecidableEq, Repr

/-- Who sent an MCTP control message or a PLDM request: its endpoint, and how its packet came (R474, R475). -/
structure MgmtSender where
  endpoint : Nat
  via : MgmtVia
  deriving DecidableEq, Repr

/-- A management request as it arrives (R476): the endpoint that sent it, its FLAGS and reserved bytes, and its ARGS. -/
structure MgmtReq where
  endpoint : Nat
  command : BitVec 8
  flags : BitVec 8
  /-- Byte 7, and bytes 8 to 11, reserved in a request. -/
  reserved : BitVec 40
  args : List Byte
  via : MgmtVia
  deriving DecidableEq, Repr

/-- A PLDM request (R474, R485, R486). -/
inductive PldmReq where
  /-- A base request of type 0. -/
  | base (code : Nat)
  /-- SetEventReceiver with the receiver's endpoint. -/
  | setEventReceiver (receiver : Nat)
  /-- GetSensorReading of a sensor of R485. -/
  | sensorReading (id : Nat)
  /-- Any other request of type 2, Platform Monitoring and Control, by its command code. -/
  | monitoring (code : Nat)
  deriving DecidableEq, Repr

/-- The fields of a flit trailer but its FCRC, which the flit's bytes fix (R308). -/
structure Trailer where
  /-- The flit's sequence number. -/
  fseq : BitVec 12
  /-- The last FSEQ received intact from the other end. -/
  ack : BitVec 12
  /-- 0 DATA, 1 IDLE, 2 NAK. -/
  kind : Nat
  /-- The two credit returns: a lane and its units, 0 to 63. -/
  laneA : Nat
  countA : Nat
  laneB : Nat
  countB : Nat
  deriving DecidableEq, Repr

/-- The trailers of the intact flits that have arrived on a port since they were last shown (R308, R328). -/
structure LinkView where
  port : Nat
  trailers : List Trailer
  deriving DecidableEq, Repr

/-- What a port's link layer meets in a flit that arrives (R309). -/
inductive LinkError where
  /-- A NAK flit with its ACK. -/
  | nak (ack : BitVec 12)
  /-- A flit whose FCRC fails. -/
  | badCrc
  /-- A flit whose FEC codeword is uncorrectable. -/
  | badFec
  deriving DecidableEq, Repr

/-- Which message of an exchange or a collective is meant (R200, R386): its source, its kind of plan and its header. -/
structure MsgKey where
  src : Nat
  collective : Bool
  step : BitVec 32
  /-- LAYER of an exchange, PLAN of a collective. -/
  layer : Nat
  /-- KIND_ROUND of an exchange, PHASE of a collective. -/
  kind : Nat
  /-- SRC_CLUSTER of an exchange, SRC_RANK of a collective. -/
  srcCluster : Nat
  /-- LAND_MASK of an exchange, 0 of a collective. -/
  landMask : Nat
  deriving DecidableEq, Repr

/-- The commands and events of the device, one per row of the table of operations and events. Yopin commands carry no
operand here: the engine takes them from the command ring of mailbox RAM (R415, R417). A packet's `from` is the port
it arrived on, or none for a landing by loopback (R51). -/
inductive Instr where
  | identify
  | getCaps
  | setConfig
  | jobOpen
  | jobClose
  | loadImage
  | bind
  | grant
  | abortStep
  | abortJob
  | treeSet
  | peal
  | objDefine
  | promote
  | evict
  | pin
  | unpin
  | poolConfig
  | poolAlloc
  | poolShare
  | poolRelease
  | poolFree
  | poolStatus
  | winSet
  | winClear
  | winRead
  | flashStatus
  | flashFormat
  | flashFormatDone (factoryBad : List Nat)
  | extentCreate
  | extentWrite
  | extentSeal
  | extentSealDone (extent : Nat)
  | extentDelete
  | telSnapshot
  | attest
  | debugTraceStart
  | debugTraceStop
  | debugTraceStatus
  | debugMemread (h : Health)
  | reservedOpcode
  | cmdDoorbell (v : Word)
  | loadRecord (v : Word)
  | cplHead (v : Word)
  | evtHead (v : Word)
  | rptHead (v : Word)
  | evtClear (v : Word)
  | evtEnable (v : Word)
  | resetCtl (v : Word)
  | bootSramWrite (ofs : Nat) (v : Word)
  | bootDoorbell (v : Word)
  | tmxSel (i : Nat) (v : Word)
  | tmxCtl (v : Word)
  | clPerfSel (cluster : Nat) (v : Word)
  | ecsWrite (ofs : Nat) (data : List Byte)
  | memCpl (addr : Nat) (user : MemUser) (answer : MemAnswer)
  | hostModuleFail
  | pwrgdRise
  | pwrgdFall
  | romWait
  | romVerify
  | firmwareVerify
  | ready (badCells : List Nat)
  | firmwareInitFail (code : Nat)
  | mountEnd (r : MountResult)
  | stepArm
  | stepRun
  | launchStrobe
  | stepComplete
  | stepAbort
  | stepHung
  | descriptorFetch (cell : Nat)
  | taskComplete (cell : Nat) (index : Nat)
  | mx (cell : Nat) (h : Health)
  | cp (cell : Nat) (h : Health)
  | add (cell : Nat) (h : Health)
  | sub (cell : Nat) (h : Health)
  | mul (cell : Nat) (h : Health)
  | fma (cell : Nat) (h : Health)
  | div (cell : Nat) (h : Health)
  | max (cell : Nat) (h : Health)
  | min (cell : Nat) (h : Health)
  | unary (cell : Nat) (h : Health)
  | cmp (cell : Nat) (h : Health)
  | select (cell : Nat) (h : Health)
  | reduce (cell : Nat) (h : Health)
  | scan (cell : Nat) (h : Health)
  | table (cell : Nat) (h : Health)
  | rmsnorm (cell : Nat) (h : Health)
  | layernorm (cell : Nat) (h : Health)
  | softmax (cell : Nat) (h : Health)
  | convert (cell : Nat) (h : Health)
  | compress (cell : Nat) (h : Health)
  | expand (cell : Nat) (h : Health)
  | compress24 (cell : Nat) (h : Health)
  | gather (cell : Nat) (h : Health)
  | scatter (cell : Nat) (h : Health)
  | scatterAdd (cell : Nat) (h : Health)
  | route (cell : Nat) (h : Health)
  | accept (cell : Nat) (h : Health)
  | spill (cell : Nat) (h : Health)
  | routePart (cluster : Nat)
  | sendBids (cell : Nat) (h : Health)
  | sendAccepts (cell : Nat) (h : Health)
  | sendRows (cell : Nat) (h : Health)
  | sendEager (cell : Nat) (h : Health)
  | sendAnswers (cell : Nat) (h : Health)
  | allReduce (cell : Nat) (h : Health)
  | reduceScatter (cell : Nat) (h : Health)
  | collectiveSum (cell : Nat) (index : Nat) (h : Health)
  | fmLoad (cell : Nat) (h : Health)
  | fmStore (cell : Nat) (h : Health)
  | fmAtomic (cell : Nat) (h : Health)
  | fmPut (cell : Nat) (h : Health)
  | fmGet (cell : Nat) (h : Health)
  | fmFlagStore (cell : Nat) (h : Health)
  | waitRel (cell : Nat) (h : Health)
  | mark (cell : Nat) (h : Health)
  | ensure (cell : Nat) (h : Health)
  | prefetch (cell : Nat) (h : Health)
  | promotionStart (obj : Nat) (tier : Nat)
  | promotionEnd (obj : Nat) (tier : Nat) (r : PromoteResult)
  | evictionEnd (obj : Nat) (tier : Nat)
  | exchange (from? : Option Nat) (p : Packet)
  | messageLanded (m : MsgKey)
  | collective (from? : Option Nat) (p : Packet)
  | load (from? : Option Nat) (p : Packet)
  | store (from? : Option Nat) (p : Packet)
  | flagStore (from? : Option Nat) (p : Packet)
  | atomic (from? : Option Nat) (p : Packet)
  | put (from? : Option Nat) (p : Packet)
  | get (from? : Option Nat) (p : Packet)
  | loadResp (from? : Option Nat) (p : Packet)
  | atomicResp (from? : Option Nat) (p : Packet)
  | getData (from? : Option Nat) (p : Packet)
  | ack (from? : Option Nat) (p : Packet)
  | refuse (from? : Option Nat) (p : Packet)
  | lineWriteBack (line : Nat)
  | e2eRetry (dst : Nat) (psn : BitVec 32)
  | cumAck (dst : Nat)
  | packetSend (i : Nat) (views : List LinkView)
  | forward (port : Nat) (p : Packet)
  | linkReplay (port : Nat) (e : LinkError)
  | replayWindowExpiry (port : Nat)
  | laneFail (port : Nat) (partial? : Bool)
  | portTrained (port : Nat) (r : Training)
  | portRetry (port : Nat)
  | halfRetrain (port : Nat)
  | pealArm (port : Nat) (p : Packet)
  | pealAck (port : Nat) (p : Packet)
  | pealDisarm (port : Nat) (p : Packet)
  | armAcknowledge
  | ackDeadline
  | decisionPoint
  | gong (port : Nat) (p : Packet)
  | syncSend
  | sync (port : Nat) (p : Packet)
  | follow (port : Nat) (p : Packet)
  | probe (from? : Option Nat) (p : Packet)
  | codewordRead (word : CodewordAt) (result : Ladder)
  | relocationEnd (block : Nat)
  | readCountCheckpoint
  | retentionPatrol (finding : PatrolFinding)
  | wearLevel (die : Nat)
  | dieRetire (die : Nat)
  | hbmScrub (addr : Nat) (found : ScrubFinding)
  | sramScrub (finding : SramFinding)
  | hbmRetrain (stack : Nat) (ok : Bool)
  | cellTest (result : TestEnd)
  | firmwareWatchdog
  | refclkLoss (clk : RefClk)
  | hbmStackLost (stack : Nat)
  | portDieLost (dieB : Bool)
  | sensorSample (x : Sample)
  | governorStep (acked : AvsAck)
  | telUpdate
  | getState (q : MgmtReq)
  | setPhysId (q : MgmtReq)
  | tableWrite (q : MgmtReq)
  | tableReady (q : MgmtReq)
  | tableRead (q : MgmtReq)
  | setPower (q : MgmtReq)
  | setThermal (q : MgmtReq)
  | setShares (q : MgmtReq)
  | getSnapshot (q : MgmtReq)
  | mgmtAttest (q : MgmtReq)
  | attestRead (q : MgmtReq)
  | reset (q : MgmtReq)
  | portConfig (q : MgmtReq)
  | mgmtReservedCommand (q : MgmtReq)
  | mctpControl (sender : MgmtSender) (code : Nat)
  | pldmRequest (sender : MgmtSender) (q : PldmReq)
  | extest (drive : List Bool)
  | samplePreload (preload : List Bool)
  | idcode
  | clamp
  | highz
  | ijtag
  | bypass (code : BitVec 8)
  | testLogicReset
  | vccqNandLoss
  | nandProgramEnd (block : Nat) (ok : Bool)
  | nandEraseEnd (block : Nat) (ok : Bool)
  | portDieModuleFail (dieB : Bool)
  | adapterRetry
  deriving DecidableEq, Repr

end Sys2Proof
end

