-- ==== Sys2Proof/Config.lean ====
section
/-! DEFINITION. What an implementation or a named standard fixes, and the free values: opaque constants with no body,
so that every claim holds whatever they are. -/

namespace Sys2Proof.Config

/-- ML-DSA-87 verification of FIPS 204: public key, message and signature cells (R445, R446). Uninterpreted (log 6). -/
opaque mldsaVerify : List Host.Cell → List Host.Cell → List Host.Cell → Bool

/-- The ML-DSA-87 public key of a 32-byte seed (R454). Uninterpreted (log 6). -/
opaque mldsaPublic : BitVec 256 → List Host.Cell

/-- The ML-DSA-87 signature under a seed over a message of the given length (R455, R456). Uninterpreted (log 6). -/
opaque mldsaSign : BitVec 256 → Nat → List Host.Cell → List Host.Cell

/-- The unique device secret fused into the part (R454). Free: the manual gives no value. -/
opaque uds : BitVec 256

/-- The SHA3-384 hash fused in each key slot (R447). Free: Keakoum programs it at manufacture. -/
opaque keyHash : Nat → BitVec 384

/-- The fused POLICY bit is not free: every KMX8-576L ships with POLICY PRODUCTION (R432). -/
def policyProduction : Bool := true

/-- What an alias certificate says (R455). -/
structure AliasFields where
  /-- The public key that it certifies, and that of the device key which issues it. -/
  subjectKey : List Host.Cell
  issuerKey : List Host.Cell
  /-- The serial number, 8 bytes. -/
  serial : BitVec 64
  /-- The TcbInfo extension: both measurements, the monitor's SVN and the rollback counter. -/
  monMeas : BitVec 384
  fwMeas : BitVec 384
  svn : Nat
  rollback : Nat

/-- The bytes of an alias certificate that its signature covers, and their number (R455). DER and the layout of the extension
are the named standards' (log 6). -/
opaque aliasTbs : AliasFields → List Host.Cell
/-- The number of those bytes. -/
opaque aliasTbsLen : AliasFields → BitVec 12

/-- The certificate of signed bytes and the signature over them (R455; RFC 5280, log 6). -/
opaque certificate : List Host.Cell → List Host.Cell → List Host.Cell
/-- Its length in bytes, from the length of the signed bytes. -/
opaque certificateLen : BitVec 12 → BitVec 13

/-- A resource that R452 denies the control firmware in whole or in part. -/
inductive Protected where
  /-- Unique device secret fuses. -/
  | secretFuses
  /-- Key slot, revocation and rollback fuses. -/
  | keyFuses
  /-- Device and alias private keys, identity secrets. -/
  | privateKeys
  | lockBits
  | bootSram
  | configDigest
  | monitorSram
  /-- Conductor code memory, where the code lies; and the rest of it, which is data. -/
  | code
  | data
  | reserve
  /-- All other engine resources and blocks of engine control space. -/
  | engine
  deriving DecidableEq, Repr

/-- A kind of access. -/
inductive Access where
  | read | write | execute
  deriving DecidableEq, Repr

/-- What the control firmware touches at the n-th use, if it is anything but what it may: its code is not the device's (R452,
log 98). -/
opaque firmwareTouch : Nat → Option (Protected × Access)

/-- The device certificate issued at manufacture, held in the identity store (R455). -/
opaque deviceCert : List Host.Cell

/-- The device certificate's length in bytes, at most 16 KiB (R455). -/
opaque deviceCertLen : BitVec 14

/-- The lag, within 0 to 16 ticks, of the engine's copy of the Beat counter at its n-th use (R362, R377). -/
opaque beatLag : Nat → Nat

/-- The n-th byte of data that the manual leaves unspecified (R28, R112, R208, R418). -/
opaque freeByte : Nat → Byte

/-- Byte j of row i of what a copy task moves when it overlaps itself, by its body and the rows read (R115). Free: the
manual does not state it. -/
opaque overlapByte : List Byte → List (List Byte) → Nat → Nat → Byte

/-- Whether the n-th choice that the manual leaves to the device is taken (R208, R303). -/
opaque freeBool : Nat → Bool

/-- The part of an occupancy figure, in parts per million, that a telemetry period records (R266). -/
opaque occupancy : Nat → Nat → Nat

/-- The place of the Beat timestamp in the payload of a PROBE: the manual does not give it (R403). -/
opaque probeStampAt : Nat

/-- A captured boundary cell of land i at the n-th use: the levels on the package's lands are the tray's (R505). -/
opaque pinLevel : Nat → Nat → Bool

/-- Byte o of a telemetry snapshot under way, as a reader finds it at the n-th use: the manual does not say how far the write has
come (R439). -/
opaque telPart : Nat → Nat → Byte

/-- The number of boundary cells of the scan chain: the manual names the lands and gives no count of all of them (R505). -/
opaque chainLength : Nat

/-- The entries of a port die's answer queue beyond the first: the manual does not give their number (R398). -/
opaque answerExtra : Nat

/-- The symbols that the FEC of a port corrected in a telemetry period, by port and use (R332). -/
opaque fecCorrections : Nat → Nat → Nat

/-- Array cycles, array pauses and window stalls of a cluster's tick, by cluster, event and use: they follow the pace (R511,
log 82). -/
opaque arrayEvents : Nat → Nat → Nat → Nat

/-- The burned-in MAC address (R475). Free: the manual gives no value. -/
opaque macAddress : BitVec 48

/-- The MCTP transport header of packet i of n to an endpoint: DSP0236 gives it, the manual does not (R475). -/
opaque mctpHead : Nat → Nat → Nat → BitVec 32

/-- The level of a probe of a handshake, or of the pace monitor, at the n-th use: the pulse train of a part without clock,
whose times the manual does not give (R503). -/
opaque probeLevel : Nat → Nat → Bool

/-- The answer to an MCTP control message, by its code, at the n-th use: DSP0236 gives it, the manual does not (R474). -/
opaque mctpAnswer : Nat → Nat → List Byte

/-- The answer to a PLDM request other than a sensor reading, by its code, at the n-th use: DSP0240 and DSP0248 give it,
the manual does not (R474). -/
opaque pldmAnswer : Nat → Nat → List Byte

/-- The parameters of a qualified-list entry other than 0x0213, in the order of R271's table, times in nanoseconds (R269).
Free: the manual gives the list to the control firmware and shows the one entry. -/
opaque qualifiedPart : Nat → Option (List Nat)

/-- The stack of an HBM row has a spare row left once these rows have been repaired (R460). No rule gives the number of
spare rows (DESIGN CHOICE, log 25). -/
opaque spareRowLeft : Nat → List Nat → Bool

end Sys2Proof.Config
end

