-- ==== Sys2Proof/Machine/State.lean ====
section
/-! DEFINITION. The state of the device: every register, table, memory, queue and mode that the manual names, as plain
data. Tables are lists of key and value, sorted by key, that list no default value; memories are such lists of bytes. -/

namespace Sys2Proof.Machine

/-- A sparse memory: strictly rising addresses, no zero byte listed. An unlisted byte reads as zero (R513). -/
abbrev Mem := List Host.Cell

/-- A sparse table of numbers: strictly rising keys, no zero listed. An unlisted key reads as 0. -/
abbrev Tbl := List (Nat × Nat)

/-- A sparse table of records: strictly rising keys. -/
abbrev KV (α : Type) := List (Nat × α)

/-- Why the machine stops with a fault. There is none: every error the manual names is an effect on the state (a
step fault, a device fault, a status or a count), so no command of the device ends in a fault. -/
inductive Fault where
  deriving DecidableEq, Repr

/-- Why the model gives a command no meaning. -/
inductive Refusal where
  /-- Raised by no arm while every command has its meaning. Safe: the run stops. -/
  | notModelled (mnemonic : String)
  deriving DecidableEq, Repr

/-- RCB BOOT_STAT STAGE (R443). -/
inductive Stage where
  | romWait | romVerify | monitorRun | firmwareVerify | firmwareInit | ready | failed
  deriving DecidableEq, Repr

/-- An event entry (R420): its number, type, status, tag, merge count and the 16 bytes of DETAIL. -/
structure Event where
  no : Word
  typ : Nat
  status : Nat
  tag : Nat
  merged : Nat
  detail : List Byte
  deriving DecidableEq, Repr

/-- What an open command waits for (R417). -/
inductive OpenKind where
  | abortStep (step : Word)
  | abortJob
  | peal (launch : Word)
  | extentSeal (id : Nat)
  | flashFormat
  | jobClose
  | loadImage
  /-- Any other long command that has had its effect and whose completion is still to be posted, with its status and result
  (R417). -/
  | late (status : Nat) (result : List Byte)
  deriving DecidableEq, Repr

/-- A command taken and not yet completed: its OPCODE, TAG, count in the command ring and arguments. -/
structure OpenCmd where
  op : Nat
  tag : Nat
  index : Nat
  kind : OpenKind
  args : List Byte
  deriving DecidableEq, Repr

/-- MBB, mailbox RAM, the host-memory rings and EVB (18 R414 to R422, 19 R433, R434). -/
structure Mailbox where
  /-- MB_STATUS READY. -/
  ready : Bool
  cmdDoorbell : Half
  cmdHead : Half
  cplTail : Half
  cplHead : Half
  evtTail : Word
  evtHead : Word
  rptTail : Word
  rptHead : Word
  /-- Mailbox RAM, 32 KiB, by offset from ECS 0x0001_8000. -/
  ram : Mem
  /-- The event ring's engine address and entry count (R419). -/
  evtRing : Option (Nat × Nat)
  /-- The report ring's engine address and length in bytes (R419). -/
  rptRing : Option (Nat × Nat)
  /-- The report entry size S, and the number of entries (R419). -/
  rptSize : Nat
  rptEntries : Nat
  /-- The internal event queue, oldest first (R406). -/
  queue : List Event
  /-- The number of the next event (R420). -/
  eventNo : Word
  /-- Commands taken and not yet completed, oldest first (R417). -/
  opened : List OpenCmd
  evtSeq : Word
  evtCause : BitVec 4
  evtEnable : BitVec 4
  evtFault : Half
  /-- Every doorbell vector sent to the host, newest first (R422): the model's own record of an output. -/
  doorbells : List Nat
  deriving DecidableEq, Repr

/-- What is known of an accepted signed image (R445). -/
structure SignedImage where
  slot : Nat
  svn : Nat
  version : Nat
  advance : Bool
  revokeMask : Nat
  meas : BitVec 384
  deriving DecidableEq, Repr

/-- RCB, LKB, fuses and the boot chain (20 R443 to R457, 19 R431, R437, R438). -/
structure Boot where
  stage : Stage
  /-- False from power good or a full reset until the mask ROM enters ROM_WAIT (R443). -/
  romUp : Bool
  /-- A full reset has begun and ROM_WAIT is not reached yet (R437, R442). -/
  resetting : Bool
  error : Half
  /-- RESET_STAT COUNT and CAUSE. -/
  resetCount : Half
  resetCause : Nat
  /-- LKB LOCKS: bit 0 TMX_LOCK, 1 TEST_LOCK, 2 JTAG_LOCK, 3 DEBUG_LOCK, 4 BOOT_LOCK. -/
  locks : BitVec 5
  /-- Live test controls of R508: PIN_LOOP, and SCRUB_HOLD and PERF_FREEZE by cluster. -/
  pinLoop : Bool
  scrubHold : BitVec 16
  perfFreeze : BitVec 16
  /-- Fuses: revoked key slots, the rollback counter, unused raise records (R447, R448). -/
  revoked : BitVec 4
  rollback : Nat
  raisesLeft : Nat
  /-- A revocation and a rollback raise that READY has started and that have not ended (R447, R448). -/
  revokeDue : Bool
  raiseDue : Bool
  /-- Further reads of UDS are blocked (R454). -/
  udsBlocked : Bool
  /-- BOOT_SRAM, 256 KiB, and the length rung (R438). -/
  sram : Mem
  sramLen : Nat
  mon : Option SignedImage
  fw : Option SignedImage
  /-- The load record's SOURCE and LENGTH, and the copy of the firmware image (R449). -/
  loadSrc : Nat
  loadLen : Nat
  fwCopy : Mem
  /-- Monitor private SRAM: DEV_SEED, CDI_MON, and once the firmware is accepted CDI_FW and the alias seed (R454). -/
  devSeed : BitVec 256
  /-- The public key of the device key, which the monitor derives from DEV_SEED (R454). -/
  devKey : Mem
  cdiMon : BitVec 384
  cdiFw : BitVec 384
  aliasSeed : BitVec 256
  /-- The rollback counter as the alias certificate of this boot holds it (R455). -/
  certRollback : Nat
  /-- IDB CONFIG_DIGEST (R392, R393). -/
  digest : BitVec 64
  /-- The protected resource that the control firmware touches next, and how: the model's own field, a free value from tick to
  tick (R452, log 98). -/
  touch : Option (Config.Protected × Config.Access)
  deriving DecidableEq, Repr

/-- A section-table entry of an image (R30). -/
structure Section where
  typ : Nat
  sched : Nat
  ofs : Nat
  len : Nat
  load : Nat
  deriving DecidableEq, Repr

/-- The loaded program image: the header fields of R29, the section table, the bytes as received and the measurement. -/
structure Image where
  bytes : Mem
  length : Nat
  imageId : Word
  digest : BitVec 64
  schedules : Nat
  layers : Nat
  seqSlots : Nat
  expertSlots : Nat
  stepTokens : Nat
  expertsMax : Nat
  kMax : Nat
  idleLimit : Nat
  sections : List Section
  meas : BitVec 384
  bound : Bool
  deriving DecidableEq, Repr

/-- The lasting state that grants change: bias epoch, placement, sequence slots and token map (R229, R237). -/
structure Lasting where
  epoch : Nat
  biasDigest : Word
  /-- The biases by layer × 16,384 + expert, FP32 bits. -/
  bias : Tbl
  /-- Placement entries replaced since BIND, by layer × 16,384 + expert (R183). -/
  place : KV Nat
  /-- Sequence slots: ACTIVE and the 16-bit epoch (R230). An unlisted slot is INACTIVE with epoch 0. -/
  slots : KV (Bool × Nat)
  /-- The token map, by local token index (R230). -/
  tokens : Tbl
  deriving DecidableEq, Repr

/-- The open job, the loaded image and what BIND loaded into the units (18 R426, 02 R29 to R36). -/
structure Job where
  opened : Bool
  id : Half
  rank : Half
  image : Option Image
  /-- The FUNCTIONS, ROUTING and AUX_DESC sections as BIND loaded them, by offset. -/
  functions : Mem
  functionsLen : Nat
  routing : Mem
  plans : Mem
  plansLen : Nat
  lasting : Lasting
  deriving DecidableEq, Repr

/-- A change entry of a grant (R227). -/
structure Change where
  typ : Nat
  layer : Nat
  target : Nat
  entry : Nat
  deriving DecidableEq, Repr

/-- An accepted grant's content as the control firmware copied it (R226). -/
structure Grant where
  first : Word
  epoch : Option Nat
  biasDigest : Word
  bias : Tbl
  changes : List Change
  tokens : Option Tbl
  deriving DecidableEq, Repr

/-- One granted step (R64). `head` marks the first step of its grant, at whose RUNNING entry the changes apply. -/
structure GStep where
  step : Word
  sched : Nat
  head : Bool
  grant : Grant
  /-- The step is at a launch point (R371). -/
  launch : Bool
  attempt : Nat
  tGranted : Nat
  deriving DecidableEq, Repr

/-- What ends a run: the cause, whether this device raised it, and the logical id that did (R232). -/
structure StepFault where
  cause : Nat
  isLocal : Bool
  origin : Nat
  deriving DecidableEq, Repr

/-- The run of a step, from RUNNING entry to its terminal latch, or a report still to be written (R232, R237). -/
structure Run where
  g : GStep
  imageId : Word
  draining : Bool
  tArmed : Nat
  tRunning : Nat
  tDraining : Nat
  fault : Option StepFault
  voids : Nat
  /-- Ticks and events by stall code. -/
  stallTicks : Tbl
  stallEvents : Tbl
  /-- Counts by count code (R233). -/
  counts : Tbl
  /-- Offered, accepted and overflow, by layer × 4,096 + slot (R178, R234). -/
  offered : Tbl
  accepted : Tbl
  overflow : Tbl
  /-- The lasting state before the entry changes (R237). -/
  saved : Lasting
  /-- Ticks since a task issued or completed, a landing arrived or a transfer progressed (R67). -/
  idle : Nat
  deriving DecidableEq, Repr

/-- A finished run, kept for replay and for ABORT_STEP (R239, R241). -/
structure PastRun where
  g : GStep
  completed : Bool
  cause : Nat
  /-- Its grant is still kept for a replay: R37 and ABORT_JOB discard it (R243). -/
  kept : Bool
  deriving DecidableEq, Repr

/-- Step control (02 R64 to R68, 09). -/
structure Ctl where
  /-- Steps GRANTED, oldest first. -/
  granted : List GStep
  /-- The step ARMED, its T_ARMED, and the held BAD_DESCRIPTOR of R60. -/
  armed : Option GStep
  tArmed : Nat
  heldBad : Bool
  /-- Pulses shown by the probes STEP_STATE and LAUNCH (R503): the model's own count of them. -/
  stepPulses : Nat
  launchPulses : Nat
  /-- The step's RUNNING entry has waited for a report entry (R64). -/
  waitedRing : Bool
  /-- Ticks of that wait so far (R232). -/
  ringTicks : Nat
  run : Option Run
  /-- The last runs latched, newest first. -/
  past : List PastRun
  /-- FIRST_STEP that the next grant must name, or none when any is accepted (R228). -/
  nextStep : Option Word
  /-- The next step granted or entered is at a launch point (R371). -/
  launchNext : Bool
  /-- The device has no current step (R53). -/
  noCurrent : Bool
  /-- The last latched run ABORTED and is not yet replayed; a REPLAY grant has been accepted since (R241, R242). -/
  aborted : Bool
  replaying : Bool
  /-- Steps to run again, oldest first, before the armed and granted ones (R241). -/
  replay : List GStep
  /-- GONG_PENDING: a Gong waits for the next step to become ARMED (R381). -/
  gongPending : Option StepFault
  /-- The waiting Gong has ended the step it waited for. -/
  gongSpent : Bool
  /-- Reports as at their latches, oldest first, which wait for the cell test of R466 or for a free entry. -/
  reportsHeld : List Mem
  /-- The digest changed: the image is unbound at the latch (R37). -/
  unbindAtLatch : Bool
  /-- STEP_HUNG's, STEP_SKEW's and other faults that the next RUNNING entry raises (R53, R205). -/
  entrySteps : List Word
  /-- Causes held for the RUNNING entry of a step whose landing failed a check before it (R60, R204). -/
  heldFaults : List (Word × Nat)
  keptDigest : Option Word
  keptDiffers : Bool
  deriving DecidableEq, Repr

/-- A descriptor in the task store: its step, index, header words and body bytes (R38 to R41). -/
structure Desc where
  step : Word
  index : Nat
  taskId : Word
  waitA : Word
  waitB : Word
  signal : Word
  body : List Byte
  issued : Bool
  deriving DecidableEq, Repr

/-- A task in flight (R43, R46). -/
structure Flight where
  index : Nat
  queue : Nat
  desc : Desc
  /-- Borrowed parts of a split ROUTE still to be served (R193). -/
  parts : List Nat
  /-- The task may complete: its own condition beside its packets holds (R46). -/
  finished : Bool
  /-- Beat count that a WAIT_REL waits for (R369). -/
  until? : Option Nat
  /-- The object and tier that an ENSURE waits for (R257). -/
  needs : Option (Nat × Nat)
  /-- The ENSURE has held a queue (R262). -/
  stalled : Bool
  /-- The first in R262's order, POOL_WAIT apart, of the causes that its promotion has shown. -/
  cause : Option Nat
  /-- The ENSURE has held a queue while its promotion waited for a pool buffer. -/
  pooled : Bool
  deriving DecidableEq, Repr

/-- A cell's task store window and tasks in flight (R43, R60). -/
structure Cell where
  /-- The descriptors in the store, in list order. -/
  window : List Desc
  /-- Descriptors fetched of the running step's list, and of the armed step's. -/
  fetched : Nat
  fetchedNext : Nat
  flight : List Flight
  /-- Queues that have begun a wait beyond the window (R61), one bit each. -/
  windowWait : BitVec 4
  /-- Queues that have reached HALT of the running step, one bit each (R47). -/
  halted : BitVec 4
  deriving DecidableEq, Repr

/-- Dependence and arrival counters (R48 to R53). A counter not listed in an overlay reads its preset. -/
structure Counters where
  /-- The schedule whose presets are in force, none before the first RUNNING entry. -/
  sched : Option Nat
  /-- Dependence counters changed since RUNNING entry, by cell × 1,024 + counter. -/
  dep : KV Nat
  /-- Arrival counters changed since RUNNING entry, by cluster × 4,096 + counter. -/
  arr : KV Nat
  /-- Early tallies, by cluster × 4,096 + counter (R53). -/
  tally : Tbl
  deriving DecidableEq, Repr

/-- A message of an exchange or a collective being landed (R203, R386). -/
structure Msg where
  key : MsgKey
  bodyLen : Nat
  /-- Body ranges received, as offset and length. -/
  got : List (Nat × Nat)
  body : Mem
  deriving DecidableEq, Repr

/-- Exchange and routing state of the step (07 R178, 08). -/
structure Exch where
  msgs : List Msg
  /-- Messages already landed in the step, so that a pair counts once. -/
  landed : List MsgKey
  /-- Messages of a step not yet RUNNING whose counted landings are in the early tally, and whose rows and answers take
  their places at its RUNNING entry (R53, R183), in order of arrival. -/
  early : List Msg
  /-- ANSWERS messages landed in the step, by layer × 65,536 + exchange plan (R219). -/
  answers : Tbl
  /-- BID_COUNT of the section that a sender landed, by the key of bidKey (R212). -/
  bids : Tbl
  /-- The rows that a slot has accepted in the step, by layer × 4,096 + slot, in ascending token id: token, the SRC_TABLE
  entry of its sender, and landing position. Their number is the round tally A (R178, R179). -/
  work : KV (List (Nat × Nat × Nat))
  /-- The first candidates of each token of a SPILL_TOPK layer, by layer × 65,536 + local token index, best first: expert,
  score and biased score in FP32 bits (R177). -/
  cands : KV (List (Nat × Nat × Nat))
  deriving DecidableEq, Repr

/-- Residency of an object in a tier (R251). -/
inductive Residency where
  | absent | promoting | resident | pinned | evicting
  deriving DecidableEq, Repr

/-- A deferred command on an object's copy (R253, R254). -/
structure Deferred where
  /-- 0 PROMOTE, 1 EVICT. -/
  evict : Bool
  obj : Nat
  tier : Nat
  tag : Nat
  /-- Granted readers counted at the time of the command that have not latched. -/
  readers : List Word
  /-- PROMOTE: the needed-by step. -/
  needed : Word
  deriving DecidableEq, Repr

/-- One copy of an object in one tier (R251, R252). -/
structure Copy where
  obj : Nat
  tier : Nat
  state : Residency
  /-- The tier that a promotion reads, home included, and the next slower one after a bad copy (R260, R463). -/
  source : Nat
  /-- The tags of pending PINs (R254). -/
  pinTags : List Nat
  /-- The tags of the host PROMOTEs that its end answers. -/
  hostTags : List Nat
  /-- The tags of the deferred EVICTs that its end answers. -/
  evictTags : List Nat
  /-- A step hold is placed (R252). -/
  hold : Bool
  /-- The promotion waits for a pool buffer (R261). -/
  waitsPool : Bool
  /-- The handle of an HBM_POOL buffer. -/
  buffer : Option Nat
  /-- Flash reads of the promotion needed a retry, or a rebuild (R262). -/
  retried : Bool
  rebuilt : Bool
  /-- The patrol scrub found it uncorrectable while it was being promoted: it becomes ABSENT at its end (R473). -/
  doomed : Bool
  deriving DecidableEq, Repr

/-- An object record (R248). -/
structure Obj where
  id : Nat
  homeTier : Nat
  levelSkip : Bool
  writable : Bool
  hbmPool : Bool
  pool : Nat
  length : Nat
  homeAddr : Nat
  /-- HBM, STORE and SCRATCH frames, none for NONE. -/
  hbmFrame : Option Nat
  storeFrame : Option Nat
  scratchFrame : Option Nat
  /-- The object is of the image's manifest (R268). -/
  ofImage : Bool
  deriving DecidableEq, Repr

/-- The tier manager (10). -/
structure Tiers where
  objs : List Obj
  copies : List Copy
  deferred : List Deferred
  /-- Occupancy figures of FLASH, HBM, MESH, HOST_LINK and FABRIC in parts per million (R266). -/
  occupancy : List Nat
  deriving DecidableEq, Repr

/-- FLASH_STATUS STATE (R290). -/
inductive FlashState where
  | none | unformatted | mounting | online | failed
  deriving DecidableEq, Repr

/-- An extent (R273, R279). -/
structure Extent where
  id : Nat
  length : Nat
  sealedExt : Bool
  sealing : Bool
  writePoint : Nat
  data : Mem
  /-- The blocks that hold its stripes, 48 a stripe group. -/
  blocks : List Nat
  deriving DecidableEq, Repr

/-- A NAND block (R276, R281, R282). -/
structure Block where
  reads : Nat
  erases : Nat
  bad : Bool
  /-- In use by an extent or by metadata; otherwise in the reserve. -/
  used : Bool
  /-- Its relocation is in progress (R276), onto the target block. -/
  moving : Option Nat
  /-- An erase is in progress; the block joins the reserve when it ends. -/
  erasing : Bool
  /-- When its data was last rebuilt, in tick periods since reset (R282). -/
  rebuiltAt : Option Nat
  deriving DecidableEq, Repr

/-- A stripe of an extent being written that is in flight (R303). -/
structure Staged where
  ext : Nat
  stripe : Nat
  /-- The pool asked for its buffer; none: Ibten's own working memory. -/
  pool : Option Nat
  buffer : Option Nat
  /-- The channels whose member of the stripe is programmed. -/
  programmed : List Nat
  deriving DecidableEq, Repr

/-- What is known of the metadata on the NAND medium (R285, R287). -/
inductive Medium where
  /-- No mount has read it since power was first applied (log 7). -/
  | unknown
  /-- No die holds a valid superblock. -/
  | blank
  /-- A format was cut off. -/
  | cut
  /-- Valid superblocks name a metadata copy. -/
  | formatted
  deriving DecidableEq, Repr

/-- The flash tier and Ibten (11). Blocks are named die × blocks per die + index, dies channel × dies per channel + die. -/
structure Flash where
  state : FlashState
  failCause : Nat
  geom : FlashGeometry
  lowReserve : Bool
  worn : Bool
  extents : List Extent
  nextExtent : Nat
  blocks : KV Block
  retiredDies : List Nat
  degraded : List Nat
  /-- When each block was last patrolled since the mount, in tick periods since reset (R278, R290). -/
  patrolled : KV Nat
  /-- The turn in which each block was last patrolled, as it stands and as last checkpointed; 0 for a block not listed. The
  next turn's number (R278). -/
  patrolTurns : KV Nat
  patrolCheck : KV Nat
  patrolNext : Nat
  retries : Nat
  rebuilds : Nat
  relocations : Nat
  /-- Read and erase counts of every block that is not listed. -/
  readDefault : Nat
  eraseDefault : Nat
  /-- The checkpointed read counts, by block, and that of a block not listed in it (R277). -/
  checkpoint : KV Nat
  checkDefault : Nat
  /-- A FLASH_FORMAT is in progress. -/
  formatting : Bool
  /-- Grown bad blocks: the die, and when in tick periods since reset (R283). -/
  grown : List (Nat × Nat)
  medium : Medium
  /-- The population that the known medium was formatted on or first mounted with. -/
  mediumGeom : FlashGeometry
  /-- The newest superblock: its sequence number and the metadata copy that it names, 0 or 1 (R285, R287). -/
  superSeq : Nat
  superCopy : Nat
  /-- Map changes that the journal holds beyond that copy. -/
  journal : Nat
  /-- Stripes of extent writes in flight, those that wait to be, and the pool that the next request goes to (R303). -/
  stages : List Staged
  stageQueue : List (Nat × Nat)
  stagePool : Nat
  deriving DecidableEq, Repr

/-- A size class of a pool (R294). -/
structure SizeClass where
  inHbm : Bool
  base : Nat
  count : Nat
  deriving DecidableEq, Repr

/-- An allocated buffer (R300). -/
structure Buffer where
  handle : Nat
  owner : Nat
  shares : Nat
  freePending : Option Nat
  /-- The step a bound FREE named, or 0, for its event. -/
  freeStep : Nat
  deriving DecidableEq, Repr

/-- A request in a pool's wait queue (R298). `tag` is the command's, for a host request; `copy` the object and tier of a
promotion; `stage` the extent and stripe that Ibten stages. -/
structure PoolWait where
  cluster : Nat
  length : Nat
  owner : Nat
  tag : Nat
  copy : Option (Nat × Nat)
  stage : Option (Nat × Nat)
  deriving DecidableEq, Repr

/-- A bound RELEASE or FREE (R302). -/
structure Bound where
  free : Bool
  handle : Nat
  owner : Nat
  step : Word
  tag : Nat
  deriving DecidableEq, Repr

/-- The 16 buffer pools (12). -/
structure Pools where
  /-- Size classes by cluster × 8 + class. -/
  classes : KV SizeClass
  buffers : List Buffer
  waits : List PoolWait
  bound : List Bound
  fallbacks : Tbl
  doubleFrees : Tbl
  deriving DecidableEq, Repr

/-- A window entry (R334). -/
structure Window where
  flags : Nat
  esfW : Nat
  job : Nat
  groupLo : Nat
  groupHi : Nat
  base : Nat
  size : Nat
  deriving DecidableEq, Repr

/-- A deferred WIN_SET or WIN_CLEAR (R335). -/
structure WinCmd where
  window : Nat
  entry : Option Window
  tag : Nat
  deriving DecidableEq, Repr

/-- What one device keeps of another (R327, R348 to R351). -/
structure Pair where
  /-- The PSN of the next request to the peer. -/
  nextPsn : Word
  /-- How many packets from the first on have their outcome held: the own cumulative acknowledgement, as a count (R351). -/
  doneTo : Nat
  /-- PSNs above it whose outcome is held. -/
  done : List Word
  /-- The count that the cumulative acknowledgement last sent stood for (R348). -/
  sentCum : Nat
  /-- A request of the run has left for the peer (R351). -/
  inRun : Bool
  /-- The count below which the peer holds every outcome, from the CUM last received. -/
  peerCum : Word
  /-- PSNs at or above doneTo that atomics to the peer carry, oldest first (R401). -/
  atomics : List Word
  /-- PSNs of the peer applied at or above peerCum (R349). -/
  seen : List Word
  /-- Kept results of applied atomics (R349). -/
  kept : List (Word × List Byte)
  deriving DecidableEq, Repr

/-- A request packet sent and not yet answered (R350, R400). -/
structure Request where
  dst : Nat
  packet : Packet
  cluster : Nat
  cell : Nat
  index : Nat
  /-- The step whose run sent it. -/
  step : Word
  /-- Where the answer lands. -/
  answerAt : Option Nat
  /-- The counter that a GET's landing raises (R342): cluster, counter and unit mode. -/
  landing : Option (Nat × Nat × Bool)
  /-- BG of the GET task (R337). -/
  bg : Bool
  timer : Nat
  /-- How often the packet has left: ticks run only once it has (R350). -/
  sent : Nat
  /-- The port that carried the packet last (R350). -/
  port : Option Nat
  deriving DecidableEq, Repr

/-- A packet waiting for its output (R328, R401, R403). -/
structure TxItem where
  packet : Packet
  /-- The packet waits for an answer of its own: it has an entry among the requests. -/
  request : Bool
  /-- The port of a link-local packet (R314). -/
  port : Option Nat
  /-- The packet came from another device and passes through (R317). -/
  transit : Bool
  /-- The source that takes its turn (R329): an input port, 0 to 127; the exchange unit of cluster c, 128 + c; the answer
  queue of port die A or B, 144 or 145; the control unit, 146; the device itself for anything else, 147. -/
  source : Nat
  /-- The units of the own receive buffer that it holds: port, lane and units (R328). -/
  credit : Option (Nat × Nat × Nat)
  deriving DecidableEq, Repr

/-- A combining line (R356, R357). -/
structure Line where
  /-- The 64-byte line's number: address ÷ 64. -/
  line : Nat
  data : List Byte
  ops : Nat
  /-- Counted landings applied at write-back: cluster, counter, amount and step bit. -/
  landings : List (Nat × Nat × Nat × Bool)
  deriving DecidableEq, Repr

/-- A GET being served (R402). -/
structure GetEntry where
  request : Packet
  addr : Nat
  length : Nat
  deriving DecidableEq, Repr

/-- A packet that has arrived for this device and waits in its lane of the receive buffer (R330, R398). -/
structure LaneWait where
  /-- Its arrival port; none for loopback. -/
  port : Option Nat
  packet : Packet
  /-- It still counts against the receive buffer of its port. -/
  held : Bool
  /-- An atomic that has waited for a kept-result entry, which counts once (R359). -/
  counted : Bool
  deriving DecidableEq, Repr

/-- Windows and remote operations (14, 17 R400 to R402). -/
structure Remote where
  windows : KV Window
  deferred : List WinCmd
  pairs : KV Pair
  requests : List Request
  /-- Packets a unit has made that no output has taken, oldest first. -/
  tx : List TxItem
  /-- Packets on their way to this device itself (R51). -/
  loop : List Packet
  getTable : List GetEntry
  lines : List Line
  /-- Request packets for this device that wait in their receive lane, oldest first (R349, R356, R398). -/
  lanes : List LaneWait
  /-- The turn of each owner among the arrival ports of atomics: 1 more than the port taken last, loopback being 128 (R358). -/
  atomicTurn : Tbl
  /-- The port by which the packet being taken came; none by loopback. It names the answer queue (R398). -/
  arrival : Option Nat
  /-- REASON and STATUS of the first REFUSE since JOB_OPEN (R345). -/
  firstRefuse : Option (Nat × Nat)
  deriving DecidableEq, Repr

/-- Port state (R310). -/
inductive PortState where
  | disabled | training | upFull | upHalf | down | miscabled
  deriving DecidableEq, Repr

/-- A flit (R308): its trailer, and the packet whose bytes 240 × part onwards it carries. -/
structure Flit where
  trailer : Trailer
  packet : Option Packet
  part : Nat
  deriving DecidableEq, Repr

/-- One fabric port (13 R307 to R312, R328, R332; 22 R478). -/
structure Port where
  state : PortState
  /-- 0 KR2, 1 CR2, 2 C2M. -/
  medium : Nat
  /-- The 16 lane setting bytes of PORT_CONFIG. -/
  lanes : List Byte
  phys : BitVec 24
  logical : BitVec 20
  fecCorrected : Nat
  fecUncorrected : Nat
  replays : Nat
  retrains : Nat
  flitsTx : Nat
  flitsRx : Nat
  /-- The next FSEQ to send, and the last FSEQ received intact (R308). -/
  fseq : BitVec 12
  rxAck : BitVec 12
  /-- The flits sent and unacknowledged, oldest first (R309). -/
  unacked : List Flit
  /-- The trailer of the NAK sent last (R309). -/
  nak : Option Trailer
  /-- Consecutive NAKs without progress (R309). -/
  naks : Nat
  /-- Credit units taken of the neighbour's receive buffer, by lane (R328). -/
  used : Tbl
  /-- Units of the own receive buffer that came free and are not returned yet, by lane (R328). -/
  due : Tbl
  /-- The sources that took their turn, by channel and source, the longest ago first (R329). -/
  turns : List (Nat × Nat)
  /-- Bytes served to channels 1 to 4, by channel, and where the round stands (R329, log 84). -/
  served : Tbl
  round : Nat
  /-- Flits sent while channel 5 and another channel were ready, and those of channel 5 among them (R329). -/
  shareAll : Nat
  shareBack : Nat
  /-- Training has ended at least once since power-on (R332). -/
  trained : Bool
  deriving DecidableEq, Repr

/-- The fabric (13): ports, forwarding tables and what has left the device. -/
structure Fabric where
  ports : KV Port
  active : Mem
  hasActive : Bool
  shadow : Mem
  /-- The shadow copy is marked ready and waits for a step boundary (R21). -/
  shadowReady : Bool
  /-- Every packet started on an output, newest first, with its port: the model's own record. -/
  sent : List (Nat × Packet)
  /-- Landing packets other than requests that wait in the receive buffers of their ports, oldest first (R330). -/
  parked : List LaneWait
  /-- Latencies of received probes, newest first, as source and ticks (R403). -/
  probes : List (Nat × Nat)
  deriving DecidableEq, Repr

/-- Time state (R363). -/
inductive TimeState where
  | unlocked | locked | holdover | diverged
  deriving DecidableEq, Repr

/-- What a neighbour last advertised in a TIME message (R364, R367). -/
structure Neighbour where
  state : Nat
  dist : Nat
  root : Nat
  deriving DecidableEq, Repr

/-- Beat time (15 R362 to R367). -/
structure Time where
  /-- The Beat counter. -/
  beat : Nat
  state : TimeState
  /-- The port to the time parent. -/
  parent : Option Nat
  dist : Nat
  rootKey : Nat
  neighbours : KV Neighbour
  /-- The sequence number of the next SYNC. -/
  seq : Word
  /-- SYNCs sent to the parent without an answer (R365). -/
  missed : Nat
  /-- The offset still to be removed, in ticks: positive when the counter is behind its parent. -/
  offset : Int
  catchingUp : Bool
  /-- Tick periods since the last tick inserted or withheld. -/
  phase : Nat
  /-- The last disciplined rate: 1 when it inserts a tick, −1 when it withholds one, 0 before either; and the tick periods
  to one such tick (R363). -/
  rate : Int
  gap : Nat
  /-- The reference of port die A has stopped (R495). -/
  stopped : Bool
  /-- The count that the engine's copy showed last, which never steps backward (R20). -/
  shown : Nat
  /-- Tick periods since reset, by which the model measures hours and days: the model's own counter. -/
  uptime : Nat
  /-- Uses made of free values: the model's own counter, no state of the manual. -/
  freeUses : Nat
  deriving DecidableEq, Repr

/-- The record of TREE_SET (R372). -/
structure Tree where
  index : Nat
  members : Nat
  pParent : Option Nat
  sParent : Option Nat
  depth : Nat
  pChildren : Nat
  sChildren : Nat
  deriving DecidableEq, Repr

/-- A pending launch (R371 to R377). -/
structure Pending where
  id : Word
  downbeat : Nat
  step : Word
  /-- The device is armed for it. -/
  armed : Bool
  acked : Bool
  disarmed : Bool
  abandoned : Bool
  /-- ABORT_JOB ended it (R428). -/
  abortJob : Bool
  /-- The launch root: indices collected, and whether DISARM was sent. -/
  acks : List Nat
  disarmSent : Bool
  deriving DecidableEq, Repr

/-- The key a device remembers of a Gong, with the Beat count of its first receipt (R380). -/
structure GongKey where
  origin : Nat
  step : Word
  attempt : Word
  at_ : Nat
  deriving DecidableEq, Repr

/-- Launch and Gong state (15 R371 to R382). -/
structure Launch where
  tree : Option Tree
  /-- LAUNCH_ID of the next PEAL of this root. -/
  nextId : Word
  pend : Option Pending
  /-- BTB DOWNBEAT. -/
  downbeat : Nat
  /-- The launch outcome LAUNCHED was latched and the strobe is awaited: the step and D. -/
  strobe : Option (Word × Nat)
  /-- The strobe has come and the launched step's RUNNING entry waits for its report entry (R64). -/
  strobeLate : Bool
  /-- Launches of which an ARM copy has been received: LAUNCH_ID and Downbeat, by which the launches of two roots differ. -/
  known : List (Word × Nat)
  /-- Copies forwarded: LAUNCH_ID, Downbeat, KIND and tree (R375). -/
  fwd : List (Word × Nat × Nat × Nat)
  gongs : List GongKey
  deriving DecidableEq, Repr

/-- A management response or event sent (R476, R486): the endpoint and the bytes. -/
structure MgmtOut where
  endpoint : Nat
  bytes : List Byte
  /-- The Ethernet address it goes to; none over I3C. -/
  mac : Option (BitVec 48)
  deriving DecidableEq, Repr

/-- The management plane (22): identity, limits, sensors and the governor. -/
structure Mgmt where
  physId : BitVec 24
  sustainedW : Nat
  burstW : Nat
  /-- SUSTAINED_W and BURST_W, and THROTTLE and TRIP, set before READY: they take effect at READY (R479). -/
  powerNext : Option (Nat × Nat)
  thermalNext : Option (Nat × Nat)
  throttle : Nat
  trip : Nat
  shareHbm : Nat
  shareNand : Nat
  shareFabric : Nat
  receiver : Option Nat
  /-- The Ethernet address of the event receiver; none over I3C. -/
  receiverMac : Option (BitVec 48)
  /-- Ethernet frames dropped for a bad FCS (R475). -/
  badFcs : Nat
  /-- Responses and events sent, newest first. -/
  out : List MgmtOut
  /-- The latest sample, and package power of the last 100,000 samples, newest first (R482). -/
  sample : Sample
  powerHist : List Nat
  /-- Samples in a row in which every figure was at least 5 % inside its limit (R482). -/
  insideRun : Nat
  /-- The setpoints in mV (R482, R490, R491). -/
  vcoreSet : Nat
  vsramSet : Nat
  /-- Commands in a row that each regulator has not acknowledged (R491). -/
  vsramMisses : Nat
  vcoreMisses : Nat
  limitUnmet : Bool
  throttled : Bool
  /-- Stacks limited to half bandwidth, and at double refresh (R484). -/
  hbmHalf : List Nat
  hbmRefresh : List Nat
  /-- The report of the last management ATTEST, and its length. -/
  report : Option Mem
  reportLen : Nat
  deriving DecidableEq, Repr

/-- Errors, the unit map and recovery (21, 01 R14 to R18). -/
structure Errs where
  /-- The physical cell of every logical cell whose ENABLED is 1 (R16). -/
  unit : KV Nat
  /-- Physical cells that are not healthy. -/
  bad : List Nat
  /-- The unit map is visible: firmware has built it (R16). -/
  mapUp : Bool
  /-- COUNTS of the telemetry snapshot, by index (R440, R472). -/
  counts : Tbl
  /-- CL_SRAM_CE by cluster. -/
  sramCe : Tbl
  /-- Corrected bursts by HBM row: when each was met, in tick periods since reset (R460). -/
  rowErrs : KV (List Nat)
  /-- HBM rows under a soft repair, and under a hard one (R460). -/
  repaired : List Nat
  hardRepaired : List Nat
  /-- HBM bursts found uncorrectable and not rewritten, and SRAM words of stores and scratchpads, by address (R462, R463). -/
  badBursts : List Nat
  badWords : List Nat
  /-- An HBM stack has been lost: HBM training cannot succeed (R451, R468). -/
  hbmLost : Bool
  /-- SRAM_UNCORRECTABLE or UNIT_CHECK causes: the physical cell, and when in tick periods since reset (R466). -/
  cellFaults : List (Nat × Nat)
  /-- The logical cell whose local cause ended the run, and its cell test in progress (R466). -/
  faultCell : Option Nat
  testing : Option Nat
  /-- The device has suffered a device fault (R469). -/
  deviceFault : Bool
  /-- UCIe modules in service: host link, port die A and port die B (R408, R468). -/
  hostModules : Nat
  dieModulesA : Nat
  dieModulesB : Nat
  deriving DecidableEq, Repr

/-- A task trace capture (R509, R510). -/
structure Capture where
  base : Nat
  length : Nat
  wrap : Bool
  all : Bool
  written : Nat
  dropped : Nat
  running : Bool
  deriving DecidableEq, Repr

/-- A JTAG instruction (R505). -/
inductive JtagIr where
  | extest | samplePreload | idcode | clamp | highz | ijtag | bypass
  deriving DecidableEq, Repr

/-- Test, debug and telemetry (24, 19 TMB, CLS, TEL). -/
structure Debug where
  /-- TMX_SEL PROBE by pin, and TMX_CTL DRIVE. -/
  tmxSel : Tbl
  tmxDrive : Bool
  /-- Pulses shown by the probes of the arrival-counter strobes, by cluster (R503): the model's own count of them. -/
  strobes : Tbl
  ir : JtagIr
  /-- The boundary cells' update latches, as preloaded, and the levels that they captured last (R505). -/
  boundary : List Bool
  captured : List Bool
  capture : Option Capture
  /-- CL_PERF_SEL EVENT and CL_PERF by cluster. -/
  perfSel : Tbl
  perf : Tbl
  /-- The newest whole telemetry snapshot, 9,216 bytes, and its SEQ. -/
  tel : Mem
  telSeq : Word
  /-- The next snapshot is being written: SEQ shows odd (R439). -/
  telWriting : Bool
  /-- The lowest PACE of each cluster in the current snapshot period, and in the last one. -/
  paceMin : List Nat
  paceMinLast : List Nat
  deriving DecidableEq, Repr

/-- Supply and status pins (23 R492 to R497). -/
structure Pins where
  pwrgd : Bool
  /-- THERMTRIP_N is asserted. -/
  thermtrip : Bool
  /-- WP_N low and CE_N high are held on every NAND channel. -/
  nandProtect : Bool
  /-- Every other output is high-impedance. -/
  floated : Bool
  deriving DecidableEq, Repr

/-- The device. -/
structure State where
  /-- Commands waiting, first in first out. -/
  pending : List Instr
  mb : Mailbox
  boot : Boot
  /-- Engine memory by engine address (R244): HBM, stores, scratchpads, and host-die memory as the link shows it. -/
  mem : Mem
  /-- Host-die ranges that the host die does not back, as address and length (R411). -/
  unbacked : List (Nat × Nat)
  /-- Accumulator files, by cell × 32,768 + byte (R108). -/
  tiles : Mem
  cells : KV Cell
  ctr : Counters
  job : Job
  ctl : Ctl
  exch : Exch
  tier : Tiers
  flash : Flash
  pools : Pools
  rem : Remote
  fab : Fabric
  time : Time
  launch : Launch
  mgmt : Mgmt
  errs : Errs
  dbg : Debug
  pins : Pins
  deriving DecidableEq, Repr

/-! ## Reset values: the device right after power good (R430, R443), before the mask ROM enters ROM_WAIT. -/

/-- Every ring counter and cause is 0 (R414, R430). -/
def Mailbox.init : Mailbox where
  ready := false
  cmdDoorbell := 0
  cmdHead := 0
  cplTail := 0
  cplHead := 0
  evtTail := 0
  evtHead := 0
  rptTail := 0
  rptHead := 0
  ram := []
  evtRing := none
  rptRing := none
  rptSize := 0
  rptEntries := 0
  queue := []
  eventNo := 1
  opened := []
  evtSeq := 0
  evtCause := 0
  evtEnable := 0
  evtFault := 0
  doorbells := []

/-- RCB reads 0, the lock bits are clear (R430, R431), and the fuses are as at manufacture (R447, R448). The secrets of
R454 are 0 until they are derived (DESIGN CHOICE, log 7). -/
def Boot.init : Boot where
  stage := .romWait
  romUp := false
  resetting := false
  error := 0
  resetCount := 0
  resetCause := 0
  locks := 0
  pinLoop := false
  scrubHold := 0
  perfFreeze := 0
  revoked := 0
  rollback := 0
  raisesLeft := 255
  revokeDue := false
  raiseDue := false
  udsBlocked := false
  sram := []
  sramLen := 0
  mon := none
  fw := none
  loadSrc := 0
  loadLen := 0
  fwCopy := []
  devSeed := 0
  devKey := []
  cdiMon := 0
  cdiFw := 0
  aliasSeed := 0
  certRollback := 0
  digest := 0
  touch := none

/-- Lasting state before any grant: epoch 0, no bias, the image's own placement, every slot INACTIVE with epoch 0 and
no VALID map entry (R230, R173). -/
def Lasting.init : Lasting where
  epoch := 0
  biasDigest := 0
  bias := []
  place := []
  slots := []
  tokens := []

/-- No job is open and no image is loaded. -/
def Job.init : Job where
  opened := false
  id := 0
  rank := 0
  image := none
  functions := []
  functionsLen := 0
  routing := []
  plans := []
  plansLen := 0
  lasting := Lasting.init

/-- No step is held and there is no current step (R53). -/
def Ctl.init : Ctl where
  granted := []
  armed := none
  tArmed := 0
  heldBad := false
  stepPulses := 0
  launchPulses := 0
  waitedRing := false
  ringTicks := 0
  run := none
  past := []
  nextStep := none
  launchNext := false
  noCurrent := true
  aborted := false
  replaying := false
  replay := []
  gongPending := none
  gongSpent := false
  reportsHeld := []
  unbindAtLatch := false
  entrySteps := []
  heldFaults := []
  keptDigest := none
  keptDiffers := false

/-- An empty task store window with nothing in flight. -/
def Cell.init : Cell where
  window := []
  fetched := 0
  fetchedNext := 0
  flight := []
  windowWait := 0
  halted := 0

/-- No schedule's presets are in force, and every counter and tally reads 0. -/
def Counters.init : Counters where
  sched := none
  dep := []
  arr := []
  tally := []

/-- Nothing has been landed. -/
def Exch.init : Exch where
  msgs := []
  landed := []
  early := []
  answers := []
  bids := []
  work := []
  cands := []

/-- No object is defined. -/
def Tiers.init : Tiers where
  objs := []
  copies := []
  deferred := []
  occupancy := [0, 0, 0, 0, 0]

/-- The geometry before a mount has read it. -/
def FlashGeometry.zero : FlashGeometry where
  targets := 0
  dies := 0
  partEntry := 0
  planes := 0
  blocksPerDie := 0
  pagesPerBlock := 0
  rdLimit := 0
  retMargin := 0
  endurance := 0
  retryEntries := 0
  alike := false
  cellBits := 0
  spare := 0
  tR := 0
  tProg := 0

/-- Flash before its mount: STATE MOUNTING, no extent, and nothing known of the medium (DESIGN CHOICE, log 7). -/
def Flash.init : Flash where
  state := .mounting
  failCause := 0
  geom := FlashGeometry.zero
  lowReserve := false
  worn := false
  extents := []
  nextExtent := 1
  blocks := []
  retiredDies := []
  degraded := []
  patrolled := []
  patrolTurns := []
  patrolCheck := []
  patrolNext := 1
  retries := 0
  rebuilds := 0
  relocations := 0
  readDefault := 0
  eraseDefault := 0
  checkpoint := []
  checkDefault := 0
  formatting := false
  grown := []
  medium := .unknown
  mediumGeom := FlashGeometry.zero
  superSeq := 0
  superCopy := 0
  journal := 0
  stages := []
  stageQueue := []
  stagePool := 0

/-- Every pool class has COUNT 0 (R294, R426). -/
def Pools.init : Pools where
  classes := []
  buffers := []
  waits := []
  bound := []
  fallbacks := []
  doubleFrees := []

/-- Every window is invalid and pair numbering starts at 0 (R426). -/
def Remote.init : Remote where
  windows := []
  deferred := []
  pairs := []
  requests := []
  tx := []
  loop := []
  getTable := []
  lines := []
  lanes := []
  atomicTurn := []
  arrival := none
  firstRefuse := none

/-- A port at power-on: DISABLED, since the device has no physical id, and KR2 with no lane settings (R307, R310,
R478). FSEQ starts at 0 with nothing received (DESIGN CHOICE, log 7). -/
def Port.init : Port where
  state := .disabled
  medium := 0
  lanes := List.replicate 16 0
  phys := 0xFFFFFF
  logical := 0xFFFFF
  fecCorrected := 0
  fecUncorrected := 0
  replays := 0
  retrains := 0
  flitsTx := 0
  flitsRx := 0
  fseq := 0
  rxAck := 0xFFF
  unacked := []
  nak := none
  naks := 0
  used := []
  due := []
  turns := []
  served := []
  round := 0
  shareAll := 0
  shareBack := 0
  trained := false

/-- No forwarding table has been written. -/
def Fabric.init : Fabric where
  ports := []
  active := []
  hasActive := false
  shadow := []
  shadowReady := false
  sent := []
  parked := []
  probes := []

/-- UNLOCKED, with the counter at 0 and no parent (R362, R363). -/
def Time.init : Time where
  beat := 0
  state := .unlocked
  parent := none
  dist := 0
  rootKey := 0
  neighbours := []
  seq := 0
  missed := 0
  offset := 0
  catchingUp := false
  phase := 0
  rate := 0
  gap := 2000
  stopped := false
  shown := 0
  uptime := 0
  freeUses := 0

/-- No tree record, no launch and DOWNBEAT 0. The first LAUNCH_ID is 0 (DESIGN CHOICE, log 7). -/
def Launch.init : Launch where
  tree := none
  nextId := 0
  pend := none
  downbeat := 0
  strobe := none
  strobeLate := false
  known := []
  fwd := []
  gongs := []

/-- Sensors before their first sample read 0 (DESIGN CHOICE, log 7). -/
def Sample.zero : Sample where
  vcoreMv := 0
  currentMa := 0
  rails := []
  junctions := []
  hbmTemp := []
  pace := []

/-- The defaults of R313, R482, R484, R487, R490 and R491. -/
def Mgmt.init : Mgmt where
  physId := 0xFFFFFF
  sustainedW := 2400
  burstW := 2400
  powerNext := none
  thermalNext := none
  throttle := 950
  trip := 1080
  shareHbm := 10000
  shareNand := 50000
  shareFabric := 5000
  receiver := none
  receiverMac := none
  badFcs := 0
  out := []
  sample := Sample.zero
  powerHist := []
  insideRun := 0
  vcoreSet := 800
  vsramSet := 850
  vsramMisses := 0
  vcoreMisses := 0
  limitUnmet := false
  throttled := false
  hbmHalf := []
  hbmRefresh := []
  report := none
  reportLen := 0

/-- No unit map, no error counted, every UCIe module in service. -/
def Errs.init : Errs where
  unit := []
  bad := []
  mapUp := false
  counts := []
  sramCe := []
  rowErrs := []
  repaired := []
  hardRepaired := []
  badBursts := []
  badWords := []
  hbmLost := false
  cellFaults := []
  faultCell := none
  testing := none
  deviceFault := false
  hostModules := 4
  dieModulesA := 16
  dieModulesB := 16

/-- Test registers 0 (R430), the JTAG instruction IDCODE (PRESUMED from IEEE 1149.1, log 7), no snapshot yet. -/
def Debug.init : Debug where
  tmxSel := []
  tmxDrive := false
  strobes := []
  ir := .idcode
  boundary := []
  captured := []
  capture := none
  perfSel := []
  perf := []
  tel := []
  telSeq := 0
  telWriting := false
  paceMin := []
  paceMinLast := []

/-- PWRGD is high, THERMTRIP_N released, and the outputs are driven. -/
def Pins.init : Pins where
  pwrgd := true
  thermtrip := false
  nandProtect := false
  floated := false

/-- The device right after a power-on reset. -/
def State.reset : State where
  pending := []
  mb := Mailbox.init
  boot := Boot.init
  mem := []
  unbacked := []
  tiles := []
  cells := []
  ctr := Counters.init
  job := Job.init
  ctl := Ctl.init
  exch := Exch.init
  tier := Tiers.init
  flash := Flash.init
  pools := Pools.init
  rem := Remote.init
  fab := Fabric.init
  time := Time.init
  launch := Launch.init
  mgmt := Mgmt.init
  errs := Errs.init
  dbg := Debug.init
  pins := Pins.init

end Sys2Proof.Machine
end

