-- ==== Sys2Proof/Machine/Bits.lean ====
section
/-! DEFINITION. Little-endian bytes (R7), the canonical form of memories and tables, and CRC-32C (R308, R323). -/

namespace Sys2Proof.Machine

/-! ## Bytes and fields -/

/-- The value of a little-endian byte string (R7). -/
def leNat : List Byte → Nat
  | [] => 0
  | b :: r => b.toNat + 256 * leNat r

/-- The n low bytes of a value, least significant first (R7). -/
def natLe : Nat → Nat → List Byte
  | 0, _ => []
  | n + 1, v => BitVec.ofNat 8 v :: natLe n (v / 256)

/-- Bits [hi:lo] of a value (R6). -/
def bitsOf (v hi lo : Nat) : Nat := v / 2 ^ lo % 2 ^ (hi + 1 - lo)

/-- Bit i of a value. -/
def bitOf (v i : Nat) : Bool := v / 2 ^ i % 2 == 1

/-- The value of n bits read as two's complement. -/
def signed (n v : Nat) : Int := if v % 2 ^ n < 2 ^ (n - 1) then (v % 2 ^ n : Nat) else ((v % 2 ^ n : Nat) : Int) - 2 ^ n

/-- The n-bit two's complement code of an integer. -/
def unsigned (n : Nat) (v : Int) : Nat := (v % (2 ^ n : Nat)).toNat

/-- The field of n bytes at offset o of a byte string; bytes past its end read as 0. -/
def fieldOf (b : List Byte) (o n : Nat) : Nat := leNat ((b.drop o).take n)

/-- A byte string cut or padded with zeros to n bytes. -/
def padTo (n : Nat) (b : List Byte) : List Byte := b.take n ++ List.replicate (n - b.length) 0

/-- The quotient rounded up. -/
def ceilDiv (a b : Nat) : Nat := (a + b - 1) / b

/-- A value rounded up to a multiple. -/
def roundUp (a b : Nat) : Nat := ceilDiv a b * b

/-- Whether every byte is 0. -/
def allZero (b : List Byte) : Bool := b.all (· == 0)

/-- The positions of the 1 bits of an n-bit mask, ascending. -/
def bitList (n mask : Nat) : List Nat := (List.range n).filter (bitOf mask ·)

/-- Replaces element i of a list. -/
def listSet {α : Type} (l : List α) (i : Nat) (a : α) : List α := l.set i a

/-- Removes the first element that a test names. -/
def eraseFirst {α : Type} (f : α → Bool) : List α → List α
  | [] => []
  | a :: r => if f a then r else a :: eraseFirst f r

/-! ## Memories: strictly rising addresses, no zero byte listed -/

/-- The byte at an address (R513: an unlisted byte reads as 0). -/
def memGet : Mem → Nat → Byte
  | [], _ => 0
  | (k, b) :: r, a => if k = a then b else memGet r a

/-- Stores one byte and keeps the canonical form. -/
def memPut : Mem → Nat → Byte → Mem
  | [], a, b => if b = 0 then [] else [(a, b)]
  | (k, c) :: r, a, b =>
    if a < k then (if b = 0 then (k, c) :: r else (a, b) :: (k, c) :: r)
    else if a = k then (if b = 0 then r else (a, b) :: r)
    else (k, c) :: memPut r a b

/-- Reads n bytes from an address. -/
def memRead (m : Mem) (a n : Nat) : List Byte := (List.range n).map fun i => memGet m (a + i)

/-- Stores a byte string at an address. -/
def memWrite : Mem → Nat → List Byte → Mem
  | m, _, [] => m
  | m, a, b :: r => memWrite (memPut m a b) (a + 1) r

/-- Clears n bytes from an address. -/
def memClear (m : Mem) (a n : Nat) : Mem := m.filter fun c => c.1 < a || a + n ≤ c.1

/-- The n bytes from an address, as a memory of their own that starts at 0. -/
def memSlice (m : Mem) (a n : Nat) : Mem :=
  (m.filter fun c => a ≤ c.1 && c.1 < a + n).map fun c => (c.1 - a, c.2)

/-- Puts every listed byte of a memory at its address plus a. -/
def memMerge : Mem → Nat → Mem → Mem
  | m, _, [] => m
  | m, a, (k, b) :: r => memMerge (memPut m (a + k) b) a r

/-- Copies the first n bytes of a memory to an address. -/
def memCopy (m : Mem) (a n : Nat) (src : Mem) : Mem :=
  memMerge (memClear m a n) a (src.filter fun c => c.1 < n)

/-- The little-endian value of n bytes (R7). -/
def memLe (m : Mem) (a n : Nat) : Nat := leNat (memRead m a n)

/-- Stores a value in n bytes, little-endian (R7). -/
def memPutLe (m : Mem) (a n v : Nat) : Mem := memWrite m a (natLe n v)

/-- The canonical form of a memory. -/
def memWf : Mem → Bool
  | [] => true
  | [(_, b)] => b != 0
  | (k, b) :: (k', b') :: r => b != 0 && (decide (k < k') && memWf ((k', b') :: r))

/-! ## Tables of numbers and of records -/

/-- The number at a key; an unlisted key reads as 0. -/
def tblGet : Tbl → Nat → Nat
  | [], _ => 0
  | (k, v) :: r, a => if k = a then v else tblGet r a

/-- Stores a number and keeps the canonical form. -/
def tblPut : Tbl → Nat → Nat → Tbl
  | [], a, v => if v = 0 then [] else [(a, v)]
  | (k, w) :: r, a, v =>
    if a < k then (if v = 0 then (k, w) :: r else (a, v) :: (k, w) :: r)
    else if a = k then (if v = 0 then r else (a, v) :: r)
    else (k, w) :: tblPut r a v

/-- Adds to the number at a key. -/
def tblAdd (t : Tbl) (a n : Nat) : Tbl := tblPut t a (tblGet t a + n)

/-- The record at a key, if one is listed. -/
def kvGet? {α : Type} : KV α → Nat → Option α
  | [], _ => none
  | (k, v) :: r, a => if k = a then some v else kvGet? r a

/-- The record at a key, or a default. -/
def kvGetD {α : Type} (t : KV α) (a : Nat) (d : α) : α := (kvGet? t a).getD d

/-- Stores a record under a key. -/
def kvPut {α : Type} : KV α → Nat → α → KV α
  | [], a, v => [(a, v)]
  | (k, w) :: r, a, v =>
    if a < k then (a, v) :: (k, w) :: r
    else if a = k then (a, v) :: r
    else (k, w) :: kvPut r a v

/-- Removes a key. -/
def kvDel {α : Type} (t : KV α) (a : Nat) : KV α := t.filter fun e => e.1 != a

/-! ## CRC-32C -/

/-- One bit of the reflected CRC with the Castagnoli polynomial (PRESUMED, log 8: R308 and R323 name CRC-32C). -/
def crcBit (c : BitVec 32) : BitVec 32 := if c.getLsbD 0 then (c >>> 1) ^^^ 0x82F63B78 else c >>> 1

/-- One byte of the CRC. -/
def crcByte (c : BitVec 32) (b : Byte) : BitVec 32 :=
  let x := c ^^^ b.setWidth 32
  crcBit (crcBit (crcBit (crcBit (crcBit (crcBit (crcBit (crcBit x)))))))

/-- CRC-32C of a byte string (PRESUMED, log 8: initial value and final inversion are those of the named standard). -/
def crc32c (b : List Byte) : BitVec 32 := ~~~(b.foldl crcByte 0xFFFFFFFF)

end Sys2Proof.Machine
end

