-- ==== Sys2Proof/Machine/Ops.lean ====
section
/-! DEFINITION. The operations that many commands share: addresses, telemetry counts, event causes, the mailbox rings,
link-local packets, step faults and the Gong, device faults and the full reset. -/

namespace Sys2Proof.Machine

/-! ## The engine address map (R244, R453) -/

/-- A region of R244. -/
inductive Region where
  | hbm
  | store (cluster : Nat)
  | scratch (cell : Nat)
  | host
  | window
  | unmapped
  deriving DecidableEq, Repr

/-- Bytes of HBM (R244, R425). -/
def hbmBytes : Nat := 618475290624

/-- The first address of the firmware reserve (R453). -/
def reserveBase : Nat := 0x8FC0000000

/-- The first address of the cluster stores, of the scratchpads, of host-die memory and of the remote windows. -/
def storeBase : Nat := 0x10000000000
/-- The first scratchpad address (R244). -/
def scratchBase : Nat := 0x20000000000
/-- The first host-die address (R244). -/
def hostBase : Nat := 0x30000000000
/-- The first remote-window address (R244). -/
def windowBase : Nat := 0x40000000000

/-- The value NONE of a frame or a result address (R248, R336). -/
def noneAddr : Nat := 0xFFFFFFFFFFFFFFFF

/-- The region that holds an address (R244). -/
def regionOf (a : Nat) : Region :=
  if a < hbmBytes then .hbm
  else if storeBase ≤ a ∧ a < storeBase + 0x10000000 then .store ((a - storeBase) / 0x1000000)
  else if scratchBase ≤ a ∧ a < scratchBase + 0x40000000 then .scratch ((a - scratchBase) / 0x200000)
  else if hostBase ≤ a ∧ a < windowBase then .host
  else if windowBase ≤ a ∧ a < windowBase + 0x10000000000 then .window
  else .unmapped

/-- A range of at least one byte lies within one region: its first and last byte fall in the same one. -/
def inOneRegion (a n : Nat) : Bool := n == 0 || regionOf a == regionOf (a + n - 1)

/-- Two ranges share a byte. -/
def overlaps (a n b m : Nat) : Bool := decide (0 < n) && (decide (0 < m) && (decide (a < b + m) && decide (b < a + n)))

/-- The range lies in HBM and outside the firmware reserve (R453). -/
def hbmRange (a n : Nat) : Bool := decide (a + n ≤ reserveBase)

/-- A logical cell is in service: its ENABLED bit is 1 (R16). -/
def cellEnabled (s : State) (c : Nat) : Bool := s.errs.mapUp && (kvGet? s.errs.unit c).isSome

/-- A host-die range that the host die backs (R411). -/
def hostBacked (s : State) (a n : Nat) : Bool := !(s.unbacked.any fun r => overlaps a n r.1 r.2)

/-- A range of host-die memory that a command may reach (R411). -/
def hostOk (s : State) (a n : Nat) : Bool :=
  decide (hostBase ≤ a) && (decide (a + n ≤ windowBase) && hostBacked s a n)

/-- A run-time access that R246 lets a task carry out. -/
def accessOk (s : State) (a n : Nat) : Bool :=
  n == 0 || (inOneRegion a n && match regionOf a with
    | .hbm => hbmRange a n
    | .store _ => true
    | .scratch c => cellEnabled s c
    | .host => hostBacked s a n
    | .window => false
    | .unmapped => false)

/-! ## Telemetry counts and free values -/

/-- Adds to a count of R440 or R472. -/
def addCount (i n : Nat) (s : State) : State := { s with errs := { s.errs with counts := tblAdd s.errs.counts i n } }

/-- n free bytes, each used once (R28, R208). -/
def freeBytes (n : Nat) (s : State) : List Byte × State :=
  ((List.range n).map fun i => Config.freeByte (s.time.freeUses + i),
   { s with time := { s.time with freeUses := s.time.freeUses + n } })

/-- One free choice. -/
def freeChoice (s : State) : Bool × State :=
  (Config.freeBool s.time.freeUses, { s with time := { s.time with freeUses := s.time.freeUses + 1 } })

/-- The engine's copy of the Beat counter at its next use: at most 16 ticks behind (R362), and never behind what it has shown
before (R20). -/
def engineBeat (s : State) : Nat × State :=
  let b := min s.time.beat (max s.time.shown (s.time.beat - min 16 (Config.beatLag s.time.freeUses)))
  (b, { s with time := { s.time with shown := b, freeUses := s.time.freeUses + 1 } })

/-! ## EVB causes and doorbells (R422, R433) -/

/-- Sets a cause: EVT_SEQ counts it, and a change from clear to set of an enabled cause sends its doorbell. -/
def setCause (i : Nat) (s : State) : State :=
  let mb := s.mb
  let send := !mb.evtCause.getLsbD i && mb.evtEnable.getLsbD i
  { s with mb := { mb with
      evtSeq := mb.evtSeq + 1
      evtCause := mb.evtCause ||| (1#4 <<< i)
      doorbells := if send then i :: mb.doorbells else mb.doorbells } }

/-! ## The completion ring (R416) -/

/-- Status codes (R423). -/
def stOk : Nat := 0x0000
/-- R423. -/
def stAlreadyDone : Nat := 0x0001
/-- R423. -/
def stDeferred : Nat := 0x0002
/-- R423. -/
def stBadArg : Nat := 0x0100
/-- R423. -/
def stBadState : Nat := 0x0101
/-- R423. -/
def stDigestMismatch : Nat := 0x0102
/-- R423. -/
def stAuthFail : Nat := 0x0200
/-- R423. -/
def stNoResource : Nat := 0x0300
/-- R423. -/
def stNotCloser : Nat := 0x0301
/-- R423. -/
def stDoubleFree : Nat := 0x0302
/-- R423. -/
def stJobMismatch : Nat := 0x0400
/-- R423. -/
def stStepFault : Nat := 0x0500
/-- R423. -/
def stAborted : Nat := 0x0501

/-- PHASE of the completion with count c (R416). -/
def phaseOf (c : Nat) : Nat := 1 - c / 256 % 2

/-- The 32 bytes of a completion entry (R416). RESULT is 0 unless the status is OK or ALREADY_DONE. -/
def cplBytes (op tag status index count : Nat) (result : List Byte) : List Byte :=
  natLe 2 op ++ natLe 2 tag ++ natLe 2 status ++ natLe 2 (phaseOf count) ++ natLe 2 index ++ natLe 6 0 ++
    (if status = stOk ∨ status = stAlreadyDone then padTo 16 result else natLe 16 0)

/-- Entries of the completion ring not yet read (R414). -/
def cplUnread (s : State) : Nat := (s.mb.cplTail - s.mb.cplHead).toNat

/-- Posts a completion and sets COMPLETION. -/
def postCpl (op tag index status : Nat) (result : List Byte) (s : State) : State :=
  let c := s.mb.cplTail.toNat
  setCause 0 { s with mb := { s.mb with
    ram := memWrite s.mb.ram (0x4000 + 32 * (c % 256)) (cplBytes op tag status index c result)
    cplTail := s.mb.cplTail + 1 } }

/-! ## Host-die memory written by the engine (R410, R411) -/

/-- A write that replaces whole bursts, or whole SRAM words, makes them good again (R460 to R463). -/
def replaceBursts (a n : Nat) (s : State) : State :=
  { s with errs := { s.errs with
    badBursts := s.errs.badBursts.filter fun b => !(decide (a ≤ b) && decide (b + 64 ≤ a + n))
    badWords := s.errs.badWords.filter fun b => !(decide (a ≤ b) && decide (b + 8 ≤ a + n)) } }

/-- A word that a read finds uncorrectable: an HBM burst, or an SRAM word of a store or a scratchpad (R459, R461). -/
inductive BadWord where
  | burst (addr : Nat)
  | sram (addr : Nat)
  deriving DecidableEq, Repr

/-- No burst and no word is known to be uncorrectable. -/
def wordsGood (s : State) : Bool := s.errs.badBursts.isEmpty && s.errs.badWords.isEmpty

/-- The first word known to be uncorrectable that a read meets: `hits a n` says that it takes a byte of that range (R462,
R463). -/
def badMet? (hits : Nat → Nat → Bool) (s : State) : Option BadWord :=
  if wordsGood s then none
  else
    match s.errs.badBursts.find? fun b => hits b 64 with
    | some b => some (.burst b)
    | none => (s.errs.badWords.find? fun b => hits b 8).map .sram

/-- Bad words that a write covers whole are good again: `covers` names the bytes that it writes (R460 to R463). -/
def healWhere (covers : Nat → Bool) (s : State) : State :=
  if wordsGood s then s
  else { s with errs := { s.errs with
    badBursts := s.errs.badBursts.filter fun b => !((List.range 64).all fun i => covers (b + i))
    badWords := s.errs.badWords.filter fun b => !((List.range 8).all fun i => covers (b + i)) } }

/-- The same for a read of one range. -/
def badRead? (a n : Nat) (s : State) : Option BadWord := badMet? (fun b m => overlaps a n b m) s

/-- Writes a byte string to memory. -/
def putBytes (a : Nat) (b : List Byte) (s : State) : State :=
  replaceBursts a b.length { s with mem := memWrite s.mem a b }

/-- Reads a byte string of memory. -/
def getBytes (s : State) (a n : Nat) : List Byte := memRead s.mem a n

/-- Copies the first n bytes of a memory of its own to an address. -/
def putMem (a n : Nat) (m : Mem) (s : State) : State := replaceBursts a n { s with mem := memCopy s.mem a n m }

/-- A record's bytes from its fields, each an offset, a width in bytes and a value. -/
def recMem : List (Nat × Nat × Nat) → Mem
  | [] => []
  | (o, n, v) :: r => memPutLe (recMem r) o n v

/-! ## Link-local packets (R314, R323, R403) -/

/-- The device's logical id: SELF of the active table, NONE with no active table (R313, R364). -/
def selfId (s : State) : Nat := if s.fab.hasActive then memLe s.fab.active 0 4 % 2 ^ 20 else 0xFFFFF

/-- A port of the device. -/
def portOf (s : State) (p : Nat) : Port := kvGetD s.fab.ports p Port.init

/-- Replaces a port. -/
def setPort (p : Nat) (q : Port) (s : State) : State := { s with fab := { s.fab with ports := kvPut s.fab.ports p q } }

/-- Only UP_FULL and UP_HALF carry packets (R310). -/
def portIsUp (q : Port) : Bool := q.state == .upFull || q.state == .upHalf

/-- The port is up. -/
def portUp (s : State) (p : Nat) : Bool := portIsUp (portOf s p)

/-- The ports that are up, ascending. -/
def upPorts (s : State) : List Nat := (List.range 128).filter (portUp s)

/-- Bytes 0 to 27 of a header, with HOPS taken as 0 (R323). -/
def crcInput (p : Packet) : List Byte :=
  natLe 4 p.dst.toNat ++ natLe 4 p.src.toNat ++ natLe 2 p.job.toNat ++ natLe 1 p.vcop.toNat ++
    natLe 1 (p.flags &&& 0x3F).toNat ++ natLe 8 p.addr.toNat ++ natLe 2 p.length.toNat ++ natLe 2 p.arr.toNat ++
    natLe 4 p.psn.toNat

/-- HCRC of a packet (R323). -/
def hcrcOf (p : Packet) : BitVec 32 := crc32c (crcInput p)

/-- A packet with its HCRC filled in. -/
def sealPacket (p : Packet) : Packet := { p with hcrc := hcrcOf p }

/-- The virtual channel of a packet (R323). -/
def vcOf (p : Packet) : Nat := p.vcop.toNat / 32

/-- OP of a packet (R323). -/
def opOf (p : Packet) : Nat := p.vcop.toNat % 32

/-- HOPS of a packet (R324). -/
def hopsOf (p : Packet) : Nat := p.flags.toNat / 64

/-- STEP_BIT of a packet (R324). -/
def stepBitOf (p : Packet) : Nat := p.flags.toNat / 32 % 2

/-- The step number against which landings are judged: the run's, else the last latched run's (R53). -/
def currentStep? (s : State) : Option Word :=
  match s.ctl.run with
  | some r => some r.g.step
  | none =>
    if s.ctl.noCurrent then none
    else match s.ctl.past with
      | p :: _ => some p.g.step
      | [] => none

/-- Bit 0 of the step number that a packet of this device carries (R53). -/
def myStepBit (s : State) : Nat :=
  match currentStep? s with
  | some n => n.toNat % 2
  | none => 0

/-- A link-local packet of the control channel: Peal, Gong or time (R314, R324, R367, R374, R379). PSN is 0 (R327). -/
def controlPacket (s : State) (op : Nat) (payload : List Byte) : Packet :=
  sealPacket { dst := 0xFFFFF, src := BitVec.ofNat 32 (selfId s), job := s.job.id, vcop := BitVec.ofNat 8 op
               flags := BitVec.ofNat 8 (32 * myStepBit s), addr := 0, length := BitVec.ofNat 16 payload.length, arr := 0, psn := 0, hcrc := 0, payload := payload }

/-- Whether a queued item waits in the control out-queue of a port (R403). -/
def inOutQueue (p : Nat) (t : TxItem) : Bool := t.port == some p

/-- The number of control packets in a port's out-queue. -/
def outQueueLen (s : State) (p : Nat) : Nat := (s.rem.tx.filter (inOutQueue p)).length

/-- Queues a control packet for a port. A further Gong of a job finds the queued one serving for it (R403). -/
def queueControl (port : Nat) (p : Packet) (s : State) : State :=
  if opOf p == 0x11 && s.rem.tx.any (fun t => inOutQueue port t && (opOf t.packet == 0x11 && t.packet.job == p.job))
  then s
  else { s with rem := { s.rem with
    tx := s.rem.tx ++ [{ packet := p, request := false, port := some port, transit := false, source := 146, credit := none }] } }

/-- Queues a control packet for each port of a list. -/
def queueControls (p : Packet) : List Nat → State → State
  | [], s => s
  | port :: r, s => queueControls p r (queueControl port p s)

/-! ## Step faults and the Gong (R235, R238, R379, R380) -/

/-- Fault causes (R235, R264, R320, R360, R464). -/
def fcHostAbort : Nat := 0x01
/-- R68. -/
def fcBadDescriptor : Nat := 0x02
/-- R50. -/
def fcCounterOverflow : Nat := 0x03
/-- R53. -/
def fcStepSkew : Nat := 0x04
/-- R67. -/
def fcStepHung : Nat := 0x05
/-- R90. -/
def fcEsfWindow : Nat := 0x06
/-- R126. -/
def fcMaskFault : Nat := 0x07
/-- R158. -/
def fcIndexRange : Nat := 0x08
/-- R185. -/
def fcPlacementSkew : Nat := 0x09
/-- R225. -/
def fcImageSkew : Nat := 0x0A
/-- R225. -/
def fcBiasSkew : Nat := 0x0B
/-- R225. -/
def fcExchangeStray : Nat := 0x0C
/-- R225. -/
def fcLandingRoom : Nat := 0x0D
/-- R264. -/
def fcAddressRange : Nat := 0x0E
/-- R264. -/
def fcPromoteFailed : Nat := 0x0F
/-- R264. -/
def fcFrameConflict : Nat := 0x10
/-- R320. -/
def fcFabricUnreachable : Nat := 0x11
/-- R360. -/
def fcRemoteRefused : Nat := 0x12
/-- R360. -/
def fcRemoteTimeout : Nat := 0x13
/-- R464. -/
def fcHbmUncorrectable : Nat := 0x14
/-- R464. -/
def fcSramUncorrectable : Nat := 0x15
/-- R464. -/
def fcUnitCheck : Nat := 0x16
/-- R464. -/
def fcDeviceLost : Nat := 0x17

/-- The 16-byte payload of a Gong (R379). -/
def gongPayload (origin step attempt cause : Nat) : List Byte :=
  natLe 4 (origin % 2 ^ 20) ++ natLe 4 step ++ natLe 4 attempt ++ natLe 2 cause ++ natLe 2 0

/-- How long a device remembers a Gong's key, in ticks (R380). -/
def gongMemory : Nat := 1250000

/-- The keys that are still remembered. -/
def liveGongs (s : State) : List GongKey := s.launch.gongs.filter fun k => s.time.beat < k.at_ + gongMemory

/-- Remembers a Gong's key. -/
def rememberGong (origin : Nat) (step attempt : Word) (s : State) : State :=
  { s with launch := { s.launch with gongs := ⟨origin, step, attempt, s.time.beat⟩ :: liveGongs s } }

/-- Sounds a Gong on every port of a list. The origin remembers its own key (DEDUCED, log 20). -/
def soundGongOn (ports : List Nat) (step attempt cause : Nat) (s : State) : State :=
  let me := selfId s
  queueControls (controlPacket s 0x11 (gongPayload me step attempt cause)) ports
    (rememberGong me (BitVec.ofNat 32 step) (BitVec.ofNat 32 attempt) s)

/-- A local cause reaches the run's latch. If it is the first, the run is stopping for it, and the device originates a
Gong (R238, R380). With no run there is nothing to end (DEDUCED, log 21). -/
def stepFault (cause : Nat) (s : State) : State :=
  match s.ctl.run with
  | none => s
  | some r =>
    match r.fault with
    | some _ => s
    | none =>
      soundGongOn (upPorts s) r.g.step.toNat r.g.attempt cause
        { s with ctl := { s.ctl with run := some { r with fault := some ⟨cause, true, selfId s⟩ } } }

/-- A step fault when the condition holds. -/
def faultIf (c : Bool) (cause : Nat) (s : State) : State := if c then stepFault cause s else s

/-- The run is RUNNING or DRAINING and nothing has stopped it: tasks may issue (R238). -/
def stepActive (s : State) : Bool :=
  match s.ctl.run with
  | none => false
  | some r => r.fault.isNone

/-- A step is RUNNING or DRAINING. -/
def stepRunning (s : State) : Bool := s.ctl.run.isSome

/-- Resets the idle time of the run: a task issued or completed, a landing arrived or a transfer progressed. Idle time is
one unbroken span, which starts again at 0 at each of these (R67; DESIGN CHOICE, log 88: R231's word 'accumulate' could
also mean the total over the step). -/
def progress (s : State) : State :=
  match s.ctl.run with
  | none => s
  | some r => { s with ctl := { s.ctl with run := some { r with idle := 0 } } }

/-- Changes the run, if there is one. -/
def mapRun (f : Run → Run) (s : State) : State :=
  match s.ctl.run with
  | none => s
  | some r => { s with ctl := { s.ctl with run := some (f r) } }

/-- Adds to a count of the step report (R233). -/
def addStepCount (code n : Nat) (s : State) : State := mapRun (fun r => { r with counts := tblAdd r.counts code n }) s

/-- Adds a stall event (R232). -/
def addStallEvent (code : Nat) (s : State) : State :=
  mapRun (fun r => { r with stallEvents := tblAdd r.stallEvents code 1 }) s

/-! ## Events (R406, R420, R421) -/

/-- The 32 bytes of an event entry. -/
def eventBytes (e : Event) : List Byte :=
  natLe 4 e.no.toNat ++ natLe 2 e.typ ++ natLe 2 e.status ++ natLe 2 e.tag ++ natLe 2 e.merged ++ natLe 4 0 ++
    padTo 16 e.detail

/-- Whether an unsolicited event merges into a pending one: the same type, and for FLASH the same kind byte (R406). -/
def mergesWith (typ : Nat) (detail : List Byte) (e : Event) : Bool :=
  (typ == 4 || typ == 5) && (e.typ == typ && (typ == 5 || e.detail.take 1 == detail.take 1))

/-- Merges an event into the first pending one of its kind; the merged entry carries the latest DETAIL (R421). -/
def mergeEvent (typ status : Nat) (detail : List Byte) : List Event → List Event
  | [] => []
  | e :: r =>
    if mergesWith typ detail e then
      { e with status := status, detail := detail, merged := min (e.merged + 1) 0xFFFF } :: r
    else e :: mergeEvent typ status detail r

/-- Adds an event to the internal queue. A merged event takes no number of its own (DEDUCED, log 22). -/
def enqueueEvent (typ status tag : Nat) (detail : List Byte) (s : State) : State :=
  if s.mb.queue.any (mergesWith typ detail) then
    { s with mb := { s.mb with queue := mergeEvent typ status detail s.mb.queue } }
  else
    { s with mb := { s.mb with
      queue := s.mb.queue ++ [⟨s.mb.eventNo, typ, status, tag, 1, detail⟩]
      eventNo := s.mb.eventNo + 1 } }

/-! ## Device faults (R468, R469) -/

/-- A PLDM event to the event receiver; it is dropped when none is set (R486). -/
def pldmEvent (id : Nat) (data : List Byte) (s : State) : State :=
  match s.mgmt.receiver with
  | none => s
  | some ep => { s with mgmt := { s.mgmt with out := ⟨ep, BitVec.ofNat 8 id :: data, s.mgmt.receiverMac⟩ :: s.mgmt.out } }

/-- Completes a list of open commands with ABORTED where the completion ring allows. -/
def abortCommands : List OpenCmd → State → State
  | [], s => s
  | c :: r, s =>
    abortCommands r (if cplUnread s < 256 then postCpl c.op c.tag c.index stAborted [] s else s)

/-- The step and attempt that a Gong of this device names: the run's, else the last run's, else 0. -/
def gongRun (s : State) : Nat × Nat :=
  match s.ctl.run with
  | some r => (r.g.step.toNat, r.g.attempt)
  | none =>
    match s.ctl.past with
    | p :: _ => (p.g.step.toNat, p.g.attempt)
    | [] => (0, 0)

/-- The ports of the port dies in service, for the Gong of a device fault (R469). -/
def faultPorts (cause : Nat) (s : State) : List Nat :=
  if cause = 7 then []
  else (upPorts s).filter fun p => if p < 64 then decide (0 < s.errs.dieModulesA) else decide (0 < s.errs.dieModulesB)

/-- A device fault but for its DEVICE event: the run is stopping with DEVICE_LOST, the port dies sound the Gong,
EVT_FAULT keeps the first cause, READY clears and open commands complete with ABORTED (R469). A device that has already
faulted sounds no second Gong. -/
def deviceFaultCore (cause : Nat) (s : State) : State :=
  let s := if s.errs.deviceFault then s else soundGongOn (faultPorts cause s) (gongRun s).1 (gongRun s).2 fcDeviceLost s
  let s := mapRun (fun r => if r.fault.isSome then r
    else { r with fault := some ⟨fcDeviceLost, true, selfId s⟩ }) s
  let s := { s with
    errs := { s.errs with deviceFault := true }
    mb := { s.mb with evtFault := if s.mb.evtFault = 0 then BitVec.ofNat 16 cause else s.mb.evtFault } }
  let s := setCause 3 s
  let s := abortCommands s.mb.opened s
  pldmEvent 4 (natLe 2 cause) { s with mb := { s.mb with ready := false, opened := [] } }

/-- Moves queued events into the event ring while it has room (R406). A write answered UNBACKED is the device fault
RING_UNBACKED (R411), once: a device that has faulted goes on as it is (R469). -/
def pushEvents : List Event → State → State
  | [], s => { s with mb := { s.mb with queue := [] } }
  | e :: r, s =>
    match s.mb.evtRing with
    | none => { s with mb := { s.mb with queue := e :: r } }
    | some (base, n) =>
      if (s.mb.evtTail - s.mb.evtHead).toNat < n then
        let a := base + 32 * (s.mb.evtTail.toNat % n)
        if hostOk s a 32 then
          let s := { s with mem := memWrite s.mem a (eventBytes e), mb := { s.mb with evtTail := s.mb.evtTail + 1 } }
          pushEvents r (setCause 1 s)
        else if s.errs.deviceFault then { s with mb := { s.mb with queue := e :: r } }
        else deviceFaultCore 2 { s with mb := { s.mb with queue := e :: r } }
      else { s with mb := { s.mb with queue := e :: r } }

/-- Posts an event: into the ring if it has room, else it waits in the internal queue. -/
def postEvent (typ status tag : Nat) (detail : List Byte) (s : State) : State :=
  let s := enqueueEvent typ status tag detail s
  pushEvents s.mb.queue s

/-- The event ring is backed where its next entry goes. Before SET_CONFIG there is none to back, and events wait in the
internal queue (R406, R411). -/
def evtRingBacked (s : State) : Bool :=
  match s.mb.evtRing with
  | none => true
  | some (base, n) => hostOk s (base + 32 * (s.mb.evtTail.toNat % n)) 32

/-- A device fault (R468, R469): the DEVICE event is posted if the event ring is backed. -/
def deviceFault (cause : Nat) (s : State) : State :=
  let s := deviceFaultCore cause s
  if evtRingBacked s then postEvent 6 stOk 0 (natLe 2 cause) s else s

/-! ## Taking and completing Yopin commands (R415 to R418) -/

/-- A command entry as the engine copies it. -/
structure Cmd where
  op : Nat
  tag : Nat
  index : Nat
  bytes : List Byte
  deriving DecidableEq, Repr

/-- A field of the command entry. -/
def cmdField (c : Cmd) (o n : Nat) : Nat := fieldOf c.bytes o n

/-- ARG_ADDR (R415). -/
def argAddr (c : Cmd) : Nat := cmdField c 8 8

/-- ARG_ADDR names n bytes of backed host-die memory at a multiple of 64 (R411, R415). -/
def argOk (c : Cmd) (n : Nat) (s : State) : Bool := argAddr c % 64 == 0 && hostOk s (argAddr c) n

/-- How a command ends: at once with a status and a result, or it stays open (R417). -/
inductive CmdEnd where
  | done (status : Nat) (result : List Byte) (s : State)
  | opened (kind : OpenKind) (s : State)

/-- Whether an open command keeps every later one from being taken: a serialising one does (R417). -/
def blocksTaking (o : OpenCmd) : Bool :=
  match o.kind with
  | .abortJob | .jobClose | .loadImage => true
  | .abortStep _ | .peal _ | .extentSeal _ | .flashFormat | .late _ _ => false

/-- Whether an open command is a PEAL. -/
def isPeal (o : OpenCmd) : Bool :=
  match o.kind with
  | .peal _ => true
  | .abortStep _ | .abortJob | .extentSeal _ | .flashFormat | .jobClose | .loadImage | .late _ _ => false

/-- The command at CMD_HEAD, if the engine may take one: READY, a command waits, a completion entry can be reserved
for it beside those of the open commands, and no serialising command is open (R406, R414, R417). -/
def headCmd? (s : State) : Option Cmd :=
  if s.mb.ready && (decide (s.mb.cmdHead ≠ s.mb.cmdDoorbell) &&
      (decide (cplUnread s + s.mb.opened.length < 256) && !(s.mb.opened.any blocksTaking))) then
    let c := s.mb.cmdHead.toNat
    let b := memRead s.mb.ram (64 * (c % 256)) 64
    some { op := fieldOf b 0 2, tag := fieldOf b 2 2, index := c, bytes := b }
  else none

/-- The later events that are promised: a deferred command's, a waiting pool request's, a bound pool command's. -/
def promisedEvents (s : State) : Nat :=
  s.tier.deferred.length + s.pools.waits.length + s.pools.bound.length + s.rem.deferred.length +
    (s.tier.copies.map fun c => c.pinTags.length + c.hostTags.length + c.evictTags.length).sum +
    (s.pools.buffers.filter fun b => b.freePending.isSome).length

/-- A command that would return DEFERRED can reserve an entry of the internal event queue (R406). -/
def eventRoom (s : State) : Bool := decide (s.mb.queue.length + promisedEvents s < 4096)

/-- Takes the command at the head of the ring if it is one of those meant, and runs its body. A command of another
opcode, or one that may not be taken, leaves the state unchanged (log 2). -/
def runCmd (meant : Cmd → Bool) (body : Cmd → State → CmdEnd) (s : State) : State :=
  match headCmd? s with
  | none => s
  | some c =>
    if meant c then
      match body c { s with mb := { s.mb with cmdHead := s.mb.cmdHead + 1 } } with
      | .done st res t =>
        if st = stDeferred ∧ eventRoom s = false then s else postCpl c.op c.tag c.index st res t
      | .opened k t =>
        { t with mb := { t.mb with opened := t.mb.opened ++ [⟨c.op, c.tag, c.index, k, c.bytes⟩] } }
    else s

/-- The command has this opcode. -/
def isOp (op : Nat) (c : Cmd) : Bool := c.op == op

/-- A long command may end later than it has its effect, so that its completion may follow those of later commands
(R417): when it ends is free. -/
def maybeLate (e : CmdEnd) : CmdEnd :=
  match e with
  | .done st res s =>
    let c := freeChoice s
    if c.1 then .done st res c.2 else .opened (.late st res) c.2
  | .opened k s => .opened k s

/-- Takes a long command of an opcode whose whole effect is made when it is taken (R417). -/
def runLong (op : Nat) (body : Cmd → State → CmdEnd) (s : State) : State :=
  runCmd (isOp op) (fun c t => maybeLate (body c t)) s

/-- A command that is not serialising. -/
def runPlain (op : Nat) (body : Cmd → State → CmdEnd) (s : State) : State := runCmd (isOp op) body s

/-- A serialising command: taken only when no earlier command is open (R417). -/
def runSerial (op : Nat) (body : Cmd → State → CmdEnd) (s : State) : State :=
  if s.mb.opened.isEmpty then runCmd (isOp op) body s else s

/-- A command that completes with a status and changes nothing. -/
def reject (status : Nat) (s : State) : CmdEnd := .done status [] s

/-- Completes every open command that a test names. -/
def closeCommands (f : OpenCmd → Option (Nat × List Byte)) : List OpenCmd → State → State
  | [], s => s
  | c :: r, s =>
    match f c with
    | none => closeCommands f r s
    | some (st, res) =>
      closeCommands f r (postCpl c.op c.tag c.index st res
        { s with mb := { s.mb with opened := s.mb.opened.filter fun o => o.index != c.index } })

/-- Completes the open commands that a test names, oldest first. -/
def closeOpen (f : OpenCmd → Option (Nat × List Byte)) (s : State) : State := closeCommands f s.mb.opened s

/-- A late command ends. -/
def closesLate (o : OpenCmd) : Option (Nat × List Byte) :=
  match o.kind with
  | .late st res => some (st, res)
  | .abortStep _ | .abortJob | .peal _ | .extentSeal _ | .flashFormat | .jobClose | .loadImage => none

/-- Posts the completions of the commands that have ended (R417). -/
def settleLate (s : State) : State := if s.mb.opened.isEmpty then s else closeOpen closesLate s

/-! ## Full reset and power-on (R437, R443, R479, R493) -/

/-- What is left of flash across a reset: sealed extents and what the medium holds; unsealed data is kept or lost by
the next mount, and a format that was cut off must be repeated (R287). The tier mounts anew after READY. -/
def flashAcrossReset (f : Flash) : Flash :=
  { Flash.init with
    extents := f.extents, nextExtent := f.nextExtent
    blocks := f.blocks.map fun e => (e.1, { e.2 with rebuiltAt := none })
    retiredDies := f.retiredDies, readDefault := f.readDefault, eraseDefault := f.eraseDefault
    checkpoint := f.checkpoint, checkDefault := f.checkDefault, geom := f.geom
    medium := if f.formatting then .cut else f.medium
    mediumGeom := f.mediumGeom, patrolCheck := f.patrolCheck, patrolNext := f.patrolNext
    superSeq := f.superSeq, superCopy := f.superCopy, journal := f.journal }

/-- A port after a full reset: its configuration is kept until power-off (R478, R479); its link is lost with the port
die's reset, and its counts restart (log 23). -/
def portAcrossReset (p : Port) : Port :=
  { Port.init with medium := p.medium, lanes := p.lanes, retrains := p.retrains, trained := p.trained }

/-- Host-die memory outlives the engine's resets (R437: the host die is left running). -/
def hostMemory (m : Mem) : Mem := m.filter fun c => hostBase ≤ c.1 && c.1 < windowBase

/-- A full reset with a cause (R437): the engine, both port dies and the HBM controllers return to reset. Fuses, host
memory, flash, and what the management plane set are kept. A readied table becomes active, since no step is held. Until
ROM_WAIT the reset is under way, and a further request finds it so (R442). -/
def fullReset (cause : Nat) (s : State) : State :=
  { State.reset with
    pending := s.pending
    mb := { Mailbox.init with doorbells := s.mb.doorbells }
    boot := { Boot.init with
      resetting := true
      resetCount := if s.boot.resetCount = 0xFFFF then 0xFFFF else s.boot.resetCount + 1
      resetCause := cause
      revoked := s.boot.revoked, rollback := s.boot.rollback, raisesLeft := s.boot.raisesLeft }
    mem := hostMemory s.mem
    unbacked := s.unbacked
    flash := flashAcrossReset s.flash
    fab := { Fabric.init with
      ports := s.fab.ports.map fun e => (e.1, portAcrossReset e.2)
      active := if s.fab.shadowReady then s.fab.shadow else s.fab.active
      hasActive := s.fab.hasActive || s.fab.shadowReady, shadow := s.fab.shadow, sent := s.fab.sent }
    time := { Time.init with freeUses := s.time.freeUses }
    mgmt := { Mgmt.init with
      physId := s.mgmt.physId, sustainedW := s.mgmt.sustainedW, burstW := s.mgmt.burstW
      throttle := s.mgmt.throttle, trip := s.mgmt.trip
      powerNext := s.mgmt.powerNext, thermalNext := s.mgmt.thermalNext, receiver := s.mgmt.receiver
      receiverMac := s.mgmt.receiverMac, out := s.mgmt.out }
    errs := { Errs.init with
      repaired := s.errs.repaired, hardRepaired := s.errs.hardRepaired, hostModules := s.errs.hostModules
      dieModulesA := if s.errs.dieModulesA = 0 then 16 else s.errs.dieModulesA
      dieModulesB := if s.errs.dieModulesB = 0 then 16 else s.errs.dieModulesB }
    dbg := { Debug.init with ir := s.dbg.ir, boundary := s.dbg.boundary, captured := s.dbg.captured }
    pins := { s.pins with thermtrip := false } }

/-- A power-on (R492, R493, R494): nothing is kept but the fuses, the flash medium and the outputs the model records. -/
def powerOn (s : State) : State :=
  { State.reset with
    pending := s.pending
    mb := { Mailbox.init with doorbells := s.mb.doorbells }
    boot := { Boot.init with
      revoked := s.boot.revoked, rollback := s.boot.rollback, raisesLeft := s.boot.raisesLeft }
    flash := flashAcrossReset s.flash
    fab := { Fabric.init with sent := s.fab.sent }
    time := { Time.init with freeUses := s.time.freeUses }
    mgmt := { Mgmt.init with out := s.mgmt.out }
    errs := { Errs.init with repaired := s.errs.repaired, hardRepaired := s.errs.hardRepaired }
    pins := { Pins.init with pwrgd := true } }

end Sys2Proof.Machine
end

