-- ==== Sys2Proof/Machine/Flags.lean ====
section
/-! DEFINITION. The counts of the step report (R94, R135, R233) and of telemetry (R332, R359, R388, R440, R472). -/

namespace Sys2Proof.Machine

/-- Count codes of the step report (R233). -/
def ccConvSaturate : Nat := 0
/-- R233. -/
def ccIntSaturate : Nat := 1
/-- R233. -/
def ccMxNonfinite : Nat := 2
/-- R233. -/
def ccEsfLost : Nat := 3
/-- R233. -/
def ccEsfSaturate : Nat := 4
/-- R233. -/
def ccEsfNan : Nat := 5
/-- R233. -/
def ccEsfHeadroom : Nat := 6
/-- R233. -/
def ccMaskBreach : Nat := 7
/-- R233. -/
def ccMaskRange : Nat := 8
/-- R233. -/
def ccZskipSteps : Nat := 9
/-- R233. -/
def ccZselRows : Nat := 10
/-- R233. -/
def ccIndexFill : Nat := 11
/-- R233. -/
def ccZmapLength : Nat := 12
/-- R233. -/
def ccTokenUnrouted : Nat := 13
/-- R233. -/
def ccRouteNan : Nat := 14
/-- R233. -/
def ccChoiceTrim : Nat := 15
/-- R233. -/
def ccSpillLost : Nat := 16
/-- R233. -/
def ccEagerDiscard : Nat := 17
/-- R233. -/
def ccAnswerFill : Nat := 18
/-- R233. -/
def ccStaleReturn : Nat := 19

/-- Telemetry count indices (R440). -/
def tcViaChosen : Nat := 0
/-- R440. -/
def tcDiscardPartial : Nat := 1
/-- R440. -/
def tcDiscardHops : Nat := 2
/-- R440. -/
def tcDiscardUnroutable : Nat := 3
/-- R440. -/
def tcDiscardHeader : Nat := 4
/-- R440: the first of the seven refusal counts, in the order of the reason codes of R344. -/
def tcRefusedFirst : Nat := 5
/-- R440. -/
def tcE2eRetries : Nat := 12
/-- R440. -/
def tcDuplicates : Nat := 13
/-- R440. -/
def tcStrayResponse : Nat := 14
/-- R440. -/
def tcKeptFullWaits : Nat := 15
/-- R440. -/
def tcCombinedOps : Nat := 16
/-- R440. -/
def tcBeatStep : Nat := 17
/-- R440. -/
def tcParentChange : Nat := 18
/-- R440. -/
def tcLateArm : Nat := 19
/-- R440. -/
def tcStrayPeal : Nat := 20
/-- R440. -/
def tcGongDuplicate : Nat := 21
/-- R440. -/
def tcDirectPromotions : Nat := 22
/-- R472. -/
def tcHbmCe : Nat := 23
/-- R472. -/
def tcHbmUe : Nat := 24
/-- R472. -/
def tcHbmRowRepairs : Nat := 25
/-- R472. -/
def tcSramUe : Nat := 26
/-- R472. -/
def tcStepFaultsLocal : Nat := 27
/-- R472. -/
def tcStepFaultsReceived : Nat := 28
/-- R472. -/
def tcCellsRemapped : Nat := 29
/-- R472. -/
def tcUnitChecks : Nat := 30

/-- Counts one occurrence of each code of a list in the step report. -/
def addStepCodes (codes : List Nat) (s : State) : State :=
  mapRun (fun r => { r with counts := codes.foldl (fun t c => tblAdd t c 1) r.counts }) s

end Sys2Proof.Machine
end

