-- ==== Sys2Proof/Machine/Float.lean ====
section
/-! DEFINITION. The number formats (R69 to R79), rounding and conversion (R80 to R84), and ESF-128 (R88 to R91). Values are
exact: a result is computed exactly and rounded once. -/

namespace Sys2Proof.Machine

/-! ## Values -/

/-- A value of a floating-point format: NaN, an infinity, or (−1)^neg × m × 2^e exactly, with a signed zero at m = 0. -/
inductive FVal where
  | nan
  | inf (neg : Bool)
  | fin (neg : Bool) (m : Nat) (e : Int)
  deriving DecidableEq, Repr

/-- Positive zero. -/
def fZero : FVal := .fin false 0 0

/-- A value with its sign reversed. -/
def fNeg (v : FVal) : FVal :=
  match v with
  | .nan => .nan
  | .inf s => .inf (!s)
  | .fin s m e => .fin (!s) m e

/-- A value without its sign. -/
def fAbs (v : FVal) : FVal :=
  match v with
  | .nan => .nan
  | .inf _ => .inf false
  | .fin _ m e => .fin false m e

/-- An integer as a value; 0 is +0. -/
def fOfInt (i : Int) : FVal := .fin (decide (i < 0)) i.natAbs 0

/-- The signed mantissa. -/
def smant (neg : Bool) (m : Nat) : Int := if neg then -(m : Int) else m

/-- m × 2^(e − q) for e ≥ q. -/
def scaleUp (m : Int) (e q : Int) : Int := m * 2 ^ (e - q).toNat

/-- Exact addition of two values (R72: the sign of a zero follows IEEE 754 under rounding to nearest). -/
def fAdd (a b : FVal) : FVal :=
  match a, b with
  | .nan, _ => .nan
  | _, .nan => .nan
  | .inf s, .inf t => if s = t then .inf s else .nan
  | .inf s, .fin _ _ _ => .inf s
  | .fin _ _ _, .inf t => .inf t
  | .fin s m e, .fin t n f =>
    let q := min e f
    let x := scaleUp (smant s m) e q + scaleUp (smant t n) f q
    if x = 0 then .fin (if m = 0 ∧ n = 0 then s && t else false) 0 0
    else .fin (decide (x < 0)) x.natAbs q

/-- Exact multiplication; infinity × 0 is NaN. -/
def fMul (a b : FVal) : FVal :=
  match a, b with
  | .nan, _ => .nan
  | _, .nan => .nan
  | .inf s, .inf t => .inf (s != t)
  | .inf s, .fin t n _ => if n = 0 then .nan else .inf (s != t)
  | .fin s m _, .inf t => if m = 0 then .nan else .inf (s != t)
  | .fin s m e, .fin t n f => .fin (s != t) (m * n) (e + f)

/-- Division, exact but for a sticky bit at least 60 bits below the leading bit, so that one rounding to FP32 or
narrower is that of the exact quotient. 0 ÷ 0 and infinity ÷ infinity are NaN; x ÷ 0 is infinite (R72). -/
def fDiv (a b : FVal) : FVal :=
  match a, b with
  | .nan, _ => .nan
  | _, .nan => .nan
  | .inf _, .inf _ => .nan
  | .inf s, .fin t _ _ => .inf (s != t)
  | .fin s _ _, .inf t => .fin (s != t) 0 0
  | .fin s m e, .fin t n f =>
    if n = 0 then (if m = 0 then .nan else .inf (s != t))
    else if m = 0 then .fin (s != t) 0 0
    else
      let k := 64 + Nat.log2 n
      let x := m * 2 ^ k
      .fin (s != t) (2 * (x / n) + (if x % n = 0 then 0 else 1)) (e - f - k - 1)

/-- The integer square root of x, bit by bit from bit i down to bit 0, above the root r found so far. -/
def isqrtFrom : Nat → Nat → Nat → Nat
  | 0, x, r => if (r + 1) * (r + 1) ≤ x then r + 1 else r
  | i + 1, x, r =>
    let c := r + 2 ^ (i + 1)
    isqrtFrom i x (if c * c ≤ x then c else r)

/-- The integer square root, rounded down. -/
def isqrt (x : Nat) : Nat := isqrtFrom (Nat.log2 x / 2 + 1) x 0

/-- Square root with a sticky bit: −0 gives −0, a negative value NaN (R72). -/
def fSqrt (a : FVal) : FVal :=
  match a with
  | .nan => .nan
  | .inf s => if s then .nan else .inf false
  | .fin s m e =>
    if m = 0 then .fin s 0 0
    else if s then .nan
    else
      let x := if e % 2 = 0 then m * 2 ^ 64 else m * 2 ^ 65
      let h := if e % 2 = 0 then e / 2 - 32 else (e - 1) / 2 - 32
      let r := isqrt x
      .fin false (2 * r + (if r * r = x then 0 else 1)) (h - 1)

/-- The sign of a − b for finite values or infinities: −1, 0 or 1. Zeros are equal. -/
def fCmp (a b : FVal) : Int :=
  match a, b with
  | .nan, _ => 0
  | _, .nan => 0
  | .inf s, .inf t => if s = t then 0 else if s then -1 else 1
  | .inf s, .fin _ _ _ => if s then -1 else 1
  | .fin _ _ _, .inf t => if t then 1 else -1
  | .fin s m e, .fin t n f =>
    let q := min e f
    let x := scaleUp (smant s m) e q
    let y := scaleUp (smant t n) f q
    if x < y then -1 else if y < x then 1 else 0

/-- Whether a value is NaN. -/
def fIsNan (a : FVal) : Bool :=
  match a with
  | .nan => true
  | .inf _ => false
  | .fin _ _ _ => false

/-- Whether a value is finite. -/
def fIsFin (a : FVal) : Bool :=
  match a with
  | .nan => false
  | .inf _ => false
  | .fin _ _ _ => true

/-- Whether a value is +0 or −0. -/
def fIsZero (a : FVal) : Bool :=
  match a with
  | .nan => false
  | .inf _ => false
  | .fin _ m _ => m == 0

/-- The sign bit; NaN has none. -/
def fSign (a : FVal) : Bool :=
  match a with
  | .nan => false
  | .inf s => s
  | .fin s _ _ => s

/-- A nonzero value of R124: anything but +0 and −0. -/
def fNonzero (a : FVal) : Bool := !fIsZero a

/-! ## Floating-point formats (R71) -/

/-- The element formats of the engine. -/
inductive FFmt where
  | fp32 | bf16 | fp16 | e5m2 | e4m3 | e3m2 | e2m3 | e2m1
  deriving DecidableEq, Repr

/-- Exponent field width. -/
def expBits (f : FFmt) : Nat :=
  match f with
  | .fp32 => 8
  | .bf16 => 8
  | .fp16 => 5
  | .e5m2 => 5
  | .e4m3 => 4
  | .e3m2 => 3
  | .e2m3 => 2
  | .e2m1 => 2

/-- Mantissa field width. -/
def manBits (f : FFmt) : Nat :=
  match f with
  | .fp32 => 23
  | .bf16 => 7
  | .fp16 => 10
  | .e5m2 => 2
  | .e4m3 => 3
  | .e3m2 => 2
  | .e2m3 => 3
  | .e2m1 => 1

/-- Exponent bias. -/
def biasOf (f : FFmt) : Nat :=
  match f with
  | .fp32 => 127
  | .bf16 => 127
  | .fp16 => 15
  | .e5m2 => 15
  | .e4m3 => 7
  | .e3m2 => 3
  | .e2m3 => 1
  | .e2m1 => 1

/-- Width of an element in bits. -/
def fBits (f : FFmt) : Nat := 1 + expBits f + manBits f

/-- The format has infinities and IEEE NaNs. -/
def hasInf (f : FFmt) : Bool :=
  match f with
  | .fp32 | .bf16 | .fp16 | .e5m2 => true
  | .e4m3 | .e3m2 | .e2m3 | .e2m1 => false

/-- The code of the largest finite magnitude. -/
def maxCode (f : FFmt) : Nat :=
  match f with
  | .e4m3 => 0x7E
  | .e3m2 | .e2m3 | .e2m1 => 2 ^ (expBits f + manBits f) - 1
  | .fp32 | .bf16 | .fp16 | .e5m2 => (2 ^ expBits f - 1) * 2 ^ manBits f - 1

/-- The code of infinity without its sign. -/
def infCode (f : FFmt) : Nat := (2 ^ expBits f - 1) * 2 ^ manBits f

/-- The canonical NaN (R72). The FP6 and FP4 formats have none; R77 never asks them for one. -/
def nanCode (f : FFmt) : Nat :=
  match f with
  | .fp32 => 0x7FC00000
  | .bf16 => 0x7FC0
  | .fp16 => 0x7E00
  | .e5m2 => 0x7F
  | .e4m3 => 0x7F
  | .e3m2 | .e2m3 | .e2m1 => 0

/-- The value of a code (R71). -/
def fDecode (f : FFmt) (code : Nat) : FVal :=
  let m := code % 2 ^ manBits f
  let e := code / 2 ^ manBits f % 2 ^ expBits f
  let s := code / 2 ^ (manBits f + expBits f) % 2 == 1
  if e = 0 then .fin s m (1 - (biasOf f : Int) - manBits f)
  else if hasInf f ∧ e = 2 ^ expBits f - 1 then (if m = 0 then .inf s else .nan)
  else if f = .e4m3 ∧ e = 15 ∧ m = 7 then .nan
  else .fin s (2 ^ manBits f + m) ((e : Int) - biasOf f - manBits f)

/-! ## Rounding (R80 to R82) -/

/-- A rounding mode; STOCH carries its random word (R81). -/
inductive Rnd where
  | rne
  | rtz
  | stoch (bits : Nat)
  deriving DecidableEq, Repr

/-- The integer m ÷ 2^k rounded under a mode. Past 40 bits below the leading bit, every mode gives 0, so that the shift
is held there. -/
def roundShift (r : Rnd) (m k0 : Nat) : Nat :=
  let k := min k0 (Nat.log2 m + 40)
  let q := m / 2 ^ k
  let d := m % 2 ^ k
  match r with
  | .rtz => q
  | .rne => if 2 * d > 2 ^ k ∨ (2 * d = 2 ^ k ∧ q % 2 = 1) then q + 1 else q
  | .stoch b => if b < d * 2 ^ 32 / 2 ^ k then q + 1 else q

/-- The magnitude m × 2^e, with m not 0, in units of the last place of a format with p mantissa bits and the least
exponent lo: the unit's exponent and the rounded number of units. -/
def roundMag (r : Rnd) (p : Nat) (lo : Int) (m : Nat) (e : Int) : Int × Nat :=
  let q := max ((Nat.log2 m : Int) + e - p) lo
  if q ≤ e then (q, m * 2 ^ (e - q).toNat) else (q, roundShift r m (q - e).toNat)

/-- The least exponent of a unit of the last place. -/
def loExp (f : FFmt) : Int := 1 - (biasOf f : Int) - manBits f

/-- Conversion to a floating-point format: the code, and whether the conversion saturated (R80). A finite value is too
large when it rounds past the largest finite code (DEDUCED, log 30). -/
def fEncode (f : FFmt) (r : Rnd) (v : FVal) : Nat × Bool :=
  let sgn (s : Bool) : Nat := if s then 2 ^ (manBits f + expBits f) else 0
  match v with
  | .nan => (nanCode f, false)
  | .inf s => if hasInf f then (sgn s + infCode f, false) else (sgn s + maxCode f, true)
  | .fin s m e =>
    if m = 0 then (sgn s, false)
    else
      let x := roundMag r (manBits f) (loExp f) m e
      let c := (x.1 - loExp f).toNat * 2 ^ manBits f + x.2
      if c ≤ maxCode f then (sgn s + c, false)
      else if hasInf f ∧ r ≠ .rtz then (sgn s + infCode f, false)
      else (sgn s + maxCode f, true)

/-- Conversion of an MX element: a finite value that is too large saturates and counts whatever its format (R77;
DEDUCED, log 31). -/
def fEncodeSat (f : FFmt) (r : Rnd) (v : FVal) : Nat × Bool :=
  let x := fEncode f r v
  if fIsFin v ∧ x.1 % 2 ^ (manBits f + expBits f) > maxCode f then
    ((if fSign v then 2 ^ (manBits f + expBits f) else 0) + maxCode f, true)
  else x

/-- One rounding to FP32 (R83, R84). -/
def rnd32 (v : FVal) : FVal := fDecode .fp32 (fEncode .fp32 .rne v).1

/-- The FP32 code of a value. -/
def toF32 (v : FVal) : Nat := (fEncode .fp32 .rne v).1

/-- The value of an FP32 code. -/
def ofF32 (c : Nat) : FVal := fDecode .fp32 c

/-- A value rounded to an integer under a mode; none for a value that is not finite. -/
def fToInt? (r : Rnd) (v : FVal) : Option Int :=
  match v with
  | .nan => none
  | .inf _ => none
  | .fin s m e =>
    let n := if 0 ≤ e then m * 2 ^ e.toNat else roundShift r m (-e).toNat
    some (smant s n)

/-- Conversion to an integer format with bounds lo and hi: the integer, and whether it counts (R80). -/
def fToRange (r : Rnd) (lo hi : Int) (v : FVal) : Int × Bool :=
  match v with
  | .nan => (0, true)
  | .inf s => (if s then lo else hi, true)
  | .fin s m e =>
    let i := (fToInt? r (.fin s m e)).getD 0
    if i < lo then (lo, true) else if hi < i then (hi, true) else (i, false)

/-- mix of R81. -/
def srMix (z : BitVec 64) : BitVec 64 :=
  let a := (z ^^^ (z >>> 30)) * 0xBF58476D1CE4E5B9
  let b := (a ^^^ (a >>> 27)) * 0x94D049BB133111EB
  b ^^^ (b >>> 31)

/-- sr_bits of R81. -/
def srBits (seed tensor index step : Nat) : Nat :=
  let h := srMix (BitVec.ofNat 64 seed ^^^ (BitVec.ofNat 64 (tensor * 2 ^ 32) ||| BitVec.ofNat 64 (step % 2 ^ 32)))
  (srMix (h ^^^ BitVec.ofNat 64 index)).toNat / 2 ^ 32

/-- What a body's rounding needs: its code, seed, tensor id and the step (R80, R81). -/
structure RndCtx where
  code : Nat
  seed : Nat
  tensor : Nat
  step : Nat
  deriving DecidableEq, Repr

/-- The rounding of the element with an index in the output stream. -/
def rndAt (c : RndCtx) (i : Nat) : Rnd :=
  if c.code = 0 then .rne else if c.code = 1 then .rtz else .stoch (srBits c.seed c.tensor i c.step)

/-! ## Element formats of the bodies (R106, R144) -/

/-- An element format: floating point, MX with its element, an integer, INT4 with block shift, or ESF-128. -/
inductive EFmt where
  | flt (f : FFmt)
  | mx (f : FFmt)
  | int8 | int4b | int32 | uint32 | esf
  deriving DecidableEq, Repr

/-- Bits of one element. -/
def eBits (f : EFmt) : Nat :=
  match f with
  | .flt g => fBits g
  | .mx g => fBits g
  | .int8 => 8
  | .int4b => 4
  | .int32 => 32
  | .uint32 => 32
  | .esf => 128

/-- The format has a scale or shift plane, one byte per block of 32 (R75, R78). -/
def hasScale (f : EFmt) : Bool :=
  match f with
  | .mx _ | .int4b => true
  | .flt _ | .int8 | .int32 | .uint32 | .esf => false

/-- An integer format. -/
def isIntFmt (f : EFmt) : Bool :=
  match f with
  | .int8 | .int4b | .int32 | .uint32 => true
  | .flt _ | .mx _ | .esf => false

/-- The format of a code of R106. -/
def mxFmt? (c : Nat) : Option EFmt :=
  match c with
  | 0 => some (.flt .e4m3)
  | 1 => some (.flt .e5m2)
  | 2 => some (.mx .e4m3)
  | 3 => some (.mx .e5m2)
  | 4 => some (.mx .e3m2)
  | 5 => some (.mx .e2m3)
  | 6 => some (.mx .e2m1)
  | 7 => some (.flt .bf16)
  | 8 => some (.flt .fp16)
  | 9 => some .int8
  | 10 => some .int4b
  | 11 => some (.flt .fp32)
  | 12 => some .int32
  | _ => none

/-- The value of an E8M0 scale (R74). -/
def scaleVal (c : Nat) : FVal := if c = 0xFF then .nan else .fin false 1 ((c : Int) - 127)

/-- The exact value of an element whose block has a scale or shift byte (R76, R78, R83); formats without one ignore it. -/
def eValue (f : EFmt) (scale code : Nat) : FVal :=
  match f with
  | .flt g => fDecode g code
  | .mx g => if scale = 0xFF then .nan else fMul (fDecode g code) (scaleVal scale)
  | .int8 => fOfInt (signed 8 code)
  | .int4b => fOfInt (signed 4 code * 2 ^ (scale % 16))
  | .int32 => fOfInt (signed 32 code)
  | .uint32 => fOfInt (code % 2 ^ 32)
  | .esf => fOfInt (signed 128 code)

/-- The exponent of an element type's largest normal (R77). -/
def emaxOf (f : FFmt) : Int :=
  match f with
  | .e4m3 => 8
  | .e5m2 => 15
  | .e3m2 => 4
  | .e2m3 => 2
  | .e2m1 => 2
  | .fp32 => 127
  | .bf16 => 127
  | .fp16 => 15

/-- floor(log2 |v|) of a finite nonzero value. -/
def fLog2 (v : FVal) : Int :=
  match v with
  | .nan => 0
  | .inf _ => 0
  | .fin _ m e => (Nat.log2 m : Int) + e

/-- The largest magnitude of a block of finite values. -/
def amaxOf (vs : List FVal) : FVal := vs.foldl (fun a v => if fCmp a (fAbs v) < 0 then fAbs v else a) fZero

/-- The scale code that R77 chooses for a block. -/
def mxScale (f : FFmt) (vs : List FVal) : Nat :=
  if vs.any (fun v => !fIsFin v) then 0xFF
  else
    let a := amaxOf vs
    if fIsZero a then 0x7F else (fLog2 a - emaxOf f + 127).toNat

/-- Elements of a block with their rounding index, converted under one scale. The scale's power divides exactly. -/
def mxElements (f : FFmt) (c : RndCtx) (scale : Nat) : List (Nat × FVal) → List Nat × List Nat
  | [] => ([], [])
  | (i, v) :: r =>
    let x := if scale = 0xFF then (0, false) else fEncodeSat f (rndAt c i) (fMul v (.fin false 1 (127 - (scale : Int))))
    let t := mxElements f c scale r
    (x.1 :: t.1, if x.2 then ccConvSaturate :: t.2 else t.2)

/-- Quantises a block (R77): the scale, the element codes and the counts. -/
def mxBlock (f : FFmt) (c : RndCtx) (vs : List (Nat × FVal)) : Nat × List Nat × List Nat :=
  let sc := mxScale f (vs.map (·.2))
  let t := mxElements f c sc vs
  (sc, t.1, if sc = 0xFF then ccMxNonfinite :: t.2 else t.2)

/-- An INT4 element of a value under a shift, before it is bounded: none for a NaN or an infinity. -/
def int4Raw (r : Rnd) (sh : Nat) (v : FVal) : Option Int := fToInt? r (fMul v (.fin false 1 (-(sh : Int))))

/-- A value fits the range −8 to 7 under a shift; a NaN constrains nothing and an infinity fits none (R80). -/
def int4Fits (r : Rnd) (sh : Nat) (v : FVal) : Bool :=
  fIsNan v || match int4Raw r sh v with
    | some i => decide (-8 ≤ i ∧ i ≤ 7)
    | none => false

/-- The shift of a block: the smallest of 0 to 15 under which every element fits, else 15 (R80; DEDUCED, log 32). -/
def int4Shift (c : RndCtx) (vs : List (Nat × FVal)) : Nat :=
  ((List.range 16).find? fun sh => vs.all fun x => int4Fits (rndAt c x.1) sh x.2).getD 15

/-- Elements of an INT4 block under a shift. -/
def int4Elements (c : RndCtx) (sh : Nat) : List (Nat × FVal) → List Nat × List Nat
  | [] => ([], [])
  | (i, v) :: r =>
    let x := fToRange (rndAt c i) (-8) 7 (fMul v (.fin false 1 (-(sh : Int))))
    let t := int4Elements c sh r
    (unsigned 4 x.1 :: t.1, if x.2 then ccIntSaturate :: t.2 else t.2)

/-- Quantises an INT4 block (R78, R80): the shift, the element codes and the counts. -/
def int4Block (c : RndCtx) (vs : List (Nat × FVal)) : Nat × List Nat × List Nat :=
  let sh := int4Shift c vs
  let t := int4Elements c sh vs
  (sh, t.1, t.2)

/-! ## ESF-128 (R88 to R91) -/

/-- 2^111 − 1. -/
def esfMax : Nat := 2 ^ 111 - 1

/-- Conversion of a value to ESF-128 with window base w: the integer and the count, if any (R88). -/
def toEsf (w : Int) (v : FVal) : Int × List Nat :=
  match v with
  | .nan => (0, [ccEsfNan])
  | .inf s => (smant s esfMax, [ccEsfSaturate])
  | .fin s m e =>
    if m = 0 then (0, [])
    else
      let t := if w ≤ e then m * 2 ^ (e - w).toNat else m / 2 ^ (w - e).toNat
      if t = 0 then (0, [ccEsfLost])
      else if t ≤ esfMax then (smant s t, [])
      else (smant s esfMax, [ccEsfSaturate])

/-- A value beyond the FP32 range as one rounding to FP32 gives it, an infinity or under RTZ the largest finite value with
its count; any other value unchanged. An ESF-128 sum takes part in an MX block so (R77, R91; DEDUCED, log 90). -/
def toF32Range (r : Rnd) (v : FVal) : FVal × List Nat :=
  if 0 < fCmp (fAbs v) (fDecode .fp32 (maxCode .fp32)) then
    let x := fEncode .fp32 r v
    (fDecode .fp32 x.1, if x.2 then [ccConvSaturate] else [])
  else (v, [])

/-- The value I × 2^w, and the count of R91. -/
def ofEsf (w : Int) (i : Int) : FVal × List Nat :=
  (.fin (decide (i < 0)) i.natAbs w, if i.natAbs > esfMax then [ccEsfHeadroom] else [])

/-- ESF-128 addition: 128-bit modular addition of codes (R89). -/
def esfAdd (a b : Nat) : Nat := (a + b) % 2 ^ 128

/-- The signed minimum of two codes of n bits. -/
def sMin (n a b : Nat) : Nat := if signed n b < signed n a then b else a

/-- The signed maximum of two codes of n bits. -/
def sMax (n a b : Nat) : Nat := if signed n a < signed n b then b else a

/-! ## Conversion of one element to a format without blocks -/

/-- The code of a value in a format without a scale plane, and the counts of R94. -/
def eEncode (f : EFmt) (w : Int) (r : Rnd) (v : FVal) : Nat × List Nat :=
  match f with
  | .flt g => let x := fEncode g r v; (x.1, if x.2 then [ccConvSaturate] else [])
  | .mx g => let x := fEncode g r v; (x.1, if x.2 then [ccConvSaturate] else [])
  | .int8 => let x := fToRange r (-128) 127 v; (unsigned 8 x.1, if x.2 then [ccIntSaturate] else [])
  | .int4b => let x := fToRange r (-8) 7 v; (unsigned 4 x.1, if x.2 then [ccIntSaturate] else [])
  | .int32 => let x := fToRange r (-(2 ^ 31)) (2 ^ 31 - 1) v; (unsigned 32 x.1, if x.2 then [ccIntSaturate] else [])
  | .uint32 => let x := fToRange r 0 (2 ^ 32 - 1) v; (unsigned 32 x.1, if x.2 then [ccIntSaturate] else [])
  | .esf => let x := toEsf w v; (unsigned 128 x.1, x.2)

/-! ## Packing (R73) -/

/-- The bytes of element codes of a width in bits, packed from bit 0 of the lowest byte. -/
def packBits (width : Nat) (codes : List Nat) : List Byte :=
  natLe (ceilDiv (codes.length * width) 8) ((codes.foldr (fun c acc => acc * 2 ^ width + c % 2 ^ width) 0))

/-- Element i of a packed byte string. -/
def unpackBits (width : Nat) (b : List Byte) (i : Nat) : Nat :=
  leNat ((b.drop (i * width / 8)).take (width / 8 + 2)) / 2 ^ (i * width % 8) % 2 ^ width

end Sys2Proof.Machine
end

