-- ==== Sys2Proof/Machine/Operands.lean ====
section
/-! DEFINITION. Operand forms: the sections of the loaded image, descriptors and their bodies, bit-packed memory, and the
streams of the vector engine (R30 to R42, R73, R137 to R145). -/

namespace Sys2Proof.Machine

/-! ## The loaded image (R29 to R33) -/

/-- The first section of a type for a schedule index. -/
def findSection (typ sched : Nat) : List Section → Option Section
  | [] => none
  | x :: r => if x.typ = typ ∧ x.sched = sched then some x else findSection typ sched r

/-- A section of an image; schedule 0 for the types that have none. -/
def imgSection? (im : Image) (typ sched : Nat) : Option Section := findSection typ sched im.sections

/-- LOAD_ADDR of a section, 0 if the image lacks it. -/
def loadAddr (im : Image) (typ sched : Nat) : Nat := ((imgSection? im typ sched).map (·.load)).getD 0

/-- LENGTH of a section, 0 if the image lacks it. -/
def sectionLen (im : Image) (typ sched : Nat) : Nat := ((imgSection? im typ sched).map (·.len)).getD 0

/-- A little-endian value within a section of the image as received. -/
def sectionLe (im : Image) (typ sched o n : Nat) : Nat :=
  match imgSection? im typ sched with
  | some x => memLe im.bytes (x.ofs + o) n
  | none => 0

/-- Bytes within a section of the image as received. -/
def sectionBytes (im : Image) (typ sched o n : Nat) : List Byte :=
  match imgSection? im typ sched with
  | some x => memRead im.bytes (x.ofs + o) n
  | none => List.replicate n 0

/-- The image, if one is loaded and bound. -/
def boundImage? (s : State) : Option Image :=
  match s.job.image with
  | some im => if im.bound then some im else none
  | none => none

/-! ## Cells (R14, R244) -/

/-- The cluster of a logical cell. -/
def clusterOf (cell : Nat) : Nat := cell / 32

/-- The first engine address of a cell's scratchpad. -/
def scratchOf (cell : Nat) : Nat := scratchBase + cell * 0x200000

/-- The first engine address of a cluster's store. -/
def storeOf (cluster : Nat) : Nat := storeBase + cluster * 0x1000000

/-- A cell's task store and tasks in flight. -/
def cellOf (s : State) (c : Nat) : Cell := kvGetD s.cells c Cell.init

/-- Replaces a cell. -/
def setCell (c : Nat) (x : Cell) (s : State) : State := { s with cells := kvPut s.cells c x }

/-- The range lies within a cell's own scratchpad. -/
def inOwnScratch (cell a n : Nat) : Bool := decide (scratchOf cell ≤ a) && decide (a + n ≤ scratchOf cell + 0x200000)

/-- The range lies within a cluster's store. -/
def inStore (cl a n : Nat) : Bool := decide (storeOf cl ≤ a) && decide (a + n ≤ storeOf cl + 0x1000000)

/-- The range lies within one cluster store, or within one scratchpad. -/
def inAnyStore (a n : Nat) : Bool := (List.range 16).any fun c => inStore c a n
/-- The range lies within one scratchpad (R244). -/
def inAnyScratch (a n : Nat) : Bool :=
  decide (scratchBase ≤ a) && decide (a < scratchBase + 0x40000000) && inOwnScratch ((a - scratchBase) / 0x200000) a n

/-- The range lies within host-die memory's region. -/
def inHost (a n : Nat) : Bool := decide (hostBase ≤ a) && decide (a + n ≤ windowBase)

/-! ## Descriptors (R38 to R42) -/

/-- A descriptor from its 64 bytes. -/
def descOf (step : Word) (index : Nat) (b : List Byte) : Desc where
  step := step
  index := index
  taskId := BitVec.ofNat 32 (fieldOf b 0 4)
  waitA := BitVec.ofNat 32 (fieldOf b 4 4)
  waitB := BitVec.ofNat 32 (fieldOf b 8 4)
  signal := BitVec.ofNat 32 (fieldOf b 12 4)
  body := (b.drop 16).take 48
  issued := false

/-- CLASS (R39). -/
def dClass (d : Desc) : Nat := d.taskId.toNat % 256
/-- TASK_INDEX (R39). -/
def dIndex (d : Desc) : Nat := d.taskId.toNat / 65536
/-- VOIDABLE (R39). -/
def dVoidable (d : Desc) : Bool := bitOf d.taskId.toNat 15
/-- TRACE (R39). -/
def dTrace (d : Desc) : Bool := bitOf d.taskId.toNat 14
/-- SIG_ARR (R39). -/
def dSigArr (d : Desc) : Bool := bitOf d.taskId.toNat 13
/-- WA_ARR (R39). -/
def dWaArr (d : Desc) : Bool := bitOf d.taskId.toNat 12
/-- WB_ARR (R39). -/
def dWbArr (d : Desc) : Bool := bitOf d.taskId.toNat 11
/-- ARR_QUARTER (R39). -/
def dQuarter (d : Desc) : Nat := bitsOf d.taskId.toNat 10 9
/-- COUNTER of a wait (R40). -/
def waitCounter (w : Word) : Nat := w.toNat / 2 ^ 22
/-- THRESHOLD of a wait (R40). -/
def waitThreshold (w : Word) : Nat := w.toNat % 2 ^ 22
/-- COUNTER of a signal (R41). -/
def sigCounter (d : Desc) : Nat := d.signal.toNat / 2 ^ 20
/-- INCREMENT of a signal (R41). -/
def sigIncrement (d : Desc) : Nat := d.signal.toNat % 2 ^ 20

/-- A field of the body, at its offset within the descriptor (16 to 63). -/
def bodyField (d : Desc) (o n : Nat) : Nat := fieldOf d.body (o - 16) n

/-- Bits [hi:lo] of the body word at an offset. -/
def bodyBits (d : Desc) (o hi lo : Nat) : Nat := bitsOf (bodyField d o 4) hi lo

/-- The operation code of a body: OP of VX in bits [31:24], of the others in bits [31:28]. -/
def bodyOp (d : Desc) : Nat := if dClass d = 2 then bodyBits d 16 31 24 else bodyBits d 16 31 28

/-- The queue that serves a class: matrix 0, vector 1, copy 2, other 3 (R43). -/
def queueOf (cls : Nat) : Nat := if cls = 1 then 0 else if cls = 2 then 1 else if cls = 3 then 2 else 3

/-- The class of HALT. -/
def haltClass : Nat := 0xF

/-- Tasks that a queue may have in flight (R43). -/
def queueLimit (q : Nat) : Nat := if q = 0 then 2 else if q = 1 then 2 else if q = 2 then 4 else 8

/-! ## Bit-packed memory (R73) -/

/-- The code of a width at a bit position above a base address. -/
def bitsAt (m : Mem) (base pos width : Nat) : Nat :=
  leNat (memRead m (base + pos / 8) ((pos % 8 + width + 7) / 8)) / 2 ^ (pos % 8) % 2 ^ width

/-- Stores a code of a width at a bit position above a base address; other bits keep their values. -/
def putBitsAt (m : Mem) (base pos width v : Nat) : Mem :=
  let n := (pos % 8 + width + 7) / 8
  let old := memLe m (base + pos / 8) n
  let field := old / 2 ^ (pos % 8) % 2 ^ width
  memPutLe m (base + pos / 8) n (old - field * 2 ^ (pos % 8) + v % 2 ^ width * 2 ^ (pos % 8))

/-! ## Streams (R141 to R145) -/

/-- The format of a stream: an element format, or BIT (R144). -/
inductive SFmt where
  | elem (f : EFmt)
  | bit
  deriving DecidableEq, Repr

/-- The format of a code of a VX stream (R144). -/
def vxFmt? (c : Nat) : Option SFmt :=
  match c with
  | 13 => some (.elem .esf)
  | 14 => some (.elem .uint32)
  | 15 => some .bit
  | c => (mxFmt? c).map .elem

/-- Element width in bits. -/
def sBits (f : SFmt) : Nat :=
  match f with
  | .elem e => eBits e
  | .bit => 1

/-- An integer format for the paths of R147. -/
def sIsInt (f : SFmt) : Bool :=
  match f with
  | .elem e => isIntFmt e
  | .bit => true

/-- The stream has a scale or shift plane. -/
def sHasScale (f : SFmt) : Bool :=
  match f with
  | .elem e => hasScale e
  | .bit => false

/-- An entry of the stride pattern table (R143). -/
structure Stride where
  elem : Int
  row : Int
  wrap : Nat
  wrapStride : Int
  deriving DecidableEq, Repr

/-- A stream: its region (0 none, 1 scratchpad, 2 store, 3 tile), offset, pattern, pattern entry and format. -/
structure Stream where
  region : Nat
  ofs : Nat
  pattern : Nat
  stride : Stride
  fmt : SFmt
  rowLen : Nat
  deriving DecidableEq, Repr

/-- Entry p of the stride pattern table in AUX_DESC at its load address (R143). -/
def strideAt (m : Mem) (aux p : Nat) : Stride where
  elem := signed 32 (memLe m (aux + 16 * p) 4)
  row := signed 32 (memLe m (aux + 16 * p + 4) 4)
  wrap := memLe m (aux + 16 * p + 8) 4
  wrapStride := signed 32 (memLe m (aux + 16 * p + 12) 4)

/-- A stream word (R141). -/
def streamOf (m : Mem) (aux word : Nat) (fmt : SFmt) (rowLen : Nat) : Stream where
  region := bitsOf word 31 30
  ofs := bitsOf word 29 6
  pattern := word % 64
  stride := strideAt m aux (word % 64)
  fmt := fmt
  rowLen := rowLen

/-- The bit address of element (r, e) relative to OFFSET (R142). -/
def streamBit (t : Stream) (r e : Nat) : Int :=
  let w := sBits t.fmt
  let n := if sHasScale t.fmt then roundUp t.rowLen 32 else t.rowLen
  if t.pattern = 0 then ((r * n + e) * w : Nat)
  else if t.pattern = 1 then 0
  else if t.pattern = 2 then (e * w : Nat)
  else if t.pattern = 3 then (r * w : Nat)
  else
    let k := t.stride
    let inner := if k.wrap = 0 then e else e % k.wrap
    let outer := if k.wrap = 0 then 0 else e / k.wrap
    8 * ((r : Int) * k.row + (inner : Int) * k.elem + (outer : Int) * k.wrapStride)

/-- The memory and the base address that a stream's region names for a cell. -/
def streamBase (cell : Nat) (t : Stream) : Nat :=
  if t.region = 1 then scratchOf cell else if t.region = 2 then storeOf (clusterOf cell) else cell * 32768

/-- The memory that holds a stream: the accumulator files for TILE, engine memory otherwise. -/
def streamMem (s : State) (t : Stream) : Mem := if t.region = 3 then s.tiles else s.mem

/-- The absolute bit position of element (r, e) above the region's base. -/
def streamPos (t : Stream) (r e : Nat) : Nat := ((t.ofs * 8 : Nat) + streamBit t r e).toNat

/-- The code of element (r, e). -/
def readCode (s : State) (cell : Nat) (t : Stream) (r e : Nat) : Nat :=
  bitsAt (streamMem s t) (streamBase cell t) (streamPos t r e) (sBits t.fmt)

/-- Stores the code of element (r, e). A tile is never a destination (R145). -/
def writeCode (cell : Nat) (t : Stream) (r e v : Nat) (s : State) : State :=
  { s with mem := putBitsAt s.mem (streamBase cell t) (streamPos t r e) (sBits t.fmt) v }

/-- The byte of the scale or shift plane for element (r, e): contiguous rows of one byte per block (R144). -/
def scalePos (aux : Stream) (rowLen r e : Nat) : Nat := aux.ofs + r * ceilDiv rowLen 32 + e / 32

/-- The value of element (r, e), widened; AUX names the scale plane where there is one (R76, R78, R144). Widening is exact,
but that an MX value beyond the FP32 range becomes an infinity (R76). -/
def readValue (s : State) (cell : Nat) (t aux : Stream) (w : Int) (r e : Nat) : FVal :=
  let c := readCode s cell t r e
  match t.fmt with
  | .bit => fOfInt c
  | .elem f =>
    let sc := if hasScale f then
      (memGet (streamMem s aux) (streamBase cell aux + scalePos aux t.rowLen r e)).toNat else 0
    match f with
    | .esf => (ofEsf w (signed 128 c)).1
    | .flt g => fDecode g c
    | .mx g => rnd32 (eValue (.mx g) sc c)
    | .int8 => eValue .int8 0 c
    | .int4b => eValue .int4b sc c
    | .int32 => eValue .int32 0 c
    | .uint32 => eValue .uint32 0 c

/-- The code that a value takes in a stream's format, without blocks, and the counts. A BIT destination holds whether the
value is nonzero under R124 (R144). -/
def streamCode (f : SFmt) (w : Int) (r : Rnd) (v : FVal) : Nat × List Nat :=
  match f with
  | .bit => (if fNonzero v then 1 else 0, [])
  | .elem e => eEncode e w r v

/-- Elements of a row that a stream touches: all of them, with the padding of a block format (R142). -/
def touchedLen (t : Stream) : Nat := if sHasScale t.fmt ∧ t.pattern = 0 then roundUp t.rowLen 32 else t.rowLen

/-- The bytes that a stream touches, in all of its rows, lie in its region (R159): those of elements 0 to lens − 1 of each. A
stream of no rows, as an indexed one with IMM0 0, touches none. -/
def streamFitsTo (t : Stream) (rows lens : Nat) : Bool :=
  let size := if t.region = 1 then 0x200000 else if t.region = 2 then 0x1000000 else 32768
  let wrap := t.stride.wrap
  let last := (lens - 1) / (max wrap 1) * max wrap 1
  let es := [0, lens - 1, min (wrap - 1) (lens - 1), last, last - 1, last - wrap]
  rows == 0 || [0, rows - 1].all fun r => es.all fun e =>
    let p := ((t.ofs * 8 : Nat) : Int) + streamBit t r e
    decide (0 ≤ p) && decide (p + sBits t.fmt ≤ 8 * size)

end Sys2Proof.Machine
end

