-- ==== Sys2Proof/Machine/Tasks.lean ====
section
/-! DEFINITION. Counters, landings and waits (R48 to R55), the issue of a task, voiding and completion (R43 to R47, R57),
task trace (R510), performance counts (R511), and errors met by a unit's reads (R459 to R464). -/

namespace Sys2Proof.Machine

/-! ## Counters (R48 to R52) -/

/-- The key of a dependence counter. -/
def depKey (cell ctr : Nat) : Nat := cell * 1024 + ctr

/-- The key of an arrival counter. -/
def arrKey (cl ctr : Nat) : Nat := cl * 4096 + ctr

/-- A word of the PRESETS section of the schedule whose presets are in force (R33). -/
def presetAt (s : State) (o : Nat) : Nat :=
  match s.ctr.sched, s.job.image with
  | some k, some im => sectionLe im 3 k o 4
  | _, _ => 0

/-- A dependence counter: its value since RUNNING entry, or its preset. -/
def depGet (s : State) (cell ctr : Nat) : Nat :=
  match kvGet? s.ctr.dep (depKey cell ctr) with
  | some v => v
  | none => presetAt s (4 * (cell * 1024 + ctr))

/-- An arrival counter. -/
def arrGet (s : State) (cl ctr : Nat) : Nat :=
  match kvGet? s.ctr.arr (arrKey cl ctr) with
  | some v => v
  | none => presetAt s (2097152 + 4 * (cl * 4096 + ctr))

/-- Sets a dependence counter. -/
def depSet (cell ctr v : Nat) (s : State) : State :=
  { s with ctr := { s.ctr with dep := kvPut s.ctr.dep (depKey cell ctr) v } }

/-- The largest value of a counter. -/
def ctrMax : Nat := 0xFFFFFFFF

/-- Adds to a dependence counter; a sum past the largest value keeps that value and is COUNTER_OVERFLOW (R50). -/
def depAdd (cell ctr n : Nat) (s : State) : State :=
  let v := depGet s cell ctr + n
  faultIf (decide (ctrMax < v)) fcCounterOverflow (depSet cell ctr (min v ctrMax) s)

/-- Adds to an arrival counter, in the same way. -/
def arrAdd (cl ctr n : Nat) (s : State) : State :=
  let v := arrGet s cl ctr + n
  faultIf (decide (ctrMax < v)) fcCounterOverflow
    { s with ctr := { s.ctr with arr := kvPut s.ctr.arr (arrKey cl ctr) (min v ctrMax) } }

/-- Adds to a counter's early tally (R53). -/
def tallyAdd (cl ctr n : Nat) (s : State) : State :=
  { s with ctr := { s.ctr with tally := tblAdd s.ctr.tally (arrKey cl ctr) n } }

/-- Sets every counter for a schedule: dependence counters to their presets, arrival counters to preset plus tally, and
the tally to 0 (R52). -/
def resetCounters (sched : Nat) (s : State) : State :=
  let base : State := { s with ctr := { s.ctr with sched := some sched, dep := [], arr := [], tally := [] } }
  s.ctr.tally.foldl (fun t e => arrAdd (e.1 / 4096) (e.1 % 4096) e.2 t) base

/-! ## Performance counts (R511) -/

/-- Adds to a cluster's CL_PERF when it counts the event and is not frozen (R508, R511). -/
def perfAdd (cl code n : Nat) (s : State) : State :=
  if tblGet s.dbg.perfSel cl = code ∧ s.boot.perfFreeze.getLsbD cl = false then
    { s with dbg := { s.dbg with perf := tblPut s.dbg.perf cl ((tblGet s.dbg.perf cl + n) % 2 ^ 64) } }
  else s

/-! ## Landings (R51, R53) -/

/-- What becomes of a landing (R53, R242). -/
inductive LandRule where
  /-- It adds to the counter. -/
  | counter
  /-- It adds to the early tally. -/
  | tally
  /-- It is discarded, neither placed nor counted. -/
  | discard
  deriving DecidableEq, Repr

/-- The runs latched last that ABORTED and of which no replay has been granted, newest first: a second Gong may have
ended the ARMED step behind the one that ran (R381). -/
def abortedRuns (s : State) : List PastRun :=
  if s.ctl.aborted && !s.ctl.replaying then
    s.ctl.past.takeWhile fun p => !p.completed && (p.kept && !(s.ctl.replay.any fun g => g.step == p.g.step))
  else []

/-- What becomes of a landing with a step bit. From an ABORTED latch it is discarded until the REPLAY grant, and then
added to the tally (R242). -/
def landRule (s : State) (stepBit : Nat) : LandRule :=
  if s.ctl.run.isNone && (s.ctl.aborted && !s.ctl.replaying) then .discard
  else if s.ctl.run.isNone && s.ctl.replaying then .tally
  else
    match currentStep? s with
    | none => .tally
    | some n => if n.toNat % 2 = stepBit % 2 then .counter else .tally

/-- A counted landing shows on the probe of its cluster's arrival-counter strobe (R503). -/
def strobe (cl : Nat) (s : State) : State := { s with dbg := { s.dbg with strobes := tblAdd s.dbg.strobes cl 1 } }

/-- A counted landing, whether it adds to the counter or to the early tally, shows on the strobe's probe and counts among the
cluster's LANDINGS as it arrives (R51, R53, R503, R511; DEDUCED, log 95). -/
def noteLanding (cl : Nat) (s : State) : State := progress (strobe cl (perfAdd cl 0x0D 1 s))

/-- A counted landing on a counter, by amount (R51, R53). -/
def landCount (cl ctr amount stepBit : Nat) (s : State) : State :=
  match landRule s stepBit with
  | .discard => s
  | .tally => noteLanding cl (tallyAdd cl ctr amount s)
  | .counter => noteLanding cl (arrAdd cl ctr amount s)

/-- The amount that a landing of n payload bytes adds: 1 in message mode, and in unit mode the larger of 1 and n ÷ 256
rounded up (R51). -/
def landAmount (unit : Bool) (n : Nat) : Nat := if unit then max 1 (ceilDiv n 256) else 1

/-! ## Waits and signals (R44, R48) -/

/-- A wait is met: its counter has reached THRESHOLD, and 0 is always met (R40, R49). -/
def waitMet (s : State) (cell : Nat) (d : Desc) (w : Word) (inArr : Bool) : Bool :=
  waitThreshold w == 0 ||
    decide (waitThreshold w ≤
      if inArr then arrGet s (clusterOf cell) (dQuarter d * 1024 + waitCounter w) else depGet s cell (waitCounter w))

/-- Both waits of a task are met. -/
def waitsMet (s : State) (cell : Nat) (d : Desc) : Bool :=
  waitMet s cell d d.waitA (dWaArr d) && waitMet s cell d d.waitB (dWbArr d)

/-- Applies a task's signal; an INCREMENT of 0 is none (R41, R48). -/
def applySignal (cell : Nat) (d : Desc) (s : State) : State :=
  if sigIncrement d = 0 then s
  else if dSigArr d then arrAdd (clusterOf cell) (sigCounter d) (sigIncrement d) s
  else depAdd cell (sigCounter d) (sigIncrement d) s

/-! ## Trace (R509, R510) -/

/-- Writes a trace record for a task while capture runs and the task, or every task, is traced: EVENT 0 ISSUE, 1
COMPLETE, 2 VOID. A full buffer without WRAP drops the record, and so does a trace unit that takes another in the same array
cycle: whether it does is a free choice, since the part has no clock (DESIGN CHOICE, log 95). -/
def traceEvent (cell : Nat) (d : Desc) (event : Nat) (s : State) : State :=
  match s.dbg.capture, s.ctl.run with
  | some c, some r =>
    if c.running ∧ (c.all ∨ dTrace d = true) then
      let busy := freeChoice s
      let s := busy.2
      let total := c.written + c.dropped
      if busy.1 = false ∧ (c.wrap ∨ 32 * (c.written + 1) ≤ c.length) then
        let eb := engineBeat s
        let rec32 := natLe 8 eb.1 ++ natLe 4 r.g.step.toNat ++ natLe 2 cell ++ natLe 2 d.index ++
          natLe 1 (dClass d) ++ natLe 1 event ++ natLe 2 r.g.attempt ++ natLe 4 total ++ natLe 8 0
        let t := putBytes (c.base + 32 * c.written % c.length) rec32 eb.2
        { t with dbg := { t.dbg with capture := some { c with written := c.written + 1 } } }
      else { s with dbg := { s.dbg with capture := some { c with dropped := c.dropped + 1 } } }
    else s
  | _, _ => s

/-! ## The task store (R44, R47, R60, R61) -/

/-- A descriptor of the running step that has not issued. -/
def unissued (s : State) (d : Desc) : Bool :=
  !d.issued && match s.ctl.run with
    | some r => d.step == r.g.step
    | none => false

/-- The next task of a queue that is in the store: the lowest-indexed unissued one of its classes (R44). -/
def headTask? (s : State) (cell q : Nat) : Option Desc :=
  (cellOf s cell).window.find? fun d => unissued s d && (dClass d != haltClass && queueOf (dClass d) == q)

/-- HALT of the running step's list has been fetched: it stands in the store, or its slot is already free. -/
def haltSeen (s : State) (cell : Nat) : Bool :=
  (cellOf s cell).halted.getLsbD 0 || (cellOf s cell).window.any fun d => unissued s d && dClass d == haltClass

/-- A queue has reached HALT: no task of its classes is left to issue (R47). -/
def queueHalted (s : State) (cell q : Nat) : Bool := haltSeen s cell && (headTask? s cell q).isNone

/-- A queue's next task lies beyond the window (R61). -/
def beyondWindow (s : State) (cell q : Nat) : Bool := !haltSeen s cell && (headTask? s cell q).isNone

/-- Frees the slots whose descriptor and every earlier one have issued (R60). HALT counts as issued once it is the
oldest descriptor left. -/
def freeSlots (step : Word) : List Desc → List Desc
  | [] => []
  | d :: r => if d.issued ∨ (d.step = step ∧ dClass d = haltClass) then freeSlots step r else d :: r

/-- The oldest descriptors have issued up to and with HALT of the step. -/
def passesHalt (step : Word) : List Desc → Bool
  | [] => false
  | d :: r =>
    if d.step = step ∧ dClass d = haltClass then true
    else if d.issued then passesHalt step r else false

/-- Brings a cell's window up to date after an issue or a fetch: frees slots, and notes each queue that begins a wait
beyond the window, one TASK_WINDOW event each (R60, R61). -/
def settleCell (cell : Nat) (s : State) : State :=
  match s.ctl.run with
  | none => s
  | some r =>
    let x := cellOf s cell
    let done := passesHalt r.g.step x.window
    let s := setCell cell { x with
      window := freeSlots r.g.step x.window, halted := if done then 15 else x.halted } s
    let waits := (List.range 4).filter (beyondWindow s cell)
    let fresh := waits.filter fun q => !x.windowWait.getLsbD q
    let mask : BitVec 4 := waits.foldl (fun m q => m ||| (1#4 <<< q)) 0
    let s := setCell cell { cellOf s cell with windowWait := mask } s
    mapRun (fun r => { r with stallEvents := tblAdd r.stallEvents 0 fresh.length }) s

/-- The cells in service. -/
def enabledList (s : State) : List Nat := (List.range 512).filter (cellEnabled s)

/-- Every queue of every enabled cell has reached HALT. -/
def allHalted (s : State) : Bool := (enabledList s).all fun c => (List.range 4).all (queueHalted s c)

/-- A RUNNING step in which every queue has reached HALT enters DRAINING (R64). -/
def settleDrain (s : State) : State :=
  match s.ctl.run with
  | none => s
  | some r =>
    if !r.draining && (r.fault.isNone && allHalted s) then
      let b := engineBeat s
      { b.2 with ctl := { s.ctl with
        run := some { r with draining := true, tDraining := b.1 }, stepPulses := s.ctl.stepPulses + 1 } }
    else s

/-- Marks the descriptor with an index issued. -/
def markIssued (index : Nat) (step : Word) (w : List Desc) : List Desc :=
  w.map fun d => if d.index = index ∧ d.step = step then { d with issued := true } else d

/-! ## Errors met by reads (R459 to R464, R466) -/

/-- Bytes of an HBM row, the unit that R460 counts and repairs (PRESUMED, log 25). -/
def hbmRowBytes : Nat := 1024

/-- Tick periods of 0.8 ns in an hour and in a day. -/
def hourTicks : Nat := 4500000000000
/-- Tick periods in 24 hours. -/
def dayTicks : Nat := 108000000000000

/-- A corrected HBM burst: HBM_CE counts it, and the fourth of a row is repaired (R460). A row with an uncorrectable
burst is not. -/
def hbmCorrected (addr : Nat) (s : State) : State :=
  let s := addCount tcHbmCe 1 s
  let row := addr / hbmRowBytes
  let times := s.time.uptime :: ((kvGetD s.errs.rowErrs row []).filter fun t => s.time.uptime < t + dayTicks)
  if 4 ≤ times.length ∧ Config.spareRowLeft row (s.errs.repaired ++ s.errs.hardRepaired) = true ∧
      !(s.errs.badBursts.any fun b => b / hbmRowBytes == row) then
    addCount tcHbmRowRepairs 1 { s with errs := { s.errs with
      rowErrs := kvDel s.errs.rowErrs row, repaired := row :: s.errs.repaired } }
  else { s with errs := { s.errs with rowErrs := kvPut s.errs.rowErrs row times } }

/-- An uncorrectable HBM burst found by any reader (R462, R472). -/
def hbmUncorrectable (addr : Nat) (s : State) : State :=
  let b := addr / 64 * 64
  addCount tcHbmUe 1 { s with errs := { s.errs with
    badBursts := if s.errs.badBursts.contains b then s.errs.badBursts else b :: s.errs.badBursts } }

/-- A corrected SRAM word of a cluster: CL_SRAM_CE counts it and holds at its largest value. -/
def sramCorrected (cl : Nat) (s : State) : State :=
  { s with errs := { s.errs with sramCe := tblPut s.errs.sramCe cl (min (tblGet s.errs.sramCe cl + 1) ctrMax) } }

/-- The physical cell of a logical cell. -/
def physOf (s : State) (cell : Nat) : Nat := (kvGet? s.errs.unit cell).getD 0

/-- A local SRAM_UNCORRECTABLE or UNIT_CHECK in a cell: if it is the first cause of the run, the cell will be tested at
the latch, and it counts against its physical cell (R466). -/
def cellFault (cell cause : Nat) (s : State) : State :=
  if stepActive s then
    let p := physOf s cell
    let s := { s with errs := { s.errs with
      faultCell := some cell, cellFaults := (p, s.time.uptime) :: s.errs.cellFaults } }
    stepFault cause s
  else s

/-- A fault in a cell, which is tested later; or in a cluster's shared unit or its store, which is not (R466). -/
def faultIn (cell? : Option Nat) (cause : Nat) (s : State) : State :=
  match cell? with
  | some c => if cellEnabled s c then cellFault c cause s else stepFault cause s
  | none => stepFault cause s

/-- A fault of a task's own unit: that of a cell for the matrix, vector and copy classes (R466). -/
def unitFault (cls cell cause : Nat) (s : State) : State := faultIn (if cls ≤ 3 then some cell else none) cause s

/-- The cell whose memory an address names: that of its scratchpad, none for a cluster store (R466). -/
def memoryCell? (a : Nat) : Option Nat :=
  match regionOf a with
  | .scratch c => some c
  | .hbm | .store _ | .host | .window | .unmapped => none

/-- What a read meets in the words known to be uncorrectable (R462, R463). -/
def metHealth (hits : Nat → Nat → Bool) (s : State) : Health :=
  match badMet? hits s with
  | none => .clean
  | some (.burst a) => .hbmUncorrectable a
  | some (.sram a) => .sramUncorrectable (memoryCell? a)

/-- What a task's reads find: whether the task may go on, and the state (R459 to R464). A word's fault lies in the memory that
holds it, a failed check in the unit (R466). A shared unit that has failed for good is the device fault CLUSTER_LOST. -/
def readHealth (cls cell : Nat) (h : Health) (s : State) : Bool × State :=
  match h with
  | .clean => (true, s)
  | .hbmCorrected a => (true, hbmCorrected a s)
  | .sramCorrected => (true, sramCorrected (clusterOf cell) s)
  | .hbmUncorrectable a => (false, stepFault fcHbmUncorrectable (hbmUncorrectable a s))
  | .sramUncorrectable c => (false, faultIn c fcSramUncorrectable (addCount tcSramUe 1 s))
  | .unitCheck => (false, unitFault cls cell fcUnitCheck (addCount tcUnitChecks 1 s))
  | .unitFailed =>
    let t := unitFault cls cell fcUnitCheck (addCount tcUnitChecks 1 s)
    (false, if cls ≤ 3 then t else deviceFault 8 t)

/-- A task's reads: what is found now, and then what is known of the words that it takes. -/
def taskReads (cls cell : Nat) (h : Health) (hits : Nat → Nat → Bool) (s : State) : Bool × State :=
  let g := readHealth cls cell h s
  if g.1 then readHealth cls cell (metHealth hits g.2) g.2 else g

/-- A task in flight reads on in a run that is already stopping: a bad word is withheld and counted, and the run keeps its first
cause (R239, R473). -/
def stoppingRead (cls cell : Nat) (h : Health) (s : State) : State :=
  if stepRunning s && (!stepActive s && (cellOf s cell).flight.any fun f => dClass f.desc == cls) then (readHealth cls cell h s).2
  else s

/-- A task that reads nothing of engine memory. -/
def readsNothing (_cell : Nat) (_d : Desc) (_s : State) (_a _n : Nat) : Bool := false

/-! ## Issue (R44, R57) -/

/-- How the work of a task stands when its unit has taken it. -/
inductive TaskEnd where
  /-- Its own work is done; it completes by TASK_COMPLETE. -/
  | finished
  /-- It waits for something of its own: an answer, a Beat count, an object or another engine. -/
  | waits
  deriving DecidableEq, Repr

/-- The count counter of a voidable task reads 1 (R57). -/
def isVoid (s : State) (cell : Nat) (d : Desc) : Bool :=
  dVoidable d && depGet s cell (waitCounter d.waitB) == 1

/-- Takes the head task of the class's queue, if it is of the operation meant and may issue (R44). -/
def issuable? (s : State) (cell cls : Nat) (meant : Desc → Bool) : Option Desc :=
  match headTask? s cell (queueOf cls) with
  | none => none
  | some d =>
    if stepActive s ∧ cellEnabled s cell = true ∧ dClass d = cls ∧ meant d = true ∧ waitsMet s cell d = true ∧
        ((cellOf s cell).flight.filter fun f => f.queue == queueOf cls).length < queueLimit (queueOf cls) then some d
    else none

/-- Adds a task to the cell's tasks in flight. -/
def addFlight (cell : Nat) (d : Desc) (e : TaskEnd) (s : State) : State :=
  let x := cellOf s cell
  setCell cell { x with flight := x.flight ++
    [{ index := d.index, queue := queueOf (dClass d), desc := d, parts := [], finished := e == .finished
       until? := none, needs := none, stalled := false, cause := none, pooled := false }] } s

/-- Changes the task in flight with an index. -/
def mapFlight (cell index : Nat) (f : Flight → Flight) (s : State) : State :=
  let x := cellOf s cell
  setCell cell { x with flight := x.flight.map fun t => if t.index = index then f t else t } s

/-- The task in flight with an index. -/
def flight? (s : State) (cell index : Nat) : Option Flight := (cellOf s cell).flight.find? fun f => f.index == index

/-- Removes a task from flight. -/
def dropFlight (cell index : Nat) (s : State) : State :=
  let x := cellOf s cell
  setCell cell { x with flight := x.flight.filter fun f => f.index != index } s

/-- Issues the head task of an operation: a void task signals at once without its unit (R57); otherwise the task goes in
flight, its reads are judged, and its unit works. `reads` tells the bytes that it takes. While no task may issue, the event is
only what a task in flight of a stopping run reads (log 2). -/
def issueTask (cls : Nat) (meant : Desc → Bool) (reads : Nat → Desc → State → Nat → Nat → Bool)
    (work : Nat → Desc → State → TaskEnd × State) (cell : Nat) (h : Health) (s : State) : State :=
  match issuable? s cell cls meant with
  | none => stoppingRead cls cell h s
  | some d =>
    let x := cellOf s cell
    let s := progress (setCell cell { x with window := markIssued d.index d.step x.window } s)
    let s :=
      if isVoid s cell d then
        let s := mapRun (fun r => { r with voids := r.voids + 1 }) s
        perfAdd (clusterOf cell) 0x0C 1 (applySignal cell d (traceEvent cell d 2 s))
      else
        let s := traceEvent cell d 0 s
        let g := taskReads cls cell h (reads cell d s) s
        if g.1 then
          let t := addFlight cell d .waits g.2
          let e := work cell d t
          if stepActive e.2 then mapFlight cell d.index (fun f => { f with finished := e.1 == .finished }) e.2 else e.2
        else addFlight cell d .waits g.2
    settleDrain (settleCell cell s)

/-- Completes a task in flight: its signal is applied (R46). -/
def completeTask (cell index : Nat) (s : State) : State :=
  match flight? s cell index with
  | none => s
  | some f =>
    if stepActive s ∧ f.finished = true then
      progress (applySignal cell f.desc (traceEvent cell f.desc 1 (dropFlight cell index s)))
    else s

end Sys2Proof.Machine
end

