-- ==== Sys2Proof/Machine/Fabric.lean ====
section
/-! DEFINITION. The fabric (13): sending and arrival of packets, pair numbering (R327), forwarding tables and choose_port
(R316 to R321), credits (R328), the link layer and port states (R307 to R312, R333), and the probe (R403). -/

namespace Sys2Proof.Machine

/-! ## Forwarding tables (R316) -/

/-- Bytes of a forwarding table. -/
def tableLen : Nat := 140288

/-- The ports that a 16-byte mask of a table names. -/
def tablePorts (m : Mem) (o : Nat) : List Nat := bitList 128 (memLe m o 16)

/-- PORT_ENABLE of a port. -/
def tableEnables (m : Mem) (p : Nat) : Bool := bitOf (memLe m 8 16) p

/-- The expected physical id of a port's neighbour. -/
def tableNeighbour (m : Mem) (p : Nat) : Nat := memLe m (24 + 4 * p) 3

/-- The group of a logical id (R314). -/
def groupOf (id : Nat) : Nat := id / 256 % 4096

/-- The member of a logical id. -/
def memberOf (id : Nat) : Nat := id % 256

/-- The two masks of choose_port for a destination, with their costs: the direct ports and the alternative ones. -/
def routeMasks (m : Mem) (self dst : Nat) : List Nat × Nat × List Nat × Nat :=
  if groupOf dst = groupOf self then
    (tablePorts m (1024 + 32 * memberOf dst), 1, tablePorts m (1024 + 32 * memberOf dst + 16), 2)
  else
    (tablePorts m (9216 + 32 * groupOf dst), 2, tablePorts m (9216 + 32 * groupOf dst + 16), 3)

/-! ## Credits and the choice of a port (R317, R318, R328) -/

/-- Bytes of a packet. -/
def packetBytes (p : Packet) : Nat := 32 + p.payload.length

/-- Credit units of a packet, and the flits that carry it. -/
def packetUnits (p : Packet) : Nat := ceilDiv (packetBytes p) 240

/-- The credit lane of virtual channel v at hop lane h (R328). -/
def creditLane (v h : Nat) : Nat := 3 * v + h - 1

/-- The lane that a packet takes at the end of its next link (R319, R328). -/
def nextLane (p : Packet) : Nat := creditLane (vcOf p) (hopsOf p + 1)

/-- The lane of the own receive buffer that a packet came in on (R319, R328). -/
def arrivalLane (p : Packet) : Nat := creditLane (vcOf p) (hopsOf p)

/-- Units reserved for a lane (R328). -/
def laneReserved (lane : Nat) : Nat := if lane < 3 then 8 else 16

/-- Shared units that the lanes of channels 1 to 5 have taken: a lane draws on its reserved units first (R328). -/
def sharedTaken (used : Tbl) : Nat :=
  ((List.range 15).map fun i => tblGet used (i + 3) - laneReserved (i + 3)).foldl (· + ·) 0

/-- The free units of a lane of a receive buffer, from the units taken of every lane: channel 0 has no shared units (R328). -/
def laneFree (used : Tbl) (lane : Nat) : Nat :=
  (laneReserved lane - tblGet used lane) + if lane < 3 then 0 else 120 - sharedTaken used

/-- The free credit units that the neighbour of a port has granted on the lane of a packet. -/
def freeUnits (s : State) (q : Nat) (p : Packet) : Nat := laneFree (portOf s q).used (nextLane p)

/-- A port of the mask that is up. -/
def anyUp (s : State) (m : List Nat) : Bool := m.any (portUp s)

/-- A port of the mask that is up has credits for the whole packet. -/
def hasCredit (s : State) (m : List Nat) (p : Packet) : Bool :=
  m.any fun q => portUp s q && decide (packetUnits p ≤ freeUnits s q p)

/-- best() of R318: the port that is up with the most free units, the lowest number winning ties. -/
def bestPort (s : State) (m : List Nat) (p : Packet) : Option Nat :=
  (m.filter (portUp s)).foldl (fun b q =>
    match b with
    | none => some q
    | some r => if freeUnits s r p < freeUnits s q p then some q else some r) none

/-- What choose_port returns. -/
inductive Route where
  | land
  | port (p : Nat) (alt : Bool)
  | unroutable
  deriving DecidableEq, Repr

/-- choose_port of R317. -/
def choosePort (s : State) (p : Packet) : Route :=
  let dst := p.dst.toNat % 2 ^ 20
  if dst = selfId s then .land
  else
    let r := routeMasks s.fab.active (selfId s) dst
    let dirOk := anyUp s r.1 && decide (hopsOf p + r.2.1 ≤ 3)
    let altOk := anyUp s r.2.2.1 && decide (hopsOf p + r.2.2.2 ≤ 3)
    let pick (m : List Nat) (alt : Bool) : Route :=
      match bestPort s m p with
      | some q => .port q alt
      | none => .unroutable
    if dirOk && (altOk && (hopsOf p == 0 && (!hasCredit s r.1 p && hasCredit s r.2.2.1 p))) then
      pick r.2.2.1 true
    else if dirOk then pick r.1 false
    else if altOk then pick r.2.2.1 true
    else .unroutable

/-! ## Pairs of devices (R327, R348 to R351) -/

/-- A pair at JOB_OPEN: numbering from 0 and nothing seen. -/
def Pair.init : Pair where
  nextPsn := 0
  doneTo := 0
  done := []
  sentCum := 0
  inRun := false
  peerCum := 0
  atomics := []
  seen := []
  kept := []

/-- The pair with a device. -/
def pairOf (s : State) (d : Nat) : Pair := kvGetD s.rem.pairs d Pair.init

/-- Replaces a pair. -/
def setPair (d : Nat) (q : Pair) (s : State) : State := { s with rem := { s.rem with pairs := kvPut s.rem.pairs d q } }

/-- The PSN of the packet that a count stands before. -/
def psnAt (n : Nat) : Word := BitVec.ofNat 32 n

/-- The cumulative acknowledgement of a count: the highest PSN whose outcome is held; 0 while none is (R351, R470). -/
def cumOf (n : Nat) : Word := psnAt (n - 1)

/-- Carries the own cumulative acknowledgement past every PSN whose outcome is held, at most n of them. -/
def advanceDone : Nat → Nat → List Word → Nat × List Word
  | 0, c, l => (c, l)
  | n + 1, c, l =>
    if l.contains (psnAt c) then advanceDone n (c + 1) (l.filter fun x => x != psnAt c) else (c, l)

/-- The outcome of a PSN is held. -/
def markDone (d : Nat) (psn : Word) (s : State) : State :=
  let q := pairOf s d
  let l := if q.done.contains psn then q.done else psn :: q.done
  let r := advanceDone (l.length + 1) q.doneTo l
  let below (x : Word) : Bool := decide ((x - psnAt q.doneTo).toNat < r.1 - q.doneTo)
  setPair d { q with doneTo := r.1, done := r.2, atomics := q.atomics.filter fun x => !below x } s

/-- A received CUM removes seen records and kept results at or below it (R351); an older one changes nothing. A CUM of 0
removes nothing: a sender that holds no outcome yet carries it too (DESIGN CHOICE, log 92). -/
def takeCum (d : Nat) (cum : Word) (s : State) : State :=
  let q := pairOf s d
  let c := cum + 1
  let adv := (c - q.peerCum).toNat
  if cum ≠ 0 ∧ adv < 2 ^ 31 then
    let below (x : Word) : Bool := decide ((x - q.peerCum).toNat < adv)
    setPair d { q with
      peerCum := c, seen := q.seen.filter (fun x => !below x), kept := q.kept.filter fun x => !below x.1 } s
  else s

/-! ## Sending (R323, R327, R343, R400) -/

/-- The fields of a packet that its sender chooses. -/
structure Out where
  dst : Nat
  op : Nat
  vc : Nat
  unit : Bool
  arrEn : Bool
  addr : Nat
  arr : Nat
  payload : List Byte
  deriving DecidableEq, Repr

/-- The packet of a sender's fields with a PSN; HOPS is 0 (R319). -/
def packetOf (s : State) (o : Out) (psn : Word) : Packet :=
  sealPacket {
    dst := BitVec.ofNat 32 (o.dst % 2 ^ 20), src := BitVec.ofNat 32 (selfId s), job := s.job.id
    vcop := BitVec.ofNat 8 (32 * o.vc + o.op)
    flags := BitVec.ofNat 8 (32 * myStepBit s + (if o.unit then 16 else 0) + if o.arrEn then 8 else 0)
    addr := BitVec.ofNat 64 o.addr, length := BitVec.ofNat 16 o.payload.length, arr := BitVec.ofNat 16 o.arr
    psn := psn, hcrc := 0, payload := o.payload }

/-- The exchange unit of a cluster as a source of packets (R329, R339). -/
def exchangeSource (cluster : Nat) : Nat := 128 + cluster

/-- Puts a packet of a source on its way: by loopback to this device itself (R51), else to wait for its output. -/
def dispatchPacket (p : Packet) (request : Bool) (source : Nat) (s : State) : State :=
  if p.dst.toNat % 2 ^ 20 = selfId s then { s with rem := { s.rem with loop := s.rem.loop ++ [p] } }
  else { s with rem := { s.rem with
    tx := s.rem.tx ++ [{ packet := p, request := request, port := none, transit := false, source := source, credit := none }] } }

/-- What the answer to a request does at its sender. -/
structure Answer where
  answerAt : Option Nat
  landing : Option (Nat × Nat × Bool)
  /-- BG of a GET (R337). -/
  bg : Bool
  deriving DecidableEq, Repr

/-- Makes a numbered request packet of a task, which waits for its answer (R327, R350). -/
def sendRequest (cell index : Nat) (o : Out) (a : Answer) (s : State) : State :=
  let q := pairOf s o.dst
  let psn := q.nextPsn
  let p := packetOf s o psn
  let s := setPair o.dst { q with
    nextPsn := psn + 1, atomics := if o.op = 0x08 then q.atomics ++ [psn] else q.atomics } s
  let step : Word := match s.ctl.run with
    | some r => r.g.step
    | none => 0
  let r : Request := {
    dst := o.dst, packet := p, cluster := clusterOf cell, cell := cell, index := index, step := step
    answerAt := a.answerAt, landing := a.landing, bg := a.bg, timer := 0, sent := 0, port := none }
  dispatchPacket p true (exchangeSource (clusterOf cell)) { s with rem := { s.rem with requests := s.rem.requests ++ [r] } }

/-- The 16-byte response head (R343) with the own CUM for the reverse pair. -/
def responseHead (psn : Word) (status reason kind : Nat) (cum : Word) : List Byte :=
  natLe 4 psn.toNat ++ natLe 2 status ++ natLe 1 reason ++ natLe 1 kind ++ natLe 4 cum.toNat ++ natLe 4 0

/-- Makes an answer: PSN 0 and no number (R327), and the CUM of its moment. -/
def sendAnswer (source dst op vc : Nat) (psn : Word) (status reason kind : Nat) (data : List Byte) (s : State) : State :=
  let o : Out := { dst := dst, op := op, vc := vc, unit := false, arrEn := false, addr := 0, arr := 0
                   payload := responseHead psn status reason kind (cumOf (pairOf s dst).doneTo) ++ data }
  dispatchPacket (packetOf s o 0) false source s

/-- The answer queue of the port die by which a port's packets come in (R398). -/
def answerQueue (port : Nat) : Nat := 144 + port / 64

/-- The answer queue of the packet being taken; a loopback packet passes no port die. -/
def answerSource (s : State) : Nat :=
  match s.rem.arrival with
  | some p => answerQueue p
  | none => 147

/-- The answer to a request packet waits in the answer queue of its port die (R398). -/
def sendReply (dst op : Nat) (psn : Word) (status reason : Nat) (data : List Byte) (s : State) : State :=
  sendAnswer (answerSource s) dst op 1 psn status reason 0 data s

/-- An entry of the answer queue is free for a packet that came in by a port; loopback needs none. The queue has at
least one entry, and the manual gives no more of its size (R398, log 84). -/
def answerRoom (s : State) (from? : Option Nat) : Bool :=
  match from? with
  | none => true
  | some p =>
    let l := s.rem.tx.filter fun t => t.source == answerQueue p
    l.isEmpty || decide (l.length ≤ Config.answerExtra)

/-! ## Arrival (R326) -/

/-- The virtual channels that R325 allows for an operation; none for a reserved code. -/
def vcsOf (op : Nat) : List Nat :=
  match op with
  | 0x01 => [4]
  | 0x02 => [4]
  | 0x04 => [3]
  | 0x05 => [1]
  | 0x06 => [3]
  | 0x07 => [2]
  | 0x08 => [3]
  | 0x09 => [1]
  | 0x0A => [4, 5]
  | 0x0B => [3]
  | 0x0C => [4, 5]
  | 0x0D => [1]
  | 0x0E => [1]
  | 0x10 => [0]
  | 0x11 => [0]
  | 0x12 => [0]
  | 0x13 => [5]
  | _ => []

/-- The destination's header checks (R326). -/
def headerOk (p : Packet) : Bool :=
  (p.hcrc == hcrcOf p) && ((vcsOf (opOf p)).contains (vcOf p) && (decide (p.length.toNat ≤ 4096) &&
    (decide (p.dst.toNat < 2 ^ 20) && (decide (p.src.toNat < 2 ^ 20) && (p.flags.toNat % 8 == 0 &&
      decide (p.addr.toNat < 2 ^ 40))))))

/-- A packet's flits arrive on a port that is up. -/
def countFlits (port : Nat) (p : Packet) (s : State) : State :=
  let q := portOf s port
  setPort port { q with
    flitsRx := q.flitsRx + packetUnits p, rxAck := q.rxAck + BitVec.ofNat 12 (packetUnits p) } s

/-- An ATOMIC, a GET or a FLAG_STORE that its sender holds (R346, R401), the pair window of R348, and the outstanding
entries of a cluster (R400). A packet that is no request of this device is never held. -/
def mayLeave (s : State) (p : Packet) : Bool :=
  let dst := p.dst.toNat % 2 ^ 20
  let rs := s.rem.requests
  match rs.find? fun r => r.dst == dst && (r.packet.psn == p.psn && (r.packet.src == p.src && opOf r.packet == opOf p)) with
  | none => true
  | some me =>
    let earlier := rs.takeWhile fun r => !(r.dst == dst && r.packet.psn == p.psn)
    let before (ops : List Nat) : Nat := (earlier.filter fun r => r.dst == dst && ops.contains (opOf r.packet)).length
    let q := pairOf s dst
    let table := (rs.filter fun r => r.cluster == me.cluster && (decide (0 < r.sent) && decide (4 ≤ opOf r.packet))).length
    decide ((p.psn - cumOf q.sentCum).toNat < 4096) &&
      ((opOf p != 0x07 || before [0x06, 0x07, 0x08, 0x0A] == 0) &&
      ((opOf p != 0x08 || decide ((q.atomics.takeWhile fun x => x != p.psn).length < 4)) &&
      ((opOf p != 0x0B || decide (before [0x0B] < 16)) &&
       (decide (opOf p < 4) || (decide (0 < me.sent) || decide (table < 8192))))))

/-- The port die of a port has a UCIe module in service (R468). -/
def dieAlive (s : State) (port : Nat) : Bool :=
  if port < 64 then decide (0 < s.errs.dieModulesA) else decide (0 < s.errs.dieModulesB)

/-- A request of this device that a packet carries. -/
def carries (p : Packet) (r : Request) : Bool :=
  r.dst == p.dst.toNat % 2 ^ 20 && (r.packet.psn == p.psn && (r.packet.src == p.src && opOf p == opOf r.packet))

/-- CUM of a response head (R343). -/
def headCum (p : Packet) : Word := BitVec.ofNat 32 (fieldOf p.payload 8 4)

/-- The count of outcomes held for which a CUM not newer than the pair's own stands (R348, R351). -/
def countOfCum (q : Pair) (cum : Word) : Nat := q.doneTo - (cumOf q.doneTo - cum).toNat

/-- The packet leaves this device, by a port or by loopback: the timer of a request starts (R350), a request that has left
before counts one E2E_RETRIES (R359), its run has sent to the peer (R351), and the CUM that an answer carries counts as
sent (R348). -/
def noteLeft (port : Option Nat) (p : Packet) (s : State) : State :=
  let dst := p.dst.toNat % 2 ^ 20
  let q := pairOf s dst
  if s.rem.requests.any (carries p) then
    let again := s.rem.requests.any fun r => carries p r && decide (0 < r.sent)
    let s := if again then addCount tcE2eRetries 1 s else s
    setPair dst { q with inRun := q.inRun || stepActive s } { s with rem := { s.rem with
      requests := s.rem.requests.map fun r =>
        if carries p r then { r with sent := r.sent + 1, timer := 0, port := port } else r } }
  else if [0x05, 0x09, 0x0C, 0x0D, 0x0E].contains (opOf p) && p.src.toNat % 2 ^ 20 == selfId s then
    setPair dst { q with sentCum := countOfCum q (headCum p) } s
  else s

/-- A request of a run that is stopping leaves no more (R354). -/
def stoppedPacket (s : State) (p : Packet) : Bool := !stepActive s && s.rem.requests.any (carries p)

/-- A packet comes in: on a port that is up, or by loopback if it is on its way and may leave. None if it cannot. -/
def arrive? (from? : Option Nat) (p : Packet) (s : State) : Option State :=
  match from? with
  | some port =>
    if portUp s port && dieAlive s port then
      some (countFlits port p { s with rem := { s.rem with arrival := some port } })
    else none
  | none =>
    if s.rem.loop.contains p && (mayLeave s p && !stoppedPacket s p) then
      some (noteLeft none p { s with rem := { s.rem with
        loop := eraseFirst (fun q => q == p) s.rem.loop, arrival := none } })
    else none

/-- A packet for this device (R314, R321): DST is its active SELF, or NONE for a link-local one. -/
def forMe (s : State) (p : Packet) : Bool :=
  let d := p.dst.toNat % 2 ^ 20
  d == 0xFFFFF || d == selfId s

/-! ## Flits and credit returns (R308, R328) -/

/-- Changes a port. -/
def mapPort (p : Nat) (f : Port → Port) (s : State) : State := setPort p (f (portOf s p)) s

/-- The bytes of a packet on a link (R323). -/
def packetData (p : Packet) : List Byte :=
  natLe 4 p.dst.toNat ++ natLe 4 p.src.toNat ++ natLe 2 p.job.toNat ++ natLe 1 p.vcop.toNat ++ natLe 1 p.flags.toNat ++
    natLe 8 p.addr.toNat ++ natLe 2 p.length.toNat ++ natLe 2 p.arr.toNat ++ natLe 4 p.psn.toNat ++ natLe 4 p.hcrc.toNat ++
    p.payload

/-- Bytes 0 to 239 of a flit; zeros where it carries nothing. -/
def flitData (f : Flit) : List Byte :=
  match f.packet with
  | some p => let d := ((packetData p).drop (240 * f.part)).take 240; d ++ List.replicate (240 - d.length) 0
  | none => List.replicate 240 0

/-- The 128-bit value of a trailer with a FCRC (R308). -/
def trailerValue (t : Trailer) (fcrc : Nat) : Nat :=
  t.fseq.toNat * 2 ^ 116 + t.ack.toNat * 2 ^ 104 + t.kind * 2 ^ 102 + t.laneA * 2 ^ 97 + t.countA * 2 ^ 91 +
    t.laneB * 2 ^ 86 + t.countB * 2 ^ 80 + fcrc

/-- FCRC: CRC-32C over the flit with its own field taken as 0 (R308). -/
def flitCrc (f : Flit) : BitVec 32 := crc32c (flitData f ++ natLe 16 (trailerValue f.trailer 0))

/-- The 256 bytes of a flit (R308). -/
def flitBytes (f : Flit) : List Byte := flitData f ++ natLe 16 (trailerValue f.trailer (flitCrc f).toNat)

/-- One credit return, at most 63 units of the lowest lane that has some due, and what stays due. -/
def takeDue (due : Tbl) : Nat × Nat × Tbl :=
  match due with
  | [] => (0, 0, [])
  | (l, n) :: _ => (l, min 63 n, tblPut due l (n - 63))

/-- The port sends one flit of a kind, with the next FSEQ, its ACK and two credit returns, and keeps it until it is
acknowledged (R308, R309). -/
def sendFlit (kind : Nat) (packet : Option Packet) (part : Nat) (q : Port) : Port :=
  let a := takeDue q.due
  let b := takeDue a.2.2
  let t : Trailer := {
    fseq := q.fseq, ack := q.rxAck, kind := kind, laneA := a.1, countA := a.2.1, laneB := b.1, countB := b.2.1 }
  { q with fseq := q.fseq + 1, due := b.2.2, unacked := q.unacked ++ [⟨t, packet, part⟩] }

/-- The DATA flits of a packet from part i on: each packet begins a flit (DEDUCED, log 67). -/
def sendFlits : Nat → Nat → Packet → Port → Port
  | 0, _, _, q => q
  | n + 1, i, p, q => sendFlits n (i + 1) p (sendFlit 0 (some p) i q)

/-- Units that are due go back in IDLE flits at once, while the port is up and may send (log 67, log 84). -/
def returnDue : Nat → Port → Port
  | 0, q => q
  | n + 1, q =>
    if portIsUp q && (!q.due.isEmpty && decide (q.unacked.length < 512)) then returnDue n (sendFlit 1 none 0 q) else q

/-- The units of the lanes due are returned: at most 384 in 18 lanes, which 24 flits carry. -/
def settleDue (q : Port) : Port := returnDue 24 q

/-- Units of the own receive buffer come free. -/
def giveUnits (port lane n : Nat) (s : State) : State :=
  mapPort port (fun q => settleDue { q with due := tblAdd q.due lane n }) s

/-- A packet leaves the receive buffer of its arrival port; loopback holds none. -/
def leaveBuffer (from? : Option Nat) (p : Packet) (s : State) : State :=
  match from? with
  | some port => giveUnits port (arrivalLane p) (packetUnits p) s
  | none => s

/-! ## The UCIe attachments of the port dies (R330, R404) -/

/-- Flits that wait for their acknowledgement. -/
def unackedFlits (q : Port) : Nat := q.unacked.length

/-- The packet may start on a port: it is up, holds credits for the whole packet, and its replay buffer has room. -/
def mayStart (s : State) (port : Nat) (p : Packet) : Bool :=
  portUp s port && dieAlive s port && (decide (packetUnits p ≤ freeUnits s port p) &&
    decide (unackedFlits (portOf s port) + packetUnits p ≤ 512))

/-- A request of a run that is stopping leaves no more (R354). -/
def stoppedRequest (s : State) (t : TxItem) : Bool := t.request && !stepActive s

/-- The output that a waiting packet takes as things stand: none while it is held, lands here or has no route. -/
def outputOf (s : State) (t : TxItem) : Option Nat :=
  match t.port with
  | some q => some q
  | none =>
    if stoppedRequest s t || !mayLeave s t.packet then none
    else match choosePort s t.packet with
      | .port q _ => some q
      | .land => none
      | .unroutable => none

/-- A transit packet that comes in by a port of one port die and may start on a port of the other waits at the attachments
of both: its flits are served there before any that land here or that this device sends (R330). -/
def crossing (s : State) (die : Nat) : Bool :=
  s.rem.tx.any fun t => t.transit && match outputOf s t with
    | some q => t.source / 64 != q / 64 && (mayStart s q t.packet && (t.source / 64 == die || q / 64 == die))
    | none => false

/-- A landing packet waits at the attachment of a port die, in the buffer of its port. -/
def landingWaits (s : State) (die : Nat) : Bool := s.fab.parked.any fun w => w.port.any fun p => p / 64 == die

/-- A packet that came in by a port waits before it lands: transit flits cross its port die, or a packet that came before it
still waits. Channel 0 never waits (R398; DESIGN CHOICE, log 84). -/
def landingHeld (s : State) (from? : Option Nat) (p : Packet) : Bool :=
  match from? with
  | some q => vcOf p != 0 && (crossing s (q / 64) || landingWaits s (q / 64))
  | none => false

/-- A landing packet waits in the buffer of its port. -/
def park (from? : Option Nat) (p : Packet) (s : State) : State :=
  { s with fab := { s.fab with parked := s.fab.parked ++ [⟨from?, p, true, false⟩] } }

/-- A packet of an operation reaches this device: it is checked, a bad header discards it, and it leaves its buffer to land,
at once unless flits in transit come before it (R326, R330, R398). -/
def receive (op : Nat) (linkLocal : Bool) (from? : Option Nat) (p : Packet) (f : State → State) (s : State) : State :=
  match arrive? from? p s with
  | none => s
  | some t =>
    if forMe s p then
      if headerOk p then
        if opOf p = op ∧ (p.dst.toNat % 2 ^ 20 == 0xFFFFF) = linkLocal then
          if landingHeld t from? p then park from? p t else f (leaveBuffer from? p t)
        else s
      else addCount tcDiscardHeader 1 (leaveBuffer from? p t)
    else s

/-! ## Leaving and returning to service (R310, R311) -/

/-- The ports may train: the device has a physical id, and its firmware has started them (R310, R451). A boot that fails
after its firmware has started takes no port out of service (R310, R481). -/
def mayTrain (s : State) : Bool :=
  s.mgmt.physId != 0xFFFFFF && (s.boot.stage == .ready || (s.boot.stage == .firmwareInit ||
    (s.boot.stage == .failed && s.boot.fw.isSome)))

/-- A port goes to a state that carries nothing. A packet of which it holds only part is discarded (R311). -/
def leaveService (port : Nat) (st : PortState) (part : Bool) (s : State) : State :=
  let s := if portUp s port && part then addCount tcDiscardPartial 1 s else s
  mapPort port (fun q => { q with
    state := st, naks := 0
    retrains := if st = .training ∧ q.trained = true then q.retrains + 1 else q.retrains }) s

/-- Begins a training of a port for a reason of the device's own; whether a packet is partly held is free. -/
def retrain (port : Nat) (s : State) : State :=
  let c := freeChoice s
  leaveService port .training c.1 c.2

/-- Disables a port. -/
def disablePort (port : Nat) (s : State) : State :=
  let c := freeChoice s
  leaveService port .disabled c.1 c.2

/-- A port is disabled, or begins training, as the active table and the physical id say; a MISCABLED one tries again only
when the tables change (R310). -/
def settlePort (tables : Bool) (s : State) (port : Nat) : State :=
  let on := mayTrain s && (s.fab.hasActive && tableEnables s.fab.active port)
  let st := (portOf s port).state
  if on then
    if st = .disabled ∨ (st = .miscabled ∧ tables = true) then mapPort port (fun q => { q with
      state := .training, retrains := if q.trained then q.retrains + 1 else q.retrains }) s else s
  else if st = .disabled then s
  else disablePort port s

/-- Every port is brought in line with the active table. -/
def settlePorts (tables : Bool) (s : State) : State := (List.range 128).foldl (settlePort tables) s

/-- Swaps the forwarding tables, if the shadow copy is marked ready (R21, R316). -/
def tableSwap (s : State) : State :=
  if s.fab.shadowReady then
    settlePorts true { s with fab := { s.fab with active := s.fab.shadow, hasActive := true, shadowReady := false } }
  else s

/-- The shadow copy breaks a rule of R316 and its ready mark is refused. -/
def tableRefused (m : Mem) : Bool :=
  let enabled := memLe m 8 16
  let outside (o : Nat) : Bool := memLe m o 16 &&& (2 ^ 128 - 1 - enabled) != 0
  let self := memLe m 0 4
  let zeros (o n : Nat) : Bool := (memSlice m o n).isEmpty
  groupOf self == 0xFFF || (decide (2 ^ 20 ≤ self) || (!zeros 4 4 || (!zeros 536 488 ||
    ((List.range 128).any (fun p => memLe m (27 + 4 * p) 1 != 0) ||
    ((List.range 512).any (fun i => outside (1024 + 16 * i)) || ((List.range 8192).any (fun i => outside (9216 + 16 * i)) ||
    (!zeros (1024 + 32 * memberOf self) 32 || !zeros (9216 + 32 * groupOf self) 32)))))))

/-! ## Commands -/

/-- DATA flits that wait for their acknowledgement, which a replay sends again (R309, R332). -/
def unackedData (q : Port) : Nat := (q.unacked.filter fun f => f.trailer.kind == 0).length

/-- Takes an ACK of the neighbour (R308): the port, and how many flits it acknowledged. Progress ends a run of NAKs
(R309). -/
def takeAck (ack : BitVec 12) (q : Port) : Port × Nat :=
  let base := q.fseq - BitVec.ofNat 12 (unackedFlits q)
  let n := (ack + 1 - base).toNat
  if n ≤ unackedFlits q then ({ q with unacked := q.unacked.drop n, naks := if n = 0 then q.naks else 0 }, n) else (q, 0)

/-- A credit return gives units of a lane back (R328). -/
def takeReturn (lane n : Nat) (q : Port) : Port := { q with used := tblPut q.used lane (tblGet q.used lane - n) }

/-- Takes what the trailer of an intact flit says: its ACK, its two credit returns, and an IDLE flit's own number. -/
def takeTrailer (q : Port) (t : Trailer) : Port :=
  let q := takeReturn t.laneB t.countB (takeReturn t.laneA t.countA (takeAck t.ack q).1)
  if t.kind = 1 then { q with rxAck := t.fseq } else q

/-- Takes the trailers that the views show; what was due may then go back. -/
def takeViews (views : List LinkView) (s : State) : State :=
  views.foldl (fun t v => mapPort v.port (fun q => settleDue (v.trailers.foldl takeTrailer q)) t) s

/-- A TIME message takes its PHY timestamp as it leaves: T1 of a SYNC, T3 of a FOLLOW (R365, R367). -/
def stampTime (beat : Nat) (p : Packet) : Packet :=
  if opOf p = 0x12 then
    let o := if p.payload.getD 0 0 = 0 then 16 else 32
    { p with payload := p.payload.take o ++ natLe 8 beat ++ p.payload.drop (o + 8) }
  else p

/-- The packet starts on a port: HOPS counts the link (R319), it takes its units of the neighbour's buffer (R328), and its
flits wait for acknowledgement (R309). -/
def startOn (port : Nat) (p : Packet) (s : State) : State :=
  let p2 := stampTime s.time.beat { p with flags := p.flags + 0x40 }
  let n := packetUnits p2
  let s := mapPort port (fun q =>
    let q := { q with used := tblAdd q.used (nextLane p) n, flitsTx := q.flitsTx + n }
    sendFlits n 0 p2 q) s
  noteLeft (some port) p { s with fab := { s.fab with sent := (port, p2) :: s.fab.sent } }

/-- Removes element i. -/
def dropAt {α : Type} : Nat → List α → List α
  | _, [] => []
  | 0, _ :: r => r
  | n + 1, a :: r => a :: dropAt n r

/-! ## The order of service of an output (R329, R330) -/

/-- A waiting packet is ready for an output: it may start there. -/
def readyFor (s : State) (q : Nat) (t : TxItem) : Bool := outputOf s t == some q && mayStart s q t.packet

/-- The waiting packets that an output may serve now, each with its place. On channels 1 to 5, those that this device
sends wait for the transit and the landings of the attachment that they cross; an answer already stands on its output's port
die (R330, R398; DESIGN CHOICE, log 84). -/
def readyList (s : State) (q : Nat) : List (Nat × TxItem) :=
  let busy := crossing s (q / 64) || landingWaits s (q / 64)
  ((List.range s.rem.tx.length).zip s.rem.tx).filter fun x =>
    readyFor s q x.2 && (x.2.transit || (vcOf x.2.packet == 0 || (x.2.source == answerQueue q || !busy)))

/-- How long ago a source took its turn on a channel: 0 if it has not yet, else its place in the turns. -/
def turnRank (q : Port) (t : TxItem) : Nat :=
  match q.turns.findIdx? fun k => k.1 == vcOf t.packet && k.2 == t.source with
  | some i => i + 1
  | none => 0

/-- Sources take turns, one packet each: the source that waited longest, and its oldest packet (R329). -/
def firstInTurn (q : Port) (l : List (Nat × TxItem)) : Option (Nat × TxItem) :=
  l.foldl (fun b x =>
    match b with
    | none => some x
    | some y => if turnRank q x.2 < turnRank q y.2 then some x else some y) none

/-- The ready packets of a channel. -/
def ofChannel (v : Nat) (l : List (Nat × TxItem)) : List (Nat × TxItem) := l.filter fun x => vcOf x.2.packet == v

/-- Where a channel of 1 to 4 stands in the round: its bytes served, or the round itself after a time with nothing ready. -/
def channelStart (q : Port) (v : Nat) : Nat := max q.round (tblGet q.served v)

/-- Round-robin by byte count: of channels 1 to 4 with a ready packet, the one served least (R329, log 84). -/
def roundChannel (q : Port) (l : List (Nat × TxItem)) : Nat :=
  ([1, 2, 3, 4].filter fun v => !(ofChannel v l).isEmpty).foldl
    (fun b v => if b = 0 ∨ channelStart q v < channelStart q b then v else b) 0

/-- Channel 5 and another channel have ready packets. -/
def contended (l : List (Nat × TxItem)) : Bool :=
  !(ofChannel 5 l).isEmpty && l.any fun x => vcOf x.2.packet != 5

/-- Channel 5 stays within its share with n flits more (R22, R329, R487). -/
def withinShare (s : State) (q : Port) (n : Nat) : Bool :=
  decide ((q.shareBack + n) * 1000000 ≤ s.mgmt.shareFabric * (q.shareAll + n))

/-- The packet that an output serves next (R329): channel 0 strictly first; channel 5 within its share, or when nothing
else is ready; else channels 1 to 4 in their round. -/
def nextOn (s : State) (port : Nat) : Option (Nat × TxItem) :=
  let q := portOf s port
  let l := readyList s port
  let back := firstInTurn q (ofChannel 5 l)
  match firstInTurn q (ofChannel 0 l), back with
  | some x, _ => some x
  | none, some b =>
    if contended l = false ∨ withinShare s q (packetUnits b.2.packet) = true then some b
    else firstInTurn q (ofChannel (roundChannel q l) l)
  | none, none => firstInTurn q (ofChannel (roundChannel q l) l)

/-- The service is noted: the source's turn, the channel's bytes, and the flits that channel 5 contends for. -/
def noteService (t : TxItem) (busy : Bool) (q : Port) : Port :=
  let v := vcOf t.packet
  let n := packetUnits t.packet
  let start := channelStart q v
  let q := { q with turns := (q.turns.filter fun k => k != (v, t.source)) ++ [(v, t.source)] }
  let q := if busy then
    { q with shareAll := q.shareAll + n, shareBack := if v = 5 then q.shareBack + n else q.shareBack } else q
  if 1 ≤ v ∧ v ≤ 4 then { q with round := start, served := tblPut q.served v (start + packetBytes t.packet) } else q

/-- The outcome of an item that has no route (R320). -/
def unroutable (t : TxItem) (s : State) : State :=
  if t.transit then addCount tcDiscardUnroutable 1 s else stepFault fcFabricUnreachable s

/-- A transit packet leaves the receive buffer that it held (R328). -/
def leaveCredit (t : TxItem) (s : State) : State :=
  match t.credit with
  | some (port, lane, n) => giveUnits port lane n s
  | none => s

/-- A waiting packet without its place among them. -/
def unqueue (i : Nat) (t : TxItem) (s : State) : State := leaveCredit t { s with rem := { s.rem with tx := dropAt i s.rem.tx } }

/-- An item starts on the output that serves it now. -/
def serveItem (i port : Nat) (alt : Bool) (t : TxItem) (s : State) : State :=
  let busy := contended (readyList s port)
  let s := unqueue i t (mapPort port (noteService t busy) s)
  startOn port t.packet (if alt then addCount tcViaChosen 1 s else s)

/-- The output serves the item in place i next. -/
def servedNext (s : State) (port i : Nat) : Bool := (nextOn s port).any fun x => x.1 == i

/-- An item of the waiting packets starts on its output if it is that output's next (R329); one with no route is dealt
with at once (R320). -/
def startItem (i : Nat) (t : TxItem) (s : State) : State :=
  match t.port with
  | some q => if servedNext s q i then serveItem i q false t s else s
  | none =>
    if stoppedRequest s t || !mayLeave s t.packet then s
    else
      match choosePort s t.packet with
      | .land =>
        let u := unqueue i t s
        { u with rem := { u.rem with loop := u.rem.loop ++ [t.packet] } }
      | .unroutable => unroutable t (unqueue i t s)
      | .port q alt => if servedNext s q i then serveItem i q alt t s else s

/-- A packet that arrives on a port for another device (R317, R319, R320, R326), or one for this device that fails its
header checks. One that waits for its output holds its receive buffer (R330, R398). -/
def forwardEffect (port : Nat) (p : Packet) (s : State) : State :=
  if portUp s port && dieAlive s port then
    let t := countFlits port p s
    let gone := leaveBuffer (some port) p t
    if forMe s p then (if headerOk p then s else addCount tcDiscardHeader 1 gone)
    else if p.hcrc ≠ hcrcOf p then addCount tcDiscardHeader 1 gone
    else if hopsOf p = 3 then addCount tcDiscardHops 1 gone
    else
      match choosePort s p with
      | .unroutable => addCount tcDiscardUnroutable 1 gone
      | .land => gone
      | .port _ _ => { t with rem := { t.rem with
          tx := t.rem.tx ++ [{ packet := p, request := false, port := none, transit := true, source := port
                               credit := some (port, arrivalLane p, packetUnits p) }] } }
  else s

/-- FORWARD. -/
def execForward (port : Nat) (p : Packet) (s : State) : Host.Outcome State Fault Refusal := .next (forwardEffect port p s)

/-- The port sends a NAK with the next FSEQ, which is not kept (R308, R309, log 67). -/
def sendNak (q : Port) : Port :=
  { q with
    replays := q.replays + 1
    nak := some { fseq := q.fseq, ack := q.rxAck, kind := 2, laneA := 0, countA := 0, laneB := 0, countB := 0 } }

/-- A NAK, or a flit that fails its check, with the flits that follow it up to the replay, which are discarded (R309): 32
NAKs in a row without progress retrain the port. -/
def linkReplayEffect (port : Nat) (e : LinkError) (s : State) : State :=
  if portUp s port then
    match e with
    | .nak ack =>
      let x := takeAck ack (portOf s port)
      let naks := if x.2 = 0 then x.1.naks + 1 else 0
      let s := setPort port { x.1 with naks := naks, flitsTx := x.1.flitsTx + unackedData x.1 } s
      if 32 ≤ naks then retrain port s else s
    | .badCrc => mapPort port sendNak s
    | .badFec => mapPort port (fun q => { sendNak q with fecUncorrected := q.fecUncorrected + 1 }) s
  else s

/-- LINK_REPLAY. -/
def execLinkReplay (port : Nat) (e : LinkError) (s : State) : Host.Outcome State Fault Refusal :=
  .next (linkReplayEffect port e s)

/-- A port out of service for 20 ms: its unacknowledged flits are discarded (R311), its receive buffers are released
(R407), and its credits restart (DESIGN CHOICE, log 84). -/
def replayWindowEffect (port : Nat) (s : State) : State :=
  let s := mapPort port (fun q => { q with unacked := [], used := [], due := [] }) s
  { s with
    rem := { s.rem with
      tx := s.rem.tx.map fun t => if (t.credit.map (·.1)) == some port then { t with credit := none } else t
      lanes := s.rem.lanes.map fun w => if w.port == some port then { w with held := false } else w }
    fab := { s.fab with parked := s.fab.parked.map fun w => if w.port == some port then { w with held := false } else w } }

/-- REPLAY_WINDOW_EXPIRY. -/
def execReplayWindowExpiry (port : Nat) (s : State) : Host.Outcome State Fault Refusal :=
  .next (if portUp s port then s else replayWindowEffect port s)

/-- A lane fails: the port retrains (R310). -/
def execLaneFail (port : Nat) (partial? : Bool) (s : State) : Host.Outcome State Fault Refusal :=
  .next (if portUp s port then leaveService port .training partial? s else s)

/-- A training ends with both ends' ids exchanged: the port comes up, or is MISCABLED (R310, R315). The flits that it
still keeps are replayed (R311). -/
def trainedUp (port : Nat) (st : PortState) (phys : BitVec 24) (logical : BitVec 20) (s : State) : State :=
  let want := tableNeighbour s.fab.active port
  let good := want = 0xFFFFFF ∨ want = phys.toNat
  mapPort port (fun q => { q with
    state := if good then st else .miscabled, phys := phys, logical := logical, trained := true
    flitsTx := if good then q.flitsTx + unackedData q else q.flitsTx }) s

/-- PORT_TRAINED. -/
def execPortTrained (port : Nat) (r : Training) (s : State) : Host.Outcome State Fault Refusal :=
  .next (
    if (portOf s port).state = .training then
      match r with
      | .upFull a b => trainedUp port .upFull a b s
      | .upHalf a b => trainedUp port .upHalf a b s
      | .down => mapPort port (fun q => { q with state := .down, trained := true }) s
    else s)

/-- A DOWN port retries training (R310). -/
def execPortRetry (port : Nat) (s : State) : Host.Outcome State Fault Refusal :=
  .next (if (portOf s port).state = .down then retrain port s else s)

/-- An UP_HALF port retrains to try the failed lane again (R310). -/
def execHalfRetrain (port : Nat) (s : State) : Host.Outcome State Fault Refusal :=
  .next (if (portOf s port).state = .upHalf then retrain port s else s)

/-- A PROBE is consumed into telemetry: its latency is the time since the Beat timestamp that it carries, whose place in
the payload the manual does not give (R398, R403, log 23). -/
def probeEffect (p : Packet) (s : State) : State :=
  { s with fab := { s.fab with
      probes := (p.src.toNat % 2 ^ 20, s.time.beat - fieldOf p.payload Config.probeStampAt 8) :: s.fab.probes } }

/-- PROBE. -/
def execProbe (from? : Option Nat) (p : Packet) (s : State) : Host.Outcome State Fault Refusal :=
  .next (receive 0x13 false from? p (probeEffect p) s)

end Sys2Proof.Machine
end

