-- ==== Sys2Proof/Machine/Host.lean ====
section
/-! DEFINITION. Engine control space: the registers of R429 to R442, mailbox RAM, and the commands IDENTIFY, GET_CAPS and
SET_CONFIG. -/

namespace Sys2Proof.Machine

/-! ## Identity and configuration commands -/

/-- IDB DEV_IDENT and STEPPING (19 IDB). -/
def devIdent : Nat := 0x4B4D5808
/-- IDB STEPPING of stepping B0 (R2). -/
def stepping : Nat := 0xB0

/-- IDENTIFY (R424): DEV_IDENT, STEPPING and the configuration digest. -/
def cmdIdentify (_c : Cmd) (s : State) : CmdEnd :=
  .done stOk (natLe 4 devIdent ++ natLe 4 stepping ++ natLe 8 s.boot.digest.toNat) s

/-- IDENTIFY. -/
def execIdentify (s : State) : Host.Outcome State Fault Refusal := .next (runPlain 0x0101 cmdIdentify s)

/-- The number of logical cells with ENABLED 1. -/
def enabledCells (s : State) : Nat := ((List.range 512).filter (cellEnabled s)).length

/-- A mask of ports, one bit each. -/
def portMask (f : Nat → Bool) : Nat := (List.range 128).foldl (fun m p => if f p then m + 2 ^ p else m) 0

/-- The capability record (R425). -/
def capsRecord (s : State) : List Byte :=
  natLe 2 1 ++ natLe 2 (enabledCells s) ++ natLe 2 1024 ++ natLe 2 4096 ++ natLe 4 65536 ++ natLe 2 16384 ++
    natLe 2 256 ++ natLe 1 32 ++ natLe 1 8 ++ natLe 1 (if s.flash.state = .none then 0 else 48) ++
    natLe 1 s.errs.hostModules ++ natLe 4 4096 ++ natLe 8 hbmBytes ++ natLe 16 (portMask (portUp s)) ++ natLe 16 0

/-- GET_CAPS (R425). -/
def cmdGetCaps (c : Cmd) (s : State) : CmdEnd :=
  if argOk c 64 s then .done stOk [] (putBytes (argAddr c) (capsRecord s) s) else reject stBadArg s

/-- GET_CAPS. -/
def execGetCaps (s : State) : Host.Outcome State Fault Refusal := .next (runLong 0x0102 cmdGetCaps s)

/-- Whether a value is a power of 2 from 64 to 65,536 (R419). -/
def eventEntriesOk (n : Nat) : Bool :=
  [64, 128, 256, 512, 1024, 2048, 4096, 8192, 16384, 32768, 65536].contains n

/-- SET_CONFIG (R419): BAD_STATE while a job is open; otherwise it places both rings and resets their counters, and
queued events go into the new ring. -/
def cmdSetConfig (c : Cmd) (s : State) : CmdEnd :=
  let ea := cmdField c 16 8
  let en := cmdField c 24 4
  let ra := cmdField c 32 8
  let rn := cmdField c 40 8
  if s.job.opened then reject stBadState s
  else if ea % 4096 = 0 ∧ ra % 4096 = 0 ∧ eventEntriesOk en = true ∧ hostOk s ea (32 * en) = true ∧
      hostOk s ra rn = true then
    let s := { s with mb := { s.mb with
      evtRing := some (ea, en), rptRing := some (ra, rn), rptSize := 0, rptEntries := 0
      evtTail := 0, evtHead := 0, rptTail := 0, rptHead := 0 } }
    .done stOk [] (pushEvents s.mb.queue s)
  else reject stBadArg s

/-- SET_CONFIG. -/
def execSetConfig (s : State) : Host.Outcome State Fault Refusal := .next (runSerial 0x0103 cmdSetConfig s)

/-- The opcodes of R424 that are not reserved. -/
def knownOpcodes : List Nat :=
  [0x0101, 0x0102, 0x0103, 0x0201, 0x0202, 0x0301, 0x0302, 0x0401, 0x0402, 0x0403, 0x0404, 0x0405, 0x0501, 0x0502,
   0x0503, 0x0504, 0x0505, 0x0601, 0x0602, 0x0603, 0x0604, 0x0605, 0x0606, 0x0701, 0x0702, 0x0703, 0x0801, 0x0802,
   0x0803, 0x0804, 0x0805, 0x0806, 0x0901, 0x0A01, 0x0B01, 0x0B02]

/-- A reserved opcode (R423): the command completes with BAD_ARG. -/
def execReservedOpcode (s : State) : Host.Outcome State Fault Refusal :=
  .next (runCmd (fun c => !(knownOpcodes.contains c.op)) (fun _ t => reject stBadArg t) s)

/-! ## Mailbox registers (R414) -/

/-- The control firmware has reported READY since the last reset: MBB, EVB, TMB and CLS take writes (R412, R430). -/
def firmwareUp (s : State) : Bool := s.boot.stage == .ready

/-- STAGE becomes FAILED with an error code, and the PLDM event READY carries both (R443, R486). -/
def bootFail (code : Nat) (s : State) : State :=
  pldmEvent 5 (natLe 1 0xF ++ natLe 2 code)
    { s with boot := { s.boot with stage := .failed, error := BitVec.ofNat 16 code } }

/-- The fields of a load record break R449: 0x0311. -/
def loadRecordBad (b : List Byte) : Bool :=
  fieldOf b 0 4 != 0x46574C44 || (decide (fieldOf b 4 4 < 7488) || (decide (25165824 < fieldOf b 4 4) ||
    (fieldOf b 8 8 % 4096 != 0 || (decide (fieldOf b 8 8 < hostBase) ||
      (decide (windowBase < fieldOf b 8 8 + fieldOf b 4 4) || !(allZero (b.drop 16)))))))

/-- The doorbell of the load record in MONITOR_RUN: a write of 1 (R449). A write of another value rings nothing
(log 50). -/
def loadRecordEffect (v : Word) (s : State) : State :=
  let b := memRead s.mb.ram 0 64
  if s.boot.stage = .monitorRun ∧ v = 1 then
    if loadRecordBad b then bootFail 0x0311 s
    else { s with boot := { s.boot with
      stage := .firmwareVerify, loadSrc := fieldOf b 8 8, loadLen := fieldOf b 4 4 } }
  else s

/-- A module of the host link is in service: with none no write of the host reaches the device (R408). -/
def hostLink (s : State) : Bool := decide (0 < s.errs.hostModules)

/-- LOAD_RECORD. -/
def execLoadRecord (v : Word) (s : State) : Host.Outcome State Fault Refusal :=
  .next (if hostLink s then loadRecordEffect v s else s)

/-- A write of CMD_DOORBELL: accepted when it is at most 256 ahead of CMD_HEAD (R414). In MONITOR_RUN it is the load
record's (R449). -/
def writeCmdDoorbell (v : Word) (s : State) : State :=
  let h : Half := v.setWidth 16
  if s.boot.stage = .monitorRun then loadRecordEffect v s
  else if firmwareUp s ∧ (h - s.mb.cmdHead).toNat ≤ 256 then { s with mb := { s.mb with cmdDoorbell := h } } else s

/-- CMD_DOORBELL. -/
def execCmdDoorbell (v : Word) (s : State) : Host.Outcome State Fault Refusal :=
  .next (if hostLink s then writeCmdDoorbell v s else s)

/-- A write of CPL_HEAD: accepted up to CPL_TAIL (R414). -/
def writeCplHead (v : Word) (s : State) : State :=
  let h : Half := v.setWidth 16
  if firmwareUp s ∧ (h - s.mb.cplHead).toNat ≤ (s.mb.cplTail - s.mb.cplHead).toNat then
    { s with mb := { s.mb with cplHead := h } } else s

/-- CPL_HEAD. -/
def execCplHead (v : Word) (s : State) : Host.Outcome State Fault Refusal :=
  .next (if hostLink s then writeCplHead v s else s)

/-- A write of EVT_HEAD: accepted up to EVT_TAIL (R414). Freed entries take queued events (R406). -/
def writeEvtHead (v : Word) (s : State) : State :=
  if firmwareUp s ∧ (v - s.mb.evtHead).toNat ≤ (s.mb.evtTail - s.mb.evtHead).toNat then
    let s := { s with mb := { s.mb with evtHead := v } }
    pushEvents s.mb.queue s
  else s

/-- EVT_HEAD. -/
def execEvtHead (v : Word) (s : State) : Host.Outcome State Fault Refusal :=
  .next (if hostLink s then writeEvtHead v s else s)

/-- A write of RPT_HEAD: accepted up to RPT_TAIL (R414). -/
def writeRptHead (v : Word) (s : State) : State :=
  if firmwareUp s ∧ (v - s.mb.rptHead).toNat ≤ (s.mb.rptTail - s.mb.rptHead).toNat then
    { s with mb := { s.mb with rptHead := v } } else s

/-- RPT_HEAD. -/
def execRptHead (v : Word) (s : State) : Host.Outcome State Fault Refusal :=
  .next (if hostLink s then writeRptHead v s else s)

/-- A write of EVT_CLEAR: clears every cause when the value equals EVT_SEQ (R433). -/
def writeEvtClear (v : Word) (s : State) : State :=
  if firmwareUp s ∧ v = s.mb.evtSeq then { s with mb := { s.mb with evtCause := 0 } } else s

/-- EVT_CLEAR. -/
def execEvtClear (v : Word) (s : State) : Host.Outcome State Fault Refusal :=
  .next (if hostLink s then writeEvtClear v s else s)

/-- A write of EVT_ENABLE: bit n of [3:0] takes effect where bit n + 16 is 1 (R434). No doorbell is sent. -/
def writeEvtEnable (v : Word) (s : State) : State :=
  let mask : BitVec 4 := (v >>> 16).setWidth 4
  if firmwareUp s then
    { s with mb := { s.mb with evtEnable := (s.mb.evtEnable &&& ~~~mask) ||| (v.setWidth 4 &&& mask) } }
  else s

/-- EVT_ENABLE. -/
def execEvtEnable (v : Word) (s : State) : Host.Outcome State Fault Refusal :=
  .next (if hostLink s then writeEvtEnable v s else s)

/-! ## Reset and boot registers (R437, R438) -/

/-- A full reset is requested: one that finds another under way is part of it (R442). -/
def requestReset (cause : Nat) (s : State) : State := if s.boot.resetting then s else fullReset cause s

/-- A write of RESET_CTL: a full reset when KEY is 0xA5C3 and FULL is 1 (R437). -/
def writeResetCtl (v : Word) (s : State) : State :=
  if s.pins.pwrgd ∧ v.toNat / 65536 = 0xA5C3 ∧ v.getLsbD 0 = true then requestReset 1 s else s

/-- RESET_CTL. -/
def execResetCtl (v : Word) (s : State) : Host.Outcome State Fault Refusal :=
  .next (if hostLink s then writeResetCtl v s else s)

/-- STAGE is ROM_WAIT with the ROM up and hearing the host, and BOOT_LOCK is clear (R408, R438, R443). -/
def bootOpen (s : State) : Bool := hostLink s && (s.boot.romUp && (s.boot.stage == .romWait && !s.boot.locks.getLsbD 4))

/-- A 4-byte write into BOOT_SRAM (R438). -/
def writeBootSram (ofs : Nat) (v : Word) (s : State) : State :=
  if bootOpen s ∧ ofs % 4 = 0 ∧ ofs + 4 ≤ 262144 then
    { s with boot := { s.boot with sram := memWrite s.boot.sram ofs (natLe 4 v.toNat) } } else s

/-- BOOT_SRAM. -/
def execBootSramWrite (ofs : Nat) (v : Word) (s : State) : Host.Outcome State Fault Refusal :=
  .next (writeBootSram ofs v s)

/-- A write of BOOT_DOORBELL: LENGTH in bits [18:0], 1 to 262,144, starts ROM_VERIFY (R438, R443). -/
def writeBootDoorbell (v : Word) (s : State) : State :=
  let n := v.toNat % 2 ^ 19
  if bootOpen s ∧ 1 ≤ n ∧ n ≤ 262144 then
    { s with boot := { s.boot with stage := .romVerify, sramLen := n } } else s

/-- BOOT_DOORBELL. -/
def execBootDoorbell (v : Word) (s : State) : Host.Outcome State Fault Refusal := .next (writeBootDoorbell v s)

/-! ## Test registers (R431, R503, R508, R511) -/

/-- TMX_LOCK, TEST_LOCK, JTAG_LOCK and DEBUG_LOCK (R431). -/
def locked (i : Nat) (s : State) : Bool := s.boot.locks.getLsbD i

/-- A write of TMX_SEL: the probe point in bits [11:0], unless TMX_LOCK is set. -/
def writeTmxSel (i : Nat) (v : Word) (s : State) : State :=
  if firmwareUp s ∧ i < 16 ∧ locked 0 s = false then
    { s with dbg := { s.dbg with tmxSel := tblPut s.dbg.tmxSel i (v.toNat % 4096) } } else s

/-- TMX_SEL. -/
def execTmxSel (i : Nat) (v : Word) (s : State) : Host.Outcome State Fault Refusal :=
  .next (if hostLink s then writeTmxSel i v s else s)

/-- A write of TMX_CTL: DRIVE unless TMX_LOCK is set, and PIN_LOOP in bit 8 unless TEST_LOCK is set (R508). -/
def writeTmxCtl (v : Word) (s : State) : State :=
  if firmwareUp s then
    { s with
      dbg := { s.dbg with tmxDrive := if locked 0 s then s.dbg.tmxDrive else v.getLsbD 0 }
      boot := { s.boot with pinLoop := if locked 1 s then s.boot.pinLoop else v.getLsbD 8 } }
  else s

/-- TMX_CTL. -/
def execTmxCtl (v : Word) (s : State) : Host.Outcome State Fault Refusal :=
  .next (if hostLink s then writeTmxCtl v s else s)

/-- Sets or clears bit i of a 16-bit mask. -/
def setMaskBit (m : BitVec 16) (i : Nat) (b : Bool) : BitVec 16 :=
  if b then m ||| (1#16 <<< i) else m &&& ~~~(1#16 <<< i)

/-- A write of CL_PERF_SEL: EVENT, CL_PERF to 0, and PERF_FREEZE in bit 15 unless TEST_LOCK is set (R508, R511). -/
def writeClPerfSel (cl : Nat) (v : Word) (s : State) : State :=
  if firmwareUp s ∧ cl < 16 then
    { s with
      dbg := { s.dbg with perfSel := tblPut s.dbg.perfSel cl (v.toNat % 256), perf := tblPut s.dbg.perf cl 0 }
      boot := { s.boot with
        perfFreeze := if locked 1 s then s.boot.perfFreeze else setMaskBit s.boot.perfFreeze cl (v.getLsbD 15) } }
  else s

/-- CL_PERF_SEL. -/
def execClPerfSel (cluster : Nat) (v : Word) (s : State) : Host.Outcome State Fault Refusal :=
  .next (if hostLink s then writeClPerfSel cluster v s else s)

/-- A write of CL_BUSY: only SCRUB_HOLD in bit 8, unless TEST_LOCK is set (R508). -/
def writeClBusy (cl : Nat) (v : Word) (s : State) : State :=
  if firmwareUp s ∧ cl < 16 ∧ locked 1 s = false then
    { s with boot := { s.boot with scrubHold := setMaskBit s.boot.scrubHold cl (v.getLsbD 8) } } else s

/-! ## Writes by offset (R409, R412, R429) -/

/-- A 4-byte write at an offset of engine control space. -/
def ecsWriteWord (ofs : Nat) (v : Word) (s : State) : State :=
  if ofs = 0x3008 then writeEvtClear v s
  else if ofs = 0x300C then writeEvtEnable v s
  else if ofs = 0x4000 then writeResetCtl v s
  else if ofs = 0x400C then writeBootDoorbell v s
  else if ofs = 0x10004 then writeCmdDoorbell v s
  else if ofs = 0x10010 then writeCplHead v s
  else if ofs = 0x10018 then writeEvtHead v s
  else if ofs = 0x10020 then writeRptHead v s
  else if 0x20000 ≤ ofs ∧ ofs < 0x20040 then writeTmxSel ((ofs - 0x20000) / 4) v s
  else if ofs = 0x20040 then writeTmxCtl v s
  else if 0x100000 ≤ ofs ∧ ofs < 0x110000 then
    if ofs % 4096 = 0x10 then writeClPerfSel ((ofs - 0x100000) / 4096) v s
    else if ofs % 4096 = 0x08 then writeClBusy ((ofs - 0x100000) / 4096) v s
    else s
  else if 0x180000 ≤ ofs then writeBootSram (ofs - 0x180000) v s
  else s

/-- A host write into engine control space: 4 bytes at a multiple of 4, or 64 bytes at a multiple of 64 in mailbox RAM.
Any other size or alignment changes nothing, and so does the reserved part of mailbox RAM (R409, R412; log 24). -/
def ecsWriteBytes (ofs : Nat) (data : List Byte) (s : State) : State :=
  let n := data.length
  if (n = 4 ∧ ofs % 4 = 0) ∨ (n = 64 ∧ ofs % 64 = 0) then
    if 0x18000 ≤ ofs ∧ ofs + n ≤ 0x1E000 then
      { s with mb := { s.mb with ram := memWrite s.mb.ram (ofs - 0x18000) data } }
    else if n = 4 then ecsWriteWord ofs (BitVec.ofNat 32 (leNat data)) s
    else s
  else s

/-- ECS_WR. -/
def execEcsWrite (ofs : Nat) (data : List Byte) (s : State) : Host.Outcome State Fault Refusal :=
  .next (if s.pins.pwrgd && hostLink s then ecsWriteBytes ofs data s else s)

/-! ## Reads by offset: what the host observes (R412, R429, R430) -/

/-- BOOT_STAT STAGE's code (R443). -/
def stageCode (g : Stage) : Nat :=
  match g with
  | .romWait => 0
  | .romVerify => 1
  | .monitorRun => 2
  | .firmwareVerify => 3
  | .firmwareInit => 4
  | .ready => 5
  | .failed => 0xF

/-- The time state's code (R363). -/
def timeCode (t : TimeState) : Nat :=
  match t with
  | .unlocked => 0
  | .locked => 1
  | .holdover => 2
  | .diverged => 3

/-- Healthy unused slots of a cluster (R16). -/
def sparesLeft (s : State) (cl : Nat) : Nat :=
  ((List.range 34).filter fun k =>
    !(s.errs.bad.contains (cl * 34 + k)) && !(s.errs.unit.any fun e => e.2 == cl * 34 + k)).length

/-- A word of the unit map (R16). -/
def unitMapWord (s : State) (i : Nat) : Nat :=
  if !s.errs.mapUp then 0
  else if i < 512 then
    match kvGet? s.errs.unit i with
    | some p => 2 ^ 31 + p
    | none => 0
  else sparesLeft s (i - 512)

/-- A cluster's tasks in flight on its shared units: bit 0 the routing engine, bit 1 the exchange unit, bit 2 the
cluster mover (CL_BUSY). -/
def clBusy (s : State) (cl : Nat) : Nat :=
  let has (classes : List Nat) : Bool :=
    s.cells.any fun e => e.1 / 32 == cl && e.2.flight.any fun f => classes.contains (f.desc.taskId.toNat % 256)
  (if has [4] then 1 else 0) + (if has [5, 6] then 2 else 0) + (if has [8] then 4 else 0) +
    (if s.boot.scrubHold.getLsbD cl then 256 else 0)

/-- A word of a cluster's registers (19 CLS). -/
def clsWord (s : State) (cl ofs : Nat) : Nat :=
  if ofs = 0x00 then
    (List.range 32).foldl (fun m i => if cellEnabled s (32 * cl + i) then m + 2 ^ i else m) 0
  else if ofs = 0x04 then s.dbg.paceMinLast.getD cl 0 * 65536 + s.mgmt.sample.pace.getD cl 0
  else if ofs = 0x08 then clBusy s cl
  else if ofs = 0x0C then tblGet s.errs.sramCe cl
  else if ofs = 0x10 then tblGet s.dbg.perfSel cl + (if s.boot.perfFreeze.getLsbD cl then 32768 else 0)
  else if ofs = 0x14 then tblGet s.dbg.perf cl % 2 ^ 32
  else if ofs = 0x18 then tblGet s.dbg.perf cl / 2 ^ 32 % 2 ^ 32
  else 0

/-- BTB BEAT_STAT. -/
def beatStat (s : State) : Nat :=
  timeCode s.time.state + (if (s.launch.pend.map (·.armed)).getD false then 16 else 0) + s.time.dist * 256 +
    s.time.parent.getD 0xFF * 65536

/-- The word at an offset of engine control space that is always up: IDB identity, RCB and BOOT_SRAM (R430). -/
def ecsReadAlways (s : State) (ofs : Nat) : Nat :=
  if ofs = 0x0000 then devIdent
  else if ofs = 0x0004 then stepping
  else if ofs = 0x0010 then 0x400
  else if ofs = 0x4004 then s.boot.resetCount.toNat * 65536 + s.boot.resetCause
  else if ofs = 0x4008 then stageCode s.boot.stage * 2 ^ 28 + s.boot.error.toNat
  else if 0x180000 ≤ ofs ∧ ofs < 0x1C0000 then
    if s.boot.stage = .romWait then memLe s.boot.sram (ofs - 0x180000) 4 else 0
  else 0

/-- SEQ of the snapshot as it is seen: odd while the next one is being written (R439). -/
def telSeqShown (s : State) : Word := if s.dbg.telWriting then s.dbg.telSeq + 1 else s.dbg.telSeq

/-- Bytes of the snapshot as a reader finds them: those of the newest whole one, and free ones while the next is being written
(R439). -/
def telRead (s : State) (o n : Nat) : List Byte :=
  if s.dbg.telWriting then (List.range n).map fun i => Config.telPart s.time.freeUses (o + i) else memRead s.dbg.tel o n

/-- The word at an offset of the blocks that read as 0 until READY (R430). -/
def ecsReadUp (s : State) (ofs : Nat) : Nat :=
  if ofs = 0x0008 then s.boot.digest.toNat % 2 ^ 32
  else if ofs = 0x000C then s.boot.digest.toNat / 2 ^ 32
  else if 0x400 ≤ ofs ∧ ofs < 0xC40 then unitMapWord s ((ofs - 0x400) / 4)
  else if ofs = 0x1000 then s.time.beat % 2 ^ 32
  else if ofs = 0x1004 then s.time.beat / 2 ^ 32 % 2 ^ 32
  else if ofs = 0x1008 then s.launch.downbeat % 2 ^ 32
  else if ofs = 0x100C then s.launch.downbeat / 2 ^ 32 % 2 ^ 32
  else if ofs = 0x1010 then beatStat s
  else if ofs = 0x2000 ∨ ofs = 0x2004 then
    s.boot.locks.toNat + (if Config.policyProduction then 2 ^ 31 else 0)
  else if ofs = 0x3000 then s.mb.evtSeq.toNat
  else if ofs = 0x3004 then s.mb.evtCause.toNat
  else if ofs = 0x300C then s.mb.evtEnable.toNat
  else if ofs = 0x3010 then s.mb.evtFault.toNat
  else if ofs = 0x3014 then s.mb.queue.length
  else if ofs = 0x10000 then s.mb.queue.length + (if s.mb.ready then 2 ^ 31 else 0)
  else if ofs = 0x10004 then s.mb.cmdDoorbell.toNat
  else if ofs = 0x10008 then s.mb.cmdHead.toNat
  else if ofs = 0x1000C then s.mb.cplTail.toNat
  else if ofs = 0x10010 then s.mb.cplHead.toNat
  else if ofs = 0x10014 then s.mb.evtTail.toNat
  else if ofs = 0x10018 then s.mb.evtHead.toNat
  else if ofs = 0x1001C then s.mb.rptTail.toNat
  else if ofs = 0x10020 then s.mb.rptHead.toNat
  else if 0x18000 ≤ ofs ∧ ofs < 0x1E000 then memLe s.mb.ram (ofs - 0x18000) 4
  else if 0x20000 ≤ ofs ∧ ofs < 0x20040 then tblGet s.dbg.tmxSel ((ofs - 0x20000) / 4)
  else if ofs = 0x20040 then
    (if s.dbg.tmxDrive then 1 else 0) + (if s.boot.pinLoop then 256 else 0)
  else if ofs = 0x30000 then (telSeqShown s).toNat
  else if 0x30000 ≤ ofs ∧ ofs < 0x32400 then leNat (telRead s (ofs - 0x30000) 4)
  else if 0x100000 ≤ ofs ∧ ofs < 0x110000 then clsWord s ((ofs - 0x100000) / 4096) (ofs % 4096)
  else 0

/-- What an ECS_RD of 4 bytes at an offset returns; a misaligned one returns 0 (R412). The block has no command for a
read: it changes nothing (log 4). -/
def ecsRead (s : State) (ofs : Nat) : Word :=
  if ofs % 4 = 0 ∧ s.pins.pwrgd = true then
    BitVec.ofNat 32 (ecsReadAlways s ofs + if firmwareUp s then ecsReadUp s ofs else 0)
  else 0

/-- The ECS_CPL of an ECS_RD of n bytes: one of any size but 4 completes with all-zero data (R409, R412). -/
def ecsReadBytes (s : State) (ofs n : Nat) : List Byte :=
  if n = 4 then natLe 4 (ecsRead s ofs).toNat else List.replicate n 0

/-! ## The host link (R408, R409, R411) -/

/-- The bytes of an answer become what the engine sees there, and the range counts as backed. -/
def hostData (a : Nat) (b : List Byte) (s : State) : State :=
  if hostBase ≤ a ∧ a + b.length ≤ windowBase then
    { s with
      mem := memWrite s.mem a b
      unbacked := s.unbacked.filter fun r => !(overlaps a b.length r.1 r.2) }
  else s

/-- What UNBACKED does to the access it answers (R411, R449). -/
def unbackedOutcome (user : MemUser) (s : State) : State :=
  match user with
  | .task => stepFault fcAddressRange s
  | .command => s
  | .ring => deviceFault 2 s
  | .loadRecord => if s.boot.stage = .firmwareVerify then bootFail 0x0312 s else s

/-- MEM_CPL (R409, R411). -/
def memCplEffect (addr : Nat) (user : MemUser) (answer : MemAnswer) (s : State) : State :=
  match answer with
  | .data b => hostData addr b s
  | .unbacked n => unbackedOutcome user { s with unbacked := (addr, n) :: s.unbacked }

/-- MEM_CPL. -/
def execMemCpl (addr : Nat) (user : MemUser) (answer : MemAnswer) (s : State) : Host.Outcome State Fault Refusal :=
  .next (if s.pins.pwrgd then memCplEffect addr user answer s else s)

/-- A host-link module fails, and the link runs on the rest (R408). -/
def execHostModuleFail (s : State) : Host.Outcome State Fault Refusal :=
  .next (if s.pins.pwrgd then { s with errs := { s.errs with hostModules := s.errs.hostModules - 1 } } else s)

/-- A die-to-die adapter retries a transfer: LINK_RETRIES counts it (R408, R472). -/
def execAdapterRetry (s : State) : Host.Outcome State Fault Refusal := .next (if s.pins.pwrgd then addCount 31 1 s else s)

end Sys2Proof.Machine
end

