-- ==== Sys2Proof/Machine/Sha3.lean ====
section
/-! DEFINITION. The Keccak functions that the manual names: SHA3-256 and SHA3-384 of FIPS 202 (R29, R35, R172, R392, R445)
and KMAC256 of SP 800-185 (R454). PRESUMED: the manual names the standards and does not print the functions (log 6). A
digest is the number of its bytes, least significant first, so its low bits are its first bytes (R392). -/

namespace Sys2Proof.Machine

/-- A lane of the 1,600-bit state. -/
abbrev Lane := BitVec 64

/-- A step of the shift register of FIPS 202 whose output bits place the ones of the round constants. -/
def lfsrStep (r : Byte) : Byte := if r.getLsbD 7 then (r <<< 1) ^^^ 0x71 else r <<< 1

/-- One round's constant out of n output bits, the next of which goes to bit 2^j − 1, and the register after them. -/
def roundConstant : Nat → Nat → Byte → Lane → Lane × Byte
  | 0, _, r, c => (c, r)
  | n + 1, j, r, c =>
    roundConstant n (j + 1) (lfsrStep r) (if r.getLsbD 0 then c ||| (1#64 <<< (2 ^ j - 1)) else c)

/-- The constants of n rounds from a state of the register on. -/
def roundConstants : Nat → Byte → List Lane
  | 0, _ => []
  | n + 1, r =>
    let c := roundConstant 7 0 r 0
    c.1 :: roundConstants n c.2

/-- The five planes of the state, lane x of plane y being number x + 5y. -/
def planesOf (a : List Lane) : List (List Lane) := (List.range 5).map fun y => (a.drop (5 * y)).take 5

/-- The sum of two planes. -/
def planeXor (p q : List Lane) : List Lane := List.zipWith (· ^^^ ·) p q

/-- θ: every plane takes on the column parities of its two neighbours. -/
def mixColumns (a : List Lane) : List Lane :=
  let parity := (planesOf a).foldl planeXor (List.replicate 5 0)
  let effect := planeXor (parity.rotateRight 1) ((parity.rotateLeft 1).map fun l => l.rotateLeft 1)
  (planesOf a).flatMap (planeXor effect)

/-- ρ and π as one walk over the 24 lanes other than lane 0: from place (x, y) a lane moves to the next place of the walk,
(y, 2x + 3y), turned by the triangular number of its step. -/
def turnAndMove (a : List Lane) : Nat → Nat → Nat → Nat → List Lane → List Lane
  | 0, _, _, _, out => out
  | n + 1, t, x, y, out =>
    let z := (2 * x + 3 * y) % 5
    turnAndMove a n (t + 1) y z (out.set (y + 5 * z) ((a.getD (x + 5 * y) 0).rotateLeft (t * (t + 1) / 2 % 64)))

/-- χ on one plane. -/
def bendPlane (p : List Lane) : List Lane :=
  planeXor p (List.zipWith (fun b c => ~~~b &&& c) (p.rotateLeft 1) (p.rotateLeft 2))

/-- One round; ι adds the round constant to lane 0. -/
def keccakRound (a : List Lane) (rc : Lane) : List Lane :=
  let b := mixColumns a
  let c := (planesOf (turnAndMove b 24 1 1 0 b)).flatMap bendPlane
  c.set 0 (c.getD 0 0 ^^^ rc)

/-- The permutation of 24 rounds. -/
def keccakF (a : List Lane) : List Lane := (roundConstants 24 1).foldl keccakRound a

/-- Adds a block of bytes to the first lanes of the state. -/
def keccakAbsorb (a : List Lane) (block : List Byte) : List Lane :=
  keccakF ((List.range 25).map fun i => a.getD i 0 ^^^ BitVec.ofNat 64 (leNat ((block.drop (8 * i)).take 8)))

/-- A message with its suffix byte and the last bit of the padding, in whole blocks. -/
def keccakPad (rate suffix : Nat) (msg : List Byte) : List Byte :=
  let fill := rate - msg.length % rate
  if fill = 1 then msg ++ [BitVec.ofNat 8 (suffix + 0x80)]
  else msg ++ (BitVec.ofNat 8 suffix :: (List.replicate (fill - 2) 0 ++ [0x80]))

/-- Absorbs n blocks. -/
def keccakBlocks (rate : Nat) : Nat → List Byte → List Lane → List Lane
  | 0, _, a => a
  | n + 1, m, a => keccakBlocks rate n (m.drop rate) (keccakAbsorb a (m.take rate))

/-- The first bytes of the sponge's output, of which the model needs no more than one block. -/
def keccak (rate suffix : Nat) (msg : List Byte) (n : Nat) : List Byte :=
  let m := keccakPad rate suffix msg
  ((keccakBlocks rate (m.length / rate) m (List.replicate 25 0)).flatMap fun l => natLe 8 l.toNat).take n

/-- SHA3-256 of the first n bytes of a memory. -/
def sha3_256 (n : Nat) (m : Mem) : BitVec 256 := BitVec.ofNat 256 (leNat (keccak 136 0x06 (memRead m 0 n) 32))

/-- SHA3-384 of the first n bytes of a memory. -/
def sha3_384 (n : Nat) (m : Mem) : BitVec 384 := BitVec.ofNat 384 (leNat (keccak 104 0x06 (memRead m 0 n) 48))

/-- The bytes of a string of ASCII characters. -/
def asciiBytes (s : String) : List Byte := s.toList.map fun c => BitVec.ofNat 8 c.toNat

/-- The bytes of a number below 65,536, most significant first and without leading zeros; one byte for 0. -/
def beBytes (v : Nat) : List Byte :=
  if v < 256 then [BitVec.ofNat 8 v] else [BitVec.ofNat 8 (v / 256), BitVec.ofNat 8 v]

/-- left_encode of SP 800-185. -/
def leftEncode (v : Nat) : List Byte := BitVec.ofNat 8 (beBytes v).length :: beBytes v

/-- right_encode of SP 800-185. -/
def rightEncode (v : Nat) : List Byte := beBytes v ++ [BitVec.ofNat 8 (beBytes v).length]

/-- encode_string of SP 800-185. -/
def encodeString (b : List Byte) : List Byte := leftEncode (8 * b.length) ++ b

/-- bytepad of SP 800-185. -/
def bytePad (b : List Byte) (w : Nat) : List Byte :=
  let x := leftEncode w ++ b
  x ++ List.replicate ((w - x.length % w) % w) 0

/-- KMAC256 of a key, data, a number of output bits that is a multiple of 8, and a customisation string (SP 800-185). -/
def kmac256 (key data : List Byte) (bits : Nat) (custom : String) : Nat :=
  let head := bytePad (encodeString (asciiBytes "KMAC") ++ encodeString (asciiBytes custom)) 136
  leNat (keccak 136 0x04 (head ++ (bytePad (encodeString key) 136 ++ (data ++ rightEncode bits))) (bits / 8))

end Sys2Proof.Machine
end

