-- ==== Sys2Proof/Machine/Boot.lean ====
section
/-! DEFINITION. Power, the boot chain, revocation and rollback, the unit map and the configuration digest, and ATTEST
(01 R14 to R18, 16 R392 and R393, 20 R443 to R457, 23 R492 to R495). -/

namespace Sys2Proof.Machine

/-! ## Power (R492, R493) -/

/-- PWRGD has been low for 1 µs: the device stops, holds every WP_N low and CE_N high, and floats every other output,
THERMTRIP_N among them (R493, R495). -/
def powerOff (s : State) : State :=
  { powerOn s with pins := { pwrgd := false, thermtrip := false, nandProtect := true, floated := true } }

/-- PWRGD_FALL. -/
def execPwrgdFall (s : State) : Host.Outcome State Fault Refusal := .next (if s.pins.pwrgd then powerOff s else s)

/-- PWRGD_RISE: a power-on, with CAUSE POWER_ON (R493). -/
def execPwrgdRise (s : State) : Host.Outcome State Fault Refusal := .next (if s.pins.pwrgd then s else powerOn s)

/-- VCCQ_NAND_LOSS: after PWRGD has fallen, the device holds WP_N and CE_N no longer (R493). -/
def execVccqNandLoss (s : State) : Host.Outcome State Fault Refusal :=
  .next (if s.pins.pwrgd then s else { s with pins := { s.pins with nandProtect := false } })

/-- ROM_WAIT: the mask ROM waits for BOOT_DOORBELL, and a reset under way has ended (R442, R443). -/
def execRomWait (s : State) : Host.Outcome State Fault Refusal :=
  .next (if s.pins.pwrgd ∧ s.boot.stage = .romWait then
    { s with boot := { s.boot with romUp := true, resetting := false } } else s)

/-! ## Signed images (R445, R446) -/

/-- KIND of an image and the limit of its BODY_LENGTH. -/
def bodyLimit (kind : Nat) : Nat := if kind = 1 then 254720 else 25158400

/-- The first check of R446 that an image fails, as the code's low byte. `kind` is 1 for the ROM and 2 for the monitor,
`len` the length supplied. -/
def imageCheck (kind : Nat) (b : Boot) (m : Mem) (len : Nat) : Option Nat :=
  let f (o n : Nat) : Nat := memLe m o n
  let zero (o n : Nat) : Bool := (memSlice m o n).isEmpty
  let slot := f 7 1
  let body := memSlice m 7424 (f 20 4)
  if f 0 4 ≠ 0x4B585346 ∨ f 4 2 ≠ 1 ∨ zero 26 6 = false ∨ zero 88 40 = false ∨ zero 7347 77 = false then some 1
  else if f 6 1 ≠ kind ∨ (kind = 1 ∧ (1 < f 24 1 ∨ 15 < f 25 1)) ∨ (kind = 2 ∧ (f 24 1 ≠ 0 ∨ f 25 1 ≠ 0)) then some 2
  else if 7424 + f 20 4 ≠ len ∨ f 20 4 = 0 ∨ bodyLimit kind < f 20 4 then some 3
  else if f 16 4 ≠ stepping then some 4
  else if 3 < slot then some 5
  else if b.revoked.getLsbD slot then some 6
  else if sha3_384 2592 (memSlice m 128 2592) ≠ Config.keyHash slot then some 7
  else if Config.mldsaVerify (memSlice m 128 2592) (memSlice m 0 128) (memSlice m 2720 4627) = false then some 8
  else if (sha3_384 (f 20 4) body).toNat ≠ f 40 48 then some 9
  else if f 8 8 < b.rollback then some 10
  else none

/-- What the device keeps of an accepted image. Its measurement is SHA3-384 over all of its bytes (R445). -/
def acceptedImage (m : Mem) (len : Nat) : SignedImage where
  slot := memLe m 7 1
  svn := memLe m 8 8
  version := memLe m 32 8
  advance := memLe m 24 1 % 2 == 1
  revokeMask := memLe m 25 1
  meas := sha3_384 len (memSlice m 0 len)

/-- DEV_SEED (R454). -/
def deviceSeed : BitVec 256 := BitVec.ofNat 256 (kmac256 (natLe 32 Config.uds.toNat) [] 256 "DEVICE")

/-- CDI_MON (R454). -/
def monitorCdi (meas : BitVec 384) : BitVec 384 :=
  BitVec.ofNat 384 (kmac256 (natLe 32 Config.uds.toNat) (natLe 48 meas.toNat) 384 "CDI")

/-- CDI_FW (R454). -/
def firmwareCdi (cdi meas : BitVec 384) : BitVec 384 :=
  BitVec.ofNat 384 (kmac256 (natLe 48 cdi.toNat) (natLe 48 meas.toNat) 384 "CDI")

/-- The seed of the alias key (R454). -/
def aliasSeedOf (cdi : BitVec 384) : BitVec 256 := BitVec.ofNat 256 (kmac256 (natLe 48 cdi.toNat) [] 256 "ALIAS")

/-- The engine runs: powered, and without a device fault. -/
def engineRuns (s : State) : Bool := s.pins.pwrgd && !s.errs.deviceFault

/-- The ROM's checks end: the identity secrets are derived, UDS is blocked, and the monitor starts, which derives the device
key (R443, R454). -/
def romVerifyEffect (s : State) : State :=
  if s.boot.stage = .romVerify ∧ engineRuns s = true then
    match imageCheck 1 s.boot s.boot.sram s.boot.sramLen with
    | some k => bootFail (0x0100 + k) s
    | none =>
      let im := acceptedImage s.boot.sram s.boot.sramLen
      { s with boot := { s.boot with
        stage := .monitorRun, mon := some im, udsBlocked := true
        devSeed := deviceSeed, cdiMon := monitorCdi im.meas
        devKey := Config.mldsaPublic deviceSeed } }
  else s

/-- ROM_VERIFY. -/
def execRomVerify (s : State) : Host.Outcome State Fault Refusal := .next (romVerifyEffect s)

/-- The locks that the shipped monitor sets: BOOT_LOCK and TEST_LOCK, and JTAG_LOCK under POLICY PRODUCTION (R432). -/
def shippedLocks (l : BitVec 5) : BitVec 5 := l ||| (if Config.policyProduction then 0b10110 else 0b10010)

/-- The control firmware is accepted: the alias seed is derived, the locks are set, mailbox RAM and the counters are
clear, rows under a soft repair get their hard one, and FIRMWARE_INIT begins, with port training where the table allows it
(R432, R449, R450, R454, R460). -/
def enterFirmwareInit (im : SignedImage) (s : State) : State :=
  let cdi := firmwareCdi s.boot.cdiMon im.meas
  settlePorts false { s with
    boot := { s.boot with
      stage := .firmwareInit, fw := some im, cdiFw := cdi, aliasSeed := aliasSeedOf cdi
      certRollback := s.boot.rollback
      locks := shippedLocks s.boot.locks }
    errs := { s.errs with repaired := [], hardRepaired := s.errs.repaired ++ s.errs.hardRepaired }
    mb := { s.mb with
      ram := [], cmdDoorbell := 0, cmdHead := 0, cplTail := 0, cplHead := 0
      evtTail := 0, evtHead := 0, rptTail := 0, rptHead := 0 } }

/-- The monitor copies the whole image and then runs every check of R446 on the copy (R449). -/
def firmwareVerifyEffect (s : State) : State :=
  if s.boot.stage = .firmwareVerify ∧ engineRuns s = true then
    if hostOk s s.boot.loadSrc s.boot.loadLen then
      let m := memSlice s.mem s.boot.loadSrc s.boot.loadLen
      let s := { s with boot := { s.boot with fwCopy := m } }
      match imageCheck 2 s.boot m s.boot.loadLen with
      | some k => bootFail (0x0300 + k) s
      | none => enterFirmwareInit (acceptedImage m s.boot.loadLen) s
    else bootFail 0x0312 s
  else s

/-- FIRMWARE_VERIFY. -/
def execFirmwareVerify (s : State) : Host.Outcome State Fault Refusal := .next (firmwareVerifyEffect s)

/-- FIRMWARE_INIT_FAIL: PORT_DIE_LINK, HBM_TRAINING or SELF_TEST (R451). -/
def execFirmwareInitFail (code : Nat) (s : State) : Host.Outcome State Fault Refusal :=
  .next (if s.boot.stage = .firmwareInit ∧ engineRuns s = true ∧ 0x0401 ≤ code ∧ code ≤ 0x0403 then bootFail code s else s)

/-! ## The unit map and the configuration digest (R15 to R18, R392) -/

/-- The healthy slots of a cluster as physical cell ids, ascending. -/
def healthySlots (bad : List Nat) (cl : Nat) : List Nat :=
  ((List.range 34).map fun k => cl * 34 + k).filter fun p => !(bad.contains p)

/-- The logical cells of a cluster and the slots they take: cell c the c-th healthy slot, and the highest-numbered
cells none when slots are short (R15, R18). -/
def clusterMap (bad : List Nat) (cl : Nat) : KV Nat :=
  ((List.range 32).zip (healthySlots bad cl)).map fun e => (cl * 32 + e.1, e.2)

/-- The unit map built at self-test. -/
def unitMapOf (bad : List Nat) : KV Nat := (List.range 16).flatMap (clusterMap bad)

/-- Every cluster has a healthy cell (R451). -/
def clustersAlive (bad : List Nat) : Bool := (List.range 16).all fun cl => !(healthySlots bad cl).isEmpty

/-- The logical unit map as bytes: bit c mod 8 of byte c ÷ 8 is ENABLED of logical cell c (R392). -/
def enabledMap (unit : KV Nat) : Mem :=
  memWrite [] 0 ((List.range 64).map fun i => BitVec.ofNat 8
    ((List.range 8).foldl (fun n j => if (kvGet? unit (8 * i + j)).isSome then n + 2 ^ j else n) 0))

/-- The configuration digest of both measurements and a unit map (R392). -/
def configDigest (mon fw : BitVec 384) (unit : KV Nat) : BitVec 64 :=
  let m := memPutLe (memPutLe (memCopy [] 96 64 (enabledMap unit)) 0 48 mon.toNat) 48 48 fw.toNat
  (sha3_256 160 m).setWidth 64

/-- The measurement of an accepted image, 0 before one is accepted. -/
def measOf (x : Option SignedImage) : BitVec 384 :=
  match x with
  | none => 0
  | some im => im.meas

/-- The digest of the device as it stands, over a unit map. -/
def digestNow (s : State) (unit : KV Nat) : BitVec 64 := configDigest (measOf s.boot.mon) (measOf s.boot.fw) unit

/-! ## READY, revocation and rollback (R447, R448, R450) -/

/-- The slots that a monitor image revokes: mask bits below its own slot (R447). -/
def revokeBits (im : SignedImage) : BitVec 4 := BitVec.ofNat 4 (im.revokeMask % 2 ^ im.slot)

/-- The revocation that follows READY ends: the fuses of the revoked slots are blown (R447). -/
def revokeSlots (b : Boot) : Boot :=
  match b.mon with
  | none => b
  | some im => { b with revoked := b.revoked ||| revokeBits im }

/-- The rollback raise that follows READY ends: the record's valid fuse is blown (R448). -/
def raiseRollback (b : Boot) : Boot :=
  match b.mon with
  | none => b
  | some im =>
    if im.advance = true ∧ b.rollback < im.svn ∧ 0 < b.raisesLeft then
      { b with rollback := im.svn, raisesLeft := b.raisesLeft - 1 }
    else b

/-- The monitor's changes of the fuses go on: each may end in this tick, and one that power loss or a reset overtakes has
left the old value in force (R447, R448, R457; when each ends is a free choice, log 99). -/
def settleFuses (s : State) : State :=
  if s.boot.revokeDue || s.boot.raiseDue then
    let c := freeChoice s
    let d := freeChoice c.2
    let b := if s.boot.revokeDue && c.1 then { revokeSlots s.boot with revokeDue := false } else s.boot
    let b := if b.raiseDue && d.1 then { raiseRollback b with raiseDue := false } else b
    { d.2 with boot := b }
  else s

/-- No enabled port is in TRAINING (R450). -/
def portsSettled (s : State) : Bool := (List.range 128).all fun p => (portOf s p).state != .training

/-- The power and thermal values set before READY take effect (R479). -/
def limitsInForce (m : Mgmt) : Mgmt :=
  let p := m.powerNext.getD (m.sustainedW, m.burstW)
  let t := m.thermalNext.getD (m.throttle, m.trip)
  { m with sustainedW := p.1, burstW := p.2, throttle := t.1, trip := t.2, powerNext := none, thermalNext := none }

/-- What FIRMWARE_INIT cannot do without: a module to each port die, and every HBM stack (R451). -/
def partsAlive (e : Errs) : Bool := e.dieModulesA != 0 && (e.dieModulesB != 0 && !e.hbmLost)

/-- READY: the zeros of R513 are written, with valid check bits, the unit map and the digest stand, the engine takes commands,
and the monitor begins its changes of the fuses (R447, R448, R450, R451). -/
def readyEffect (bad : List Nat) (s : State) : State :=
  if s.boot.stage = .firmwareInit ∧ engineRuns s = true ∧ portsSettled s = true ∧ clustersAlive bad = true ∧
      partsAlive s.errs = true then
    let unit := unitMapOf bad
    pldmEvent 5 (natLe 1 5 ++ natLe 2 0) { s with
      mem := hostMemory s.mem
      tiles := []
      cells := []
      errs := { s.errs with unit := unit, bad := bad, mapUp := true, badBursts := [], badWords := [] }
      mb := { s.mb with ready := true }
      mgmt := limitsInForce s.mgmt
      boot := { s.boot with stage := .ready, digest := digestNow s unit, revokeDue := true, raiseDue := true } }
  else s

/-- READY. -/
def execReady (badCells : List Nat) (s : State) : Host.Outcome State Fault Refusal := .next (readyEffect badCells s)

/-! ## ATTEST (R456) -/

/-- The monitor's SVN. -/
def monitorSvn (s : State) : Nat := (s.boot.mon.map (·.svn)).getD 0

/-- What the alias certificate of this boot says (R455). -/
def aliasFields (s : State) : Config.AliasFields :=
  let key := Config.mldsaPublic s.boot.aliasSeed
  { subjectKey := key
    issuerKey := s.boot.devKey
    serial := (sha3_256 2592 key).setWidth 64
    monMeas := measOf s.boot.mon
    fwMeas := measOf s.boot.fw
    svn := monitorSvn s
    rollback := s.boot.certRollback }

/-- ALIAS_CERT_LEN. -/
def aliasCertBytes (s : State) : Nat := (Config.certificateLen (Config.aliasTbsLen (aliasFields s))).toNat

/-- The alias certificate, signed by the device key (R455). -/
def aliasCert (s : State) : Mem :=
  let f := aliasFields s
  Config.certificate (Config.aliasTbs f)
    (Config.mldsaSign s.boot.devSeed (Config.aliasTbsLen f).toNat (Config.aliasTbs f))

/-- Bytes 0 to 2,847 of a report: what the alias key signs. -/
def reportBody (nonce : List Byte) (s : State) : Mem :=
  let slot (x : Option SignedImage) : Nat := (x.map (·.slot)).getD 0
  let ver (x : Option SignedImage) : Nat := (x.map (·.version)).getD 0
  let fields := recMem [
    (0, 4, 0x41545354), (4, 2, 1), (6, 1, slot s.boot.mon), (7, 1, slot s.boot.fw), (8, 32, leNat nonce),
    (40, 48, (measOf s.boot.mon).toNat), (88, 48, (measOf s.boot.fw).toNat),
    (136, 48, (s.job.image.map (·.meas.toNat)).getD 0), (184, 8, s.boot.digest.toNat), (192, 8, s.boot.rollback),
    (200, 1, s.boot.revoked.toNat), (201, 1, s.boot.raisesLeft), (202, 1, if Config.policyProduction then 1 else 0),
    (204, 4, (s.job.image.map (·.imageId.toNat)).getD 0), (208, 8, ver s.boot.mon), (216, 8, ver s.boot.fw),
    (224, 4, aliasCertBytes s), (228, 4, Config.deviceCertLen.toNat)]
  memCopy fields 256 2592 (Config.mldsaPublic s.boot.aliasSeed)

/-- The length of a report: 7,488 bytes and both certificates. -/
def reportBytes (s : State) : Nat :=
  7488 + aliasCertBytes s + Config.deviceCertLen.toNat

/-- The whole report (R456). -/
def attestReport (nonce : List Byte) (s : State) : Mem :=
  let body := reportBody nonce s
  let al := aliasCertBytes s
  memCopy (memCopy (memCopy body 2848 4627 (Config.mldsaSign s.boot.aliasSeed 2848 body)) 7488 al
    (aliasCert s)) (7488 + al) Config.deviceCertLen.toNat Config.deviceCert

/-- ATTEST: the nonce is command bytes 16 to 47, and RESULT the report's length. -/
def cmdAttest (c : Cmd) (s : State) : CmdEnd :=
  if argOk c 32768 s then
    .done stOk (natLe 4 (reportBytes s))
      (putMem (argAddr c) (reportBytes s) (attestReport ((c.bytes.drop 16).take 32) s) s)
  else reject stBadArg s

/-- ATTEST. -/
def execAttest (s : State) : Host.Outcome State Fault Refusal := .next (runLong 0x0A01 cmdAttest s)

end Sys2Proof.Machine
end

