-- ==== Sys2Proof/Machine/Remote.lean ====
section
/-! DEFINITION. Remote memory (14): windows and their commands, the FM tasks, the receiving checks of R344, the exactly-once
rules of R348 to R354, and combining lines (R356, R357). -/

namespace Sys2Proof.Machine

/-! ## Windows (R334, R335) -/

/-- An invalid window. -/
def Window.none : Window where
  flags := 0
  esfW := 0
  job := 0
  groupLo := 0
  groupHi := 0
  base := 0
  size := 0

/-- A window in force. -/
def windowOf (s : State) (w : Nat) : Window := kvGetD s.rem.windows w Window.none

/-- The window is VALID. -/
def windowValid (w : Window) : Bool := bitOf w.flags 7

/-- A window entry from its fields at offset o of a byte string, with VALID set. -/
def windowFrom (b : List Byte) (o : Nat) : Window where
  flags := fieldOf b o 1 % 16 + 128
  esfW := fieldOf b (o + 1) 1
  job := fieldOf b (o + 2) 2
  groupLo := fieldOf b (o + 4) 2 % 4096
  groupHi := fieldOf b (o + 6) 2 % 4096
  base := fieldOf b (o + 8) 8
  size := fieldOf b (o + 16) 4

/-- The 32 bytes of a window entry. -/
def windowBytes (w : Window) : List Byte :=
  natLe 1 w.flags ++ natLe 1 w.esfW ++ natLe 2 w.job ++ natLe 2 w.groupLo ++ natLe 2 w.groupHi ++ natLe 8 w.base ++
    natLe 4 w.size ++ natLe 12 0

/-- The reserved fields of a window entry are 0. -/
def windowReservedOk (b : List Byte) (o : Nat) : Bool :=
  bitsOf (fieldOf b o 1) 6 4 == 0 && (decide (fieldOf b (o + 4) 2 < 4096) && (decide (fieldOf b (o + 6) 2 < 4096) &&
    allZero ((b.drop (o + 20)).take 12)))

/-- BASE and SIZE name memory that a window may have (R334, R453). -/
def windowRangeOk (w : Window) : Bool :=
  decide (64 ≤ w.size) && (decide (w.size ≤ 268435456) && (w.size % 64 == 0 && (inOneRegion w.base w.size &&
    match regionOf w.base with
    | .hbm => hbmRange w.base w.size
    | .store _ => true
    | .scratch _ => true
    | .host => false
    | .window => false
    | .unmapped => false)))

/-- Puts a window's entry in force, or clears its VALID. -/
def putWindow (n : Nat) (e : Option Window) (s : State) : State :=
  let w := match e with
    | some x => x
    | none => { windowOf s n with flags := (windowOf s n).flags % 128 }
  { s with rem := { s.rem with windows := kvPut s.rem.windows n w } }

/-- Applies a window command, or defers it to the terminal latch of the running step (R335). -/
def applyWindow (c : Cmd) (n : Nat) (e : Option Window) (s : State) : CmdEnd :=
  if stepRunning s then
    .done stDeferred [] { s with rem := { s.rem with deferred := s.rem.deferred ++ [⟨n, e, c.tag⟩] } }
  else .done stOk [] (putWindow n e s)

/-- WIN_SET. -/
def cmdWinSet (c : Cmd) (s : State) : CmdEnd :=
  let n := cmdField c 16 2
  let w := windowFrom c.bytes 32
  if !s.job.opened then reject stBadState s
  else if n ≥ 4096 then reject stBadArg s
  else if windowReservedOk c.bytes 32 ∧ w.job = s.job.id.toNat ∧ w.groupLo ≤ w.groupHi ∧ windowRangeOk w then
    applyWindow c n (some w) s
  else reject stBadArg s

/-- WIN_SET. -/
def execWinSet (s : State) : Host.Outcome State Fault Refusal := .next (runPlain 0x0701 cmdWinSet s)

/-- WIN_CLEAR. -/
def cmdWinClear (c : Cmd) (s : State) : CmdEnd :=
  let n := cmdField c 16 2
  if !s.job.opened then reject stBadState s
  else if n ≥ 4096 then reject stBadArg s
  else applyWindow c n none s

/-- WIN_CLEAR. -/
def execWinClear (s : State) : Host.Outcome State Fault Refusal := .next (runPlain 0x0702 cmdWinClear s)

/-- WIN_READ returns the entry in force. -/
def cmdWinRead (c : Cmd) (s : State) : CmdEnd :=
  let n := cmdField c 16 2
  if !s.job.opened then reject stBadState s
  else if n ≥ 4096 ∨ argOk c 32 s = false then reject stBadArg s
  else .done stOk [] (putBytes (argAddr c) (windowBytes (windowOf s n)) s)

/-- WIN_READ. -/
def execWinRead (s : State) : Host.Outcome State Fault Refusal := .next (runLong 0x0703 cmdWinRead s)

/-- Applies the deferred window commands at a terminal latch, each with its WINDOW event (R335, R421). -/
def latchWindows (s : State) : State :=
  s.rem.deferred.foldl (fun t d => postEvent 3 stOk d.tag (natLe 2 d.window) (putWindow d.window d.entry t))
    { s with rem := { s.rem with deferred := [] } }

/-! ## FM tasks (R336 to R346) -/

/-- The size of an atomic's target, and of its operand; none for a reserved code (R338). -/
def aopSizes (a : Nat) : Option (Nat × Nat) :=
  match a with
  | 0 => some (8, 8)
  | 1 => some (8, 8)
  | 2 => some (8, 8)
  | 3 => some (16, 16)
  | 4 => some (16, 16)
  | 5 => some (16, 16)
  | 6 => some (8, 8)
  | 7 => some (8, 16)
  | 8 => some (16, 16)
  | 9 => some (16, 32)
  | _ => none

/-- An atomic on ESF-128. -/
def aopIsEsf (a : Nat) : Bool := a == 3 || (a == 4 || a == 5)

/-- The fields of an FM body. -/
structure Fm where
  op : Nat
  aop : Nat
  esfW : Nat
  arrEn : Bool
  unit : Bool
  bg : Bool
  dest : Nat
  remote : Nat
  loc : Nat
  result : Nat
  length : Nat
  arr : Nat
  deriving DecidableEq, Repr

/-- Reads an FM body (R336, R337). -/
def fmOf (d : Desc) : Fm where
  op := bodyBits d 16 31 28
  aop := bodyBits d 16 27 24
  esfW := bodyBits d 16 23 16
  arrEn := bitOf (bodyField d 16 4) 15
  unit := bitOf (bodyField d 16 4) 14
  bg := bitOf (bodyField d 16 4) 13
  dest := bodyField d 20 4 % 2 ^ 20
  remote := bodyField d 24 8
  loc := bodyField d 32 8
  result := bodyField d 40 8
  length := bodyField d 48 4
  arr := bodyField d 52 4 % 65536

/-- The window address field of an FM body's packets, advanced by some bytes. -/
def fmAddr (f : Fm) (i : Nat) : Nat := (f.remote + i) % 2 ^ 40

/-- LOAD_IMAGE accepts an FM body of a cell (R340, R453). -/
def fmCheck (cell : Nat) (d : Desc) : Bool :=
  let f := fmOf d
  let ofs := f.remote % 2 ^ 28
  let src (n : Nat) : Bool := inOneRegion f.loc n && ((regionOf f.loc == .hbm && hbmRange f.loc n) ||
    (inAnyStore f.loc n || (inOwnScratch cell f.loc n || inHost f.loc n)))
  let dst (a n : Nat) : Bool := (inOneRegion a n && (regionOf a == .hbm && hbmRange a n)) ||
    (inStore (clusterOf cell) a n || inOwnScratch cell a n)
  decide (f.op ≤ 5) && (regionOf f.remote == .window &&
  (decide (bodyField d 20 4 < 2 ^ 20) && (decide (bodyField d 52 4 < 65536) && (bodyField d 56 8 == 0 &&
  (bodyBits d 16 12 0 == 0 &&
  ((f.op == 2 || (f.aop == 0 && f.result == 0)) && ((f.esfW == 0 || (f.op == 2 && aopIsEsf f.aop)) &&
  ((!f.bg || (f.op == 3 || f.op == 4)) &&
  ((f.arrEn == false || (f.op != 0 && dVoidable d == false)) &&
  (if f.op = 2 then
    match aopSizes f.aop with
    | none => false
    | some (t, n) => decide (f.length = t) && (ofs % t == 0 && (src n && (f.result == noneAddr || dst f.result t)))
  else if f.op = 5 then decide (f.length = 8) && (ofs % 8 == 0 && src 8)
  else ofs % 4 == 0 && (f.length % 4 == 0 && (decide (4 ≤ f.length) &&
    (if f.op = 0 then decide (f.length ≤ 256) && dst f.loc f.length
     else if f.op = 1 then decide (f.length ≤ 4096) && src f.length
     else if f.op = 3 then decide (f.length ≤ 268435456) && src f.length
     else decide (f.length ≤ 268435456) && dst f.loc f.length)))))))))))))

/-- An entry of the cluster's outstanding-request table is free for the task's first packet (R400). -/
def requestRoom (s : State) (cell : Nat) : Bool :=
  decide ((s.rem.requests.filter fun r => r.cluster == clusterOf cell && decide (4 ≤ opOf r.packet)).length < 8192)

/-- Sends the packets of an FM task: element i is made by a function of i. -/
def sendEach (cell index n : Nat) (f : Nat → Out × Answer) (s : State) : State :=
  (List.range n).foldl (fun t i => sendRequest cell index (f i).1 (f i).2 t) s

/-- An answer that lands nowhere and raises nothing. -/
def noAnswer : Answer where
  answerAt := none
  landing := none
  bg := false

/-- The fields of a packet of an FM body. -/
def fmOut (f : Fm) (op vc i : Nat) (payload : List Byte) : Out where
  dst := f.dest
  op := op
  vc := vc
  unit := f.unit
  arrEn := f.arrEn && op != 0x0B
  addr := fmAddr f i
  arr := if f.arrEn then f.arr else 0
  payload := payload

/-- The work of an FM task on local memory it reads or will write: an access that R246 forbids ends the step. -/
def fmGuard (a n : Nat) (f : State → State) (s : State) : TaskEnd × State :=
  if accessOk s a n then (.waits, f s) else (.waits, stepFault fcAddressRange s)

/-- LOAD. -/
def fmLoad (cell : Nat) (d : Desc) (s : State) : TaskEnd × State :=
  let f := fmOf d
  fmGuard f.loc f.length (sendRequest cell d.index (fmOut f 0x04 3 0 (natLe 2 f.length ++ natLe 6 0))
    { noAnswer with answerAt := some f.loc }) s

/-- STORE. -/
def fmStore (cell : Nat) (d : Desc) (s : State) : TaskEnd × State :=
  let f := fmOf d
  fmGuard f.loc f.length (sendRequest cell d.index (fmOut f 0x06 3 0 (getBytes s f.loc f.length)) noAnswer) s

/-- ATOMIC. -/
def fmAtomic (cell : Nat) (d : Desc) (s : State) : TaskEnd × State :=
  let f := fmOf d
  let n := ((aopSizes f.aop).map (·.2)).getD 0
  let head := natLe 1 f.aop ++ natLe 1 (if aopIsEsf f.aop then f.esfW else 0) ++ natLe 14 0
  fmGuard f.loc n (sendRequest cell d.index (fmOut f 0x08 3 0 (head ++ getBytes s f.loc n))
    { noAnswer with answerAt := if f.result = noneAddr then none else some f.result }) s

/-- PUT. -/
def fmPut (cell : Nat) (d : Desc) (s : State) : TaskEnd × State :=
  let f := fmOf d
  fmGuard f.loc f.length (sendEach cell d.index (ceilDiv f.length 4096) fun i =>
    (fmOut f 0x0A (if f.bg then 5 else 4) (4096 * i)
      (getBytes s (f.loc + 4096 * i) (min 4096 (f.length - 4096 * i))), noAnswer)) s

/-- GET. Its packets carry neither BG, nor the landing mode, nor the counter, and the answer carries no flag of its own: these
are kept with the request (DESIGN CHOICE, log 94). -/
def fmGet (cell : Nat) (d : Desc) (s : State) : TaskEnd × State :=
  let f := fmOf d
  fmGuard f.loc f.length (sendEach cell d.index (ceilDiv f.length 4080) fun i =>
    (fmOut f 0x0B 3 (4080 * i) (natLe 2 (min 4080 (f.length - 4080 * i)) ++ natLe 6 0),
     { answerAt := some (f.loc + 4080 * i)
       landing := if f.arrEn then some (f.arr / 4096, f.arr % 4096, f.unit) else none
       bg := f.bg })) s

/-- FLAG_STORE. -/
def fmFlagStore (cell : Nat) (d : Desc) (s : State) : TaskEnd × State :=
  let f := fmOf d
  fmGuard f.loc 8 (sendRequest cell d.index (fmOut f 0x07 2 0 (getBytes s f.loc 8)) noAnswer) s

/-- What an FM task reads of local memory: the data that its packets carry. LOAD and GET read nothing. -/
def fmReads (_cell : Nat) (d : Desc) (_s : State) (a n : Nat) : Bool :=
  let f := fmOf d
  if f.op = 0 ∨ f.op = 4 then false
  else if f.op = 2 then overlaps f.loc (((aopSizes f.aop).map (·.2)).getD 0) a n
  else if f.op = 5 then overlaps f.loc 8 a n
  else overlaps f.loc f.length a n

/-- Issues an FM task of an operation; one whose packet finds the outstanding-request table full waits at issue (R400). A
void one sends no packet (R339). -/
def issueFm (op : Nat) (work : Nat → Desc → State → TaskEnd × State) (cell : Nat) (h : Health) (s : State) : State :=
  issueTask 6 (fun d => bodyOp d == op && (isVoid s cell d || requestRoom s cell)) fmReads work cell h s

/-- FM LOAD. -/
def execFmLoad (cell : Nat) (h : Health) (s : State) : Host.Outcome State Fault Refusal := .next (issueFm 0 fmLoad cell h s)
/-- FM STORE. -/
def execFmStore (cell : Nat) (h : Health) (s : State) : Host.Outcome State Fault Refusal :=
  .next (issueFm 1 fmStore cell h s)
/-- FM ATOMIC. -/
def execFmAtomic (cell : Nat) (h : Health) (s : State) : Host.Outcome State Fault Refusal :=
  .next (issueFm 2 fmAtomic cell h s)
/-- FM PUT. -/
def execFmPut (cell : Nat) (h : Health) (s : State) : Host.Outcome State Fault Refusal := .next (issueFm 3 fmPut cell h s)
/-- FM GET. -/
def execFmGet (cell : Nat) (h : Health) (s : State) : Host.Outcome State Fault Refusal := .next (issueFm 4 fmGet cell h s)
/-- FM FLAG_STORE. -/
def execFmFlagStore (cell : Nat) (h : Health) (s : State) : Host.Outcome State Fault Refusal :=
  .next (issueFm 5 fmFlagStore cell h s)

/-! ## Combining lines (R356, R357) -/

/-- Writes a combining line back, frees it, and then applies its counted landings. -/
def writeLine (l : Line) (s : State) : State :=
  let s := putBytes (64 * l.line) l.data s
  let s : State := { s with
    rem := { s.rem with lines := s.rem.lines.filter fun x => x.line != l.line } }
  l.landings.foldl (fun t x => landCount x.1 x.2.1 x.2.2.1 (if x.2.2.2 then 1 else 0) t) s

/-- Writes back the held lines that an access reaches. -/
def touchLines (a n : Nat) (s : State) : State :=
  (s.rem.lines.filter fun l => overlaps (64 * l.line) 64 a n).foldl (fun t l => writeLine l t) s

/-- Writes back every held line. -/
def flushLines (s : State) : State := s.rem.lines.foldl (fun t l => writeLine l t) s

/-! ## Receiving checks (R344) -/

/-- WFLAGS admits an operation. -/
def windowAdmits (w : Window) (op : Nat) : Bool :=
  if op = 0x04 ∨ op = 0x0B then bitOf w.flags 0
  else if op = 0x06 ∨ op = 0x0A then bitOf w.flags 1
  else if op = 0x08 then bitOf w.flags 2
  else bitOf w.flags 3

/-- The bytes of window memory that a request reaches. -/
def requestLen (p : Packet) : Nat :=
  let op := opOf p
  if op = 0x04 ∨ op = 0x0B then fieldOf p.payload 0 2
  else if op = 0x08 then ((aopSizes (fieldOf p.payload 0 1)).map (·.1)).getD 0
  else p.payload.length

/-- The alignment and length rules of R340 hold for a request packet. -/
def requestAligned (p : Packet) : Bool :=
  let ofs := p.addr.toNat % 2 ^ 28
  let n := requestLen p
  let op := opOf p
  if op = 0x08 then
    match aopSizes (fieldOf p.payload 0 1) with
    | none => false
    | some (t, k) => ofs % t == 0 && p.payload.length == 16 + k
  else if op = 0x07 then n == 8 && ofs % 8 == 0
  else ofs % 4 == 0 && (n % 4 == 0 && (decide (4 ≤ n) &&
    (if op = 0x04 then decide (n ≤ 256) && p.payload.length == 8
     else if op = 0x0B then decide (n ≤ 4080) && p.payload.length == 8
     else decide (n ≤ 4096))))

/-- The window that a request names. -/
def requestWindow (s : State) (p : Packet) : Window := windowOf s (p.addr.toNat / 2 ^ 28 % 4096)

/-- The reason code and status of a refusal, if a check of R344 fails. -/
def refusal? (s : State) (p : Packet) : Option (Nat × Nat) :=
  let w := requestWindow s p
  let g := groupOf (p.src.toNat % 2 ^ 20)
  if !(s.job.opened && p.job == s.job.id) then some (1, stJobMismatch)
  else if !windowValid w then some (2, stBadArg)
  else if w.job ≠ p.job.toNat then some (1, stJobMismatch)
  else if ¬ (w.groupLo ≤ g ∧ g ≤ w.groupHi) then some (3, stAuthFail)
  else if !windowAdmits w (opOf p) then some (4, stAuthFail)
  else if w.size < p.addr.toNat % 2 ^ 28 + requestLen p then some (5, stBadArg)
  else if !requestAligned p then some (6, stBadArg)
  else if opOf p = 0x08 ∧ aopIsEsf (fieldOf p.payload 0 1) = true ∧ fieldOf p.payload 1 1 ≠ w.esfW then some (7, stBadArg)
  else none

/-- The logical id that sent a packet. -/
def srcOf (p : Packet) : Nat := p.src.toNat % 2 ^ 20

/-- Answers a request with a REFUSE and counts it; ESF_WINDOW also ends the current step (R344). -/
def refuseRequest (p : Packet) (reason status : Nat) (s : State) : State :=
  let s := sendReply (srcOf p) 0x0E p.psn status reason [] (addCount (tcRefusedFirst + reason - 1) 1 s)
  if reason = 7 then stepFault fcEsfWindow s else s

/-- The PSN is in the seen record of its source (R349). -/
def isSeen (s : State) (p : Packet) : Bool := (pairOf s (srcOf p)).seen.contains p.psn

/-- Adds the PSN to the seen record. -/
def addSeen (p : Packet) (s : State) : State :=
  let q := pairOf s (srcOf p)
  setPair (srcOf p) { q with seen := p.psn :: q.seen } s

/-- A request's engine address. -/
def requestAddr (s : State) (p : Packet) : Nat := (requestWindow s p).base + p.addr.toNat % 2 ^ 28

/-- The ACK of kind LANDED for a packet. -/
def ackLanded (p : Packet) (s : State) : State := sendReply (srcOf p) 0x0D p.psn 0 0 [] s

/-- The counted landing of a packet, if it names a counter (R51, R342). -/
def countLanding (p : Packet) (s : State) : State :=
  if p.flags.getLsbD 3 then
    landCount (p.arr.toNat / 4096) (p.arr.toNat % 4096) (landAmount (p.flags.getLsbD 4) p.payload.length) (stepBitOf p) s
  else progress s

/-- A landing is neither placed nor counted between an ABORTED latch and its REPLAY grant (R242). -/
def discarding (s : State) (p : Packet) : Bool := landRule s (stepBitOf p) == .discard

/-- Handles a request: the checks of R344, then a duplicate (R352), then the operation itself on an address that the
device may access (R246). -/
def serveRequest (again apply : Nat → Packet → State → State) (p : Packet) (s : State) : State :=
  match refusal? s p with
  | some (reason, status) => refuseRequest p reason status s
  | none =>
    if isSeen s p then again (requestAddr s p) p (addCount tcDuplicates 1 s)
    else if accessOk s (requestAddr s p) (requestLen p) then apply (requestAddr s p) p s
    else stepFault fcAddressRange s

/-- Writes a request's data: held lines that it reaches go back first (R357); then its landing counts and it is
acknowledged. -/
def applyStore (a : Nat) (p : Packet) (s : State) : State :=
  if discarding s p then s
  else ackLanded p (countLanding p (addSeen p (putBytes a p.payload (touchLines a p.payload.length s))))

/-- A read of window memory for an answer: one that R246 forbids ends the step, and one that meets a word known to be
uncorrectable holds it back, so that nothing of it is sent (R458, R462). -/
def windowRead (a n : Nat) (f : State → State) (s : State) : State :=
  if accessOk s a n then
    match badRead? a n s with
    | none => f s
    | some _ => (readHealth 5 0 (metHealth (overlaps a n) s) s).2
  else stepFault fcAddressRange s

/-- Serves a LOAD from the window as it is now: `note` notes a fresh one as seen. -/
def answerLoad (note : State → State) (a : Nat) (p : Packet) (s : State) : State :=
  windowRead a (requestLen p) (fun t => sendReply (srcOf p) 0x05 p.psn 0 0 (getBytes t a (requestLen p)) (note t))
    (touchLines a (requestLen p) s)

/-- Moves a GET into the GET table (R402). -/
def tableGet (a : Nat) (p : Packet) (s : State) : State :=
  let t := touchLines a (requestLen p) s
  { t with rem := { t.rem with getTable := t.rem.getTable ++ [⟨p, a, requestLen p⟩] } }

/-- The target after an atomic, from its old value (R338). -/
def atomicNew (aop old : Nat) (operand : List Byte) : Nat :=
  let x := leNat operand
  if aop = 0 then (old + x) % 2 ^ 64
  else if aop = 1 then sMin 64 old x
  else if aop = 2 then sMax 64 old x
  else if aop = 3 then esfAdd old x
  else if aop = 4 then sMin 128 old x
  else if aop = 5 then sMax 128 old x
  else if aop = 7 then (if leNat (operand.take 8) = old then leNat (operand.drop 8) else old)
  else if aop = 9 then (if leNat (operand.take 16) = old then leNat (operand.drop 16) else old)
  else x

/-- The line of an address, and the port die that owns it: A for an even one (R356). -/
def ownerOf (a : Nat) : Nat := a / 64 % 2

/-- An atomic's target lies in one line. No rule aligns a window's BASE, so it may not (log 93). -/
def oneLine (a size : Nat) : Bool := decide (a % 64 + size ≤ 64)

/-- A combining line is held, or its owner has a free one (R356). -/
def lineRoom (s : State) (n : Nat) : Bool :=
  (s.rem.lines.any fun l => l.line == n) || decide ((s.rem.lines.filter fun l => l.line % 2 == n % 2).length < 64)

/-- The counted landing that a packet names, as its line keeps it (R342). -/
def packetLanding (p : Packet) : List (Nat × Nat × Nat × Bool) :=
  if p.flags.getLsbD 3 then
    [(p.arr.toNat / 4096, p.arr.toNat % 4096, landAmount (p.flags.getLsbD 4) p.payload.length, stepBitOf p == 1)] else []

/-- An atomic has been applied: it is seen, its old value is kept and returned, and its owner's turn passes on (R349,
R357, R358). -/
def answerAtomic (a : Nat) (p : Packet) (old : List Byte) (s : State) : State :=
  let q := pairOf s (srcOf p)
  let s := setPair (srcOf p) { q with seen := p.psn :: q.seen, kept := (p.psn, old) :: q.kept } s
  let s : State := { s with rem := { s.rem with
    atomicTurn := tblPut s.rem.atomicTurn (ownerOf a) (s.rem.arrival.getD 128 + 1) } }
  progress (sendReply (srcOf p) 0x09 p.psn 0 0 old s)

/-- Applies an atomic in a combining line: the landing waits for the line's write-back. A line that has absorbed 256
operations is written back (R357). -/
def applyInLine (a : Nat) (p : Packet) (s : State) : State :=
  let n := a / 64
  let size := requestLen p
  let held := s.rem.lines.find? fun l => l.line == n
  let l : Line := held.getD { line := n, data := getBytes s (64 * n) 64, ops := 0, landings := [] }
  let old := (l.data.drop (a % 64)).take size
  let new := natLe size (atomicNew (fieldOf p.payload 0 1) (leNat old) (p.payload.drop 16))
  let l2 : Line := { l with
    data := l.data.take (a % 64) ++ new ++ l.data.drop (a % 64 + size), ops := l.ops + 1
    landings := l.landings ++ packetLanding p }
  let s := if held.isSome then addCount tcCombinedOps 1 s else s
  let s : State := { s with rem := { s.rem with lines := l2 :: s.rem.lines.filter fun x => x.line != n } }
  let s := answerAtomic a p old s
  if 256 ≤ l2.ops then writeLine l2 s else s

/-- Applies an atomic whose target lies in two lines: both are written back if held, and the whole target is read and
written at once in memory (R347; DESIGN CHOICE, log 93). -/
def applyAcross (a : Nat) (p : Packet) (s : State) : State :=
  let size := requestLen p
  let s := touchLines a size s
  let old := getBytes s a size
  let s := putBytes a (natLe size (atomicNew (fieldOf p.payload 0 1) (leNat old) (p.payload.drop 16))) s
  (packetLanding p).foldl (fun t x => landCount x.1 x.2.1 x.2.2.1 (if x.2.2.2 then 1 else 0) t) (answerAtomic a p old s)

/-- Applies an atomic. A line that is not held is read from memory first, and a target in two lines is. -/
def applyAtomic (a : Nat) (p : Packet) (s : State) : State :=
  if discarding s p then s
  else if oneLine a (requestLen p) then
    if s.rem.lines.any fun l => l.line == a / 64 then applyInLine a p s
    else windowRead (a / 64 * 64) 64 (applyInLine a p) s
  else windowRead a (requestLen p) (applyAcross a p) s

/-- The kept result of a duplicate atomic is sent again (R352). -/
def answerKept (p : Packet) (s : State) : State :=
  match (pairOf s (srcOf p)).kept.find? fun x => x.1 == p.psn with
  | some x => sendReply (srcOf p) 0x09 p.psn 0 0 x.2 s
  | none => s

/-- Kept results held (R349). -/
def keptCount (s : State) : Nat := (s.rem.pairs.map fun e => e.2.kept.length).foldl (· + ·) 0

/-! ## Request packets in their lanes (R349, R356, R358, R398) -/

/-- Handles a request packet by its operation. Every line is written back before a FLAG_STORE is applied (R357). -/
def serveOp (p : Packet) (s : State) : State :=
  let op := opOf p
  if op = 0x06 ∨ op = 0x0A then serveRequest (fun _ => ackLanded) applyStore p s
  else if op = 0x07 then serveRequest (fun _ => ackLanded) applyStore p (flushLines s)
  else if op = 0x04 then serveRequest (answerLoad id) (fun a q t => answerLoad (addSeen q) a q t) p s
  else if op = 0x0B then serveRequest tableGet (fun a q t => tableGet a q (addSeen q t)) p s
  else serveRequest (fun _ => answerKept) applyAtomic p s

/-- A request that would be applied: neither refused nor a duplicate. -/
def isFresh (s : State) (p : Packet) : Bool := (refusal? s p).isNone && !isSeen s p

/-- The atomic would be applied, and the store of kept results is full (R349). -/
def keptFull (s : State) (p : Packet) : Bool := opOf p == 0x08 && (isFresh s p && decide (262144 ≤ keptCount s))

/-- The request packet may leave its lane: its flits have passed the attachment of their port die (R330), its answer has
an entry of the answer queue, which a GET that is taken into the GET table needs not, and an atomic to be applied has a
kept-result entry and a combining line (R398). -/
def mayTake (s : State) (port : Option Nat) (p : Packet) : Bool :=
  (answerRoom s port || (opOf p == 0x0B && (refusal? s p).isNone)) && (!keptFull s p &&
    ((opOf p != 0x08 || (!isFresh s p || (lineRoom s (requestAddr s p / 64) || !oneLine (requestAddr s p) (requestLen p)))) &&
      !landingHeld s port p))

/-- The turn of a waiting packet: an atomic's is its arrival port counted from the one its owner took last (R358). -/
def laneTurn (s : State) (w : LaneWait) : Nat :=
  if opOf w.packet = 0x08 then
    (w.port.getD 128 + 129 - tblGet s.rem.atomicTurn (ownerOf (requestAddr s w.packet))) % 129
  else 0

/-- The waiting packet to be taken next, with its place: of those that may leave, the one whose turn comes first, and of
one turn the oldest. -/
def nextWaiting (s : State) : Option (Nat × LaneWait) :=
  (((List.range s.rem.lanes.length).zip s.rem.lanes).filter fun x => mayTake s x.2.port x.2.packet).foldl
    (fun b x =>
      match b with
      | none => some x
      | some y => if laneTurn s x.2 < laneTurn s y.2 then some x else some y) none

/-- Takes the waiting packet in place i. -/
def takeWaiting (i : Nat) (w : LaneWait) (s : State) : State :=
  let s : State := { s with rem := { s.rem with lanes := dropAt i s.rem.lanes, arrival := w.port } }
  serveOp w.packet (if w.held then leaveBuffer w.port w.packet s else s)

/-- Takes waiting packets, at most n. -/
def takeLanes : Nat → State → State
  | 0, s => s
  | n + 1, s =>
    match nextWaiting s with
    | none => s
    | some (i, w) => takeLanes n (takeWaiting i w s)

/-- Each atomic that waits for a kept-result entry counts once (R359). -/
def noteKeptFull (s : State) : State :=
  let fresh := s.rem.lanes.filter fun w => !w.counted && keptFull s w.packet
  if fresh.isEmpty then s
  else addCount tcKeptFullWaits fresh.length { s with rem := { s.rem with
    lanes := s.rem.lanes.map fun w => { w with counted := w.counted || keptFull s w.packet } } }

/-- Every waiting packet that may now leave its lane is taken. -/
def settleLanes (s : State) : State := noteKeptFull (takeLanes s.rem.lanes.length s)

/-- An atomic for a combining line waits in its lane (R357). -/
def lineAwaited (s : State) (line : Nat) : Bool :=
  s.rem.lanes.any fun w => opOf w.packet == 0x08 && (isFresh s w.packet &&
    overlaps (requestAddr s w.packet) (requestLen w.packet) (64 * line) 64)

/-- LINE_WRITE_BACK: a held line goes back once no atomic for it is waiting (R357). -/
def lineWriteBackEffect (line : Nat) (s : State) : State :=
  match s.rem.lines.find? fun l => l.line == line with
  | some l => if lineAwaited s line then s else writeLine l s
  | none => s

/-- A request packet of an operation reaches this device (R326): it is taken, or waits in its lane (R330, R398). -/
def receiveRequest (op : Nat) (from? : Option Nat) (p : Packet) (s : State) : State :=
  match arrive? from? p s with
  | none => s
  | some t =>
    if forMe s p then
      if headerOk p then
        if opOf p = op ∧ p.dst.toNat % 2 ^ 20 ≠ 0xFFFFF then
          if mayTake t from? p then settleLanes (serveOp p (leaveBuffer from? p t))
          else noteKeptFull { t with rem := { t.rem with lanes := t.rem.lanes ++ [⟨from?, p, true, false⟩] } }
        else s
      else addCount tcDiscardHeader 1 (leaveBuffer from? p t)
    else s

/-- STORE. -/
def execStore (from? : Option Nat) (p : Packet) (s : State) : Host.Outcome State Fault Refusal :=
  .next (receiveRequest 0x06 from? p s)

/-- PUT. -/
def execPut (from? : Option Nat) (p : Packet) (s : State) : Host.Outcome State Fault Refusal :=
  .next (receiveRequest 0x0A from? p s)

/-- FLAG_STORE. -/
def execFlagStore (from? : Option Nat) (p : Packet) (s : State) : Host.Outcome State Fault Refusal :=
  .next (receiveRequest 0x07 from? p s)

/-- LOAD. -/
def execLoad (from? : Option Nat) (p : Packet) (s : State) : Host.Outcome State Fault Refusal :=
  .next (receiveRequest 0x04 from? p s)

/-- GET. -/
def execGet (from? : Option Nat) (p : Packet) (s : State) : Host.Outcome State Fault Refusal :=
  .next (receiveRequest 0x0B from? p s)

/-- ATOMIC. -/
def execAtomic (from? : Option Nat) (p : Packet) (s : State) : Host.Outcome State Fault Refusal :=
  .next (receiveRequest 0x08 from? p s)

/-- LINE_WRITE_BACK. -/
def execLineWriteBack (line : Nat) (s : State) : Host.Outcome State Fault Refusal :=
  .next (settleLanes (lineWriteBackEffect line s))

/-! ## PACKET_SEND (R328, R402) -/

/-- BG of the GET task that sent a request to this device (R337): that of its own task for a request of this device, and a
free choice for one of another, since no field of the request carries it (DESIGN CHOICE, log 94). -/
def getBackground (p : Packet) (s : State) : Bool × State :=
  if srcOf p = selfId s then
    match s.rem.requests.find? (carries p) with
    | some r => (r.bg, s)
    | none => freeChoice s
  else freeChoice s

/-- The GET_DATA of an entry of the GET table (R342, R347, R402), on channel 5 for BG 1 and on channel 4 for BG 0 (R337).
An entry whose window bytes may not be read makes none (R246, R462). -/
def serveGet (i : Nat) (g : GetEntry) (s : State) : State :=
  let c := getBackground g.request s
  let t := touchLines g.addr g.length c.2
  let t : State := { t with rem := { t.rem with getTable := dropAt i t.rem.getTable } }
  windowRead g.addr g.length (fun u =>
    sendAnswer 147 (srcOf g.request) 0x0C (if c.1 then 5 else 4) g.request.psn 0 0 0 (getBytes u g.addr g.length) u) t

/-- PACKET_SEND (R328): element i of the waiting packets starts, if its output serves it next; past their end, an entry
of the GET table becomes a GET_DATA. What waits in a lane for an entry of the answer queue may then be taken. -/
def packetSendEffect (i : Nat) (views : List LinkView) (s : State) : State :=
  let s := takeViews views s
  match s.rem.tx[i]? with
  | some t => settleLanes (startItem i t s)
  | none =>
    match s.rem.getTable[i - s.rem.tx.length]? with
    | some g => settleLanes (serveGet (i - s.rem.tx.length) g s)
    | none => s

/-- PACKET_SEND. -/
def execPacketSend (i : Nat) (views : List LinkView) (s : State) : Host.Outcome State Fault Refusal :=
  .next (packetSendEffect i views s)

/-! ## Answers (R343, R345, R351, R353) -/

/-- REQ_PSN of a response head. -/
def reqPsn (p : Packet) : Word := BitVec.ofNat 32 (fieldOf p.payload 0 4)

/-- The request that an answer with an operation code answers. -/
def answered? (s : State) (p : Packet) (ops : List Nat) : Option Request :=
  if p.job = s.job.id ∧ s.job.opened = true then
    s.rem.requests.find? fun r => r.dst == srcOf p && (r.packet.psn == reqPsn p &&
      (ops.contains (opOf r.packet) && decide (0 < r.sent)))
  else none

/-- The request and its packet leave the sender's tables. -/
def dropRequest (r : Request) (s : State) : State := { s with rem := { s.rem with
    requests := s.rem.requests.filter fun x => !(x.dst == r.dst && x.packet.psn == r.packet.psn)
    tx := s.rem.tx.filter fun t => !(t.request && (t.packet.dst.toNat == r.dst && t.packet.psn == r.packet.psn))
    loop := s.rem.loop.filter fun p => !(carries p r) } }

/-- A request ends: its timer stops, and its outcome is held. -/
def endRequest (r : Request) (s : State) : State := markDone r.dst r.packet.psn (dropRequest r s)

/-- An answer arrives: a stray one is discarded (R353); otherwise its CUM is taken, which may free kept results that
atomics wait for, and its request ends. -/
def takeAnswer (ops : List Nat) (f : Request → State → State) (p : Packet) (s : State) : State :=
  match answered? s p ops with
  | none => addCount tcStrayResponse 1 s
  | some r => settleLanes (f r (endRequest r (takeCum (srcOf p) (headCum p) s)))

/-- Answer data is written where its request said, if the device may access it (R246). -/
def placeAnswer (p : Packet) (r : Request) (s : State) : State :=
  let data := p.payload.drop 16
  match r.answerAt with
  | none => progress s
  | some a => if accessOk s a data.length then progress (putBytes a data s) else stepFault fcAddressRange s

/-- LOAD_RESP. -/
def execLoadResp (from? : Option Nat) (p : Packet) (s : State) : Host.Outcome State Fault Refusal :=
  .next (receive 0x05 false from? p (takeAnswer [0x04] (placeAnswer p) p) s)

/-- ATOMIC_RESP: the old value is written, or discarded. -/
def execAtomicResp (from? : Option Nat) (p : Packet) (s : State) : Host.Outcome State Fault Refusal :=
  .next (receive 0x09 false from? p (takeAnswer [0x08] (placeAnswer p) p) s)

/-- GET_DATA lands, and its landing counts at the requesting device by the packet's step bit (R53, R342). Its landing mode
and counter are those kept with the request (DESIGN CHOICE, log 94). -/
def placeGet (p : Packet) (r : Request) (s : State) : State :=
  let t := placeAnswer p r s
  match r.landing with
  | none => t
  | some (cl, ctr, unit) => landCount cl ctr (landAmount unit p.payload.length) (stepBitOf p) t

/-- GET_DATA. -/
def execGetData (from? : Option Nat) (p : Packet) (s : State) : Host.Outcome State Fault Refusal :=
  .next (receive 0x0C false from? p (takeAnswer [0x0B] (placeGet p) p) s)

/-- An ACK: of kind CUM it carries the peer's cumulative acknowledgement alone; of kind LANDED it ends its request. -/
def ackEffect (p : Packet) (s : State) : State :=
  if fieldOf p.payload 7 1 = 1 then
    if p.job = s.job.id ∧ s.job.opened = true then settleLanes (takeCum (srcOf p) (headCum p) s)
    else addCount tcStrayResponse 1 s
  else takeAnswer [0x01, 0x02, 0x06, 0x07, 0x0A] (fun _ t => t) p s

/-- ACK. -/
def execAck (from? : Option Nat) (p : Packet) (s : State) : Host.Outcome State Fault Refusal :=
  .next (receive 0x0D false from? p (ackEffect p) s)

/-- A REFUSE ends the sender's current step with REMOTE_REFUSED, and the first one is kept (R345). -/
def refuseEffect (p : Packet) (s : State) : State :=
  takeAnswer [0x04, 0x06, 0x07, 0x08, 0x0A, 0x0B] (fun _ t =>
    let first := match t.rem.firstRefuse with
      | some x => x
      | none => (fieldOf p.payload 6 1, fieldOf p.payload 4 2)
    stepFault fcRemoteRefused { t with rem := { t.rem with firstRefuse := some first } }) p s

/-- REFUSE. -/
def execRefuse (from? : Option Nat) (p : Packet) (s : State) : Host.Outcome State Fault Refusal :=
  .next (receive 0x0E false from? p (refuseEffect p) s)

/-! ## Timers (R350, R351, R354) -/

/-- The 50 µs timer in ticks. -/
def e2eTicks : Nat := 62500

/-- The request is of the run that is going on. -/
def ofRun (s : State) (r : Request) : Bool :=
  stepActive s && match s.ctl.run with
    | some x => x.g.step == r.step
    | none => false

/-- A request's timer expires: a request of a stopped run is abandoned (R354), and CUM never passes it (R351); one
sent 8 times ends the step with REMOTE_TIMEOUT; any other is sent again by a fresh route (R350). -/
def e2eRetryEffect (dst : Nat) (psn : BitVec 32) (s : State) : State :=
  match s.rem.requests.find? fun r => r.dst == dst && r.packet.psn == psn with
  | none => s
  | some r =>
    if e2eTicks ≤ r.timer then
      if ofRun s r then
        if 8 ≤ r.sent then stepFault fcRemoteTimeout (dropRequest r s)
        else
          let s : State := { s with rem := { s.rem with requests := s.rem.requests.map fun x =>
            if x.dst == dst && x.packet.psn == psn then { x with timer := 0 } else x } }
          dispatchPacket r.packet true (exchangeSource r.cluster) s
      else dropRequest r s
    else s

/-- E2E_RETRY. -/
def execE2eRetry (dst : Nat) (psn : BitVec 32) (s : State) : Host.Outcome State Fault Refusal :=
  .next (e2eRetryEffect dst psn s)

/-- A retry of the request waits to leave. -/
def retryWaits (s : State) (r : Request) : Bool :=
  s.rem.tx.any (fun t => t.request && carries t.packet r) || s.rem.loop.any fun p => carries p r

/-- The timer of a request is paused: the port that carried it has no credit on channel 1, or none on the packet's own
channel (R350). The lanes are those of a first link (DEDUCED, log 67). -/
def timerPaused (s : State) (r : Request) : Bool :=
  match r.port with
  | none => false
  | some q =>
    laneFree (portOf s q).used (creditLane 1 1) == 0 || laneFree (portOf s q).used (creditLane (vcOf r.packet) 1) == 0

/-- The timer of a request runs once its packet has left the device (R350), and while a retry waits to leave only if its
run has stopped: such a retry leaves no more, and the request is abandoned (R354). -/
def timerRuns (s : State) (r : Request) : Bool :=
  decide (0 < r.sent) && (!timerPaused s r && (!ofRun s r || !retryWaits s r))

/-- Sends an ACK of kind CUM. -/
def sendCum (dst : Nat) (s : State) : State := sendAnswer 147 dst 0x0D 1 0 0 0 1 [] s

/-- CUM_ACK: the CUM of a pair has advanced since it was last sent (R351). -/
def execCumAck (dst : Nat) (s : State) : Host.Outcome State Fault Refusal :=
  .next (if (pairOf s dst).doneTo = (pairOf s dst).sentCum then s else sendCum dst s)

/-- A CUM to every device that the run has sent to, at its terminal latch (R351). -/
def sendCums (s : State) : State :=
  let t := (s.rem.pairs.filter fun e => e.2.inRun).foldl (fun t e => sendCum e.1 t) s
  { t with rem := { t.rem with pairs := t.rem.pairs.map fun e => (e.1, { e.2 with inRun := false }) } }

/-- What remains of a stopped or finished run's requests is dropped at the latch: those that never left the device. -/
def dropUnsent (s : State) : State :=
  (s.rem.requests.filter fun r => r.sent == 0).foldl (fun t r => endRequest r t) s

/-- No request that has left the device awaits its answer. -/
def allAnswered (s : State) : Bool := s.rem.requests.all fun r => r.sent == 0

end Sys2Proof.Machine
end

