-- ==== Sys2Proof/Machine/Plans.lean ====
section
/-! DEFINITION. The image's task lists (R32), routing layers and placement (R165, R166, R183), exchange plans (R211), and the
token map's epochs (R230). -/

namespace Sys2Proof.Machine

/-! ## Task lists (R32) -/

/-- Descriptors of a cell's list, HALT included. -/
def listCount (im : Image) (sched cell : Nat) : Nat := sectionLe im 1 sched (8 * cell + 6) 2 + 1

/-- Byte offset of a cell's list within its section. -/
def listOfs (im : Image) (sched cell : Nat) : Nat := sectionLe im 1 sched (8 * cell) 6

/-- Descriptor i of a cell's list in the image as received. -/
def listDesc (im : Image) (sched cell i : Nat) : Desc :=
  descOf 0 i (sectionBytes im 1 sched (listOfs im sched cell + 64 * i) 64)

/-! ## Routing layers (R165, R166) -/

/-- A layer record. -/
structure Layer where
  experts : Nat
  scoreFn : Nat
  policy : Nat
  kmin : Nat
  kmax : Nat
  spillRounds : Nat
  gateNorm : Bool
  negotiated : Bool
  bf16 : Bool
  tau : Nat
  capacity : Nat
  gateScale : Nat
  table : Nat
  stride : Nat
  groupTokens : Nat
  placeAddr : Nat
  biasOfs : Nat
  deriving DecidableEq, Repr

/-- Layer record l of a ROUTING section. -/
def layerAt (m : Mem) (l : Nat) : Layer :=
  let b := memRead m (64 + 64 * l) 64
  let flags := fieldOf b 7 1
  { experts := fieldOf b 0 2, scoreFn := fieldOf b 2 1, policy := fieldOf b 3 1, kmin := fieldOf b 4 1
    kmax := fieldOf b 5 1, spillRounds := fieldOf b 6 1, gateNorm := bitOf flags 0, negotiated := bitOf flags 1
    bf16 := bitOf flags 2, tau := fieldOf b 8 4, capacity := fieldOf b 12 4, gateScale := fieldOf b 16 4
    table := fieldOf b 20 1, stride := fieldOf b 24 4 % 2 ^ 20, groupTokens := fieldOf b 28 4
    placeAddr := fieldOf b 32 8, biasOfs := fieldOf b 40 8 }

/-- A layer of the bound image. -/
def layerOf (s : State) (l : Nat) : Layer := layerAt s.job.routing l

/-- Entries that a selection record of the layer may hold: KMAX, or every expert tried under SPILL_TOPK (R181, R219). -/
def recordRoom (l : Layer) : Nat := if l.policy = 3 then l.kmax * (l.spillRounds + 1) else l.kmax

/-- RB of R181. -/
def recordBytes (l : Layer) : Nat := roundUp (8 + 8 * recordRoom l) 64

/-- W of R179. -/
def workBytes (l : Layer) : Nat := roundUp (4 + 4 * l.capacity) 64

/-! ## Placement and bias (R172, R183, R184) -/

/-- The placement entry of an expert in the table in force. -/
def placementOf (s : State) (l e : Nat) : Nat :=
  match kvGet? s.job.lasting.place (l * 16384 + e) with
  | some v => v
  | none => memLe s.mem ((layerOf s l).placeAddr + 8 * e) 8

/-- REPLICAS. -/
def replicasOf (entry : Nat) : Nat := bitsOf entry 35 32
/-- SLOT. -/
def slotOf (entry : Nat) : Nat := bitsOf entry 31 20
/-- HOME. -/
def homeOf (entry : Nat) : Nat := entry % 2 ^ 20

/-- The home that a proposal of a token goes to (R184); none for an expert out of service. `token` is the 32-bit token id of
R182: R184's t is read as that, not as the local index that R181 and R190 call t (DESIGN CHOICE, log 102). -/
def replicaHome (entry stride token : Nat) : Option Nat :=
  if replicasOf entry = 0 then none
  else some ((homeOf entry + token % replicasOf entry * stride) % 2 ^ 20)

/-- The bias of an expert in the epoch in force. -/
def biasAt (s : State) (l e : Nat) : Nat := tblGet s.job.lasting.bias (l * 16384 + e)

/-- The token id of a local token index (R182). -/
def tokenId (s : State) (t : Nat) : Nat := s.job.rank.toNat * 65536 + t

/-- SEQ_EPOCH of a local token (R230). -/
def tokenEpoch (s : State) (t : Nat) : Nat :=
  let e := tblGet s.job.lasting.tokens t
  if bitOf e 15 then
    match kvGet? s.job.lasting.slots (e % 1024) with
    | some (true, k) => k
    | some (false, _) => 0xFFFF
    | none => 0xFFFF
  else 0xFFFF

/-! ## Exchange plans (R211) -/

/-- An exchange plan. -/
structure XPlan where
  destCount : Nat
  parity : Nat
  landMask : Nat
  slotsPerCluster : Nat
  destTable : Nat
  listAddr : Nat
  listRoom : Nat
  tokenFirst : Nat
  tokenCount : Nat
  selAddr : Nat
  accLand : Nat
  ansLand : Nat
  presence : Nat
  retSenders : Nat
  accCtr : Nat
  ansCtr : Nat
  fwdSenders : Nat
  fwdCtr : Nat
  rowCtr : Nat
  srcTable : Nat
  bidLand : Nat
  bidRoom : Nat
  slotFirst : Nat
  slotCount : Nat
  rowLand : Nat
  rowRoom : Nat
  rowBytes : Nat
  ansBytes : Nat
  bitmapOut : Nat
  deriving DecidableEq, Repr

/-- Exchange plan d of an AUX_DESC section. Token and slot counts are held plus 1. -/
def xplanAt (m : Mem) (d : Nat) : XPlan :=
  let b := memRead m (1024 + 128 * d) 128
  { destCount := fieldOf b 0 4 % 2 ^ 17, parity := fieldOf b 0 4 / 2 ^ 30, landMask := fieldOf b 4 2
    slotsPerCluster := fieldOf b 6 2, destTable := fieldOf b 8 8, listAddr := fieldOf b 16 8
    listRoom := fieldOf b 24 4, tokenFirst := fieldOf b 28 2, tokenCount := fieldOf b 30 2 + 1
    selAddr := fieldOf b 32 8, accLand := fieldOf b 40 8, ansLand := fieldOf b 48 8, presence := fieldOf b 56 8
    retSenders := fieldOf b 64 4, accCtr := fieldOf b 68 2, ansCtr := fieldOf b 70 2, fwdSenders := fieldOf b 72 4
    fwdCtr := fieldOf b 76 2, rowCtr := fieldOf b 78 2, srcTable := fieldOf b 80 8, bidLand := fieldOf b 88 8
    bidRoom := fieldOf b 96 4, slotFirst := fieldOf b 100 2, slotCount := fieldOf b 102 2 + 1
    rowLand := fieldOf b 104 8, rowRoom := fieldOf b 112 4, rowBytes := fieldOf b 116 2, ansBytes := fieldOf b 118 2
    bitmapOut := fieldOf b 120 8 }

/-- A plan of the bound image. -/
def xplanOf (s : State) (d : Nat) : XPlan := xplanAt s.job.plans d

/-- The plan's PARITY admits a step (R211). -/
def parityAdmits (x : XPlan) (step : Nat) : Bool := x.parity == 0 || x.parity == 1 + step % 2

/-- The landing clusters of a mask, ascending. -/
def maskClusters (m : Nat) : List Nat := bitList 16 m

/-- LB of R207. -/
def listPitch (x : XPlan) : Nat := roundUp (16 + 12 * x.listRoom) 64
/-- AB of R211. -/
def bitmapPitch (x : XPlan) : Nat := roundUp (ceilDiv x.listRoom 8) 64
/-- The pitch of BID_LAND. -/
def bidPitch (x : XPlan) : Nat := roundUp (12 * x.bidRoom) 64
/-- The pitch of BITMAP_OUT. -/
def outPitch (x : XPlan) : Nat := roundUp (ceilDiv x.bidRoom 8) 64
/-- RP of R211. -/
def rowPitch (x : XPlan) : Nat := roundUp (16 + x.rowBytes) 64
/-- AP of R211. -/
def ansPitch (x : XPlan) : Nat := roundUp (16 + x.ansBytes) 64

/-- The logical id of destination index d. -/
def destId (s : State) (x : XPlan) (d : Nat) : Nat := memLe s.mem (x.destTable + 4 * d) 4 % 2 ^ 20

/-- The entry of sender index k: its logical id and sending cluster, in bits [23:0]. -/
def srcEntry (s : State) (x : XPlan) (k : Nat) : Nat := memLe s.mem (x.srcTable + 4 * k) 4 % 2 ^ 24

/-- The destination index of a logical id. -/
def destIndex? (s : State) (x : XPlan) (id : Nat) : Option Nat := (List.range x.destCount).find? fun d => destId s x d == id

/-- The sender index of a logical id and sending cluster. -/
def srcIndex? (s : State) (x : XPlan) (id cl : Nat) : Option Nat :=
  (List.range x.fwdSenders).find? fun k => srcEntry s x k == id + cl * 2 ^ 20

/-- The slot lies in the landing plan's range. -/
def slotInPlan (x : XPlan) (slot : Nat) : Bool := decide (x.slotFirst ≤ slot) && decide (slot < x.slotFirst + x.slotCount)

/-- The place of a row of a slot (R212). -/
def rowPlace (x : XPlan) (slot pos : Nat) : Nat := x.rowLand + ((slot - x.slotFirst) * x.rowRoom + pos) * rowPitch x

/-- The plan that an RT or XC descriptor names for a layer and round. -/
def planNamed (layer round : Nat) (d : Desc) : Option Nat :=
  let same := bodyBits d 16 27 20 == layer && bodyBits d 16 19 16 == round
  if dClass d = 4 then (if same then some (bodyBits d 44 31 16) else none)
  else if dClass d = 5 ∧ bodyOp d < 8 then (if same then some (bodyField d 24 2) else none)
  else none

/-- The plans that a cell's list names for a layer and round. -/
def plansOfList (im : Image) (sched cell layer round : Nat) : List Nat :=
  (List.range (listCount im sched cell)).filterMap fun i => planNamed layer round (listDesc im sched cell i)

/-- The plan of a cluster for a layer, a round and a step (R211): one that a task of the cluster names and whose PARITY
admits the step. -/
def planFor? (s : State) (cl layer round step : Nat) : Option Nat :=
  match s.job.image with
  | none => none
  | some im =>
    ((List.range im.schedules).flatMap fun k => (List.range 32).flatMap fun c =>
      plansOfList im k (32 * cl + c) layer round).find? fun p => parityAdmits (xplanOf s p) step

/-- The number of the running step, 0 without one. -/
def runStep (s : State) : Nat :=
  match s.ctl.run with
  | some r => r.g.step.toNat
  | none => 0

/-- The key of the bids that a sender landed under a plan for a round, in the step of a parity. -/
def bidKey (step plan round k : Nat) : Nat := ((step % 2 * 65536 + plan) * 4 + round) * 1048576 + k

/-! ## Ranges that a task reads (R462) -/

/-- n bytes at an address share a byte with one of the ranges. -/
def spanHit (rs : List (Nat × Nat)) (a n : Nat) : Bool := rs.any fun r => overlaps r.1 r.2 a n

/-- The bids of a plan's lists, each with its header. -/
def listSpans (s : State) (x : XPlan) : List (Nat × Nat) :=
  (List.range x.destCount).map fun d =>
    let a := x.listAddr + d * listPitch x
    (a, 16 + 12 * memLe s.mem a 4)

/-- The placement entry of an expert, where the table stands in memory. -/
def placeSpan (s : State) (l e : Nat) : List (Nat × Nat) :=
  if (kvGet? s.job.lasting.place (l * 16384 + e)).isSome then [] else [((layerOf s l).placeAddr + 8 * e, 8)]

/-- The DEST_TABLE of a plan. -/
def destSpan (x : XPlan) : Nat × Nat := (x.destTable, 4 * x.destCount)

/-! ## Bids (R206, R207) -/

/-- A bid entry. -/
structure Bid where
  token : Nat
  score : Nat
  expert : Nat
  row : Bool
  spill : Bool
  rank : Nat
  deriving DecidableEq, Repr

/-- The 12 bytes of a bid. -/
def bidBytes (b : Bid) : List Byte :=
  natLe 4 b.token ++ natLe 4 b.score ++
    natLe 2 (b.expert + (if b.row then 32768 else 0) + if b.spill then 16384 else 0) ++ natLe 1 b.rank ++ natLe 1 0

/-- A bid at offset o of a byte string. -/
def bidAt (l : List Byte) (o : Nat) : Bid where
  token := fieldOf l o 4
  score := fieldOf l (o + 4) 4
  expert := fieldOf l (o + 8) 2 % 16384
  row := bitOf (fieldOf l (o + 8) 2) 15
  spill := bitOf (fieldOf l (o + 8) 2) 14
  rank := fieldOf l (o + 10) 1

/-- n bids from an address. -/
def bidsAt (m : Mem) (a n : Nat) : List Bid := (List.range n).map fun i => bidAt (memRead m (a + 12 * i) 12) 0

/-- The bids of list d of a plan. -/
def listBids (s : State) (x : XPlan) (d : Nat) : List Bid :=
  let a := x.listAddr + d * listPitch x
  bidsAt s.mem (a + 16) (memLe s.mem a 4)

/-- The ordinal of the landing cluster of an expert (R207). -/
def landOrdinal (s : State) (x : XPlan) (layer e : Nat) : Nat := slotOf (placementOf s layer e) / x.slotsPerCluster

/-! ## Selection records (R181) -/

/-- An entry of a selection record. -/
structure SelEntry where
  expert : Nat
  state : Nat
  rank : Nat
  round : Nat
  gate : Nat
  deriving DecidableEq, Repr

/-- The 8 bytes of an entry. -/
def selBytes (e : SelEntry) : List Byte :=
  natLe 2 (e.expert + e.state * 16384) ++ natLe 1 e.rank ++ natLe 1 e.round ++ natLe 4 e.gate

/-- An entry at an address. -/
def selAt (m : Mem) (a : Nat) : SelEntry where
  expert := memLe m a 2 % 16384
  state := memLe m a 2 / 16384
  rank := memLe m (a + 2) 1
  round := memLe m (a + 3) 1
  gate := memLe m (a + 4) 4

/-- The entries of the record at an address. -/
def recordEntries (m : Mem) (a : Nat) : List SelEntry := (List.range (memLe m a 1)).map fun j => selAt m (a + 8 + 8 * j)

/-- The bytes of a record of a layer. -/
def recordOf (l : Layer) (nan : Bool) (es : List SelEntry) : List Byte :=
  padTo (recordBytes l) (natLe 1 es.length ++ natLe 1 (if nan then 1 else 0) ++ natLe 6 0 ++ es.flatMap selBytes)

/-! ## Sorting -/

/-- Inserts before the first element that it precedes strictly. -/
def insertBy {α : Type} (lt : α → α → Bool) (a : α) : List α → List α
  | [] => [a]
  | b :: r => if lt a b then a :: b :: r else b :: insertBy lt a r

/-- A stable sort. -/
def sortBy {α : Type} (lt : α → α → Bool) (l : List α) : List α := l.foldl (fun acc a => insertBy lt a acc) []

/-- key of R170. -/
def scoreKey (bits : Nat) : Nat := if 2 ^ 31 ≤ bits then 2 ^ 32 - 1 - bits else bits + 2 ^ 31

end Sys2Proof.Machine
end

