-- ==== Sys2Proof/Machine/Vector.lean ====
section
/-! DEFINITION. The stream vector engine (R137 to R163): one meaning per operation over shared streams and passes. -/

namespace Sys2Proof.Machine

/-! ## The body (R138 to R144) -/

/-- A decoded VX body. -/
structure Vx where
  op : Nat
  func : Nat
  rows : Nat
  maskZero : Bool
  oobZero : Bool
  pad : Bool
  grouped : Bool
  rowLen : Nat
  src0 : Stream
  src1 : Stream
  src2 : Stream
  dst : Stream
  mask : Stream
  aux : Stream
  window : Int
  rnd : RndCtx
  imm0 : Nat
  imm1 : Nat
  deriving DecidableEq, Repr

/-- The format of a code, BIT for a reserved one. -/
def vxFmtOr (c : Nat) : SFmt := (vxFmt? c).getD .bit

/-- Decodes a VX body, with the stride pattern table at an address of a memory and the running step's number. -/
def vxOf (m : Mem) (aux step : Nat) (d : Desc) : Vx :=
  let f (hi lo : Nat) := vxFmtOr (bodyBits d 48 hi lo)
  let n := bodyBits d 20 23 0 + 1
  let byte : SFmt := .elem .int8
  { op := bodyBits d 16 31 24
    func := bodyBits d 16 23 16
    rows := bodyBits d 16 15 0 + 1
    maskZero := bitOf (bodyField d 20 4) 31
    oobZero := bitOf (bodyField d 20 4) 30
    pad := bitOf (bodyField d 20 4) 29
    grouped := bitOf (bodyField d 20 4) 28
    rowLen := n
    src0 := streamOf m aux (bodyField d 24 4) (f 31 28) n
    src1 := streamOf m aux (bodyField d 28 4) (f 27 24) n
    src2 := streamOf m aux (bodyField d 32 4) (f 23 20) n
    dst := streamOf m aux (bodyField d 36 4) (f 19 16) n
    mask := streamOf m aux (bodyField d 40 4) .bit n
    aux := streamOf m aux (bodyField d 44 4) byte n
    window := signed 8 (bodyBits d 48 15 8)
    rnd := ⟨bodyBits d 48 7 6, bodyField d 52 8, bodyField d 60 4, step⟩
    imm0 := bodyField d 52 4
    imm1 := bodyField d 56 4 }

/-- The task's view of one execution: the cell, the body and the state whose memory it reads. Every input is read from
memory as it stands at issue, and results are written in element order. Where DST overlaps an input other than as R147
allows, R147 leaves the result unspecified and this order settles it (DESIGN CHOICE, log 89). -/
structure VxRun where
  cell : Nat
  v : Vx
  s : State

/-- The stream is present. -/
def present (t : Stream) : Bool := t.region != 0

/-- MASK keeps element (r, e); without MASK every element is kept. -/
def kept (x : VxRun) (r e : Nat) : Bool := !present x.v.mask || readCode x.s x.cell x.v.mask r e == 1

/-- An input element widened exactly. -/
def rawIn (x : VxRun) (t : Stream) (r e : Nat) : FVal := readValue x.s x.cell t x.v.aux x.v.window r e

/-- Every input stream that is present is of an integer format, and so is DST (R147). A b that is IMM0 is FP32. -/
def allInts (x : VxRun) (usesB : Bool) : Bool :=
  let ok (t : Stream) := !present t || sIsInt t.fmt
  sIsInt x.v.dst.fmt && (ok x.v.src0 && (ok x.v.src1 && (ok x.v.src2 && (!usesB || present x.v.src1))))

/-- One rounding on the FP32 path, none on the integer path (R147). -/
def pathRound (ints : Bool) (v : FVal) : FVal := if ints then v else rnd32 v

/-- An input element as the path widens it. -/
def pathIn (x : VxRun) (ints : Bool) (t : Stream) (r e : Nat) : FVal := pathRound ints (rawIn x t r e)

/-- b: SRC1, or IMM0 read as FP32 when SRC1 is NONE (R146; DEDUCED for FMA and SELECT, log 33). -/
def pathB (x : VxRun) (ints : Bool) (r e : Nat) : FVal :=
  if present x.v.src1 then pathIn x ints x.v.src1 r e else ofF32 x.v.imm0

/-! ## Writing results -/

/-- A state being written, with the count codes gathered so far. -/
abbrev Acc := State × List Nat

/-- Writes one result at (r, e), converted once to DST_FMT. -/
def putResult (x : VxRun) (r e : Nat) (v : FVal) (a : Acc) : Acc :=
  let c := streamCode x.v.dst.fmt x.v.window (rndAt x.v.rnd (r * x.v.rowLen + e)) v
  (writeCode x.cell x.v.dst r e c.1 a.1, a.2 ++ c.2)

/-- Writes +0 at (r, e). -/
def putZero (x : VxRun) (r e : Nat) (a : Acc) : Acc := (writeCode x.cell x.v.dst r e 0 a.1, a.2)

/-- Writes a result under the write mask (R140). A masked-off element is not converted (DEDUCED, log 34). -/
def putMasked (x : VxRun) (r e : Nat) (v : FVal) (a : Acc) : Acc :=
  if kept x r e then putResult x r e v a else if x.v.maskZero then putZero x r e a else a

/-- Runs over every element of every row, in element order. -/
def eachElement (rows n : Nat) (f : Nat → Nat → Acc → Acc) (a : Acc) : Acc :=
  (List.range rows).foldl (fun a r => (List.range n).foldl (fun a e => f r e a) a) a

/-- The elements of a row that an operation under the write mask writes. -/
def maskedRow (x : VxRun) (r : Nat) : List Nat := (List.range x.v.rowLen).filter fun e => x.v.maskZero || kept x r e

/-- Elements as row and index: those of DST row d, for e of a list. -/
def inRow (d : Nat) (es : List Nat) : List (Nat × Nat) := es.map fun e => (d, e)

/-- Those that an operation under the write mask writes. -/
def maskedAll (x : VxRun) : List (Nat × Nat) := (List.range x.v.rows).flatMap fun r => inRow r (maskedRow x r)

/-- Every element. -/
def wholeAll (x : VxRun) : List (Nat × Nat) := (List.range x.v.rows).flatMap fun r => inRow r (List.range x.v.rowLen)

/-- The byte at an address is one that the elements written fill, or one of the scales of their blocks. -/
def vxCovers (x : VxRun) (w : List (Nat × Nat)) (a : Nat) : Bool :=
  let t := x.v.dst
  let base := streamBase x.cell t
  ((List.range 8).all fun b => w.any fun p =>
    overlaps (8 * base + streamPos t p.1 p.2) (sBits t.fmt) (8 * a + b) 1) ||
  (sHasScale t.fmt && w.any fun p =>
    streamBase x.cell x.v.aux + scalePos x.v.aux x.v.rowLen p.1 (if x.v.op = 0x32 then 2 * p.2 else p.2) == a)

/-- Ends a VX task that wrote these elements: the counts go to the report, the elements to CL_PERF (R511), and a bad word that
they fill is good again. -/
def vxDone (x : VxRun) (w : List (Nat × Nat)) (a : Acc) : TaskEnd × State :=
  (.finished, perfAdd (clusterOf x.cell) 0x05 w.length (healWhere (vxCovers x w) (addStepCodes a.2 a.1)))

/-! ## Element operations (R146, R147) -/

/-- The larger of two values: NaN if either is NaN, and −0 below +0. -/
def vMax (a b : FVal) : FVal :=
  if fIsNan a ∨ fIsNan b then .nan
  else if fCmp a b < 0 then b else if 0 < fCmp a b then a else if fSign a then b else a

/-- The smaller of two values, with the same rules. -/
def vMin (a b : FVal) : FVal :=
  if fIsNan a ∨ fIsNan b then .nan
  else if fCmp a b < 0 then a else if 0 < fCmp a b then b else if fSign a then a else b

/-- A predicate of CMP: false with a NaN, except NE. -/
def vCmp (func : Nat) (a b : FVal) : Bool :=
  if fIsNan a ∨ fIsNan b then func == 1
  else
    let c := fCmp a b
    if func = 0 then decide (c = 0)
    else if func = 1 then decide (c ≠ 0)
    else if func = 2 then decide (c < 0)
    else if func = 3 then decide (c ≤ 0)
    else if func = 4 then decide (0 < c)
    else decide (0 ≤ c)

/-- 1 or +0. -/
def fOfBool (b : Bool) : FVal := if b then fOfInt 1 else fZero

/-- An element-wise operation: result of the operands of each element under the write mask. -/
def elementwise (usesB : Bool) (ok : Bool) (f : Bool → VxRun → Nat → Nat → FVal) (x : VxRun) : TaskEnd × State :=
  let ints := ok && allInts x usesB
  vxDone x (maskedAll x) (eachElement x.v.rows x.v.rowLen
    (fun r e a => if kept x r e then putResult x r e (pathRound ints (f ints x r e)) a
      else if x.v.maskZero then putZero x r e a else a) (x.s, []))

/-- a of an element. -/
def opA (ints : Bool) (x : VxRun) (r e : Nat) : FVal := pathIn x ints x.v.src0 r e
/-- c of an element. -/
def opC (ints : Bool) (x : VxRun) (r e : Nat) : FVal := pathIn x ints x.v.src2 r e

/-- ADD. -/
def vxAdd (x : VxRun) : TaskEnd × State :=
  elementwise true true (fun i x r e => fAdd (opA i x r e) (pathB x i r e)) x
/-- SUB. -/
def vxSub (x : VxRun) : TaskEnd × State :=
  elementwise true true (fun i x r e => fAdd (opA i x r e) (fNeg (pathB x i r e))) x
/-- MUL. -/
def vxMul (x : VxRun) : TaskEnd × State :=
  elementwise true true (fun i x r e => fMul (opA i x r e) (pathB x i r e)) x
/-- FMA, rounded once. -/
def vxFma (x : VxRun) : TaskEnd × State :=
  elementwise true true (fun i x r e => fAdd (fMul (opA i x r e) (pathB x i r e)) (opC i x r e)) x
/-- DIV, always on the FP32 path. -/
def vxDiv (x : VxRun) : TaskEnd × State :=
  elementwise true false (fun i x r e => fDiv (opA i x r e) (pathB x i r e)) x
/-- MAX. -/
def vxMax (x : VxRun) : TaskEnd × State :=
  elementwise true true (fun i x r e => vMax (opA i x r e) (pathB x i r e)) x
/-- MIN. -/
def vxMin (x : VxRun) : TaskEnd × State :=
  elementwise true true (fun i x r e => vMin (opA i x r e) (pathB x i r e)) x

/-- UNARY: NEG, ABS, SQRT, RCP or RELU; SQRT and RCP take the FP32 path. -/
def vxUnary (x : VxRun) : TaskEnd × State :=
  elementwise false (x.v.func != 2 && x.v.func != 3) (fun i x r e =>
    let a := opA i x r e
    if x.v.func = 0 then fNeg a
    else if x.v.func = 1 then fAbs a
    else if x.v.func = 2 then fSqrt a
    else if x.v.func = 3 then fDiv (fOfInt 1) a
    else vMax a fZero) x

/-- CMP. -/
def vxCmp (x : VxRun) : TaskEnd × State :=
  elementwise true true (fun i x r e => fOfBool (vCmp x.v.func (opA i x r e) (pathB x i r e))) x

/-- SELECT: MASK chooses a or b and is no write mask (R147). -/
def vxSelect (x : VxRun) : TaskEnd × State :=
  let ints := allInts x true
  vxDone x (wholeAll x) (eachElement x.v.rows x.v.rowLen
    (fun r e a => putResult x r e (if kept x r e then opA ints x r e else pathB x ints r e) a) (x.s, []))

/-! ## Reductions and scans (R148) -/

/-- Replaces lane l by a function of what it holds. -/
def mapLane (l : Nat) (f : Option FVal → FVal) (lanes : List (Option FVal)) : List (Option FVal) :=
  lanes.set l (some (f (lanes.getD l none)))

/-- The lanes after the elements of a row, each with its index, in ascending order: lane e mod 128 takes element e. -/
def fillLanes (init : FVal → FVal) (comb : FVal → FVal → FVal) (els : List (Nat × FVal)) : List (Option FVal) :=
  els.foldl (fun ls x => mapLane (x.1 % 128)
    (fun p => match p with
      | none => init x.2
      | some y => comb y x.2) ls) (List.replicate 128 none)

/-- Two lanes combined; a lane with no elements is skipped. -/
def joinLanes (op : FVal → FVal → FVal) (a b : Option FVal) : Option FVal :=
  match a, b with
  | none, y => y
  | some x, none => some x
  | some x, some y => some (op x y)

/-- The lanes combined for h = 64, 32, 16, 8, 4, 2, 1. -/
def treeLanes (op : FVal → FVal → FVal) (lanes : List (Option FVal)) : Option FVal :=
  ([64, 32, 16, 8, 4, 2, 1].foldl (fun (ls : List (Option FVal)) h =>
    (List.range h).map fun l => joinLanes op (ls.getD l none) (ls.getD (l + h) none)) lanes).getD 0 none

/-- The reduction of a row's elements: SUM 0, SUMSQ 1, MAX 2, MIN 3, with a rounding after each operation. -/
def reduceRow (func : Nat) (rd : FVal → FVal) (els : List (Nat × FVal)) : FVal :=
  if func = 1 then
    (treeLanes (fun a b => rd (fAdd a b))
      (fillLanes (fun x => rd (fMul x x)) (fun p x => rd (fAdd (fMul x x) p)) els)).getD fZero
  else
    let op : FVal → FVal → FVal := fun a b =>
      if func = 0 then rd (fAdd a b) else if func = 2 then vMax a b else vMin a b
    (treeLanes op (fillLanes id op els)).getD (if func = 0 then fZero else .nan)

/-- The elements of a row that MASK keeps, with their indices. -/
def rowElements (x : VxRun) (ints : Bool) (r : Nat) : List (Nat × FVal) :=
  ((List.range x.v.rowLen).filter (kept x r)).map fun e => (e, opA ints x r e)

/-- REDUCE: the result of row r is element (r, 0) of DST. Where MAX or MIN finds every element of a row excluded and DST is
BIT, R148 has the NaN convert to 0 with one INT_SATURATE on the integer path, and R144 writes 1 for a NaN without a count: the
model takes R144's (DESIGN CHOICE, log 101). -/
def vxReduce (x : VxRun) : TaskEnd × State :=
  let ints := allInts x false
  vxDone x ((List.range x.v.rows).map fun r => (r, 0)) ((List.range x.v.rows).foldl
    (fun a r => putResult x r 0 (reduceRow x.v.func (pathRound ints) (rowElements x ints r)) a) (x.s, []))

/-- One row of a scan: the running value after the elements so far. -/
def scanStep (x : VxRun) (ints : Bool) (r e : Nat) (a : Option FVal × Acc) : Option FVal × Acc :=
  if kept x r e then
    let v := opA ints x r e
    let n := match a.1 with
      | none => v
      | some p =>
        if x.v.func = 0 then pathRound ints (fAdd p v) else if x.v.func = 2 then vMax p v else vMin p v
    (some n, putResult x r e n a.2)
  else (a.1, if x.v.maskZero then putZero x r e a.2 else a.2)

/-- SCAN: an inclusive scan along each row. -/
def vxScan (x : VxRun) : TaskEnd × State :=
  let ints := allInts x false
  vxDone x (maskedAll x) ((List.range x.v.rows).foldl
    (fun a r => ((List.range x.v.rowLen).foldl (fun b e => scanStep x ints r e b) (none, a)).2) (x.s, []))

/-! ## Table functions (R149, R150) -/

/-- Bytes of one table. -/
def tableBytes : Nat := 4160

/-- An FP32 field of table id at a byte offset. -/
def tableF32 (fn : Mem) (id o : Nat) : FVal := ofF32 (memLe fn (tableBytes * id + o) 4)

/-- floor of a finite value; 0 otherwise. -/
def fFloor (v : FVal) : Int :=
  match v with
  | .nan => 0
  | .inf _ => 0
  | .fin s m e => if 0 ≤ e then smant s m * 2 ^ e.toNat else smant s m / (2 ^ (-e).toNat : Nat)

/-- A value minus an integer, exactly. -/
def fSubInt (v : FVal) (i : Int) : FVal := fAdd v (fOfInt (-i))

/-- 2^n as a factor. -/
def fPow2 (n : Int) : FVal := .fin false 1 n

/-- p(i, t): three FMAs, each rounded once. -/
def tablePoly (fn : Mem) (id i : Nat) (t : FVal) : FVal :=
  let c (k : Nat) := tableF32 fn id (64 + 16 * i + 4 * k)
  let fma (a b : FVal) := rnd32 (fAdd (fMul a t) b)
  fma (fma (fma (c 3) (c 2)) (c 1)) (c 0)

/-- Segment 0 to 255. -/
def segOf (i : Int) : Nat := min i.toNat 255

/-- UNIFORM. -/
def tableUniform (fn : Mem) (id : Nat) (x : FVal) : FVal :=
  let lo := tableF32 fn id 4
  if fCmp x lo < 0 then tableF32 fn id 24
  else if 0 ≤ fCmp x (tableF32 fn id 8) then tableF32 fn id 28
  else
    let u := rnd32 (fMul (rnd32 (fAdd x (fNeg lo))) (tableF32 fn id 12))
    let i := segOf (fFloor u)
    tablePoly fn id i (fSubInt u i)

/-- EXP2; v may be infinite for a finite x. The offset t is kept exact (DEDUCED, log 35). -/
def tableExp2 (fn : Mem) (id : Nat) (x : FVal) : FVal :=
  match rnd32 (fMul x (tableF32 fn id 16)) with
  | .nan => .nan
  | .inf s => if s then fZero else .inf false
  | .fin s m e =>
    let v : FVal := .fin s m e
    let n := fFloor v
    let g := fMul (fSubInt v n) (fPow2 8)
    let i := fFloor g
    rnd32 (fMul (tablePoly fn id (segOf i) (fSubInt g i)) (fPow2 n))

/-- LOG2 of a positive finite value. -/
def tableLog2 (fn : Mem) (id : Nat) (x : FVal) : FVal :=
  let n := fLog2 x
  let g := fMul (fSubInt (fMul x (fPow2 (-n))) 1) (fPow2 8)
  let i := fFloor g
  rnd32 (fMul (rnd32 (fAdd (tablePoly fn id (segOf i) (fSubInt g i)) (fOfInt n))) (tableF32 fn id 20))

/-- RSQRT of a positive finite value. -/
def tableRsqrt (fn : Mem) (id : Nat) (x : FVal) : FVal :=
  let n := fLog2 x / 2
  let m := fMul x (fPow2 (-2 * n))
  let low := fCmp m (fOfInt 2) < 0
  let g := if low then fMul (fSubInt m 1) (fPow2 7) else fMul (fSubInt m 2) (fPow2 6)
  let k := fFloor g
  rnd32 (fMul (tablePoly fn id (segOf (if low then k else 128 + k)) (fSubInt g k)) (fPow2 (-n)))

/-- A special input's result, to which MUL_X is not applied; none for an ordinary input (R150). -/
def tableSpecial? (mode : Nat) (x : FVal) : Option FVal :=
  match x with
  | .nan => some .nan
  | .inf s =>
    if mode = 1 then some (if s then fZero else .inf false)
    else if mode = 2 then some (if s then .nan else .inf false)
    else if mode = 3 then some (if s then .nan else fZero)
    else none
  | .fin s m _ =>
    if mode = 2 then (if m = 0 then some (.inf true) else if s then some .nan else none)
    else if mode = 3 then (if m = 0 then some (.inf false) else if s then some .nan else none)
    else none

/-- A table's result at an input, MUL_X included. -/
def tableEval (fn : Mem) (id : Nat) (x : FVal) : FVal :=
  let mode := (memGet fn (tableBytes * id)).toNat
  match tableSpecial? mode x with
  | some y => y
  | none =>
    let y := if mode = 0 then tableUniform fn id x else if mode = 1 then tableExp2 fn id x
      else if mode = 2 then tableLog2 fn id x else tableRsqrt fn id x
    if bitOf (memGet fn (tableBytes * id + 1)).toNat 0 then
      (if fIsZero y then .fin (fSign x) 0 0 else rnd32 (fMul y x))
    else y

/-- TABLE, multiplied by b if SRC1 is present. -/
def vxTable (x : VxRun) : TaskEnd × State :=
  elementwise false false (fun i x r e =>
    let y := tableEval x.s.job.functions x.v.func (opA i x r e)
    if present x.v.src1 then rnd32 (fMul y (pathIn x i x.v.src1 r e)) else y) x

/-! ## Normalisation and softmax (R151, R152) -/

/-- g of an element: SRC1, or 1. -/
def normG (x : VxRun) (r e : Nat) : FVal := if present x.v.src1 then pathIn x false x.v.src1 r e else fOfInt 1
/-- The offset b of an element: SRC2, or 0. -/
def normB (x : VxRun) (r e : Nat) : FVal := if present x.v.src2 then pathIn x false x.v.src2 r e else fZero

/-- RNE(1 ÷ n). -/
def invN (n : Nat) : FVal := rnd32 (fDiv (fOfInt 1) (fOfInt n))

/-- q of a normalisation, from ss and the number of elements. -/
def normQ (x : VxRun) (ss : FVal) (n : Nat) : FVal :=
  rnd32 (fDiv (fOfInt 1) (rnd32 (fSqrt (rnd32 (fAdd (rnd32 (fMul ss (invN n))) (ofF32 x.v.imm0))))))

/-- Writes one result under the write mask without any count (R152). -/
def putUncounted (x : VxRun) (r e : Nat) (v : FVal) (a : Acc) : Acc := ((putMasked x r e v a).1, a.2)

/-- Writes a row, each kept element by a function of its value. -/
def putRow (x : VxRun) (r : Nat) (f : Nat → FVal) (a : Acc) : Acc :=
  (List.range x.v.rowLen).foldl (fun a e => putMasked x r e (f e) a) a

/-- RMSNORM. -/
def vxRmsnorm (x : VxRun) : TaskEnd × State :=
  vxDone x (maskedAll x) ((List.range x.v.rows).foldl (fun a r =>
    let els := rowElements x false r
    let q := normQ x (reduceRow 1 rnd32 els) els.length
    putRow x r (fun e => rnd32 (fMul (rnd32 (fMul (opA false x r e) q)) (normG x r e))) a) (x.s, []))

/-- LAYERNORM. -/
def vxLayernorm (x : VxRun) : TaskEnd × State :=
  vxDone x (maskedAll x) ((List.range x.v.rows).foldl (fun a r =>
    let els := rowElements x false r
    let mu := rnd32 (fMul (reduceRow 0 rnd32 els) (invN els.length))
    let d (v : FVal) := rnd32 (fAdd v (fNeg mu))
    let q := normQ x (reduceRow 1 rnd32 (els.map fun p => (p.1, d p.2))) els.length
    putRow x r (fun e =>
      rnd32 (fAdd (rnd32 (fMul (rnd32 (fMul (d (opA false x r e)) q)) (normG x r e))) (normB x r e))) a) (x.s, []))

/-- A softmax pair (m, s). -/
abbrev SmPair := FVal × FVal

/-- The empty pair. -/
def smEmpty : SmPair := (.inf true, fZero)

/-- A pair after taking an element; an element of −infinity leaves it unchanged. -/
def smTake (E : FVal → FVal) (p : SmPair) (x : FVal) : SmPair :=
  if x = .inf true then p
  else
    let m := vMax p.1 x
    (m, rnd32 (fAdd (rnd32 (fMul p.2 (E (rnd32 (fAdd p.1 (fNeg m)))))) (E (rnd32 (fAdd x (fNeg m))))))

/-- Two pairs combined; a pair whose m is −infinity is skipped. -/
def smJoin (E : FVal → FVal) (a b : SmPair) : SmPair :=
  if a.1 = .inf true then b
  else if b.1 = .inf true then a
  else
    let m := vMax a.1 b.1
    (m, rnd32 (fAdd (rnd32 (fMul a.2 (E (rnd32 (fAdd a.1 (fNeg m))))))
      (rnd32 (fMul b.2 (E (rnd32 (fAdd b.1 (fNeg m))))))))

/-- The pair of a row's elements, in the lane order of R148. -/
def smRow (E : FVal → FVal) (els : List (Nat × FVal)) : SmPair :=
  let lanes := els.foldl (fun (ls : List SmPair) x =>
    ls.set (x.1 % 128) (smTake E (ls.getD (x.1 % 128) smEmpty) x.2)) (List.replicate 128 smEmpty)
  ([64, 32, 16, 8, 4, 2, 1].foldl (fun (ls : List SmPair) h =>
    (List.range h).map fun l => smJoin E (ls.getD l smEmpty) (ls.getD (l + h) smEmpty)) lanes).getD 0 smEmpty

/-- SOFTMAX (R151, R152). -/
def vxSoftmax (x : VxRun) : TaskEnd × State :=
  let E := tableEval x.s.job.functions x.v.func
  vxDone x (maskedAll x) ((List.range x.v.rows).foldl (fun a r =>
    let els := rowElements x false r
    if els.any fun p => p.2 == .nan || p.2 == .inf false then
      (List.range x.v.rowLen).foldl (fun a e => putUncounted x r e .nan a) a
    else
      let p := smRow E els
      if p.1 = .inf true then putRow x r (fun _ => fZero) a
      else
        let k := rnd32 (fDiv (fOfInt 1) p.2)
        putRow x r (fun e => rnd32 (fMul (E (rnd32 (fAdd (opA false x r e) (fNeg p.1)))) k)) a) (x.s, []))

/-! ## Conversion (R153) -/

/-- Stores the codes of a block at the elements from e on. -/
def putCodes (x : VxRun) (r : Nat) : Nat → List Nat → State → State
  | _, [], s => s
  | e, c :: l, s => putCodes x r (e + 1) l (writeCode x.cell x.v.dst r e c s)

/-- Writes the scale or shift byte of element (r, e)'s block. -/
def putScale (x : VxRun) (r e sc : Nat) (s : State) : State :=
  { s with mem := memPut s.mem (streamBase x.cell x.v.aux + scalePos x.v.aux x.v.rowLen r e) (BitVec.ofNat 8 sc) }

/-- Quantises one block of values, each with its element index, into a format with a scale plane. -/
def quantise (f : EFmt) (c : RndCtx) (vs : List (Nat × FVal)) : Nat × List Nat × List Nat :=
  match f with
  | .mx g => mxBlock g c vs
  | .int4b => int4Block c vs
  | .flt _ | .int8 | .int32 | .uint32 | .esf => (0, [], [])

/-- The count of R91 that reading an ESF-128 element makes. -/
def esfReadCodes (x : VxRun) (r e : Nat) : List Nat :=
  if x.v.src0.fmt = .elem .esf then (ofEsf x.v.window (signed 128 (readCode x.s x.cell x.v.src0 r e))).2 else []

/-- An element as it takes part in a block, with its counts: a masked-off one as +0, and one beyond the FP32 range in an
MX block as `toF32Range` gives it. -/
def blockIn (x : VxRun) (f : EFmt) (r e : Nat) : FVal × List Nat :=
  if kept x r e then
    let v := rawIn x x.v.src0 r e
    let w := if f = .int4b then (v, []) else toF32Range (rndAt x.v.rnd (r * x.v.rowLen + e)) v
    (w.1, w.2 ++ esfReadCodes x r e)
  else (fZero, [])

/-- CONVERT to an MX format or INT4B: block by block, a masked-off element as +0, the padding written as 0. -/
def convertBlocks (x : VxRun) (f : EFmt) : Acc :=
  (List.range x.v.rows).foldl (fun a r =>
    (List.range (ceilDiv x.v.rowLen 32)).foldl (fun (a : Acc) b =>
      let es := (List.range 32).filter fun j => 32 * b + j < x.v.rowLen
      let ins := es.map fun j => (r * x.v.rowLen + 32 * b + j, blockIn x f r (32 * b + j))
      let q := quantise f x.v.rnd (ins.map fun p => (p.1, p.2.1))
      let codes := if x.v.dst.pattern = 0 then q.2.1 ++ List.replicate (32 - q.2.1.length) 0 else q.2.1
      (putScale x r (32 * b) q.1 (putCodes x r (32 * b) codes a.1), a.2 ++ (ins.flatMap fun p => p.2.2) ++ q.2.2)) a) (x.s, [])

/-- CONVERT: each element once, directly from its format to DST_FMT. An ESF-128 element beyond the FP32 range counts
ESF_HEADROOM as it is read (R91, R153), also for a BIT destination, of which R144 says that no count is made: that is said of
the writing (DEDUCED, log 90). -/
def vxConvert (x : VxRun) : TaskEnd × State :=
  if sHasScale x.v.dst.fmt then
    vxDone x (wholeAll x) (match x.v.dst.fmt with
      | .elem f => convertBlocks x f
      | .bit => (x.s, []))
  else
    vxDone x (maskedAll x) (eachElement x.v.rows x.v.rowLen (fun r e a =>
      if kept x r e then
        let b := putResult x r e (rawIn x x.v.src0 r e) a
        (b.1, b.2 ++ esfReadCodes x r e)
      else if x.v.maskZero then putZero x r e a else a) (x.s, []))

/-! ## Compress and expand (R154, R155) -/

/-- The engine address of AUX. -/
def auxAddr (x : VxRun) : Nat := streamBase x.cell x.v.aux + x.v.aux.ofs

/-- The bytes of a zero map from its bits (R128). The bits past LENGTH in the last byte of BITS are 0: the manual names none
(DESIGN CHOICE, log 89). -/
def zmapBytes (grouped : Bool) (bits : List Bool) : List Byte :=
  natLe 4 (bits.filter id).length ++ natLe 4 (bits.length + if grouped then 2 ^ 31 else 0) ++
    packBits 1 (bits.map fun b => if b then 1 else 0)

/-- Map bit e of a COMPRESS. -/
def mapBit (x : VxRun) (e : Nat) : Bool :=
  (List.range x.v.rows).any fun r =>
    if present x.v.mask then readCode x.s x.cell x.v.mask r e == 1 else fNonzero (rawIn x x.v.src0 r e)

/-- Writes a list of values of a row from element e on. -/
def putList (x : VxRun) (r : Nat) : Nat → List FVal → Acc → Acc
  | _, [], a => a
  | e, v :: l, a => putList x r (e + 1) l (putResult x r e v a)

/-- COMPRESS: the zero map to AUX, and the elements at its set indices to DST, converted directly (DEDUCED, log 36). -/
def vxCompress (x : VxRun) : TaskEnd × State :=
  let bits := (List.range x.v.rowLen).map (mapBit x)
  let idx := (List.range x.v.rowLen).filter fun e => bits.getD e false
  let a := (List.range x.v.rows).foldl (fun a r =>
    let b := putList x r 0 (idx.map fun e => rawIn x x.v.src0 r e) a
    if x.v.pad then
      ((List.range x.v.rowLen).filter fun e => idx.length ≤ e).foldl (fun b e => putZero x r e b) b
    else b) (x.s, [])
  vxDone x ((List.range x.v.rows).flatMap fun r => inRow r (List.range (if x.v.pad then x.v.rowLen else idx.length)))
    (putBytes (auxAddr x) (zmapBytes x.v.grouped bits) a.1, a.2)

/-- LENGTH of a zero map at an address; above 65,536 it reads as 65,536 (R128). -/
def zmapLength (m : Mem) (a : Nat) : Nat := min (memLe m (a + 4) 4 % 2 ^ 17) 65536

/-- Bit k of a zero map: bits at LENGTH or above read as 1 (R128). -/
def zmapBit (m : Mem) (a k : Nat) : Bool :=
  decide (zmapLength m a ≤ k) || bitOf (memGet m (a + 8 + k / 8)).toNat (k % 8)

/-- Writes a row of EXPAND from element e on, with the elements of SRC0 from j on, of which COUNT exist. -/
def expandRow (x : VxRun) (count r : Nat) : List Nat → Nat → Acc → Acc
  | [], _, a => a
  | e :: l, j, a =>
    let live := zmapBit x.s.mem (auxAddr x) e && decide (j < count)
    let b :=
      if kept x r e then
        if live then putResult x r e (rawIn x x.v.src0 r j) a else if x.v.maskZero then putZero x r e a else a
      else if x.v.maskZero then putZero x r e a else a
    expandRow x count r l (if live then j + 1 else j) b

/-- The indices of a row, of those listed, that receive an element of SRC0: the first COUNT set bits of the map. -/
def liveBits (x : VxRun) (count : Nat) : List Nat :=
  ((List.range x.v.rowLen).filter (zmapBit x.s.mem (auxAddr x))).take count

/-- The elements that EXPAND writes. -/
def expandWrites (x : VxRun) (count : Nat) : List (Nat × Nat) :=
  let live := liveBits x count
  (List.range x.v.rows).flatMap fun r =>
    inRow r ((List.range x.v.rowLen).filter fun e => x.v.maskZero || (kept x r e && live.contains e))

/-- EXPAND (R155). -/
def vxExpand (x : VxRun) : TaskEnd × State :=
  if zmapLength x.s.mem (auxAddr x) = x.v.rowLen then
    let count := memLe x.s.mem (auxAddr x) 4
    vxDone x (expandWrites x count) ((List.range x.v.rows).foldl (fun a r => expandRow x count r (List.range x.v.rowLen) 0 a) (x.s, []))
  else (.finished, addStepCodes [ccZmapLength] x.s)

/-! ## 2:4 compression (R123 to R127, R156) -/

/-- Positions of a group by value (DERIVE): the two of largest magnitude among the nonzero ones, NaN first and lower
positions winning ties; missing ones are the lowest remaining, valid positions before invalid ones. -/
def derivePositions (valid : Nat) (vs : List FVal) : Nat × Nat :=
  let v (p : Nat) := vs.getD p fZero
  let better (a b : Nat) : Bool :=
    if fIsNan (v a) && !fIsNan (v b) then true
    else if fIsNan (v b) then (fIsNan (v a) && decide (a < b))
    else decide (0 < fCmp (fAbs (v a)) (fAbs (v b))) || (fCmp (fAbs (v a)) (fAbs (v b)) == 0 && decide (a < b))
  let rank (p : Nat) : Nat :=
    ((List.range 4).filter fun q => q != p &&
      (if (fNonzero (v q) && decide (q < valid)) && !(fNonzero (v p) && decide (p < valid)) then true
       else if (fNonzero (v p) && decide (p < valid)) && !(fNonzero (v q) && decide (q < valid)) then false
       else if fNonzero (v p) && decide (p < valid) then better q p
       else decide (q < p))).length
  let chosen := (List.range 4).filter fun p => decide (rank p < 2)
  (chosen.getD 0 0, chosen.getD 1 1)

/-- The mask nibble of row r, group g, that MASK supplies. -/
def maskNibble (x : VxRun) (r g : Nat) : Nat :=
  let a := streamBase x.cell x.v.mask + x.v.mask.ofs + 8 * (r * ceilDiv x.v.rowLen 32 + g / 8)
  memLe (streamMem x.s x.v.mask) a 4 / 2 ^ (4 * (g % 8)) % 16

/-- The values of a group, +0 past the row's end, and the number of valid positions. -/
def groupValues (x : VxRun) (r g : Nat) : List FVal × Nat :=
  let n := min 4 (x.v.rowLen - 4 * g)
  ((List.range 4).map fun p => if p < n then rnd32 (rawIn x x.v.src0 r (4 * g + p)) else fZero, n)

/-- The policy takes its positions from a supplied mask plane. -/
def policySupplied (func : Nat) : Bool := func == 1 || (func == 2 || func == 5)

/-- A group's positions, its two stored values, and whether it is a mask breach (R124, R126). Under DERIVE a position
without a nonzero value was added, and stores +0. An out-of-range second position of a supplied nibble stores the value
that it names, which later counts as zero (R87). -/
def groupPick (x : VxRun) (r g : Nat) : (Nat × Nat) × List FVal × Bool :=
  let gv := groupValues x r g
  let nib := maskNibble x r g
  let ps := if policySupplied x.v.func then (nib % 4, nib / 4) else derivePositions gv.2 gv.1
  let nz := (List.range 4).filter fun p => fNonzero (gv.1.getD p fZero)
  let off := nz.any fun p => p != ps.1 && p != ps.2
  let stored (p : Nat) : FVal :=
    let v := gv.1.getD p fZero
    if policySupplied x.v.func || fNonzero v then v else fZero
  (ps, [stored ps.1, stored ps.2],
   if x.v.func = 2 then false
   else decide (3 ≤ nz.length) || (policySupplied x.v.func && off))

/-- Groups of a row. -/
def groupCount (x : VxRun) : Nat := ceilDiv x.v.rowLen 4

/-- The groups of every row, in element order. -/
def allGroups (x : VxRun) : List (Nat × Nat) :=
  (List.range x.v.rows).flatMap fun r => (List.range (groupCount x)).map fun g => (r, g)

/-- Writes the stored values of a row, block by block of 16 for a format with a scale plane. -/
def compressRow (x : VxRun) (f : SFmt) (r gs : Nat) (a : Acc) : Acc :=
  let vals := (List.range gs).flatMap fun g => (groupPick x r g).2.1
  match f with
  | .elem e =>
    if hasScale e then
      (List.range (ceilDiv gs 8)).foldl (fun (a : Acc) b =>
        let vs := (List.range 16).filterMap fun j =>
          if 16 * b + j < vals.length then some (r * x.v.rowLen + 16 * b + j, vals.getD (16 * b + j) fZero) else none
        let q := quantise e x.v.rnd vs
        (putScale x r (32 * b) q.1 (putCodes x r (16 * b) q.2.1 a.1), a.2 ++ q.2.2)) a
    else putList x r 0 vals a
  | .bit => putList x r 0 vals a

/-- Writes the mask entries of a row under DERIVE. The nibbles of the last entry past the row's last group are 0 (DESIGN
CHOICE, log 89: R125 names none). -/
def putMaskRow (x : VxRun) (r gs : Nat) (s : State) : State :=
  (List.range (ceilDiv gs 8)).foldl (fun s b =>
    let pos := (List.range 8).foldl (fun m g =>
      if 8 * b + g < gs then
        let p := (groupPick x r (8 * b + g)).1
        m + (p.1 + 4 * p.2) * 2 ^ (4 * g)
      else m) 0
    putBytes (streamBase x.cell x.v.mask + x.v.mask.ofs + 8 * (r * ceilDiv x.v.rowLen 32 + b)) (natLe 8 pos) s) s

/-- COMPRESS24 (R156): the 2 × ceil(ROW_LEN ÷ 4) stored values of row r stand from element (r, 0) of DST, whose rows are
ROW_LEN apart as pattern 0 places them (R142). With the FAULT bit the first breach counts, and the step ends with
MASK_FAULT; what the groups before it wrote stands, and a block that the breach cuts short is written over those groups
alone (R126; DESIGN CHOICE, log 89). -/
def vxCompress24 (x : VxRun) : TaskEnd × State :=
  let fault := bitOf x.v.func 2
  let breaches := (allGroups x).filter fun g => (groupPick x g.1 g.2).2.2
  let stop : Option (Nat × Nat) := if fault then breaches.head? else none
  let rows := match stop with
    | some g => g.1
    | none => x.v.rows
  let row (r gs : Nat) (a : Acc) : Acc :=
    let b := compressRow x x.v.dst.fmt r gs a
    if policySupplied x.v.func then b else (putMaskRow x r gs b.1, b.2)
  let a := (List.range rows).foldl (fun a r => row r (groupCount x) a) (x.s, [])
  match stop with
  | some g =>
    let b := row g.1 g.2 a
    (.waits, stepFault fcMaskFault (addStepCodes (ccMaskBreach :: b.2) b.1))
  | none =>
    vxDone x ((List.range x.v.rows).flatMap fun r => inRow r (List.range (2 * groupCount x)))
      (a.1, a.2 ++ List.replicate breaches.length ccMaskBreach)

/-! ## Gather and scatter (R157, R158) -/

/-- The index of row r. -/
def rowIndex (x : VxRun) (r : Nat) : Nat := readCode x.s x.cell x.v.src1 r 0

/-- The first row whose index is out of range while that is a fault. -/
def badRow? (x : VxRun) : Option Nat :=
  if x.v.oobZero then none else (List.range x.v.rows).find? fun r => decide (x.v.imm0 ≤ rowIndex x r)

/-- Rows that the operation moves: all of them, or those before the first bad one. -/
def movedRows (x : VxRun) : List Nat := List.range ((badRow? x).getD x.v.rows)

/-- Rows with an index in range. -/
def goodRows (x : VxRun) : List Nat := (movedRows x).filter fun r => decide (rowIndex x r < x.v.imm0)

/-- The elements that a SCATTER or a SCATTER_ADD writes. -/
def scatterWrites (x : VxRun) : List (Nat × Nat) :=
  (goodRows x).flatMap fun r => inRow (rowIndex x r) (maskedRow x r)

/-- Ends a gather or a scatter: INDEX_RANGE at a bad row (R158). -/
def indexEnd (x : VxRun) (w : List (Nat × Nat)) (a : Acc) : TaskEnd × State :=
  match badRow? x with
  | some _ => (.waits, stepFault fcIndexRange (addStepCodes a.2 a.1))
  | none => vxDone x w a

/-- GATHER. -/
def vxGather (x : VxRun) : TaskEnd × State :=
  indexEnd x (maskedAll x) ((movedRows x).foldl (fun (a : Acc) r =>
    if rowIndex x r < x.v.imm0 then putRow x r (fun e => rawIn x x.v.src0 (rowIndex x r) e) a
    else
      let b := putRow x r (fun _ => fZero) a
      (b.1, b.2 ++ [ccIndexFill])) (x.s, []))

/-- Writes a result at (idx, e) under the mask of row r. -/
def putIndexed (x : VxRun) (r idx e : Nat) (v : FVal) (a : Acc) : Acc :=
  if kept x r e then putResult x idx e v a else if x.v.maskZero then putZero x idx e a else a

/-- SCATTER. -/
def vxScatter (x : VxRun) : TaskEnd × State :=
  indexEnd x (scatterWrites x) ((movedRows x).foldl (fun (a : Acc) r =>
    if rowIndex x r < x.v.imm0 then
      (List.range x.v.rowLen).foldl (fun a e => putIndexed x r (rowIndex x r) e (rawIn x x.v.src0 r e) a) a
    else (a.1, a.2 ++ [ccIndexFill])) (x.s, []))

/-- SCATTER_ADD: DST is read as it stands after the rows before. -/
def vxScatterAdd (x : VxRun) : TaskEnd × State :=
  indexEnd x (scatterWrites x) ((movedRows x).foldl (fun (a : Acc) r =>
    if rowIndex x r < x.v.imm0 then
      (List.range x.v.rowLen).foldl (fun (a : Acc) e =>
        let old := ofF32 (readCode a.1 x.cell x.v.dst (rowIndex x r) e)
        putIndexed x r (rowIndex x r) e (rnd32 (fAdd old (rnd32 (rawIn x x.v.src0 r e)))) a) a
    else (a.1, a.2 ++ [ccIndexFill])) (x.s, []))

/-! ## Issue -/

/-- The load address of AUX_DESC. -/
def auxDesc (s : State) : Nat := (s.job.image.map fun im => loadAddr im 2 0).getD 0

/-- Elements of a stream, for rows of a list, hold a byte of the range. -/
def streamHit (x : VxRun) (t : Stream) (rows : List Nat) (n a m : Nat) : Bool :=
  present t && (t.region != 3 && rows.any fun r => (List.range n).any fun e =>
    overlaps (8 * streamBase x.cell t + streamPos t r e) (sBits t.fmt) (8 * a) (8 * m))

/-- The stride pattern entry of a stream holds a byte of the range (R143). -/
def strideHit (aux : Nat) (t : Stream) (a n : Nat) : Bool :=
  present t && (decide (4 ≤ t.pattern) && overlaps (aux + 16 * t.pattern) 16 a n)

/-- The bytes that a VX task takes: the whole rows of its inputs, its mask, the scales or the zero map in AUX, the DST rows that
SCATTER_ADD adds to, and its stride patterns (R137 to R158). -/
def vxTakes (x : VxRun) (aux a n : Nat) : Bool :=
  let v := x.v
  let rows := List.range v.rows
  let moved := (goodRows x).map (rowIndex x)
  let planes := v.rows * ceilDiv v.rowLen 32
  let maskAt := streamBase x.cell v.mask + v.mask.ofs
  streamHit x v.src1 rows v.rowLen a n || (streamHit x v.src2 rows v.rowLen a n ||
  (streamHit x v.src0 (if v.op = 0x38 then moved else if v.op = 0x39 ∨ v.op = 0x3A then goodRows x else rows)
    (if v.op = 0x31 then min v.rowLen (memLe x.s.mem (auxAddr x) 4) else v.rowLen) a n ||
  ((v.op == 0x3A && streamHit x v.dst moved v.rowLen a n) ||
  ((if v.op = 0x32 then policySupplied v.func && overlaps maskAt (8 * planes) a n
    else streamHit x v.mask rows v.rowLen a n) ||
  ((v.op == 0x31 && overlaps (auxAddr x) (8 + ceilDiv v.rowLen 8) a n) ||
  ((sHasScale v.src0.fmt && overlaps (auxAddr x) planes a n) ||
    [v.src0, v.src1, v.src2, v.dst, v.mask, v.aux].any fun t => strideHit aux t a n))))))

/-- One execution of a VX task. -/
def vxRunOf (cell : Nat) (d : Desc) (s : State) : VxRun := ⟨cell, vxOf s.mem (auxDesc s) d.step.toNat d, s⟩

/-- A VX task of an operation code. All of its output is written at issue. Where the Gong sounds while it is in flight, R163
stops it before its next element group, and its complete result stands until the step's writes are discarded (DESIGN CHOICE,
log 89). -/
def issueVx (op : Nat) (f : VxRun → TaskEnd × State) (cell : Nat) (h : Health) (s : State) : State :=
  issueTask 2 (fun d => bodyOp d == op) (fun c d t => vxTakes (vxRunOf c d t) (auxDesc t)) (fun c d t => f (vxRunOf c d t))
    cell h s

/-- ADD. -/
def execAdd (cell : Nat) (h : Health) (s : State) : Host.Outcome State Fault Refusal := .next (issueVx 0x01 vxAdd cell h s)
/-- SUB. -/
def execSub (cell : Nat) (h : Health) (s : State) : Host.Outcome State Fault Refusal := .next (issueVx 0x02 vxSub cell h s)
/-- MUL. -/
def execMul (cell : Nat) (h : Health) (s : State) : Host.Outcome State Fault Refusal := .next (issueVx 0x03 vxMul cell h s)
/-- FMA. -/
def execFma (cell : Nat) (h : Health) (s : State) : Host.Outcome State Fault Refusal := .next (issueVx 0x04 vxFma cell h s)
/-- DIV. -/
def execDiv (cell : Nat) (h : Health) (s : State) : Host.Outcome State Fault Refusal := .next (issueVx 0x05 vxDiv cell h s)
/-- MAX. -/
def execMax (cell : Nat) (h : Health) (s : State) : Host.Outcome State Fault Refusal := .next (issueVx 0x06 vxMax cell h s)
/-- MIN. -/
def execMin (cell : Nat) (h : Health) (s : State) : Host.Outcome State Fault Refusal := .next (issueVx 0x07 vxMin cell h s)
/-- UNARY. -/
def execUnary (cell : Nat) (h : Health) (s : State) : Host.Outcome State Fault Refusal :=
  .next (issueVx 0x08 vxUnary cell h s)
/-- CMP. -/
def execCmp (cell : Nat) (h : Health) (s : State) : Host.Outcome State Fault Refusal := .next (issueVx 0x09 vxCmp cell h s)
/-- SELECT. -/
def execSelect (cell : Nat) (h : Health) (s : State) : Host.Outcome State Fault Refusal :=
  .next (issueVx 0x0A vxSelect cell h s)
/-- REDUCE. -/
def execReduce (cell : Nat) (h : Health) (s : State) : Host.Outcome State Fault Refusal :=
  .next (issueVx 0x10 vxReduce cell h s)
/-- SCAN. -/
def execScan (cell : Nat) (h : Health) (s : State) : Host.Outcome State Fault Refusal := .next (issueVx 0x11 vxScan cell h s)
/-- TABLE. -/
def execTable (cell : Nat) (h : Health) (s : State) : Host.Outcome State Fault Refusal :=
  .next (issueVx 0x18 vxTable cell h s)
/-- RMSNORM. -/
def execRmsnorm (cell : Nat) (h : Health) (s : State) : Host.Outcome State Fault Refusal :=
  .next (issueVx 0x20 vxRmsnorm cell h s)
/-- LAYERNORM. -/
def execLayernorm (cell : Nat) (h : Health) (s : State) : Host.Outcome State Fault Refusal :=
  .next (issueVx 0x21 vxLayernorm cell h s)
/-- SOFTMAX. -/
def execSoftmax (cell : Nat) (h : Health) (s : State) : Host.Outcome State Fault Refusal :=
  .next (issueVx 0x22 vxSoftmax cell h s)
/-- CONVERT. -/
def execConvert (cell : Nat) (h : Health) (s : State) : Host.Outcome State Fault Refusal :=
  .next (issueVx 0x28 vxConvert cell h s)
/-- COMPRESS. -/
def execCompress (cell : Nat) (h : Health) (s : State) : Host.Outcome State Fault Refusal :=
  .next (issueVx 0x30 vxCompress cell h s)
/-- EXPAND. -/
def execExpand (cell : Nat) (h : Health) (s : State) : Host.Outcome State Fault Refusal :=
  .next (issueVx 0x31 vxExpand cell h s)
/-- COMPRESS24. -/
def execCompress24 (cell : Nat) (h : Health) (s : State) : Host.Outcome State Fault Refusal :=
  .next (issueVx 0x32 vxCompress24 cell h s)
/-- GATHER. -/
def execGather (cell : Nat) (h : Health) (s : State) : Host.Outcome State Fault Refusal :=
  .next (issueVx 0x38 vxGather cell h s)
/-- SCATTER. -/
def execScatter (cell : Nat) (h : Health) (s : State) : Host.Outcome State Fault Refusal :=
  .next (issueVx 0x39 vxScatter cell h s)
/-- SCATTER_ADD. -/
def execScatterAdd (cell : Nat) (h : Health) (s : State) : Host.Outcome State Fault Refusal :=
  .next (issueVx 0x3A vxScatterAdd cell h s)

/-! ## Refusals of LOAD_IMAGE (R144, R149, R153, R154, R159) -/

/-- The operation codes of R146 with the FUNC values that they allow; tables and policies are checked apart. -/
def vxFuncOk (op func tables : Nat) : Bool :=
  if op = 0x08 then decide (func ≤ 4)
  else if op = 0x09 then decide (func ≤ 5)
  else if op = 0x10 then decide (func ≤ 3)
  else if op = 0x11 then func == 0 || (func == 2 || func == 3)
  else if op = 0x18 ∨ op = 0x22 then decide (func < tables) && decide (func < 16)
  else if op = 0x32 then func == 0 || (func == 1 || (func == 2 || (func == 4 || func == 5)))
  else [0x01, 0x02, 0x03, 0x04, 0x05, 0x06, 0x07, 0x0A, 0x20, 0x21, 0x28, 0x30, 0x31, 0x38, 0x39, 0x3A].contains op

/-- Which of SRC1, SRC2, MASK and AUX an operation needs (2), may have (1) or does not use (0). -/
def vxUses (v : Vx) : List Nat :=
  let scaled := sHasScale v.src0.fmt || sHasScale v.dst.fmt
  if [0x01, 0x02, 0x03, 0x05, 0x06, 0x07, 0x09].contains v.op then [1, 0, 1, 0]
  else if v.op = 0x04 then [1, 2, 1, 0]
  else if v.op = 0x0A then [1, 0, 2, 0]
  else if v.op = 0x18 then [1, 0, 1, 0]
  else if v.op = 0x20 then [1, 0, 1, 0]
  else if v.op = 0x21 then [1, 1, 1, 0]
  else if v.op = 0x28 then [0, 0, 1, if scaled then 2 else 0]
  else if v.op = 0x30 then [0, 0, 1, 2]
  else if v.op = 0x31 then [0, 0, 1, 2]
  else if v.op = 0x32 then [0, 0, 2, if scaled then 2 else 0]
  else if v.op = 0x38 ∨ v.op = 0x39 ∨ v.op = 0x3A then [2, 0, 1, 0]
  else [0, 0, 1, 0]

/-- A use agrees with a stream's presence. -/
def useOk (u : Nat) (t : Stream) : Bool := if u = 0 then !present t else if u = 2 then present t else true

/-- The operation reads IMM0: b or eps, or the bound of an index. -/
def readsImm (v : Vx) : Bool :=
  ([0x01, 0x02, 0x03, 0x04, 0x05, 0x06, 0x07, 0x09, 0x0A].contains v.op && !present v.src1) ||
    [0x20, 0x21, 0x38, 0x39, 0x3A].contains v.op

/-- A stream's region, pattern entry, width and TILE rules (R142 to R145, R159), for the elements of a row that it touches. -/
def streamOkTo (rows lens : Nat) (t : Stream) : Bool :=
  !present t ||
    ((decide (8 ≤ sBits t.fmt) || (t.pattern == 0 || t.pattern == 2)) &&
     ((t.region != 3 || (t.fmt == .elem (.flt .fp32) || t.fmt == .elem .int32)) && streamFitsTo t rows lens))

/-- The same for whole rows. -/
def streamOk (rows : Nat) (t : Stream) : Bool := streamOkTo rows (touchedLen t) t

/-- The bytes that AUX and MASK planes touch lie in their region (R144, R154, R156). -/
def planeFits (t : Stream) (n : Nat) : Bool :=
  !present t || decide (t.ofs + n ≤ if t.region = 1 then 0x200000 else if t.region = 2 then 0x1000000 else 32768)

/-- Bytes from OFFSET to the end of the stored values that COMPRESS24 writes. -/
def dst24Bytes (v : Vx) : Nat :=
  let n := if sHasScale v.dst.fmt then roundUp v.rowLen 32 else v.rowLen
  ceilDiv (((v.rows - 1) * n + 2 * ceilDiv v.rowLen 4) * sBits v.dst.fmt) 8

/-- A format that only CONVERT, and the output of COMPRESS24, may have. R159 refuses an MX or INT4B stream of any operation but
CONVERT, and R125 and R156 give COMPRESS24 such an output with its scales in AUX: the model lets it have one (DEDUCED, log
101). -/
def blockOrEsf (f : SFmt) : Bool := sHasScale f || f == .elem .esf

/-- LOAD_IMAGE accepts a VX body; `tables` is the number of function tables. The refusal of a block format in DST with MASK
and without MASK_ZERO holds for COMPRESS24 as well, as R159 words it. An EXPAND may name a zero map in a cluster store: R128
puts one in the reading cell's scratchpad, and R159 refuses no other place (DESIGN CHOICE, log 101). -/
def vxCheck (m : Mem) (aux tables : Nat) (d : Desc) : Bool :=
  let v := vxOf m aux 0 d
  let u := vxUses v
  let fmtUsed (t : Stream) (hi lo : Nat) : Bool := !present t || (vxFmt? (bodyBits d 48 hi lo)).isSome
  let idx := v.op == 0x38 || (v.op == 0x39 || v.op == 0x3A)
  let nb := ceilDiv v.rowLen 32
  vxFuncOk v.op v.func tables &&
  (fmtUsed v.src0 31 28 && (fmtUsed v.src1 27 24 && (fmtUsed v.src2 23 20 && fmtUsed v.dst 19 16))) &&
  (present v.src0 && (present v.dst && (useOk (u.getD 0 0) v.src1 && (useOk (u.getD 1 0) v.src2 &&
    (useOk (u.getD 2 0) v.mask && useOk (u.getD 3 0) v.aux))))) &&
  (v.dst.region != 3 && v.aux.region != 3) &&
  (v.rnd.code != 3 && !(v.rnd.code == 2 && readsImm v)) &&
  (!(sHasScale v.src1.fmt && present v.src1) && !(sHasScale v.src2.fmt && present v.src2)) &&
  !(sHasScale v.src0.fmt && sHasScale v.dst.fmt) &&
  (v.op == 0x28 || (!blockOrEsf v.src0.fmt && (!(present v.src1 && blockOrEsf v.src1.fmt) &&
    (!(present v.src2 && blockOrEsf v.src2.fmt) &&
     (if v.op = 0x32 then v.dst.fmt != .elem .esf else !blockOrEsf v.dst.fmt))))) &&
  (streamOk (if v.op = 0x38 then v.imm0 else v.rows) v.src0 && (streamOk v.rows v.src1 && (streamOk v.rows v.src2 &&
    (if v.op = 0x32 then v.dst.pattern == 0 && planeFits v.dst (dst24Bytes v)
     else if v.op = 0x10 then streamOkTo v.rows 1 v.dst
     else streamOk (if v.op = 0x39 ∨ v.op = 0x3A then v.imm0 else v.rows) v.dst)))) &&
  (if v.op = 0x32 then v.mask.pattern == 0 && (v.mask.region != 3 && planeFits v.mask (v.rows * nb * 8))
   else streamOk v.rows v.mask) &&
  (if v.op = 0x30 ∨ v.op = 0x31 then
     decide (v.rowLen ≤ 65536) && planeFits v.aux (8 + ceilDiv v.rowLen 8)
   else planeFits v.aux (v.rows * nb)) &&
  (if v.op = 0x30 then v.aux.region == 1 && v.aux.pattern == 0 else true) &&
  (if v.op = 0x30 ∨ v.op = 0x31 then v.aux.ofs % 64 == 0 else true) &&
  (if v.op = 0x32 then v.aux.pattern == 0 || !present v.aux else true) &&
  (if sHasScale v.dst.fmt ∧ present v.mask then v.maskZero else true) &&
  (if idx then v.src1.fmt == .elem .uint32 && v.src1.pattern == 3 else true) &&
  (if v.op = 0x3A then v.dst.fmt == .elem (.flt .fp32) else true)

end Sys2Proof.Machine
end

