-- ==== Sys2Proof/Machine/Routing.lean ====
section
/-! DEFINITION. The routing engine (07): scores, selection policies, gates, selection records and bid lists, capacity at the
home, work lists, and the commands ROUTE, ACCEPT, SPILL and ROUTE_PART. -/

namespace Sys2Proof.Machine

/-! ## Scores (R168, R169) -/

/-- The pair of a token's logits: chunk by chunk of 1,024 experts, combined in ascending chunk order. -/
def softmaxPair (E : FVal → FVal) (xs : List FVal) : SmPair :=
  (List.range (ceilDiv xs.length 1024)).foldl (fun p c =>
    let chunk := (xs.drop (1024 * c)).take 1024
    smJoin E p (smRow E ((List.range chunk.length).map fun i => (i, chunk.getD i fZero)))) smEmpty

/-- The FP32 scores of a token's logits. -/
def scoresOf (fn : Mem) (l : Layer) (xs : List FVal) : List FVal :=
  if l.scoreFn = 2 then xs
  else
    let E := tableEval fn l.table
    if l.scoreFn = 1 then xs.map E
    else if xs.any fun x => x == .nan || x == .inf false then xs.map fun _ => .nan
    else
      let p := softmaxPair E xs
      if p.1 = .inf true then xs.map fun _ => fZero
      else
        let k := rnd32 (fDiv (fOfInt 1) p.2)
        xs.map fun x => rnd32 (fMul (E (rnd32 (fAdd x (fNeg p.1)))) k)

/-- The logits of a token, widened exactly to FP32 (R168, R190). -/
def logitsAt (s : State) (l : Layer) (a : Nat) : List FVal :=
  (List.range l.experts).map fun e =>
    if l.bf16 then fDecode .bf16 (memLe s.mem (a + 2 * e) 2) else ofF32 (memLe s.mem (a + 4 * e) 4)

/-! ## Candidates and proposals (R171, R174 to R176) -/

/-- A candidate: expert, score and biased score in FP32 bits. -/
abbrev Cand := Nat × Nat × Nat

/-- Candidate order: biased score, higher first, then lower expert id. -/
def candLt (a b : Cand) : Bool :=
  decide (scoreKey b.2.2 < scoreKey a.2.2) || (scoreKey a.2.2 == scoreKey b.2.2 && decide (a.1 < b.1))

/-- What ROUTE knows of a token: its local index, its candidates in order, and whether a biased score was NaN. -/
structure Tok where
  index : Nat
  cands : List Cand
  nan : Bool
  deriving DecidableEq, Repr

/-- Scores a token (R171): an expert whose biased score is NaN, or whose REPLICAS is 0, is no candidate. -/
def scoreToken (s : State) (layer : Nat) (l : Layer) (index a : Nat) : Tok :=
  let sc := scoresOf s.job.functions l (logitsAt s l a)
  let all : List Cand := (List.range l.experts).map fun e =>
    (e, toF32 (sc.getD e fZero), toF32 (fAdd (sc.getD e fZero) (ofF32 (biasAt s layer e))))
  let good := all.filter fun c => !fIsNan (ofF32 c.2.2)
  { index := index, nan := decide (good.length < all.length)
    cands := sortBy candLt (good.filter fun c => replicasOf (placementOf s layer c.1) != 0) }

/-- Proposals of one token under THRESHOLD and CAPPED_THRESHOLD (R175). -/
def thresholdProps (l : Layer) (cs : List Cand) : List Cand :=
  let p := (cs.filter fun c => decide (scoreKey l.tau ≤ scoreKey c.2.2)).take l.kmax
  if p.length < l.kmin then cs.take l.kmin else p

/-- Whether an expert takes a token among its C best of the task's tokens (R176 step 1). -/
def chosenBy (l : Layer) (toks : List Tok) (t : Tok) (c : Cand) : Bool :=
  let rivals := toks.filter fun u => u.index != t.index && u.cands.any fun d =>
    d.1 == c.1 && (decide (scoreKey c.2.2 < scoreKey d.2.2) ||
      (scoreKey c.2.2 == scoreKey d.2.2 && decide (u.index < t.index)))
  decide (rivals.length < l.capacity)

/-- A token's proposals in ascending rank, and how many expert choices were dropped (R174 to R177). -/
def proposals (l : Layer) (toks : List Tok) (t : Tok) : List Cand × Nat :=
  if l.policy = 1 then
    let ch := t.cands.filter (chosenBy l toks t)
    (ch.take l.kmax, ch.length - l.kmax)
  else if l.policy = 3 then (t.cands.take l.kmax, 0)
  else (thresholdProps l t.cands, 0)

/-! ## Gates (R180) -/

/-- The sum of scores in the order given, rounded after each addition; 0 for none. -/
def sumScores : List FVal → FVal
  | [] => fZero
  | x :: r => r.foldl (fun a y => rnd32 (fAdd a y)) x

/-- The gate of a score, given the scores of the gate set in ascending expert id. -/
def gateOf (l : Layer) (gateSet : List Nat) (score : Nat) : Nat :=
  let sc := ofF32 score
  if l.gateNorm then
    toF32 (fMul (rnd32 (fMul sc (rnd32 (fDiv (fOfInt 1) (sumScores (gateSet.map ofF32)))))) (ofF32 l.gateScale))
  else toF32 (fMul sc (ofF32 l.gateScale))

/-! ## Records and bid lists (R181, R186, R207, R208) -/

/-- A proposal with all that a bid needs. -/
structure Proposal where
  token : Nat
  expert : Nat
  biased : Nat
  rank : Nat
  deriving DecidableEq, Repr

/-- The order of R186: ascending expert id, and within an expert ascending token id. -/
def propLt (a b : Proposal) : Bool := decide (a.expert < b.expert) || (a.expert == b.expert && decide (a.token < b.token))

/-- What the bid lists come to: the bids of each destination index, and the fault that stopped them (R208). -/
def sortBids (s : State) (layer : Nat) (l : Layer) (x : XPlan) (spill : Bool) :
    List Proposal → List (Nat × Bid) → Option Nat × List (Nat × Bid)
  | [], acc => (none, acc)
  | p :: r, acc =>
    let e := placementOf s layer p.expert
    match (replicaHome e l.stride p.token).bind (destIndex? s x) with
    | none => (some fcPlacementSkew, acc)
    | some d =>
      if (maskClusters x.landMask).length ≤ slotOf e / x.slotsPerCluster ∨
          x.listRoom ≤ (acc.filter fun b => b.1 == d).length then (some fcLandingRoom, acc)
      else sortBids s layer l x spill r
        (acc ++ [(d, { token := p.token, score := p.biased, expert := p.expert, row := !l.negotiated, spill := spill
                       rank := p.rank })])

/-- The bytes of list d. -/
def listBytes (bids : List (Nat × Bid)) (d : Nat) : List Byte :=
  let mine := (bids.filter fun b => b.1 == d).map (·.2)
  natLe 4 mine.length ++ natLe 12 0 ++ mine.flatMap bidBytes

/-- Writes byte strings at their addresses. -/
def writeAll (w : List (Nat × List Byte)) (s : State) : State := w.foldl (fun t x => putBytes x.1 x.2 t) s

/-- The entries of the bid lists one by one, each with its address, behind each list's header. -/
def listEntries (x : XPlan) (bids : List (Nat × Bid)) : List (Nat × List Byte) :=
  (List.range x.destCount).flatMap fun d =>
    let mine := (bids.filter fun b => b.1 == d).map (·.2)
    let a := x.listAddr + d * listPitch x
    (a, natLe 4 mine.length ++ natLe 12 0) ::
      (List.range mine.length).map fun i => (a + 16 + 12 * i, bidBytes (mine.getD i (bidAt [] 0)))

/-- Writes some of them: which of the records and list bytes a faulted task had written is not defined (R208). -/
def writeSome (w : List (Nat × List Byte)) (s : State) : State :=
  w.foldl (fun t x =>
    let c := freeChoice t
    if c.1 then putBytes x.1 x.2 c.2 else c.2) s

/-- Writes records and bid lists, or ends the step with the fault that the lists met. -/
def finishLists (s0 : State) (layer : Nat) (l : Layer) (x : XPlan) (spill : Bool) (records : List (Nat × List Byte))
    (props : List Proposal) (s : State) : TaskEnd × State :=
  match sortBids s0 layer l x spill (sortBy propLt props) [] with
  | (some cause, bids) => (.waits, stepFault cause (writeSome (records ++ listEntries x bids) s))
  | (none, bids) =>
    (.finished, writeAll ((List.range x.destCount).map fun d => (x.listAddr + d * listPitch x, listBytes bids d))
      (writeAll records s))

/-! ## ROUTE (R164, R187 to R193) -/

/-- Fields of an RT body. -/
structure Rt where
  layer : Nat
  round : Nat
  setCount : Bool
  first : Nat
  count : Nat
  slotFirst : Nat
  slotCount : Nat
  cellsPerSlot : Nat
  logit : Nat
  stride : Nat
  cellFirst : Nat
  countCtr : Nat
  out : Nat
  plan : Nat
  partMask : Nat
  deriving DecidableEq, Repr

/-- Reads an RT body. Counts are held plus 1. -/
def rtOf (d : Desc) : Rt where
  layer := bodyBits d 16 27 20
  round := bodyBits d 16 19 16
  setCount := bitOf (bodyField d 16 4) 15
  first := bodyBits d 20 31 16
  count := bodyBits d 20 15 0 + 1
  slotFirst := bodyBits d 20 31 20
  slotCount := bodyBits d 20 19 8 + 1
  cellsPerSlot := bodyBits d 20 7 3 + 1
  logit := bodyField d 24 8
  stride := bodyField d 32 4
  cellFirst := bodyBits d 32 31 22
  countCtr := bodyBits d 32 21 12
  out := bodyField d 36 8
  plan := bodyBits d 44 31 16
  partMask := bodyBits d 44 15 0

/-- The clusters whose borrowed engines share a ROUTE (R193). -/
def borrowed (cell : Nat) (f : Rt) : List Nat := (maskClusters f.partMask).filter fun c => c != clusterOf cell

/-- The record of a routed token. -/
def routeRecord (l : Layer) (t : Tok) (ps : List Cand) : List Byte :=
  let byId := sortBy (fun (a b : Cand) => decide (a.1 < b.1)) ps
  let set := if l.policy = 3 then [] else byId.map (·.2.1)
  recordOf l t.nan (byId.map fun c =>
    { expert := c.1, state := 0, rank := ps.findIdx (fun d => d.1 == c.1), round := 0, gate := gateOf l set c.2.1 })

/-- The task's accesses are ones that R246 lets it carry out. -/
def rtAccess (s : State) (rs : List (Nat × Nat)) : Bool := rs.all fun r => accessOk s r.1 r.2

/-- The tokens of a ROUTE, each with its proposals and the number of expert choices dropped. -/
def routedTokens (s : State) (f : Rt) : List (Tok × List Cand × Nat) :=
  let l := layerOf s f.layer
  let toks := (List.range f.count).map fun i => scoreToken s f.layer l (f.first + i) (f.logit + i * f.stride)
  toks.map fun t => (t, proposals l toks t)

/-- The proposals of a ROUTE. -/
def routeProposals (s : State) (f : Rt) : List Proposal :=
  (routedTokens s f).flatMap fun r => (List.range r.2.1.length).map fun k =>
    let c := r.2.1.getD k (0, 0, 0)
    ({ token := tokenId s r.1.index, expert := c.1, biased := c.2.2, rank := k } : Proposal)

/-- The selection records of a ROUTE, each with its address. -/
def routeRecords (s : State) (f : Rt) : List (Nat × List Byte) :=
  let l := layerOf s f.layer
  (routedTokens s f).map fun r => (f.out + (r.1.index - f.first) * recordBytes l, routeRecord l r.1 r.2.1)

/-- The memory that a ROUTE reads and writes. -/
def routeSpans (s : State) (f : Rt) : List (Nat × Nat) :=
  let l := layerOf s f.layer
  let x := xplanOf s f.plan
  [(f.logit, (f.count - 1) * f.stride + l.experts * if l.bf16 then 2 else 4), (f.out, f.count * recordBytes l),
   (x.listAddr, x.destCount * listPitch x)]

/-- The experts whose scores the k-th of n routing engines compares: those of its chunks (R169, R193). -/
def partExperts (l : Layer) (n k : Nat) : Nat :=
  ((List.range (ceilDiv l.experts 1024)).map fun c => if c % n = k then min 1024 (l.experts - 1024 * c) else 0).sum

/-- RT_COMPARES of a ROUTE, for each engine that shares it: a comparison a token and expert, twice for SOFTMAX (R192, R511;
DEDUCED, log 58). -/
def countCompares (cell : Nat) (f : Rt) (l : Layer) (s : State) : State :=
  let cs := if f.partMask = 0 then [clusterOf cell] else maskClusters f.partMask
  (List.range cs.length).foldl (fun u k => perfAdd (cs.getD k 0) 0x08
    (f.count * (if l.scoreFn = 0 then 2 else 1) * partExperts l cs.length k) u) s

/-- ROUTE. -/
def rtRoute (cell : Nat) (d : Desc) (s : State) : TaskEnd × State :=
  let f := rtOf d
  let l := layerOf s f.layer
  let x := xplanOf s f.plan
  if parityAdmits x (runStep s) = false then (.waits, stepFault fcExchangeStray s)
  else if rtAccess s (routeSpans s f) = false then (.waits, stepFault fcAddressRange s)
  else
    let routed := routedTokens s f
    let s1 := addStepCount ccRouteNan (routed.filter fun r => r.1.nan).length
      (addStepCount ccTokenUnrouted (routed.filter fun r => r.2.1.isEmpty).length
        (addStepCount ccChoiceTrim ((routed.map fun r => r.2.2).foldl (· + ·) 0) (countCompares cell f l s)))
    let s2 : State := if l.policy = 3 then { s1 with exch := { s1.exch with
      cands := routed.foldl (fun m r => kvPut m (f.layer * 65536 + r.1.index) (r.1.cands.take 32)) s1.exch.cands } } else s1
    let e := finishLists s f.layer l x false (routeRecords s f) (routeProposals s f) s2
    (e.1, mapFlight cell d.index (fun t => { t with parts := borrowed cell f }) e.2)

/-- What a ROUTE reads: the scores of its tokens, the placement of every expert and the plan's DEST_TABLE. -/
def routeReads (_cell : Nat) (d : Desc) (s : State) (a n : Nat) : Bool :=
  let f := rtOf d
  let l := layerOf s f.layer
  spanHit ((List.range f.count).map fun i => (f.logit + i * f.stride, l.experts * if l.bf16 then 2 else 4)) a n ||
    spanHit (destSpan (xplanOf s f.plan) :: (List.range l.experts).flatMap (placeSpan s f.layer)) a n

/-- ROUTE. -/
def execRoute (cell : Nat) (h : Health) (s : State) : Host.Outcome State Fault Refusal :=
  .next (issueTask 4 (fun d => bodyOp d == 0) routeReads rtRoute cell h s)

/-- A ROUTE in flight waits for the part that a cluster's engine serves. -/
def waitsPart (cl : Nat) (f : Flight) : Bool := dClass f.desc == 4 && f.parts.contains cl

/-- ROUTE_PART: a borrowed engine delivers its part of the first ROUTE that waits for it (R193). -/
def routePartEffect (cl : Nat) (s : State) : State :=
  match s.cells.find? fun e => e.2.flight.any (waitsPart cl) with
  | none => s
  | some e =>
    match e.2.flight.find? (waitsPart cl) with
    | none => s
    | some f => mapFlight e.1 f.index (fun t => { t with parts := t.parts.filter fun c => c != cl }) s

/-- ROUTE_PART. -/
def execRoutePart (cluster : Nat) (s : State) : Host.Outcome State Fault Refusal := .next (routePartEffect cluster s)

/-! ## ACCEPT (R178, R179, R185, R213) -/

/-- A landed bid: its sender index, its position in the sender's section, its slot, and the eager position of its row. -/
structure Landed where
  bid : Bid
  sender : Nat
  pos : Nat
  slot : Nat
  place : Nat
  deriving DecidableEq, Repr

/-- The bids that a sender landed for a round, with their slots. An eager row's place counts the earlier rows of the
section for the slot (R212). -/
def landedBids (s : State) (layer plan round k : Nat) : List Landed :=
  let x := xplanOf s plan
  let bs := bidsAt s.mem (x.bidLand + k * bidPitch x) (tblGet s.exch.bids (bidKey (runStep s) plan round k))
  (List.range bs.length).map fun i =>
    let b := bs.getD i (bidAt [] 0)
    let slot (b : Bid) : Nat := slotOf (placementOf s layer b.expert)
    { bid := b, sender := k, pos := i, slot := slot b
      place := k * (x.rowRoom / x.fwdSenders) + ((bs.take i).filter fun c => c.row && slot c == slot b).length }

/-- The first fault that the checks of R185 find. -/
def acceptFault? (s : State) (layer : Nat) (l : Layer) (x : XPlan) : List Landed → Option Nat
  | [] => none
  | b :: r =>
    if l.experts ≤ b.bid.expert ∨
        replicaHome (placementOf s layer b.bid.expert) l.stride b.bid.token ≠ some (selfId s) then some fcPlacementSkew
    else if slotInPlan x b.slot = false then some fcExchangeStray
    else acceptFault? s layer l x r

/-- Order of bids at a slot: biased score, higher first, then lower token id (R178). -/
def bidLt (a b : Landed) : Bool :=
  decide (scoreKey b.bid.score < scoreKey a.bid.score) ||
    (scoreKey a.bid.score == scoreKey b.bid.score && decide (a.bid.token < b.bid.token))

/-- Rows that a slot has accepted so far in the step. -/
def workOf (s : State) (layer slot : Nat) : List (Nat × Nat × Nat) := kvGetD s.exch.work (layer * 4096 + slot) []

/-- Stores an accept bit of a sender's bitmap (R178, R209). -/
def putAcceptBit (x : XPlan) (b : Landed) (v : Bool) (s : State) : State :=
  { s with mem := putBitsAt s.mem (x.bitmapOut + b.sender * outPitch x) b.pos 1 (if v then 1 else 0) }

/-- The bytes of a work list. -/
def workList (l : Layer) (rows : List (Nat × Nat × Nat)) : List Byte :=
  natLe 4 rows.length ++ (List.range rows.length).flatMap fun j =>
    natLe 4 (if l.negotiated then j else (rows.getD j (0, 0, 0)).2.2)

/-- Applies capacity to one slot: bits or discards, the tallies, the work list and the count counters. A row is kept with the
SRC_TABLE entry of its sender, src at its index, the form in which the plans of every round name it alike (R211, R217). -/
def acceptSlot (f : Rt) (l : Layer) (x : XPlan) (src : Nat → Nat) (bids : List Landed) (slot : Nat) (s : State) : State :=
  let mine := sortBy bidLt (bids.filter fun b => b.slot == slot)
  let before := workOf s f.layer slot
  let acc := mine.take (l.capacity - before.length)
  let rej := mine.drop (l.capacity - before.length)
  let rows := sortBy (fun (a b : Nat × Nat × Nat) => decide (a.1 < b.1))
    (before ++ acc.map fun b => (b.bid.token, src b.sender, b.place))
  let s :=
    if l.negotiated then
      rej.foldl (fun t b => putAcceptBit x b false t) (acc.foldl (fun t b => putAcceptBit x b true t) s)
    else addStepCount ccEagerDiscard (rej.filter fun b => b.bid.row).length s
  let k := f.layer * 4096 + slot
  let s := mapRun (fun r => { r with
    offered := tblAdd r.offered k mine.length, accepted := tblAdd r.accepted k acc.length
    overflow := tblAdd r.overflow k rej.length }) s
  let s : State := { s with exch := { s.exch with work := kvPut s.exch.work k rows } }
  let s := putBytes (f.out + (slot - f.slotFirst) * workBytes l) (workList l rows) s
  if f.setCount then
    (List.range f.cellsPerSlot).foldl (fun t i =>
      depSet (f.cellFirst + (slot - f.slotFirst) * f.cellsPerSlot + i) f.countCtr (rows.length + 1) t) s
  else s

/-- ACCEPT. -/
def rtAccept (_cell : Nat) (d : Desc) (s : State) : TaskEnd × State :=
  let f := rtOf d
  let l := layerOf s f.layer
  let x := xplanOf s f.plan
  if parityAdmits x (runStep s) = false then (.waits, stepFault fcExchangeStray s)
  else if rtAccess s [(f.out, f.slotCount * workBytes l)] = false then (.waits, stepFault fcAddressRange s)
  else
    let bids := (List.range x.fwdSenders).flatMap fun k => landedBids s f.layer f.plan f.round k
    match acceptFault? s f.layer l x bids with
    | some cause => (.waits, stepFault cause s)
    | none =>
      (.finished, (List.range f.slotCount).foldl (fun t i => acceptSlot f l x (srcEntry s x) bids (f.slotFirst + i) t) s)

/-- What an ACCEPT reads: the bids that landed for its round and the placement of their experts. -/
def acceptReads (_cell : Nat) (d : Desc) (s : State) (a n : Nat) : Bool :=
  let f := rtOf d
  let x := xplanOf s f.plan
  spanHit ((List.range x.fwdSenders).flatMap fun k =>
    (x.bidLand + k * bidPitch x, 12 * tblGet s.exch.bids (bidKey (runStep s) f.plan f.round k)) ::
      (landedBids s f.layer f.plan f.round k).flatMap fun b => placeSpan s f.layer b.bid.expert) a n

/-- ACCEPT. -/
def execAccept (cell : Nat) (h : Health) (s : State) : Host.Outcome State Fault Refusal :=
  .next (issueTask 4 (fun d => bodyOp d == 1) acceptReads rtAccept cell h s)

/-! ## SPILL (R177) -/

/-- The accept bit of a token's bid for an expert in a round, as a plan of the round landed it. -/
def acceptBit (s : State) (layer : Nat) (x : XPlan) (token expert : Nat) : Bool :=
  (List.range x.destCount).any fun d =>
    let bs := listBids s x d
    let i := bs.findIdx fun b => b.token == token && b.expert == expert
    decide (i < bs.length) &&
      (let c := landOrdinal s x layer expert
       let k := ((bs.take i).filter fun b => landOrdinal s x layer b.expert == c).length
       bitOf (memGet s.mem (x.accLand + (16 * d + c) * bitmapPitch x + k / 8)).toNat (k % 8))

/-- Marks the proposals of a round ACCEPTED or REJECTED. -/
def markRound (s : State) (layer : Nat) (x : XPlan) (token round : Nat) (es : List SelEntry) : List SelEntry :=
  es.map fun e => if e.round = round ∧ e.state = 0 then
    { e with state := if acceptBit s layer x token e.expert then 1 else 2 } else e

/-- Replaces the proposals rejected in a round, in ascending rank, by the best candidates not yet tried: each new entry
with its candidate's position. -/
def replacements (cs : List Cand) (round : Nat) (es : List SelEntry) : List (SelEntry × Cand) :=
  let lost := (es.filter fun e => e.round + 1 == round && e.state == 2).length
  let fresh := ((List.range cs.length).filter fun i =>
    !(es.any fun e => e.expert == (cs.getD i (0, 0, 0)).1)).take lost
  fresh.map fun i =>
    let c := cs.getD i (0, 0, 0)
    ({ expert := c.1, state := 0, rank := i, round := round, gate := 0 }, c)

/-- The score of an expert among kept candidates. -/
def candScore (cs : List Cand) (e : Nat) : Nat := ((cs.find? fun c => c.1 == e).map (·.2.1)).getD 0

/-- What SPILL makes of one token: the new entries in ascending expert id, the new bids, and the lost proposals. -/
def spillToken (s : State) (f : Rt) (l : Layer) (prev : XPlan) (index : Nat) (es : List SelEntry) :
    List SelEntry × List Proposal × Nat :=
  let token := tokenId s index
  let cs := kvGetD s.exch.cands (f.layer * 65536 + index) []
  let marked := markRound s f.layer prev token (f.round - 1) es
  let set := ((sortBy (fun (a b : SelEntry) => decide (a.expert < b.expert)) (marked.filter fun e => e.state == 1)).map
    fun e => candScore cs e.expert)
  if f.round = l.spillRounds + 1 then
    (marked.map fun e => if e.state = 1 then { e with gate := gateOf l set (candScore cs e.expert) } else e, [],
     (marked.filter fun e => e.state == 2).length - (marked.filter fun e => decide (0 < e.round)).length)
  else
    let new := replacements cs f.round marked
    (sortBy (fun (a b : SelEntry) => decide (a.expert < b.expert))
      (marked ++ new.map fun n => { n.1 with gate := gateOf l set n.2.2.1 }),
     new.map fun n => { token := token, expert := n.2.1, biased := n.2.2.2, rank := n.1.rank }, 0)

/-- The plan of the round before a SPILL's, whose answers it reads. -/
def prevPlan (s : State) (cell : Nat) (f : Rt) : XPlan :=
  ((planFor? s (clusterOf cell) f.layer (f.round - 1) (runStep s)).map (xplanOf s)).getD (xplanOf s f.plan)

/-- What a SPILL makes of its tokens: the address of each record, its NaN bit, its new entries, bids and lost proposals. -/
def spillTokens (s : State) (cell : Nat) (f : Rt) : List (Nat × Bool × List SelEntry × List Proposal × Nat) :=
  let l := layerOf s f.layer
  let prev := prevPlan s cell f
  (List.range f.count).map fun i =>
    let a := f.out + i * recordBytes l
    (a, bitOf (memLe s.mem (a + 1) 1) 0, spillToken s f l prev (f.first + i) (recordEntries s.mem a))

/-- The new selection records of a SPILL. -/
def spillRecords (s : State) (cell : Nat) (f : Rt) : List (Nat × List Byte) :=
  (spillTokens s cell f).map fun r => (r.1, recordOf (layerOf s f.layer) r.2.1 r.2.2.1)

/-- The bids of a SPILL. -/
def spillProposals (s : State) (cell : Nat) (f : Rt) : List Proposal :=
  (spillTokens s cell f).flatMap fun r => r.2.2.2.1

/-- SPILL. -/
def rtSpill (cell : Nat) (d : Desc) (s : State) : TaskEnd × State :=
  let f := rtOf d
  let l := layerOf s f.layer
  let x := xplanOf s f.plan
  if parityAdmits x (runStep s) = false then (.waits, stepFault fcExchangeStray s)
  else if rtAccess s [(f.out, f.count * recordBytes l)] = false then (.waits, stepFault fcAddressRange s)
  else if f.round = l.spillRounds + 1 then
    let lost := ((spillTokens s cell f).map fun r => r.2.2.2.2).foldl (· + ·) 0
    (.finished, writeAll (spillRecords s cell f) (addStepCount ccSpillLost lost s))
  else finishLists s f.layer l x true (spillRecords s cell f) (spillProposals s cell f) s

/-- What a SPILL reads: its records, the lists of the round before and the accept bitmaps that answered them. -/
def spillReads (cell : Nat) (d : Desc) (s : State) (a n : Nat) : Bool :=
  let f := rtOf d
  let p := prevPlan s cell f
  spanHit ((f.out, f.count * recordBytes (layerOf s f.layer)) :: destSpan (xplanOf s f.plan) :: listSpans s p) a n ||
    spanHit ((List.range p.destCount).flatMap fun i => (maskClusters p.landMask).zipIdx.map fun c =>
      (p.accLand + (16 * i + c.2) * bitmapPitch p, bitmapPitch p)) a n

/-- SPILL. -/
def execSpill (cell : Nat) (h : Health) (s : State) : Host.Outcome State Fault Refusal :=
  .next (issueTask 4 (fun d => bodyOp d == 2) spillReads rtSpill cell h s)

/-! ## Refusals of LOAD_IMAGE (R188 to R191, R193) -/

/-- The range lies in the task's own cluster store or in the scratchpad of a cell of its cluster, at a multiple of 64. -/
def inOwnCluster (cell a n : Nat) : Bool :=
  a % 64 == 0 && (inStore (clusterOf cell) a n || ((List.range 32).any fun c => inOwnScratch (32 * clusterOf cell + c) a n))

/-- LOAD_IMAGE accepts an RT body of a cell: a field that R187 alone calls reserved is ignored (R8, R191; log 55). `r` is the ROUTING section and `plans` the number of exchange plans. -/
def rtCheck (im : Image) (r : Mem) (plans cell : Nat) (d : Desc) : Bool :=
  let f := rtOf d
  let l := layerAt r f.layer
  let op := bodyOp d
  let n := (maskClusters f.partMask).length
  decide (op ≤ 2) && (decide (f.layer < im.layers) && (bodyBits d 16 14 0 == 0 &&
  (decide (f.plan < plans) &&
  (if op = 1 then
    decide (f.round ≤ l.spillRounds) && (f.setCount == (f.round == l.spillRounds) && (bodyBits d 20 2 0 == 0 &&
    (decide (f.slotFirst + f.slotCount ≤ im.expertSlots) &&
    (decide (f.cellFirst / 32 = clusterOf cell) &&
    (decide ((f.cellFirst + f.slotCount * f.cellsPerSlot - 1) / 32 = clusterOf cell) &&
    inOwnCluster cell f.out (f.slotCount * workBytes l))))))
  else
    !f.setCount && (decide (f.first + f.count ≤ im.stepTokens) && (inOwnCluster cell f.out (f.count * recordBytes l) &&
    (if op = 0 then
      f.round == 0 && (f.stride % 64 == 0 &&
      (inOwnCluster cell f.logit ((f.count - 1) * f.stride + l.experts * if l.bf16 then 2 else 4) &&
      (f.partMask == 0 || (bitOf f.partMask (clusterOf cell) && (decide (n ≤ ceilDiv l.experts 1024) &&
        (l.policy != 1 || n == 1))))))
    else
      decide (1 ≤ f.round) && (decide (f.round ≤ l.spillRounds + 1) && l.policy == 3))))))))

end Sys2Proof.Machine
end

