-- ==== Sys2Proof/Machine/Exchange.lean ====
section
/-! DEFINITION. Expert exchange (08): the XC tasks, the checks of R204, static landing (R212), and answers (R219, R221). -/

namespace Sys2Proof.Machine

/-! ## XC tasks (R215 to R218) -/

/-- Fields of an XC body. Counts are held plus 1. -/
structure Xc where
  layer : Nat
  round : Nat
  first : Nat
  count : Nat
  slotFirst : Nat
  slotCount : Nat
  plan : Nat
  work : Nat
  data : Nat
  stride : Nat
  deriving DecidableEq, Repr

/-- Reads an XC body. -/
def xcOf (d : Desc) : Xc where
  layer := bodyBits d 16 27 20
  round := bodyBits d 16 19 16
  first := bodyBits d 20 31 16
  count := bodyBits d 20 15 0 + 1
  slotFirst := bodyBits d 20 31 20
  slotCount := bodyBits d 20 19 8 + 1
  plan := bodyField d 24 2
  work := bodyField d 28 8
  data := bodyField d 36 8
  stride := bodyField d 44 4

/-- A section of a message: BID_COUNT, ROW_COUNT and its bytes. -/
abbrev Sect := Nat × Nat × List Byte

/-- A message body (R202): empty if every section is. -/
def messageBody (ss : List Sect) : List Byte :=
  if ss.all fun x => x.1 == 0 && x.2.1 == 0 then []
  else (ss.flatMap fun x => natLe 4 x.1 ++ natLe 4 x.2.1) ++ ss.flatMap fun x => x.2.2

/-- Body bytes of one packet. -/
def bodyMax : Nat := 4064

/-- The packets that carry a body: at least one. -/
def bodyPackets (n : Nat) : Nat := max 1 (ceilDiv n bodyMax)

/-- The exchange header of one packet (R200). -/
def exchangeHeader (s : State) (layer kind round cl mask len ofs : Nat) : List Byte :=
  natLe 4 (runStep s) ++ natLe 4 ((s.job.image.map fun im => im.imageId.toNat).getD 0) ++
    natLe 4 s.job.lasting.biasDigest.toNat ++ natLe 1 layer ++ natLe 1 (16 * kind + round) ++ natLe 1 cl ++ natLe 1 0 ++
    natLe 2 mask ++ natLe 2 0 ++ natLe 4 len ++ natLe 4 ofs ++ natLe 4 0

/-- A packet of exchange or collective traffic. -/
def bulkOut (dst op : Nat) (payload : List Byte) : Out where
  dst := dst
  op := op
  vc := 4
  unit := false
  arrEn := false
  addr := 0
  arr := 0
  payload := payload

/-- Sends one message: its packets, each with the header that its offset gives. XC_BYTES_OUT counts its body (R511). -/
def sendMessage (cell index op dst : Nat) (header : Nat → List Byte) (body : List Byte) (s : State) : State :=
  (List.range (bodyPackets body.length)).foldl (fun t i =>
    sendRequest cell index
      (bulkOut dst op (header (bodyMax * i) ++ (body.drop (bodyMax * i)).take bodyMax)) noAnswer t)
    (perfAdd (clusterOf cell) 0x09 body.length s)

/-- Sends the messages of an exchange: destination, LAND_MASK and body of each. -/
def sendMessages (cell : Nat) (d : Desc) (kind : Nat) (msgs : List (Nat × Nat × List Byte)) (s : State) : State :=
  let f := xcOf d
  msgs.foldl (fun t m => sendMessage cell d.index 0x01 m.1
    (exchangeHeader s f.layer kind f.round (clusterOf cell) m.2.1 m.2.2.length) m.2.2 t) s

/-- Clears the presence bits of a task's token range (R217). -/
def clearPresence (f : Xc) (l : Layer) (x : XPlan) (s : State) : State :=
  let e := recordRoom l
  let tokens := (List.range f.count).filter fun i => x.tokenFirst ≤ f.first + i && f.first + i < x.tokenFirst + x.tokenCount
  { s with mem := tokens.foldl (fun m i =>
      (List.range e).foldl (fun m j =>
        let k := (f.first + i - x.tokenFirst) * e + j
        putBitsAt m (x.presence + k / 8) (k % 8) 1 0) m) s.mem }

/-- The payload row of a bid (R210); none if its token's record holds no entry for its expert. -/
def payloadRow (s : State) (f : Xc) (l : Layer) (x : XPlan) (b : Bid) : Option (List Byte) :=
  let t := b.token % 65536
  let es := recordEntries s.mem (x.selAddr + (t - x.tokenFirst) * recordBytes l)
  (es.find? fun e => e.expert == b.expert).map fun e =>
    natLe 4 b.token ++ natLe 2 b.expert ++ natLe 2 (tokenEpoch s t) ++ natLe 2 (runStep s) ++ natLe 2 0 ++
      natLe 4 e.gate ++ getBytes s (f.data + (t - f.first) * f.stride) x.rowBytes

/-- The rows of some bids, or none if one of them has no record entry. -/
def payloadRows (s : State) (f : Xc) (l : Layer) (x : XPlan) : List Bid → Option (List Byte)
  | [] => some []
  | b :: r =>
    match payloadRow s f l x b, payloadRows s f l x r with
    | some h, some t => some (h ++ t)
    | _, _ => none

/-- The bids of list d that land in the cluster with ordinal c, in list order (R207). -/
def sectionBids (s : State) (x : XPlan) (layer d c : Nat) : List Bid :=
  (listBids s x d).filter fun b => landOrdinal s x layer b.expert == c

/-- Every section of the messages of a sending task, or none if a row has no record entry. -/
def sections (mk : Nat → Nat → Option Sect) (x : XPlan) : List Nat → Option (List (Nat × List Sect))
  | [] => some []
  | d :: r =>
    let one := (List.range (maskClusters x.landMask).length).foldl (fun (acc : Option (List Sect)) c =>
      match acc, mk d c with
      | some l, some t => some (l ++ [t])
      | _, _ => none) (some [])
    match one, sections mk x r with
    | some h, some t => some ((d, h) :: t)
    | _, _ => none

/-- The plans whose lists a SEND_ROWS covers: those of every round of the layer. -/
def rowPlans (s : State) (cell : Nat) (f : Xc) (l : Layer) : List XPlan :=
  let ps := (List.range (l.spillRounds + 1)).filterMap fun r =>
    if r = 0 then some f.plan else planFor? s (clusterOf cell) f.layer r (runStep s)
  (ps.foldl (fun acc p => if acc.contains p then acc else acc ++ [p]) []).map (xplanOf s)

/-- The bids of a destination and landing ordinal whose accept bit is 1, over the rounds (R217): by ascending round, and in
list order within one (DESIGN CHOICE, log 103). -/
def acceptedBids (s : State) (ps : List XPlan) (layer id c : Nat) : List Bid :=
  ps.flatMap fun x =>
    match destIndex? s x id with
    | none => []
    | some d =>
      let bs := sectionBids s x layer d c
      ((List.range bs.length).filter fun i =>
        bitOf (memGet s.mem (x.accLand + (16 * d + c) * bitmapPitch x + i / 8)).toNat (i % 8)).map fun i =>
          bs.getD i (bidAt [] 0)

/-- A section of a source's message: kind 0 BIDS, 2 ROWS, 3 EAGER. -/
def sourceSection (s : State) (cell kind : Nat) (f : Xc) (l : Layer) (x : XPlan) (d c : Nat) : Option Sect :=
  if kind = 0 then
    let bs := sectionBids s x f.layer d c
    some (bs.length, 0, bs.flatMap bidBytes)
  else if kind = 3 then
    let bs := (sectionBids s x f.layer d c).filter fun b => b.row
    (payloadRows s f l x bs).map fun r => (bs.length, bs.length, bs.flatMap bidBytes ++ r)
  else
    let bs := acceptedBids s (rowPlans s cell f l) f.layer (destId s x d) c
    (payloadRows s f l x bs).map fun r => (0, bs.length, r)

/-- Bids that some landing cluster of the plan cannot take (R208). -/
def beyondMask (s : State) (f : Xc) (x : XPlan) : Bool :=
  (List.range x.destCount).any fun d => (listBids s x d).any fun b =>
    decide ((maskClusters x.landMask).length ≤ landOrdinal s x f.layer b.expert)

/-- SEND_BIDS, SEND_ROWS and SEND_EAGER: one message to every destination of the plan. -/
def xcSource (kind cell : Nat) (d : Desc) (s : State) : TaskEnd × State :=
  let f := xcOf d
  let l := layerOf s f.layer
  let x := xplanOf s f.plan
  if parityAdmits x (runStep s) = false then (.waits, stepFault fcExchangeStray s)
  else if beyondMask s f x then (.waits, stepFault fcLandingRoom s)
  else if kind ≠ 0 ∧ accessOk s f.data ((f.count - 1) * f.stride + x.rowBytes) = false then
    (.waits, stepFault fcAddressRange s)
  else
    let s := if kind = 3 ∨ (kind = 0 ∧ f.round = 0) then clearPresence f l x s else s
    match sections (sourceSection s cell kind f l x) x (List.range x.destCount) with
    | none => (.waits, stepFault fcExchangeStray s)
    | some ms =>
      (.waits, sendMessages cell d kind (ms.map fun m => (destId s x m.1, x.landMask, messageBody m.2)) s)

/-- The bids whose rows a source task sends: kind 2 ROWS, 3 EAGER (R216, R217). -/
def rowsSent (s : State) (cell kind : Nat) (f : Xc) : List Bid :=
  let l := layerOf s f.layer
  let x := xplanOf s f.plan
  (List.range x.destCount).flatMap fun d => (List.range (maskClusters x.landMask).length).flatMap fun c =>
    if kind = 2 then acceptedBids s (rowPlans s cell f l) f.layer (destId s x d) c
    else if kind = 3 then (sectionBids s x f.layer d c).filter fun b => b.row
    else []

/-- What a source task reads: its lists, the plan's DEST_TABLE, and for the rows that it sends their records and data, with
the accept bitmaps that name the rows of kind 2. -/
def sourceReads (kind cell : Nat) (d : Desc) (s : State) (a n : Nat) : Bool :=
  let f := xcOf d
  let l := layerOf s f.layer
  let x := xplanOf s f.plan
  let ps := if kind = 2 then rowPlans s cell f l else [x]
  spanHit (destSpan x :: ps.flatMap (listSpans s)) a n ||
    (spanHit (if kind = 2 then ps.flatMap fun p => (List.range p.destCount).flatMap fun i =>
        (maskClusters p.landMask).zipIdx.map fun c => (p.accLand + (16 * i + c.2) * bitmapPitch p, bitmapPitch p) else []) a n ||
     spanHit ((rowsSent s cell kind f).flatMap fun b =>
        [(x.selAddr + (b.token % 65536 - x.tokenFirst) * recordBytes l, recordBytes l),
         (f.data + (b.token % 65536 - f.first) * f.stride, x.rowBytes)]) a n)

/-- The work-list entries of a slot: the SRC_TABLE entry of the sender and the answer row of each (R210, R215). -/
def slotAnswers (s : State) (f : Xc) (l : Layer) (x : XPlan) (slot : Nat) : List (Nat × List Byte) :=
  let a := f.work + (slot - f.slotFirst) * workBytes l
  let rows := workOf s f.layer slot
  (List.range (min (memLe s.mem a 4) l.capacity)).filterMap fun j =>
    let pos := memLe s.mem (a + 4 + 4 * j) 4
    let mine := if l.negotiated then rows[pos]? else rows.find? fun r => r.2.2 == pos
    mine.map fun r => (r.2.1, getBytes s (rowPlace x slot pos) 16 ++
      getBytes s (f.data + ((slot - f.slotFirst) * x.rowRoom + j) * f.stride) x.ansBytes)

/-- The message of a home to sender index k, for SEND_ACCEPTS (1) and SEND_ANSWERS (4). -/
def homeMessage (s : State) (kind : Nat) (f : Xc) (x : XPlan) (answers : List (Nat × List Byte)) (k : Nat) : List Byte :=
  if kind = 1 then
    let n := tblGet s.exch.bids (bidKey (runStep s) f.plan f.round k)
    messageBody [(n, 0, getBytes s (x.bitmapOut + k * outPitch x) (ceilDiv n 8))]
  else
    let mine := answers.filter fun a => a.1 == srcEntry s x k
    messageBody [(0, mine.length, mine.flatMap (·.2))]

/-- SEND_ACCEPTS and SEND_ANSWERS: one message to every sender of the plan. -/
def xcHome (kind cell : Nat) (d : Desc) (s : State) : TaskEnd × State :=
  let f := xcOf d
  let l := layerOf s f.layer
  let x := xplanOf s f.plan
  if parityAdmits x (runStep s) = false then (.waits, stepFault fcExchangeStray s)
  else if kind = 4 ∧ (accessOk s f.work (f.slotCount * workBytes l) = false ∨
      accessOk s f.data ((f.slotCount * x.rowRoom - 1) * f.stride + x.ansBytes) = false) then
    (.waits, stepFault fcAddressRange s)
  else
    let answers := if kind = 4 then
      (List.range f.slotCount).flatMap fun i => slotAnswers s f l x (f.slotFirst + i) else []
    (.waits, sendMessages cell d kind ((List.range x.fwdSenders).map fun k =>
      (srcEntry s x k % 2 ^ 20, 2 ^ (srcEntry s x k / 2 ^ 20), homeMessage s kind f x answers k)) s)

/-- What a home task reads: the plan's SRC_TABLE, and the bitmaps of an ACCEPTS or the work lists, row headers and answers of
an ANSWERS. -/
def homeReads (kind _cell : Nat) (d : Desc) (s : State) (a n : Nat) : Bool :=
  let f := xcOf d
  let l := layerOf s f.layer
  let x := xplanOf s f.plan
  overlaps x.srcTable (4 * x.fwdSenders) a n ||
    (if kind = 1 then spanHit ((List.range x.fwdSenders).map fun k =>
      (x.bitmapOut + k * outPitch x, ceilDiv (tblGet s.exch.bids (bidKey (runStep s) f.plan f.round k)) 8)) a n
    else spanHit ((List.range f.slotCount).flatMap fun i =>
      let w := f.work + i * workBytes l
      let rows := min (memLe s.mem w 4) l.capacity
      (w, 4 + 4 * rows) :: (List.range rows).flatMap fun j =>
        [(rowPlace x (f.slotFirst + i) (memLe s.mem (w + 4 + 4 * j) 4), 16),
         (f.data + (i * x.rowRoom + j) * f.stride, x.ansBytes)]) a n)

/-- SEND_BIDS. -/
def execSendBids (cell : Nat) (h : Health) (s : State) : Host.Outcome State Fault Refusal :=
  .next (issueTask 5 (fun d => bodyOp d == 0) (sourceReads 0) (xcSource 0) cell h s)
/-- SEND_ACCEPTS. -/
def execSendAccepts (cell : Nat) (h : Health) (s : State) : Host.Outcome State Fault Refusal :=
  .next (issueTask 5 (fun d => bodyOp d == 1) (homeReads 1) (xcHome 1) cell h s)
/-- SEND_ROWS. -/
def execSendRows (cell : Nat) (h : Health) (s : State) : Host.Outcome State Fault Refusal :=
  .next (issueTask 5 (fun d => bodyOp d == 2) (sourceReads 2) (xcSource 2) cell h s)
/-- SEND_EAGER. -/
def execSendEager (cell : Nat) (h : Health) (s : State) : Host.Outcome State Fault Refusal :=
  .next (issueTask 5 (fun d => bodyOp d == 3) (sourceReads 3) (xcSource 3) cell h s)
/-- SEND_ANSWERS. -/
def execSendAnswers (cell : Nat) (h : Health) (s : State) : Host.Outcome State Fault Refusal :=
  .next (issueTask 5 (fun d => bodyOp d == 4) (homeReads 4) (xcHome 4) cell h s)

/-! ## Receiving: the checks of R204 -/

/-- An exchange header as it arrives. -/
structure XHead where
  step : Word
  imageId : Word
  digest : Word
  layer : Nat
  kindRound : Nat
  srcCluster : Nat
  mask : Nat
  bodyLen : Nat
  ofs : Nat
  deriving DecidableEq, Repr

/-- Reads an exchange header. -/
def xheadOf (b : List Byte) : XHead where
  step := BitVec.ofNat 32 (fieldOf b 0 4)
  imageId := BitVec.ofNat 32 (fieldOf b 4 4)
  digest := BitVec.ofNat 32 (fieldOf b 8 4)
  layer := fieldOf b 12 1
  kindRound := fieldOf b 13 1
  srcCluster := fieldOf b 14 1 % 16
  mask := fieldOf b 16 2
  bodyLen := fieldOf b 20 4
  ofs := fieldOf b 24 4

/-- A landing fails a check: the running step ends with the cause; with none, the step that the landing names ends with
it at its RUNNING entry (DEDUCED, log 37). -/
def landingFault (step : Word) (cause : Nat) (s : State) : State :=
  if stepRunning s then stepFault cause s
  else { s with ctl := { s.ctl with heldFaults := s.ctl.heldFaults ++ [(step, cause)] } }

/-- The current step against which a full step number is judged; none where R53 defers the judgement to the RUNNING
entry: after BIND or ABORT_JOB, and from a REPLAY grant to its run (DEDUCED, log 38). -/
def judgedStep? (s : State) : Option Word :=
  if s.ctl.run.isNone && s.ctl.replaying then none else currentStep? s

/-- A full step number is neither the current step nor the one after it (R53). -/
def stepSkewed (s : State) (step : Word) : Bool :=
  match judgedStep? s with
  | none => false
  | some n => step != n && step != n + 1

/-- Notes a step number to be judged at the next RUNNING entry (R53). -/
def noteEntryStep (step : Word) (s : State) : State :=
  match judgedStep? s with
  | some _ => s
  | none =>
    if s.ctl.entrySteps.contains step then s
    else { s with ctl := { s.ctl with entrySteps := step :: s.ctl.entrySteps } }

/-- IMAGE_ID equals the bound image's (R204 check 2). -/
def imageMatches (s : State) (id : Word) : Bool :=
  match boundImage? s with
  | some im => im.imageId == id
  | none => false

/-- The step to which the digest in force belongs: the run's, or the last one latched. -/
def inForce (s : State) (step : Word) : Bool := judgedStep? s == some step

/-- The bias digest that the armed step will run with: its grant's, if the grant is its head's and carries an epoch. -/
def stagedDigest (s : State) (g : GStep) : Word :=
  if g.head ∧ g.grant.epoch.isSome = true then g.grant.biasDigest else s.job.lasting.biasDigest

/-- R205: a skew of a landing's digest that shows at once; and what is kept for the RUNNING entry. -/
def biasCheck (step digest : Word) (s : State) : Bool × State :=
  if inForce s step then (digest != s.job.lasting.biasDigest, s)
  else
    match s.ctl.armed with
    | some g =>
      if g.step = step then (digest != stagedDigest s g, s) else (false, s)
    | none =>
      match s.ctl.keptDigest with
      | none => (false, { s with ctl := { s.ctl with keptDigest := some digest } })
      | some k => (false, if digest = k then s else { s with ctl := { s.ctl with keptDiffers := true } })

/-- KIND of R201. -/
def kindOf (h : XHead) : Nat := h.kindRound / 16

/-- A forward kind lands at the home: BIDS, ROWS and EAGER. -/
def isForward (kind : Nat) : Bool := kind == 0 || (kind == 2 || kind == 3)

/-- Where a message's section for a landing cluster goes: the cluster, its plan, and the sender index, or the destination
index and the landing ordinal. -/
structure Target where
  cluster : Nat
  plan : Nat
  a : Nat
  b : Nat
  deriving DecidableEq, Repr

/-- The plan of one landing cluster (R204 check 4). -/
def targetOf? (s : State) (src : Nat) (h : XHead) (c : Nat) : Option Target :=
  match planFor? s c h.layer (h.kindRound % 16) h.step.toNat with
  | none => none
  | some p =>
    let x := xplanOf s p
    if isForward (kindOf h) then (srcIndex? s x src h.srcCluster).map fun k => ⟨c, p, k, 0⟩
    else
      let o := (maskClusters x.landMask).findIdx fun k => k == h.srcCluster
      match destIndex? s x src with
      | none => none
      | some d => if o < (maskClusters x.landMask).length then some ⟨c, p, d, o⟩ else none

/-- The plans of every landing cluster, ascending; none if one does not match. -/
def targets? (s : State) (src : Nat) (h : XHead) : List Nat → Option (List Target)
  | [] => some []
  | c :: r =>
    match targetOf? s src h c, targets? s src h r with
    | some t, some l => some (t :: l)
    | _, _ => none

/-- The targets of a message with a defined KIND, a landing cluster, and a round in which messages are sent: FINAL sends
none (R177, R216). -/
def messageTargets? (s : State) (src : Nat) (h : XHead) : Option (List Target) :=
  if kindOf h ≤ 4 ∧ (h.mask ≠ 0 ∧ h.kindRound % 16 ≤ (layerOf s h.layer).spillRounds) then
    targets? s src h (maskClusters h.mask)
  else none

/-- The key of a message. -/
def keyOf (src : Nat) (h : XHead) : MsgKey where
  src := src
  collective := false
  step := h.step
  layer := h.layer
  kind := h.kindRound
  srcCluster := h.srcCluster
  landMask := h.mask

/-- The message with a key, or a new one. -/
def msgOf (s : State) (k : MsgKey) (len : Nat) : Msg :=
  (s.exch.msgs.find? fun m => m.key == k).getD { key := k, bodyLen := len, got := [], body := [] }

/-- Replaces the message with its key. -/
def putMsg (m : Msg) (s : State) : State :=
  { s with exch := { s.exch with msgs := m :: s.exch.msgs.filter fun x => x.key != m.key } }

/-- The bytes of a body from its start that the ranges cover, at least up to n. -/
def coveredTo (got : List (Nat × Nat)) (n : Nat) : Nat :=
  (sortBy (fun (a b : Nat × Nat) => decide (a.1 < b.1)) got).foldl
    (fun r g => if g.1 ≤ r then max r (g.1 + g.2) else r) n

/-- The first n bytes of a message have landed. -/
def hasBytes (m : Msg) (n : Nat) : Bool := decide (n ≤ coveredTo m.got 0)

/-- BID_COUNT and ROW_COUNT of the i-th section. -/
def sectionCounts (m : Msg) (i : Nat) : Nat × Nat :=
  if m.bodyLen = 0 then (0, 0) else (memLe m.body (8 * i) 4, memLe m.body (8 * i + 4) 4)

/-- The bids of a section whose bytes begin the list. -/
def sectBids (n : Nat) (sec : List Byte) : List Bid := (List.range n).map fun i => bidAt sec (12 * i)

/-- The slot of a bid at its home under the table in force. -/
def bidSlot (s : State) (layer : Nat) (b : Bid) : Nat := slotOf (placementOf s layer b.expert)

/-- The place of the j-th of some eager rows within its sender's share: the earlier rows of the section for its slot
(R212). -/
def eagerPlace (s : State) (layer : Nat) (rows : List Bid) (j : Nat) : Nat :=
  ((rows.take j).filter fun b => bidSlot s layer b == bidSlot s layer (rows.getD j (bidAt [] 0))).length

/-- No eager row of the bids reaches the end of its sender's share of a slot of the plan (R212). -/
def eagerFits (s : State) (layer : Nat) (x : XPlan) (bs : List Bid) : Bool :=
  let rows := bs.filter fun b => b.row
  (List.range rows.length).all fun j =>
    !slotInPlan x (bidSlot s layer (rows.getD j (bidAt [] 0))) ||
      decide (eagerPlace s layer rows j < x.rowRoom / x.fwdSenders)

/-- A section fits its reserved room (R212). -/
def sectionFits (s : State) (h : XHead) (t : Target) (n : Nat × Nat) : Bool :=
  let x := xplanOf s t.plan
  let l := layerOf s h.layer
  if kindOf h = 0 ∨ kindOf h = 3 then decide (n.1 ≤ x.bidRoom)
  else if kindOf h = 1 then decide (n.1 ≤ x.listRoom)
  else if kindOf h = 2 then decide (n.2 ≤ x.slotCount * x.rowRoom)
  else decide (n.2 ≤ x.tokenCount * recordRoom l)

/-- The length of a section (R202). -/
def sectLen (h : XHead) (x : XPlan) (n : Nat × Nat) : Nat :=
  if kindOf h = 0 then 12 * n.1
  else if kindOf h = 1 then ceilDiv n.1 8
  else if kindOf h = 3 then 12 * n.1 + n.2 * (16 + x.rowBytes)
  else if kindOf h = 2 then n.2 * (16 + x.rowBytes)
  else n.2 * (16 + x.ansBytes)

/-- The offset of the i-th section in its message's body. -/
def sectOfs (s : State) (h : XHead) (ts : List Target) (m : Msg) (i : Nat) : Nat :=
  8 * ts.length + ((List.range i).map fun j =>
    sectLen h (xplanOf s (ts.getD j ⟨0, 0, 0, 0⟩).plan) (sectionCounts m j)).sum

/-- The eager rows of the i-th section, once its bids have landed, keep within their share. The rows of a step not yet
RUNNING are judged at its entry, under the table then in force (R183). -/
def eagerSectFits (s : State) (h : XHead) (ts : List Target) (m : Msg) (i : Nat) : Bool :=
  let o := sectOfs s h ts m i
  let n := (sectionCounts m i).1
  kindOf h != 3 || landRule s h.step.toNat == .tally || !hasBytes m (o + 12 * n) ||
    eagerFits s h.layer (xplanOf s (ts.getD i ⟨0, 0, 0, 0⟩).plan) (sectBids n (memRead m.body o (12 * n)))

/-- Every section whose counts have landed fits its room, and every eager row whose bid has landed its share. -/
def roomOk (s : State) (h : XHead) (ts : List Target) (m : Msg) : Bool :=
  m.bodyLen == 0 || !hasBytes m (8 * ts.length) ||
    ((List.range ts.length).all fun i =>
      sectionFits s h (ts.getD i ⟨0, 0, 0, 0⟩) (sectionCounts m i) && eagerSectFits s h ts m i)

/-- An exchange packet that is no duplicate: the checks of R204, its bytes by OFFSET, and its acknowledgement. A payload too
short to hold the header has no field to check and raises EXCHANGE_STRAY before them (DESIGN CHOICE, log 105). -/
def placeExchange (p : Packet) (s : State) : State :=
  let h := xheadOf p.payload
  let data := p.payload.drop 32
  if p.payload.length < 32 then landingFault h.step fcExchangeStray s
  else if stepSkewed s h.step then landingFault h.step fcStepSkew s
  else if !imageMatches s h.imageId then landingFault h.step fcImageSkew s
  else
    let b := biasCheck h.step h.digest s
    if b.1 then landingFault h.step fcBiasSkew s
    else
      match messageTargets? s (srcOf p) h with
      | none => landingFault h.step fcExchangeStray s
      | some ts =>
        let m := msgOf s (keyOf (srcOf p) h) h.bodyLen
        let m2 : Msg := { m with got := (h.ofs, data.length) :: m.got, body := memWrite m.body h.ofs data }
        if h.bodyLen < h.ofs + data.length ∨ roomOk s h ts m2 = false then landingFault h.step fcLandingRoom s
        else progress (ackLanded p (addSeen p (putMsg m2 (noteEntryStep h.step b.2))))

/-- Handles a packet of bulk traffic: discarded between an ABORTED latch and its REPLAY grant (R242), acknowledged again
if it is a duplicate, else placed. -/
def bulkArrival (place : Packet → State → State) (p : Packet) (s : State) : State :=
  if discarding s p then s
  else if isSeen s p then ackLanded p (addCount tcDuplicates 1 s)
  else place p s

/-- EXCHANGE. -/
def execExchange (from? : Option Nat) (p : Packet) (s : State) : Host.Outcome State Fault Refusal :=
  .next (receive 0x01 false from? p (bulkArrival placeExchange p) s)

/-! ## Landing a whole message (R202, R203, R212, R219, R221) -/

/-- What a section's landing does, once nothing is wrong with its message. -/
structure Landing where
  writes : List (Nat × List Byte)
  /-- Presence bits set: the map's address and the bit. -/
  present : List (Nat × Nat)
  stale : Nat
  /-- BID_COUNT to keep for the sender, under its key. -/
  bids : Option (Nat × Nat)
  deriving DecidableEq, Repr

/-- A landing that writes nothing. -/
def Landing.none : Landing where
  writes := []
  present := []
  stale := 0
  bids := Option.none

/-- A landed bid's expert is homed here, in a slot outside the plan's range (R185, R212). One homed elsewhere is ACCEPT's
to find. -/
def bidStray (s : State) (layer : Nat) (x : XPlan) (b : Bid) : Bool :=
  let l := layerOf s layer
  let e := placementOf s layer b.expert
  decide (b.expert < l.experts) && (replicaHome e l.stride b.token == some (selfId s) && !slotInPlan x (slotOf e))

/-- Lands the bids of a BIDS or EAGER section (R212): no place of theirs depends on the placement table. -/
def landBids (s : State) (h : XHead) (t : Target) (n : Nat × Nat) (sec : List Byte) : Nat ⊕ Landing :=
  let x := xplanOf s t.plan
  if kindOf h = 3 ∧ n.2 ≠ ((sectBids n.1 sec).filter fun b => b.row).length then .inl fcExchangeStray
  else if x.bidRoom < n.1 then .inl fcLandingRoom
  else
    .inr { Landing.none with
      bids := some (bidKey h.step.toNat t.plan (h.kindRound % 16) t.a, n.1)
      writes := (x.bidLand + t.a * bidPitch x, sec.take (12 * n.1)) ::
        (if kindOf h = 0 then
          [(x.bitmapOut + t.a * outPitch x, List.replicate (ceilDiv x.bidRoom 8) (0 : Byte))] else []) }

/-- What the placement table in force makes of a BIDS or EAGER section: strays, and the places of eager rows (R212). The
row of a bid whose slot is not the plan's has no place; ACCEPT ends the step for its bid (R185). -/
def landEager (s : State) (h : XHead) (t : Target) (n : Nat × Nat) (sec : List Byte) : Nat ⊕ Landing :=
  let x := xplanOf s t.plan
  let bs := sectBids n.1 sec
  let rows := if kindOf h = 3 then bs.filter fun b => b.row else []
  let slot (j : Nat) : Nat := bidSlot s h.layer (rows.getD j (bidAt [] 0))
  if bs.any (bidStray s h.layer x) then .inl fcExchangeStray
  else if kindOf h = 3 ∧ eagerFits s h.layer x bs = false then .inl fcLandingRoom
  else
    .inr { Landing.none with
      writes := ((List.range rows.length).filter fun j => slotInPlan x (slot j)).map fun j =>
        (rowPlace x (slot j) (t.a * (x.rowRoom / x.fwdSenders) + eagerPlace s h.layer rows j),
         (sec.drop (12 * n.1 + j * (16 + x.rowBytes))).take (16 + x.rowBytes)) }

/-- Lands a ROWS section: each row goes to the position of its token in its slot's work list. -/
def landRows (s : State) (h : XHead) (t : Target) (n : Nat × Nat) (sec : List Byte) : Nat ⊕ Landing :=
  let x := xplanOf s t.plan
  let size := 16 + x.rowBytes
  (List.range n.2).foldl (fun (acc : Nat ⊕ Landing) j =>
    match acc with
    | .inl f => .inl f
    | .inr a =>
      let row := (sec.drop (j * size)).take size
      let slot := slotOf (placementOf s h.layer (fieldOf row 4 2 % 16384))
      let work := workOf s h.layer slot
      let pos := work.findIdx fun r => r.1 == fieldOf row 0 4
      if pos ≥ work.length ∨ slotInPlan x slot = false then .inl fcExchangeStray
      else if x.rowRoom ≤ pos then .inl fcLandingRoom
      else .inr { a with writes := a.writes ++ [(rowPlace x slot pos, row)] }) (.inr Landing.none)

/-- Lands an ANSWERS section (R219, R221). A row without a record entry, or whose answer is present, is a stray also where it
is stale: that test comes first (DESIGN CHOICE, log 104). -/
def landAnswers (s : State) (h : XHead) (t : Target) (n : Nat × Nat) (sec : List Byte) : Nat ⊕ Landing :=
  let x := xplanOf s t.plan
  let l := layerOf s h.layer
  let size := 16 + x.ansBytes
  (List.range n.2).foldl (fun (acc : Nat ⊕ Landing) j =>
    match acc with
    | .inl f => .inl f
    | .inr a =>
      let row := (sec.drop (j * size)).take size
      let token := fieldOf row 0 4
      let i := token % 65536 - x.tokenFirst
      let es := recordEntries s.mem (x.selAddr + i * recordBytes l)
      let k := es.findIdx fun e => e.expert == fieldOf row 4 2 % 16384
      let slot := i * recordRoom l + k
      if token / 65536 ≠ s.job.rank.toNat ∨ token % 65536 < x.tokenFirst ∨ x.tokenCount ≤ i ∨ es.length ≤ k then
        .inl fcExchangeStray
      else if bitOf (memGet s.mem (x.presence + slot / 8)).toNat (slot % 8) ∨ a.present.contains (x.presence, slot) = true then
        .inl fcExchangeStray
      else if fieldOf row 6 2 ≠ tokenEpoch s (token % 65536) ∨ fieldOf row 8 2 ≠ runStep s % 65536 then
        .inr { a with stale := a.stale + 1 }
      else .inr { a with
        writes := a.writes ++ [(x.ansLand + slot * ansPitch x, row)], present := (x.presence, slot) :: a.present })
    (.inr Landing.none)

/-- Lands what of a section has a place before its step is RUNNING: bids and bitmaps. -/
def landFixed (s : State) (h : XHead) (t : Target) (n : Nat × Nat) (sec : List Byte) : Nat ⊕ Landing :=
  let x := xplanOf s t.plan
  if kindOf h = 0 ∨ kindOf h = 3 then landBids s h t n sec
  else if kindOf h = 2 ∨ kindOf h = 4 then .inr Landing.none
  else if x.listRoom < n.1 then .inl fcLandingRoom
  else .inr { Landing.none with writes := [(x.accLand + (16 * t.a + t.b) * bitmapPitch x, sec)] }

/-- Lands what of a section takes its place by the tables of its running step: rows and answers. -/
def landPlaced (s : State) (h : XHead) (t : Target) (n : Nat × Nat) (sec : List Byte) : Nat ⊕ Landing :=
  if kindOf h = 0 ∨ kindOf h = 3 then landEager s h t n sec
  else if kindOf h = 2 then landRows s h t n sec
  else if kindOf h = 4 then landAnswers s h t n sec
  else .inr Landing.none

/-- Lands the sections of a message one after another, from the i-th on. -/
def landSections (land : XHead → Target → Nat × Nat → List Byte → Nat ⊕ Landing) (s : State) (h : XHead) (m : Msg)
    (ts : List Target) : Nat → List Target → List Landing → Nat ⊕ List Landing
  | _, [], acc => .inr acc
  | i, t :: r, acc =>
    let n := sectionCounts m i
    match land h t n (memRead m.body (sectOfs s h ts m i) (sectLen h (xplanOf s t.plan) n)) with
    | .inl f => .inl f
    | .inr a => landSections land s h m ts (i + 1) r (acc ++ [a])

/-- The length that a message's counts give (R204 check 6). -/
def givenLen (s : State) (h : XHead) (m : Msg) (ts : List Target) : Nat :=
  if m.bodyLen = 0 then 0 else sectOfs s h ts m ts.length

/-- Carries out a section's landing. -/
def applyLanding (a : Landing) (s : State) : State :=
  let s := writeAll a.writes s
  let s : State := { s with
    mem := a.present.foldl (fun m b => putBitsAt m (b.1 + b.2 / 8) (b.2 % 8) 1 1) s.mem
    exch := { s.exch with bids := match a.bids with
      | some (k, n) => tblPut s.exch.bids k n
      | none => s.exch.bids } }
  addStepCount ccStaleReturn a.stale s

/-- Writes zeros over every answer slot without an answer; each counts one ANSWER_FILL (R219). -/
def fillAnswers (l : Layer) (x : XPlan) (s : State) : State :=
  let empty := (List.range (x.tokenCount * recordRoom l)).filter fun k =>
    !bitOf (memGet s.mem (x.presence + k / 8)).toNat (k % 8)
  addStepCount ccAnswerFill empty.length
    { s with mem := empty.foldl (fun m k => memClear m (x.ansLand + k * ansPitch x) (ansPitch x)) s.mem }

/-- The arrival counter of a kind (R203). -/
def kindCounter (x : XPlan) (kind : Nat) : Nat :=
  if kind = 0 ∨ kind = 3 then x.fwdCtr else if kind = 1 then x.accCtr else if kind = 2 then x.rowCtr else x.ansCtr

/-- Tallies an ANSWERS message for a landing cluster; the last that its plan expects of the layer brings the fill
(R219). -/
def tallyAnswers (h : XHead) (t : Target) (s : State) : State :=
  let x := xplanOf s t.plan
  if kindOf h = 4 then
    let k := h.layer * 65536 + t.plan
    let n := tblGet s.exch.answers k + 1
    let s : State := { s with exch := { s.exch with answers := tblPut s.exch.answers k n } }
    if n = x.retSenders then fillAnswers (layerOf s h.layer) x s else s
  else s

/-- The counted landing of one landing cluster (R203). -/
def countTarget (h : XHead) (t : Target) (s : State) : State :=
  landCount t.cluster (kindCounter (xplanOf s t.plan) (kindOf h)) 1 h.step.toNat s

/-- The header that a message's key stands for. -/
def headOfKey (k : MsgKey) (len : Nat) : XHead where
  step := k.step
  imageId := 0
  digest := 0
  layer := k.layer
  kindRound := k.kind
  srcCluster := k.srcCluster
  mask := k.landMask
  bodyLen := len
  ofs := 0

/-- A message is done with: its bytes are dropped, and it is noted as landed. -/
def closeMsg (k : MsgKey) (s : State) : State :=
  { s with exch := { s.exch with
      msgs := s.exch.msgs.filter fun m => m.key != k, landed := k :: s.exch.landed } }

/-- XC_BYTES_IN of the landing clusters from the i-th on: each counts its section of the body (R511). -/
def countBodies (h : XHead) (m : Msg) : Nat → List Target → State → State
  | _, [], s => s
  | i, t :: r, s =>
    countBodies h m (i + 1) r
      (perfAdd t.cluster 0x0A (8 + sectLen h (xplanOf s t.plan) (sectionCounts m i)) s)

/-- Carries out the landings of a message's sections, or ends its step with the fault they met. -/
def applyLandings (h : XHead) (ls : Nat ⊕ List Landing) (s : State) : State :=
  match ls with
  | .inl cause => landingFault h.step cause s
  | .inr ls => ls.foldl (fun t a => applyLanding a t) s

/-- What the tables of the running step make of a whole message: the places of its rows and answers, and the fill. -/
def placeMessage (m : Msg) (s : State) : State :=
  let h := headOfKey m.key m.bodyLen
  match messageTargets? s m.key.src h with
  | none => landingFault h.step fcExchangeStray s
  | some ts =>
    ts.foldl (fun t x => tallyAnswers h x t) (applyLandings h (landSections (landPlaced s) s h m ts 0 ts []) s)

/-- A whole exchange message: check 6, the landing of its sections, and its counted landings. What depends on the tables
of a step that is not RUNNING yet is kept for its entry, so that no result depends on the time of arrival (R395). -/
def landExchange (m : Msg) (s : State) : State :=
  let h := headOfKey m.key m.bodyLen
  let s := closeMsg m.key s
  match messageTargets? s m.key.src h with
  | none => landingFault h.step fcExchangeStray s
  | some ts =>
    if givenLen s h m ts ≠ m.bodyLen then landingFault h.step fcExchangeStray s
    else
      let s := if m.bodyLen = 0 then s else countBodies h m 0 ts s
      let s := applyLandings h (landSections (landFixed s) s h m ts 0 ts []) s
      let s : State := if landRule s h.step.toNat = .tally then { s with exch := { s.exch with early := s.exch.early ++ [m] } }
        else placeMessage m s
      ts.foldl (fun t x => countTarget h x t) s

/-- A second message of a pair whose ANSWERS have landed: its rows meet the answers present (R219). The pair has been
counted (R203; log 72). -/
def landAgain (m : Msg) (s : State) : State :=
  let h := headOfKey m.key m.bodyLen
  let s := closeMsg m.key s
  match messageTargets? s m.key.src h with
  | none => s
  | some ts =>
    if givenLen s h m ts ≠ m.bodyLen ∨ landRule s h.step.toNat = .tally then s
    else applyLandings h (landSections (landAnswers s) s h m ts 0 ts []) s

/-- At RUNNING entry the step's early messages take the places that its tables give them. -/
def settleEarly (step : Word) (s : State) : State :=
  let mine := s.exch.early.filter fun m => m.key.step == step
  mine.foldl (fun t m => placeMessage m t)
    { s with exch := { s.exch with early := s.exch.early.filter fun m => m.key.step != step } }

/-! ## Refusals of LOAD_IMAGE (R214, R216, R218) -/

/-- Addresses of a plan lie in its own cluster store or in HBM, at multiples of 64 (R211). -/
def planRange (cl a n : Nat) : Bool :=
  a % 64 == 0 && ((regionOf a == .hbm && (hbmRange a n)) || inStore cl a n)

/-- The landing space that a plan reserves (R212, R219). -/
def landingSpace (x : XPlan) (l : Layer) : List (Nat × Nat) :=
  (if x.fwdSenders = 0 then [] else
    [(x.bidLand, x.fwdSenders * bidPitch x), (x.rowLand, x.slotCount * x.rowRoom * rowPitch x)]) ++
  (if x.destCount = 0 then [] else
    [(x.accLand, 16 * x.destCount * bitmapPitch x), (x.ansLand, x.tokenCount * recordRoom l * ansPitch x),
     (x.presence, ceilDiv (x.tokenCount * recordRoom l) 8)])

/-- Every address of a plan, with the bytes that its role uses. -/
def planSpaces (x : XPlan) (l : Layer) : List (Nat × Nat) :=
  landingSpace x l ++
  (if x.fwdSenders = 0 then [(x.srcTable, 0), (x.bidLand, 0), (x.rowLand, 0), (x.bitmapOut, 0)] else
    [(x.srcTable, 4 * x.fwdSenders), (x.bitmapOut, x.fwdSenders * outPitch x)]) ++
  (if x.destCount = 0 then [(x.destTable, 0), (x.listAddr, 0), (x.selAddr, 0), (x.accLand, 0), (x.ansLand, 0), (x.presence, 0)]
   else [(x.destTable, 4 * x.destCount), (x.listAddr, x.destCount * listPitch x),
     (x.selAddr, x.tokenCount * recordBytes l)])

/-- A list is strictly ascending. -/
def ascending : List Nat → Bool
  | [] => true
  | [_] => true
  | a :: b :: r => decide (a < b) && ascending (b :: r)

/-- LOAD_IMAGE accepts a plan that a task of a cluster names for a layer (R211, R214). `mem` holds the image's load
ranges. -/
def planOk (mem aux : Mem) (l : Layer) (cl p : Nat) : Bool :=
  let x := xplanAt aux p
  let o := 1024 + 128 * p
  let ids := (List.range x.destCount).map fun i => memLe mem (x.destTable + 4 * i) 4
  (memLe aux o 4 / 2 ^ 17 % 2 ^ 13 == 0 && (x.parity != 3 && decide (x.destCount ≤ 65536))) &&
  ((planSpaces x l).all fun r => planRange cl r.1 r.2) &&
  ((x.destCount == 0 || regionOf x.destTable == .hbm) &&
  (decide (x.accCtr ≤ 4095) && (decide (x.ansCtr ≤ 4095) && (decide (x.fwdCtr ≤ 4095) && decide (x.rowCtr ≤ 4095))))) &&
  ((x.destCount == 0 || (decide (1 ≤ x.slotsPerCluster) && decide (x.slotsPerCluster ≤ 4096))) &&
  ([x.rowBytes, x.ansBytes].all fun n => decide (64 ≤ n) && (decide (n ≤ 16384) && n % 64 == 0))) &&
  ((x.fwdSenders == 0 || (if l.negotiated then decide (l.capacity ≤ x.rowRoom) else x.rowRoom % x.fwdSenders == 0)) &&
  (ascending ids && (ids.all (fun i => decide (i < 2 ^ 20)) &&
   ((List.range x.fwdSenders).all fun k => decide (memLe mem (x.srcTable + 4 * k) 4 < 2 ^ 24)))))

/-- Two parities intersect (R214). -/
def parityMeets (a b : Nat) : Bool := a == 0 || (b == 0 || a == b)

/-- LOAD_IMAGE accepts an exchange XC body of a cell, its plan apart. -/
def xcCheck (im : Image) (r : Mem) (plans cell : Nat) (d : Desc) : Bool :=
  let f := xcOf d
  let l := layerAt r f.layer
  let op := bodyOp d
  decide (op ≤ 4) && (bodyBits d 16 15 0 == 0 && (decide (f.layer < im.layers) && (decide (f.plan < plans) &&
  (decide (f.round ≤ l.spillRounds) && ((decide (op ≤ 1) || f.round == 0) &&
  ((op != 2 || l.negotiated) && ((op != 3 || !l.negotiated) &&
  ((if op = 1 ∨ op = 4 then decide (f.slotFirst + f.slotCount ≤ im.expertSlots) && bodyBits d 20 2 0 == 0
    else decide (f.first + f.count ≤ im.stepTokens)) &&
  ((op == 4 || f.work == 0) && ((decide (2 ≤ op) || f.data == 0) && (f.stride % 64 == 0 &&
  (bodyField d 26 2 == 0 && (bodyField d 48 16 == 0 &&
  decide (cell < 512))))))))))))))

/-- A static range lies within one region that tasks may reach, and outside the firmware reserve (R246, R453). -/
def staticOk (a n : Nat) : Bool :=
  inOneRegion a n && match regionOf a with
    | .hbm => hbmRange a n
    | .store _ => true
    | .scratch _ => true
    | .host => true
    | .window => false
    | .unmapped => false

/-- The static ranges of an exchange XC body stay in their regions (R246). -/
def xcSpansOk (aux r : Mem) (d : Desc) : Bool :=
  let f := xcOf d
  let l := layerAt r f.layer
  let x := xplanAt aux f.plan
  if bodyOp d = 2 ∨ bodyOp d = 3 then staticOk f.data ((f.count - 1) * f.stride + x.rowBytes)
  else if bodyOp d = 4 then
    staticOk f.work (f.slotCount * workBytes l) &&
      staticOk f.data ((f.slotCount * x.rowRoom - 1) * f.stride + x.ansBytes)
  else true

end Sys2Proof.Machine
end

