-- ==== Sys2Proof/Machine/Collectives.lean ====
section
/-! DEFINITION. Collectives over ESF-128 (R383 to R387), and the landing of a whole message (R203, R386). -/

namespace Sys2Proof.Machine

/-- A collective plan (R383). -/
structure CPlan where
  members : Nat
  rank : Nat
  table : Nat
  count : Nat
  window : Nat
  src : Nat
  dst : Nat
  land : Nat
  ctr : Nat
  deriving DecidableEq, Repr

/-- Collective plan d of an AUX_DESC section. -/
def cplanAt (m : Mem) (d : Nat) : CPlan :=
  let b := memRead m (1024 + 128 * d) 128
  { members := fieldOf b 0 4, rank := fieldOf b 4 4, table := fieldOf b 8 8, count := fieldOf b 16 4
    window := fieldOf b 20 1, src := fieldOf b 24 8, dst := fieldOf b 32 8, land := fieldOf b 40 8, ctr := fieldOf b 48 2 }

/-- A collective plan of the bound image. -/
def cplanOf (s : State) (d : Nat) : CPlan := cplanAt s.job.plans d

/-- PLAN of a collective XC body. -/
def collPlan (d : Desc) : Nat := bodyField d 24 2

/-- The first element of chunk j (R385). -/
def chunkStart (c : CPlan) (j : Nat) : Nat := j * c.count / c.members

/-- The bytes of chunk j. -/
def chunkLen (c : CPlan) (j : Nat) : Nat := 16 * (chunkStart c (j + 1) - chunkStart c j)

/-- CP of R385. -/
def chunkPitch (c : CPlan) : Nat := roundUp (16 * ceilDiv c.count c.members) 64

/-- The landing slot of rank q at a receiver of the plan's rank. -/
def chunkSlot (c : CPlan) (q : Nat) : Nat := if q < c.rank then q else q - 1

/-- The logical id of rank q. -/
def memberId (s : State) (c : CPlan) (q : Nat) : Nat := memLe s.mem (c.table + 4 * q) 4 % 2 ^ 20

/-- The collective header of a packet (R386). -/
def collHeader (s : State) (plan phase : Nat) (c : CPlan) (len ofs : Nat) : List Byte :=
  natLe 4 (runStep s) ++ natLe 4 ((s.job.image.map fun im => im.imageId.toNat).getD 0) ++ natLe 2 plan ++
    natLe 1 phase ++ natLe 1 c.window ++ natLe 2 c.rank ++ natLe 2 0 ++ natLe 4 len ++ natLe 4 ofs ++ natLe 8 0

/-- Sends to every other rank, in ascending rank, the message that a function of the rank gives. -/
def sendRanks (cell : Nat) (d : Desc) (phase : Nat) (c : CPlan) (body : Nat → List Byte) (s : State) : State :=
  ((List.range c.members).filter fun q => q != c.rank).foldl (fun t q =>
    sendMessage cell d.index 0x02 (memberId s c q) (collHeader s (collPlan d) phase c (body q).length) (body q) t) s

/-- The scatter of a collective (R385 step 1). The sum is still to be made: part 0 of the task. -/
def collScatter (cell : Nat) (d : Desc) (s : State) : TaskEnd × State :=
  let c := cplanOf s (collPlan d)
  let s := sendRanks cell d 0 c (fun q => getBytes s (c.src + 16 * chunkStart c q) (chunkLen c q)) s
  (.waits, mapFlight cell d.index (fun t => { t with parts := [0] }) s)

/-- What a scatter reads: the plan's member table, and the chunks of the other ranks. -/
def scatterReads (_cell : Nat) (d : Desc) (s : State) (a n : Nat) : Bool :=
  let c := cplanOf s (collPlan d)
  spanHit ((c.table, 4 * c.members) :: ((List.range c.members).filter fun q => q != c.rank).map fun q =>
    (c.src + 16 * chunkStart c q, chunkLen c q)) a n

/-- ALL_REDUCE. -/
def execAllReduce (cell : Nat) (h : Health) (s : State) : Host.Outcome State Fault Refusal :=
  .next (issueTask 5 (fun d => bodyOp d == 8) scatterReads collScatter cell h s)

/-- REDUCE_SCATTER. -/
def execReduceScatter (cell : Nat) (h : Health) (s : State) : Host.Outcome State Fault Refusal :=
  .next (issueTask 5 (fun d => bodyOp d == 9) scatterReads collScatter cell h s)

/-- Element i of the own chunk's sum: the local element and those of every landed slot, modulo 2^128 (R89, R385). -/
def collSumAt (s : State) (c : CPlan) (i : Nat) : Nat :=
  (List.range (c.members - 1)).foldl (fun a k => esfAdd a (memLe s.mem (c.land + k * chunkPitch c + 16 * i) 16))
    (memLe s.mem (c.src + 16 * (chunkStart c c.rank + i)) 16)

/-- The bytes of the own chunk's sums. -/
def collSums (s : State) (c : CPlan) : List Byte :=
  (List.range (chunkLen c c.rank / 16)).flatMap fun i => natLe 16 (collSumAt s c i)

/-- Makes the sum and, for ALL_REDUCE, gathers it (R385 steps 3 and 4). -/
def collSum (cell : Nat) (d : Desc) (s : State) : State :=
  let c := cplanOf s (collPlan d)
  let sums := collSums s c
  if bodyOp d = 8 then
    let s := putBytes (c.dst + 16 * chunkStart c c.rank) sums s
    mapFlight cell d.index (fun t => { t with parts := [1] }) (sendRanks cell d 1 c (fun _ => sums) s)
  else mapFlight cell d.index (fun t => { t with parts := [] }) (putBytes c.dst sums s)

/-- What the sum reads: the own chunk and every landed one. -/
def sumReads (c : CPlan) (a n : Nat) : Bool :=
  spanHit ((c.src + 16 * chunkStart c c.rank, chunkLen c c.rank) ::
    (List.range (c.members - 1)).map fun k => (c.land + k * chunkPitch c, chunkLen c c.rank)) a n

/-- COLLECTIVE_SUM: COLL_CTR has reached MEMBERS − 1. -/
def collectiveSumEffect (cell index : Nat) (h : Health) (s : State) : State :=
  match flight? s cell index with
  | none => s
  | some f =>
    let c := cplanOf s (collPlan f.desc)
    if stepActive s ∧ dClass f.desc = 5 ∧ 8 ≤ bodyOp f.desc ∧ f.parts = [0] ∧
        c.members - 1 ≤ arrGet s (clusterOf cell) c.ctr then
      let g := taskReads 5 cell h (sumReads c) s
      if g.1 then collSum cell f.desc g.2 else g.2
    else s

/-- COLLECTIVE_SUM. -/
def execCollectiveSum (cell : Nat) (index : Nat) (h : Health) (s : State) : Host.Outcome State Fault Refusal :=
  .next (collectiveSumEffect cell index h s)

/-- The second wait of an ALL_REDUCE is met: every other rank's sums have landed. -/
def gatherDone (s : State) (cell : Nat) (d : Desc) : Bool :=
  let c := cplanOf s (collPlan d)
  decide (c.members - 1 ≤ arrGet s (clusterOf cell) (c.ctr + 1))

/-! ## Receiving (R386) -/

/-- A collective task of a cell's list names the plan. -/
def namesCollective (im : Image) (p sched cell : Nat) : Bool :=
  (List.range (listCount im sched cell)).any fun i =>
    let d := listDesc im sched cell i
    dClass d == 5 && (decide (8 ≤ bodyOp d) && collPlan d == p)

/-- The cluster whose tasks name a collective plan; none if it is no collective plan. -/
def collCluster? (s : State) (p : Nat) : Option Nat :=
  match s.job.image with
  | none => none
  | some im => (List.range 16).find? fun cl => (List.range im.schedules).any fun k => (List.range 32).any fun c =>
      namesCollective im p k (32 * cl + c)

/-- A collective header as it arrives. -/
structure CHead where
  step : Word
  imageId : Word
  plan : Nat
  phase : Nat
  window : Nat
  rank : Nat
  bodyLen : Nat
  ofs : Nat
  deriving DecidableEq, Repr

/-- Reads a collective header. -/
def cheadOf (b : List Byte) : CHead where
  step := BitVec.ofNat 32 (fieldOf b 0 4)
  imageId := BitVec.ofNat 32 (fieldOf b 4 4)
  plan := fieldOf b 8 2
  phase := fieldOf b 10 1
  window := fieldOf b 11 1
  rank := fieldOf b 12 2
  bodyLen := fieldOf b 16 4
  ofs := fieldOf b 20 4

/-- Check 3: the plan is a collective plan of this device, and the sender is the member it says. -/
def collSenderOk (s : State) (src : Nat) (h : CHead) : Bool :=
  let c := cplanOf s h.plan
  (collCluster? s h.plan).isSome && (decide (h.rank < c.members) && (h.rank != c.rank &&
    (memberId s c h.rank == src && decide (h.phase ≤ 1))))

/-- Where the body of a collective message lands. -/
def collPlace (c : CPlan) (h : CHead) : Nat :=
  if h.phase = 0 then c.land + chunkSlot c h.rank * chunkPitch c else c.dst + 16 * chunkStart c h.rank

/-- The key of a collective message. -/
def collKey (src : Nat) (h : CHead) : MsgKey where
  src := src
  collective := true
  step := h.step
  layer := h.plan
  kind := h.phase
  srcCluster := h.rank
  landMask := 0

/-- A collective packet that is no duplicate: the checks of R386, its bytes by OFFSET, and its acknowledgement. -/
def placeCollective (p : Packet) (s : State) : State :=
  let h := cheadOf p.payload
  let data := p.payload.drop 32
  let c := cplanOf s h.plan
  if p.payload.length < 32 then landingFault h.step fcExchangeStray s
  else if stepSkewed s h.step then landingFault h.step fcStepSkew s
  else if !imageMatches s h.imageId then landingFault h.step fcImageSkew s
  else if !collSenderOk s (srcOf p) h then landingFault h.step fcExchangeStray s
  else if h.bodyLen < h.ofs + data.length ∨ chunkPitch c < h.bodyLen then landingFault h.step fcLandingRoom s
  else if h.window ≠ c.window then landingFault h.step fcEsfWindow s
  else
    let m := msgOf s (collKey (srcOf p) h) h.bodyLen
    let m2 : Msg := { m with got := (h.ofs, data.length) :: m.got }
    progress (ackLanded p (addSeen p (putMsg m2 (noteEntryStep h.step
      (putBytes (collPlace c h + h.ofs) data s)))))

/-- COLLECTIVE. -/
def execCollective (from? : Option Nat) (p : Packet) (s : State) : Host.Outcome State Fault Refusal :=
  .next (receive 0x02 false from? p (bulkArrival placeCollective p) s)

/-- A whole collective message: one counted landing of its phase's counter. -/
def landCollective (m : Msg) (s : State) : State :=
  let s := closeMsg m.key s
  match collCluster? s m.key.layer with
  | none => s
  | some cl =>
    landCount cl ((cplanOf s m.key.layer).ctr + m.key.kind) 1 m.key.step.toNat (perfAdd cl 0x0A m.bodyLen s)

/-- MESSAGE_LANDED: every body byte of a message has landed (R203, R386). A pair counts once, and only the rows of a
second ANSWERS message are looked at again. -/
def messageLandedEffect (k : MsgKey) (s : State) : State :=
  match s.exch.msgs.find? fun m => m.key == k with
  | none => s
  | some m =>
    if hasBytes m m.bodyLen then
      if s.exch.landed.contains k then
        if k.collective = false ∧ k.kind / 16 = 4 then landAgain m s else closeMsg k s
      else if k.collective then landCollective m s
      else landExchange m s
    else s

/-- MESSAGE_LANDED. -/
def execMessageLanded (m : MsgKey) (s : State) : Host.Outcome State Fault Refusal := .next (messageLandedEffect m s)

/-! ## Refusals of LOAD_IMAGE (R383, R384) -/

/-- LOAD_IMAGE accepts a collective XC body of a cell and its plan. -/
def collCheck (mem aux : Mem) (plans cell : Nat) (d : Desc) : Bool :=
  let p := collPlan d
  let c := cplanAt aux p
  let cl := clusterOf cell
  let b := memRead aux (1024 + 128 * p) 128
  let outLen := if bodyOp d = 8 then 16 * c.count else chunkLen c c.rank
  let regions := [(c.table, 4 * c.members), (c.src, 16 * c.count), (c.dst, outLen),
    (c.land, (c.members - 1) * chunkPitch c)]
  (bodyOp d == 8 || bodyOp d == 9) && (bodyBits d 16 27 0 == 0 && (bodyField d 20 4 == 0 && (bodyField d 26 2 == 0 &&
  (allZero (d.body.drop 12) && (decide (p < plans) &&
  (decide (2 ≤ c.members) && (decide (c.members ≤ 65536) && (decide (c.rank < c.members) &&
  (decide (1 ≤ c.count) && (decide (c.count ≤ 16777216) && (decide (c.ctr ≤ 4094) &&
  (fieldOf b 21 3 == 0 && (allZero (b.drop 50) &&
  ((regions.all fun r => planRange cl r.1 r.2) && (regionOf c.table == .hbm &&
  (((List.range 4).all fun i => (List.range 4).all fun j => i == j ||
      !(overlaps (regions.getD i (0, 0)).1 (regions.getD i (0, 0)).2 (regions.getD j (0, 0)).1 (regions.getD j (0, 0)).2)) &&
   ((List.range c.members).all fun q => decide (memLe mem (c.table + 4 * q) 4 < 2 ^ 20))))))))))))))))))

end Sys2Proof.Machine
end

