-- ==== Sys2Proof/Machine/Matrix.lean ====
section
/-! DEFINITION. The matrix unit: skewed layouts (R97 to R99), the MX task with its k-steps, 2:4 weights and zero maps
(R95, R102 to R112, R119, R120, R127 to R133), and the checks of R107 and R134. -/

namespace Sys2Proof.Machine

/-! ## Skewed layouts (R97 to R99) -/

/-- A plane's bank group, its first row and its unit in bits. -/
structure Plane where
  bank : Nat
  banks : Nat
  row : Nat
  unit : Nat
  deriving DecidableEq, Repr

/-- W_A of a pattern for S-shapes. -/
def skewWA (p : Nat) : Nat :=
  if p = 0 then 32 else if p = 1 then 16 else if p = 2 then 8 else if p = 3 then 4 else if p = 4 then 2 else 1

/-- W_B of a pattern. -/
def skewWB (p : Nat) : Nat := 32 * 2 ^ p

/-- The plane of A values of a pattern. -/
def planeA (p row unit : Nat) : Plane := ⟨0, if p ≤ 1 then 8 else 4, row, unit⟩
/-- The plane of A scales. -/
def planeAS (p row : Nat) : Plane := ⟨if p ≤ 1 then 16 else 4, 1, row, 8⟩
/-- The plane of B values. -/
def planeB (p row unit : Nat) : Plane := ⟨8, if p ≤ 1 then 8 else 16, row, unit⟩
/-- The plane of B scales. -/
def planeBS (p row : Nat) : Plane := ⟨if p ≤ 1 then 17 else 5, 1, row, 8⟩
/-- The plane of B masks. -/
def planeBM (p row : Nat) : Plane := ⟨if p ≤ 1 then 18 else 24, if p ≤ 1 then 2 else 8, row, 64⟩

/-- The scratchpad offset of the byte that holds bit position t of a plane (R99). -/
def planeOfs (g : Plane) (t : Nat) : Nat :=
  let j := t / 512
  (g.row + j / g.banks) * 2048 + (g.bank + j % g.banks) * 64 + t % 512 / 8

/-- Bits of a unit at position t that lie in the chunk of its first bit. -/
def chunkBits (g : Plane) (t : Nat) : Nat := min g.unit (512 - t % 512)

/-- Reads the unit at bit position t. -/
def planeGet (m : Mem) (base : Nat) (g : Plane) (t : Nat) : Nat :=
  let n := chunkBits g t
  bitsAt m (base + planeOfs g t) (t % 8) n +
    (if n < g.unit then 2 ^ n * bitsAt m (base + planeOfs g (t + n)) 0 (g.unit - n) else 0)

/-- Writes the unit at bit position t. -/
def planePut (base : Nat) (g : Plane) (t v : Nat) (m : Mem) : Mem :=
  let n := chunkBits g t
  let m := putBitsAt m (base + planeOfs g t) (t % 8) n (v % 2 ^ n)
  if n < g.unit then putBitsAt m (base + planeOfs g (t + n)) 0 (g.unit - n) (v / 2 ^ n) else m

/-- The block offset L of a B-kind plane with a K extent. -/
def blockBits (g : Plane) (w extent : Nat) : Nat := roundUp (extent * w * g.unit) 512

/-- The bit position of unit (n, k) of a B-kind plane, or of unit (i, k) of an A-kind plane, whose n is below its W. -/
def unitPos (g : Plane) (w extent n k : Nat) : Nat := n / w * blockBits g w extent + (k * w + n % w) * g.unit

/-- The plane's blocks with a K extent end by row 1,023. -/
def planeEnds (g : Plane) (w extent blocks : Nat) : Bool :=
  let bits := (blocks - 1) * blockBits g w extent + extent * w * g.unit
  decide (g.row + ceilDiv (ceilDiv bits 512) g.banks ≤ 1024)

/-! ## The MX body (R102 to R106) -/

/-- A decoded MX body. -/
structure Mx where
  shape : Nat
  aCode : Nat
  bCode : Nat
  tile : Nat
  blocks : Nat
  acc : Bool
  sparse : Bool
  zskip : Bool
  drain : Bool
  rnd : Nat
  outCode : Nat
  mValid : Nat
  nValid : Nat
  k : Nat
  aRow : Nat
  bRow : Nat
  aScaleRow : Nat
  bScaleRow : Nat
  bMaskRow : Nat
  zmap : Nat
  drainAddr : Nat
  drainStride : Nat
  seed : Nat
  tensor : Nat
  deriving DecidableEq, Repr

/-- Reads an MX body. -/
def mxOf (d : Desc) : Mx where
  shape := bodyBits d 16 31 28
  aCode := bodyBits d 16 27 24
  bCode := bodyBits d 16 23 20
  tile := bodyBits d 16 19 17
  blocks := bodyBits d 16 16 14 + 1
  acc := bitOf (bodyField d 16 4) 13
  sparse := bitOf (bodyField d 16 4) 12
  zskip := bitOf (bodyField d 16 4) 11
  drain := bitOf (bodyField d 16 4) 10
  rnd := bodyBits d 16 8 7
  outCode := bodyBits d 16 6 3
  mValid := bodyBits d 20 31 26 + 1
  nValid := bodyBits d 20 25 16 + 1
  k := bodyBits d 20 15 0 + 1
  aRow := bodyBits d 24 31 22
  bRow := bodyBits d 24 21 12
  aScaleRow := bodyBits d 24 9 0
  bScaleRow := bodyBits d 28 31 22
  bMaskRow := bodyBits d 28 21 12
  zmap := bodyBits d 32 20 0
  drainAddr := bodyField d 36 8
  drainStride := bodyField d 44 4
  seed := bodyField d 48 8
  tensor := bodyField d 56 4

/-- SHAPE Q16. -/
def isQ16 (x : Mx) : Bool := x.shape == 6
/-- The skew pattern of the shape (R97). -/
def mxPattern (x : Mx) : Nat := if x.shape = 6 then 1 else x.shape
/-- W_A of the operand. -/
def mxWA (x : Mx) : Nat := if x.shape = 6 then 64 else skewWA x.shape
/-- W_B of the operand. -/
def mxWB (x : Mx) : Nat := skewWB (mxPattern x)
/-- Rows of the shape that M_VALID counts. -/
def mxRows (x : Mx) : Nat := if x.shape = 6 then 16 else skewWA x.shape
/-- Columns of the shape that N_VALID counts. -/
def mxCols (x : Mx) : Nat := if x.shape = 6 then 16 else mxWB x
/-- The format of A. -/
def mxA (x : Mx) : EFmt := (mxFmt? x.aCode).getD .int8
/-- The format of B. -/
def mxB (x : Mx) : EFmt := (mxFmt? x.bCode).getD .int8
/-- The pair is of integer formats. -/
def mxInt (x : Mx) : Bool := isIntFmt (mxA x)

/-- Stored values of B along K (R105). -/
def mxStored (x : Mx) : Nat := if x.sparse then 2 * ceilDiv x.k 4 else x.k

/-- Where tile position p takes its operands: the row of A and the column of B within a block (R96, R108). -/
def tileRowCol (x : Mx) (p : Nat) : Nat × Nat :=
  if isQ16 x then (16 * (p / 256) + p % 256 / 16, 16 * (p / 256) + p % 16) else (p / mxWB x, p % mxWB x)

/-! ## k-steps (R95, R119, R130) -/

/-- One performed k-step: the stored index of B, and the logical index, or the group's first index with the slot. -/
structure KStep where
  stored : Nat
  k : Nat
  slot : Nat
  deriving DecidableEq, Repr

/-- The zero map keeps index k. -/
def mapKeeps (s : State) (cell : Nat) (x : Mx) (k : Nat) : Bool := !x.zskip || zmapBit s.mem (scratchOf cell + x.zmap) k

/-- The indices whose k-steps are performed: logical indices, or groups with SPARSE_W. -/
def keptIndices (s : State) (cell : Nat) (x : Mx) : List Nat :=
  if x.sparse then
    (List.range (ceilDiv x.k 4)).filter fun g => (List.range 4).any fun i => mapKeeps s cell x (4 * g + i)
  else (List.range x.k).filter (mapKeeps s cell x)

/-- The performed k-steps in order. With ZSKIP the stored values hold only their slices (R133). Where the copy used another
map, or its GROUPED differs from SPARSE_W, R133 leaves the result unspecified; the k-steps then take the bytes that stand
at their places (DESIGN CHOICE, log 89). -/
def kSteps (s : State) (cell : Nat) (x : Mx) : List KStep :=
  let idx := keptIndices s cell x
  let pos (i j : Nat) : Nat := if x.zskip then i else j
  (idx.mapIdx fun i j =>
    if x.sparse then [⟨2 * pos i j, 4 * j, 0⟩, ⟨2 * pos i j + 1, 4 * j, 1⟩] else [⟨pos i j, j, 0⟩]).flatten

/-- The K extent of the stored values of B (R105, R133). -/
def storedExtent (x : Mx) (steps : List KStep) : Nat := if x.zskip then steps.length else mxStored x

/-- The group nibble of column n (R86). -/
def nibbleAt (s : State) (cell : Nat) (x : Mx) (n k : Nat) : Nat :=
  let g := planeBM (mxPattern x) x.bMaskRow
  planeGet s.mem (scratchOf cell) g (unitPos g (mxWB x) (ceilDiv x.k 32) n (k / 32)) / 2 ^ (4 * (k % 32 / 4)) % 16

/-- The logical index that a slot of a nibble names; none for an out-of-range position (R87). -/
def slotIndex? (x : Mx) (k slot nib : Nat) : Option Nat :=
  let p0 := nib % 4
  let p1 := nib / 4 % 4
  if slot = 0 then (if k + p0 < x.k then some (k + p0) else none)
  else if p0 < p1 ∧ k + p1 < x.k then some (k + p1) else none

/-- The logical index that a k-step takes for column n; none where it contributes nothing: an out-of-range position, or an
index that the zero map marks as zero in a group that is performed (R129). -/
def stepIndex? (s : State) (cell : Nat) (x : Mx) (n : Nat) (t : KStep) : Option Nat :=
  if x.sparse then (slotIndex? x t.k t.slot (nibbleAt s cell x n t.k)).filter (mapKeeps s cell x) else some t.k

/-- A(i, k), with its scale or shift. -/
def mxAValue (s : State) (cell : Nat) (x : Mx) (i k : Nat) : FVal :=
  let f := mxA x
  let p := mxPattern x
  let g := planeA p x.aRow (eBits f)
  let gs := planeAS p x.aScaleRow
  let sc := if hasScale f then planeGet s.mem (scratchOf cell) gs (unitPos gs (mxWA x) 0 i (k / 32)) else 0
  eValue f sc (planeGet s.mem (scratchOf cell) g (unitPos g (mxWA x) 0 i k))

/-- The stored value of B for column n, with its scale or shift: the bytes at the places of R99. For an operand written
with another pattern or geometry R100 leaves the result unspecified, and these bytes are its operand all the same (DESIGN
CHOICE, log 89). -/
def mxBValue (s : State) (cell : Nat) (x : Mx) (extent n : Nat) (t : KStep) : FVal :=
  let f := mxB x
  let p := mxPattern x
  let g := planeB p x.bRow (eBits f)
  let gs := planeBS p x.bScaleRow
  let sc := if hasScale f then
    planeGet s.mem (scratchOf cell) gs (unitPos gs (mxWB x) (ceilDiv x.k 32) n (t.k / 32)) else 0
  eValue f sc (planeGet s.mem (scratchOf cell) g (unitPos g (mxWB x) extent n t.stored))

/-- The accumulator element after a product: one RNE rounding to FP32 (R83), or a saturating INT32 sum with its count
(R79). With no earlier contents the product takes their place. -/
def accumulate (ints : Bool) (old : Option Nat) (v : FVal) : Nat × Nat :=
  if ints then
    let base : FVal := match old with
      | some c => fOfInt (signed 32 c)
      | none => fZero
    let r := fToRange .rtz (-(2 ^ 31)) (2 ^ 31 - 1) (fAdd base v)
    (unsigned 32 r.1, if r.2 then 1 else 0)
  else
    match old with
    | some c => (toF32 (fAdd (ofF32 c) v), 0)
    | none => (toF32 v, 0)

/-- One k-step on an element: a step that contributes nothing writes +0 over contents that OVERWRITE replaces. -/
def elementStep (s : State) (cell : Nat) (x : Mx) (extent i n : Nat) (a : Option Nat × Nat) (t : KStep) :
    Option Nat × Nat :=
  match stepIndex? s cell x n t with
  | none => (some (a.1.getD 0), a.2)
  | some k =>
    let r := accumulate (mxInt x) a.1 (fMul (mxAValue s cell x i k) (mxBValue s cell x extent n t))
    (some r.1, a.2 + r.2)

/-- The address of position p of tile x within the accumulator files (R108). -/
def tileAddr (cell tile p : Nat) : Nat := cell * 32768 + tile * 4096 + 4 * p

/-- The result of one element of block b: its code and its saturations. -/
def elementResult (s : State) (cell : Nat) (x : Mx) (steps : List KStep) (b p : Nat) : Nat × Nat :=
  let rc := tileRowCol x p
  let start : Option Nat := if x.acc then some (memLe s.tiles (tileAddr cell (x.tile + b) p) 4) else none
  let r := steps.foldl (elementStep s cell x (storedExtent x steps) rc.1 (b * mxWB x + rc.2)) (start, 0)
  (r.1.getD 0, r.2)

/-- Runs the k-steps of every block. -/
def mxProduct (cell : Nat) (x : Mx) (steps : List KStep) (s : State) : State × Nat :=
  (List.range x.blocks).foldl (fun a b => (List.range 1024).foldl (fun a p =>
    let r := elementResult s cell x steps b p
    ({ a.1 with tiles := memPutLe a.1.tiles (tileAddr cell (x.tile + b) p) 4 r.1 }, a.2 + r.2)) a) (s, 0)

/-- A group nibble holds an out-of-range position (R87). -/
def nibbleBad (x : Mx) (k nib : Nat) : Bool := (slotIndex? x k 0 nib).isNone || (slotIndex? x k 1 nib).isNone

/-- Nibbles with an out-of-range position that are read, for the valid columns of every block and each performed group
once (R127; DEDUCED, log 42: its two compressed k-steps read its nibble once). -/
def maskRange (s : State) (cell : Nat) (x : Mx) (steps : List KStep) : Nat :=
  if x.sparse then
    ((List.range x.blocks).map fun b =>
      (((List.range (mxWB x)).filter fun j => decide (j % mxCols x < x.nValid)).map fun j =>
        (steps.filter fun t => t.slot == 0 && nibbleBad x t.k (nibbleAt s cell x (b * mxWB x + j) t.k)).length).sum).sum
  else 0

/-! ## The drain (R109) -/

/-- The drained rows: their number as drained, and the tile position of their column 0. -/
def drainRows (x : Mx) : List (Nat × Nat) :=
  if isQ16 x then
    (List.range 4).flatMap fun v => (List.range x.mValid).map fun i => (16 * v + i, 256 * v + 16 * i)
  else (List.range x.mValid).map fun i => (i, i * mxWB x)

/-- The value of a tile element. -/
def tileValue (s : State) (cell : Nat) (x : Mx) (b p : Nat) : FVal :=
  let c := memLe s.tiles (tileAddr cell (x.tile + b) p) 4
  if mxInt x then fOfInt (signed 32 c) else ofF32 c

/-- The codes and counts of a drained row. -/
def drainRow (s : State) (cell : Nat) (x : Mx) (step : Nat) (out : EFmt) (row pos : Nat) : List (Nat × List Nat) :=
  (List.range (x.blocks * x.nValid)).map fun e =>
    eEncode out 0 (rndAt ⟨x.rnd, x.seed, x.tensor, step⟩ (row * (x.blocks * x.nValid) + e))
      (tileValue s cell x (e / x.nValid) (pos + e % x.nValid))

/-- Writes the drained rows; only their elements are converted and counted (DEDUCED, log 43). Rows are written in ascending
order, so where DRAIN_STRIDE lets two overlap the later one stands (DESIGN CHOICE, log 89). -/
def mxDrain (cell : Nat) (x : Mx) (s : State) : State :=
  let step := match s.ctl.run with
    | some r => r.g.step.toNat
    | none => 0
  let out := (mxFmt? x.outCode).getD (.flt .fp32)
  (drainRows x).foldl (fun t r =>
    let row := drainRow s cell x step out r.1 r.2
    addStepCodes (row.flatMap (·.2))
      (putBytes (x.drainAddr + r.1 * x.drainStride) (packBits (eBits out) (row.map (·.1))) t)) s

/-- MX: the k-steps, then the drain; the counts of R135 and of CL_PERF. All of it is done at issue. Where the Gong sounds
while the task is in flight, R112 leaves its tiles and its drain unspecified; they hold its complete result (DESIGN CHOICE,
log 89). -/
def mxWork (cell : Nat) (d : Desc) (s : State) : TaskEnd × State :=
  let x := mxOf d
  let steps := kSteps s cell x
  let skipped := x.blocks * (mxStored x - steps.length)
  let r := mxProduct cell x steps s
  let t := addStepCount ccIntSaturate r.2 r.1
  let t := addStepCount ccMaskRange (maskRange s cell x steps) (addStepCount ccZskipSteps skipped t)
  let t := perfAdd (clusterOf cell) 0x02 (x.blocks * steps.length) (perfAdd (clusterOf cell) 0x03 skipped t)
  (.finished, if x.drain then mxDrain cell x t else t)

/-- The bit of a plane's block sequence at an engine address of the cell's scratchpad (R99). -/
def planeBit (cell : Nat) (g : Plane) (a : Nat) : Nat :=
  let o := a - scratchOf cell
  ((o / 2048 - g.row) * g.banks + (o % 2048 / 64 - g.bank)) * 512 + 8 * (o % 64)

/-- The first n bits of the byte at an engine address belong to a plane in the cell's scratchpad of `blocks`
blocks of l bits, of which the first `used` bits of each hold units (R99). -/
def byteInPlane (cell : Nat) (g : Plane) (blocks l used n a : Nat) : Bool :=
  let o := a - scratchOf cell
  let bank := o % 2048 / 64
  let bit := planeBit cell g a
  inOwnScratch cell a 1 && (decide (g.row ≤ o / 2048) && (decide (g.bank ≤ bank) && (decide (bank < g.bank + g.banks) &&
    (decide (bit < blocks * l) && decide (bit % l + n ≤ used)))))

/-- A slice of the plane that is taken, of those whose indices along K are listed, holds a byte of the range. -/
def planeReads (cell : Nat) (g : Plane) (w extent blocks : Nat) (ks : List Nat) (a n : Nat) : Bool :=
  let l := blockBits g w extent
  (List.range n).any fun i =>
    byteInPlane cell g blocks l (extent * w * g.unit) 1 (a + i) &&
      ks.any fun k => overlaps (k * w * g.unit) (w * g.unit) (planeBit cell g (a + i) % l) 8

/-- The bytes that an MX task takes: the slices of A, of B and of their scales that its k-steps need, the nibbles and the zero
map (R95, R119, R130). -/
def mxReads (cell : Nat) (d : Desc) (s : State) (a n : Nat) : Bool :=
  let x := mxOf d
  let p := mxPattern x
  let steps := kSteps s cell x
  let ks := steps.flatMap fun t => if x.sparse then [t.k, t.k + 1, t.k + 2, t.k + 3] else [t.k]
  let bs := ks.map (· / 32)
  let nb := ceilDiv x.k 32
  planeReads cell (planeA p x.aRow (eBits (mxA x))) (mxWA x) x.k 1 ks a n ||
    (planeReads cell (planeB p x.bRow (eBits (mxB x))) (mxWB x) (storedExtent x steps) x.blocks (steps.map (·.stored)) a n ||
    ((hasScale (mxA x) && planeReads cell (planeAS p x.aScaleRow) (mxWA x) nb 1 bs a n) ||
    ((hasScale (mxB x) && planeReads cell (planeBS p x.bScaleRow) (mxWB x) nb x.blocks bs a n) ||
    ((x.sparse && planeReads cell (planeBM p x.bMaskRow) (mxWB x) nb x.blocks bs a n) ||
      (x.zskip && overlaps (scratchOf cell + x.zmap) (8 + ceilDiv x.k 8) a n)))))

/-- MX. -/
def execMx (cell : Nat) (h : Health) (s : State) : Host.Outcome State Fault Refusal :=
  .next (issueTask 1 (fun _ => true) mxReads mxWork cell h s)

/-! ## Checks of LOAD_IMAGE (R107, R134) -/

/-- An operand format of MX. -/
def mxOperand (c : Nat) : Bool := decide (c ≤ 10)

/-- A zero map's place (R134). -/
def zmapOk (o : Nat) : Bool := o % 64 == 0 && decide (o + 8200 ≤ 2097152)

/-- The drain's rules. -/
def drainOk (cell : Nat) (x : Mx) : Bool :=
  let outs := if mxInt x then [12, 9] else [11, 7, 8, 0, 1]
  let width := eBits ((mxFmt? x.outCode).getD (.flt .fp32))
  let len := (if isQ16 x then 47 + x.mValid else x.mValid - 1) * x.drainStride + ceilDiv (x.blocks * x.nValid * width) 8
  outs.contains x.outCode && (x.rnd != 3 && (x.drainAddr % 64 == 0 && (x.drainStride % 64 == 0 &&
    (inOwnScratch cell x.drainAddr len || inStore (clusterOf cell) x.drainAddr len))))

/-- LOAD_IMAGE accepts an MX body. R107 lists no reserved field, so none is checked (R8; log 55). -/
def mxCheck (cell : Nat) (d : Desc) : Bool :=
  let x := mxOf d
  let p := mxPattern x
  let nb := ceilDiv x.k 32
  mxOperand x.aCode && (mxOperand x.bCode && (isIntFmt (mxA x) == isIntFmt (mxB x) && (decide (x.shape ≤ 6) &&
  (decide (x.tile + x.blocks ≤ 8) && (decide (x.mValid ≤ mxRows x) && (decide (x.nValid ≤ mxCols x) &&
  (planeEnds (planeA p x.aRow (eBits (mxA x))) (mxWA x) x.k 1 &&
  ((!hasScale (mxA x) || planeEnds (planeAS p x.aScaleRow) (mxWA x) nb 1) &&
  (planeEnds (planeB p x.bRow (eBits (mxB x))) (mxWB x) (mxStored x) x.blocks &&
  ((!hasScale (mxB x) || planeEnds (planeBS p x.bScaleRow) (mxWB x) nb x.blocks) &&
  ((!x.sparse || planeEnds (planeBM p x.bMaskRow) (mxWB x) nb x.blocks) &&
  ((!x.drain || drainOk cell x) &&
  (!x.zskip || (x.shape != 6 && zmapOk x.zmap))))))))))))))

end Sys2Proof.Machine
end

