-- ==== Sys2Proof/Machine/Copy.lean ====
section
/-! DEFINITION. The copy port: the CP task (R113 to R117, R132) and its checks (R116, R134). -/

namespace Sys2Proof.Machine

/-- A decoded CP body. -/
structure Cp where
  src : Nat
  dst : Nat
  rows : Nat
  rowBytes : Nat
  srcStride : Nat
  dstStride : Nat
  zsel : Bool
  layout : Nat
  pattern : Nat
  elem : Nat
  conv : Nat
  srcFmt : Nat
  q16 : Bool
  scaleRow : Nat
  zmap : Nat
  deriving DecidableEq, Repr

/-- Reads a CP body (R113, R114). -/
def cpOf (d : Desc) : Cp where
  src := bodyField d 16 8
  dst := bodyField d 24 8
  rows := bodyBits d 32 31 16 + 1
  rowBytes := bodyBits d 32 15 0 + 1
  srcStride := bodyField d 36 4
  dstStride := bodyField d 40 4
  zsel := bitOf (bodyField d 44 4) 31
  layout := bodyBits d 44 30 28
  pattern := bodyBits d 44 27 24
  elem := bodyBits d 44 23 20
  conv := bodyBits d 44 19 16
  srcFmt := bodyBits d 44 15 12
  q16 := bitOf (bodyField d 44 4) 11
  scaleRow := bodyBits d 48 31 22
  zmap := bodyBits d 48 20 0

/-- Unit bits of an ELEM code (R115). -/
def elemBits (c : Nat) : Nat :=
  if c = 0 then 4 else if c = 1 then 6 else if c = 2 then 8 else if c = 3 then 16 else if c = 4 then 32 else 64

/-- The task converts. -/
def cpConverts (x : Cp) : Bool := x.conv != 15

/-- Width of a source unit. -/
def srcBits (x : Cp) : Nat := if cpConverts x then eBits ((mxFmt? x.srcFmt).getD (.flt .bf16)) else elemBits x.elem

/-- Units in a source row. -/
def rowUnits (x : Cp) : Nat := x.rowBytes * 8 / srcBits x

/-- The layout is of A kind: one source row per row of A. -/
def cpIsA (x : Cp) : Bool := x.layout == 1 || x.layout == 2

/-- The slice width of the destination plane. -/
def cpW (x : Cp) : Nat := if cpIsA x then (if x.q16 then 64 else skewWA x.pattern) else skewWB x.pattern

/-- The first row of the destination group in a cell's scratchpad. -/
def cpRow (cell : Nat) (x : Cp) : Nat := (x.dst - scratchOf cell) / 2048

/-- The destination plane of a skewed layout. -/
def cpPlane (cell : Nat) (x : Cp) : Plane :=
  let u := elemBits x.elem
  let g := if x.layout = 1 then planeA x.pattern (cpRow cell x) u
    else if x.layout = 2 then planeAS x.pattern (cpRow cell x)
    else if x.layout = 3 then planeB x.pattern (cpRow cell x) u
    else if x.layout = 4 then planeBS x.pattern (cpRow cell x) else planeBM x.pattern (cpRow cell x)
  { g with unit := u }

/-- Source rows that the task reads (R132). -/
def selectedRows (s : State) (cell : Nat) (x : Cp) : List Nat :=
  let a := scratchOf cell + x.zmap
  if !x.zsel then List.range x.rows
  else if bitOf (memLe s.mem (a + 4) 4) 31 then
    (List.range x.rows).filter fun r => (List.range 4).any fun i => zmapBit s.mem a (4 * (r / 2) + i)
  else (List.range x.rows).filter (zmapBit s.mem a)

/-- The address of a source row. -/
def srcRowAddr (x : Cp) (r : Nat) : Nat := x.src + r * x.srcStride

/-- The address of a LINEAR destination row. -/
def dstRowAddr (x : Cp) (j : Nat) : Nat := x.dst + j * x.dstStride

/-- Blocks of a B-kind plane. -/
def cpBlocks (x : Cp) : Nat := if cpIsA x then 1 else ceilDiv (rowUnits x) (cpW x)

/-- The K extent of the destination plane for a number of copied rows. -/
def cpExtent (x : Cp) (rows : Nat) : Nat := if cpIsA x then rowUnits x else rows

/-- The places that a block of the plane gives units for a number of copied rows: an A kind takes W places for each unit of a
row, and rows beyond W_A, which R115 allows A_SCALES, go on past the last of them. -/
def cpPlaces (x : Cp) (rows : Nat) : Nat :=
  if cpIsA x then (rowUnits x - 1) * cpW x + max (cpW x) rows else rows * cpW x

/-- The first n bits of the byte at an engine address are ones that a skewed layout writes, a converted operand's scales
included. -/
def cpWrites (cell : Nat) (x : Cp) (rows n a : Nat) : Bool :=
  let g := cpPlane cell x
  let used := cpPlaces x rows * g.unit
  let scales := ceilDiv (rowUnits x) 32 * cpW x * 8
  byteInPlane cell g (cpBlocks x) (roundUp used 512) used n a ||
    (cpConverts x && decide (2 ≤ x.conv) &&
      byteInPlane cell (planeAS x.pattern x.scaleRow) 1 (roundUp scales 512) scales n a)

/-- The source byte that a skewed layout without conversion puts at an engine address, where its units are whole bytes. -/
def cpPutFrom? (cell : Nat) (x : Cp) (rows : List Nat) (a : Nat) : Option Nat :=
  let g := cpPlane cell x
  let bit := planeBit cell g a
  let l := roundUp (cpPlaces x rows.length * g.unit) 512
  let place := bit % l / g.unit
  let i := if cpIsA x then place % cpW x else place / cpW x
  let k := if cpIsA x then place / cpW x else bit / l * cpW x + place % cpW x
  if cpConverts x ∨ g.unit % 8 ≠ 0 ∨ rowUnits x ≤ k then none
  else rows[i]?.map fun r => srcRowAddr x r + (k * g.unit + bit % g.unit) / 8

/-- The task writes another byte over the one at an address, so that what it reads there depends on the order of its accesses,
which the manual does not give (log 44). -/
def cpOverwrites (cell : Nat) (x : Cp) (rows : List Nat) (a : Nat) : Bool :=
  if x.layout = 0 then
    rows.zipIdx.any fun r => srcRowAddr x r.1 != dstRowAddr x r.2 && overlaps (dstRowAddr x r.2) x.rowBytes a 1
  else cpWrites cell x rows.length 1 a && cpPutFrom? cell x rows a != some a

/-- Unit k of the i-th copied row shares its place with another unit: a row of A beyond W_A takes the place that a row W_A
lower gives its next unit. The manual does not state which stands (log 44). -/
def cpShares (x : Cp) (rows i k : Nat) : Bool :=
  cpIsA x && ((decide (cpW x ≤ i) && decide (k + 1 < rowUnits x)) || (decide (i + cpW x < rows) && decide (0 < k)))

/-- Some byte or unit that the task writes is one of those. -/
def cpSelfOverlap (cell : Nat) (x : Cp) (rows : List Nat) : Bool :=
  (rows.any fun r => (List.range x.rowBytes).any fun j => cpOverwrites cell x rows (srcRowAddr x r + j)) ||
    (cpIsA x && (decide (cpW x < rows.length) && decide (1 < rowUnits x)))

/-- The bytes of the selected source rows as the task takes them. One that it overwrites itself is a free function of its body
and of the bytes read, the same on every run (R5). -/
def cpSource (cell : Nat) (d : Desc) (x : Cp) (rows : List Nat) (s : State) : List (List Byte) :=
  let read := rows.map fun r => getBytes s (srcRowAddr x r) x.rowBytes
  if cpSelfOverlap cell x rows then
    (read.zip rows).mapIdx fun i b => b.1.mapIdx fun j v =>
      if cpOverwrites cell x rows (srcRowAddr x b.2 + j) then Config.overlapByte d.body read i j else v
  else read

/-- Writes LINEAR rows in ascending order: where DST_STRIDE lets two overlap, the later one stands (DESIGN CHOICE, log
89). -/
def putLinear (x : Cp) : Nat → List (List Byte) → State → State
  | _, [], s => s
  | j, b :: r, s => putLinear x (j + 1) r (putBytes (dstRowAddr x j) b s)

/-- Writes one unit of a plane in the cell's scratchpad. -/
def putUnit (cell : Nat) (g : Plane) (w extent n k v : Nat) (s : State) : State :=
  { s with mem := planePut (scratchOf cell) g (unitPos g w extent n k) v s.mem }

/-- Writes an A-kind plane from rows of unit codes; rows of A past the last hold zero (R99). -/
def putAPlane (cell : Nat) (g : Plane) (w units : Nat) (rows : List (List Nat)) (s : State) : State :=
  (List.range (max w rows.length)).foldl (fun t i => (List.range units).foldl (fun t k =>
    { t with mem := planePut (scratchOf cell) g ((k * w + i) * g.unit) ((rows.getD i []).getD k 0) t.mem }) t) s

/-- Writes a B-kind plane; columns past the last hold zero (R99). -/
def putBPlane (cell : Nat) (g : Plane) (w blocks : Nat) (rows : List (List Nat)) (s : State) : State :=
  (List.range rows.length).foldl (fun t k => (List.range (blocks * w)).foldl (fun t n =>
    putUnit cell g w rows.length n k ((rows.getD k []).getD n 0) t) t) s

/-- The unit codes of a row. -/
def rowCodes (x : Cp) (b : List Byte) : List Nat := (List.range (rowUnits x)).map (unpackBits (srcBits x) b)

/-- The unit codes of the rows as the task writes them: one that shares its place is free. -/
def cpCodes (d : Desc) (x : Cp) (read : List (List Byte)) : List (List Nat) :=
  read.mapIdx fun i b => (rowCodes x b).mapIdx fun k v =>
    if cpShares x read.length i k then
      leNat ((List.range 8).map fun n => Config.overlapByte d.body read i (65536 + 8 * k + n)) % 2 ^ srcBits x
    else v

/-- Converts a row of A, RNE: the element codes, the scales of its blocks, and the counts (R115). -/
def convertRow (x : Cp) (codes : List Nat) : List Nat × List Nat × List Nat :=
  let src := (mxFmt? x.srcFmt).getD (.flt .bf16)
  let vs := codes.map (eValue src 0)
  match mxFmt? x.conv with
  | some (.mx f) =>
    (List.range (ceilDiv vs.length 32)).foldl (fun a b =>
      let m := mxBlock f ⟨0, 0, 0, 0⟩ (((vs.drop (32 * b)).take 32).map fun v => (0, v))
      (a.1 ++ m.2.1, a.2.1 ++ [m.1], a.2.2 ++ m.2.2)) ([], [], [])
  | some f =>
    vs.foldl (fun a v => let c := eEncode f 0 .rne v; (a.1 ++ [c.1], a.2.1, a.2.2 ++ c.2)) ([], [], [])
  | none => (codes, [], [])

/-- Writes a converted A operand, with its scale plane for an MX format. -/
def putConverted (cell : Nat) (x : Cp) (rows : List (List Nat)) (s : State) : State :=
  let cs := rows.map (convertRow x)
  let s := addStepCodes (cs.flatMap fun c => c.2.2) (putAPlane cell (cpPlane cell x) (cpW x) (rowUnits x) (cs.map (·.1)) s)
  if 2 ≤ x.conv then
    putAPlane cell (planeAS x.pattern x.scaleRow) (cpW x) (ceilDiv (rowUnits x) 32) (cs.map fun c => c.2.1) s
  else s

/-- Every access of the task is one that R246 lets it carry out. -/
def cpAccessOk (s : State) (x : Cp) (rows : List Nat) : Bool :=
  rows.all (fun r => accessOk s (srcRowAddr x r) x.rowBytes) &&
    (x.layout != 0 || (List.range rows.length).all fun j => accessOk s (dstRowAddr x j) x.rowBytes)

/-- Bytes that the task writes, for CL_PERF. -/
def cpBytes (x : Cp) (rows : Nat) : Nat :=
  if x.layout = 0 then rows * x.rowBytes
  else cpBlocks x * cpPlaces x rows * elemBits x.elem / 8 +
    (if cpConverts x && decide (2 ≤ x.conv) then cpW x * ceilDiv (rowUnits x) 32 else 0)

/-- CP. -/
def cpWork (cell : Nat) (d : Desc) (s : State) : TaskEnd × State :=
  let x := cpOf d
  let rows := selectedRows s cell x
  if cpAccessOk s x rows then
    let r := cpSource cell d x rows s
    let t := addStepCount ccZselRows (x.rows - rows.length) (perfAdd (clusterOf cell) 0x06 (cpBytes x rows.length) s)
    (.finished,
      if x.layout = 0 then putLinear x 0 r t
      else healWhere (cpWrites cell x rows.length 8)
        (if cpConverts x then putConverted cell x (cpCodes d x r) t
        else if cpIsA x then putAPlane cell (cpPlane cell x) (cpW x) (rowUnits x) (cpCodes d x r) t
        else putBPlane cell (cpPlane cell x) (cpW x) (cpBlocks x) (cpCodes d x r) t))
  else (.finished, stepFault fcAddressRange s)

/-- The bytes that a CP task takes: its selected source rows, and with ZSEL the zero map (R113, R132). -/
def cpReads (cell : Nat) (d : Desc) (s : State) (a n : Nat) : Bool :=
  let x := cpOf d
  (selectedRows s cell x).any (fun r => overlaps (srcRowAddr x r) x.rowBytes a n) ||
    (x.zsel && overlaps (scratchOf cell + x.zmap) (8 + ceilDiv (2 * x.rows) 8) a n)

/-- CP. -/
def execCp (cell : Nat) (h : Health) (s : State) : Host.Outcome State Fault Refusal :=
  .next (issueTask 3 (fun _ => true) cpReads cpWork cell h s)

/-! ## Checks of LOAD_IMAGE (R8, R114 to R116, R134, R246) -/

/-- The range from an address lies in one place where CP may read or write: HBM, one store or one scratchpad. R116 speaks of
any store or scratchpad, and the regions of R244 hold them all; that a range ends with the single store or scratchpad is
taken from R249 and R335 (DEDUCED, log 100). -/
def inDevice (a n : Nat) : Bool := hbmRange a n || (inAnyStore a n || inAnyScratch a n)

/-- The ELEM code of a target format of conversion. -/
def convElem (c : Nat) : Nat := if c = 6 then 0 else if c = 4 ∨ c = 5 then 1 else 2

/-- The rules on codes and reserved fields. -/
def cpCodesOk (d : Desc) (x : Cp) : Bool :=
  decide (x.layout ≤ 5) && (decide (x.elem ≤ 5) && (decide (x.pattern ≤ 5) &&
  ((x.layout != 0 || (x.pattern == 0 && x.elem == 2)) &&
  ((x.layout == 0 || x.dstStride == 0) &&
  ((if cpConverts x then
      decide (x.conv ≤ 6) && (x.layout == 1 && (x.elem == convElem x.conv && [7, 8, 11].contains x.srcFmt))
    else x.srcFmt == 0) &&
  ((!x.q16 || (cpIsA x && x.pattern == 1)) &&
  (bodyBits d 44 10 0 == 0 && (bodyBits d 48 21 21 == 0 && allZero ((d.body.drop 36).take 12)))))))))

/-- The skewed layout ends within row 1,023 of its group (R116): every place that it gives a unit or a zero. -/
def cpEnds (cell : Nat) (x : Cp) : Bool :=
  let g := cpPlane cell x
  let used := cpPlaces x x.rows * g.unit
  let bits := (cpBlocks x - 1) * roundUp used 512 + used
  decide (g.row + ceilDiv (ceilDiv bits 512) g.banks ≤ 1024)

/-- LOAD_IMAGE accepts a CP body. -/
def cpCheck (cell : Nat) (d : Desc) : Bool :=
  let x := cpOf d
  let src := (x.rows - 1) * x.srcStride + x.rowBytes
  cpCodesOk d x && ((inDevice x.src src || inHost x.src src) &&
  ((if x.layout = 0 then inDevice x.dst ((x.rows - 1) * x.dstStride + x.rowBytes)
    else inOwnScratch cell x.dst 1 && ((x.dst - scratchOf cell) % 2048 == 0 &&
      (x.rowBytes * 8 % srcBits x == 0 && ((x.layout != 1 || decide (x.rows ≤ cpW x)) &&
      (cpEnds cell x &&
      (!(cpConverts x && decide (2 ≤ x.conv)) ||
        planeEnds (planeAS x.pattern x.scaleRow) (cpW x) (ceilDiv (rowUnits x) 32) 1)))))) &&
  (!x.zsel || ((x.layout == 0 || x.layout == 3) && zmapOk x.zmap))))

end Sys2Proof.Machine
end

