-- ==== Sys2Proof/Machine/Pools.lean ====
section
/-! DEFINITION. Buffer pools (R293 to R306). -/

namespace Sys2Proof.Machine

/-! ## Classes and handles (R293 to R295) -/

/-- A class with no buffers. -/
def SizeClass.none : SizeClass where
  inHbm := false
  base := 0
  count := 0

/-- A class of a cluster's pool. -/
def poolClass (s : State) (cl k : Nat) : SizeClass := kvGetD s.pools.classes (8 * cl + k) SizeClass.none

/-- Bytes of a buffer of a class. -/
def classBytes (k : Nat) : Nat := 256 * 4 ^ k

/-- The smallest class whose size is at least L. -/
def fitClass (len : Nat) : Nat := ((List.range 8).find? fun k => decide (len ≤ classBytes k)).getD 7

/-- The class chain of a request: no class for one longer than the largest buffer (R303). -/
def classChain (len : Nat) : List Nat := (List.range 8).filter fun k => decide (len ≤ classBytes k)

/-- A handle. -/
def handleOf (cl k i : Nat) : Nat := cl * 2 ^ 28 + k * 2 ^ 25 + i
/-- The cluster of a handle. -/
def handleCluster (h : Nat) : Nat := h / 2 ^ 28 % 16
/-- The class of a handle. -/
def handleClass (h : Nat) : Nat := h / 2 ^ 25 % 8
/-- The buffer index of a handle. -/
def handleIndex (h : Nat) : Nat := h % 2 ^ 20

/-- A handle without its reserved bits, whose content the device ignores (R8, R295). -/
def handleNamed (h : Nat) : Nat := handleOf (handleCluster h) (handleClass h) (handleIndex h)

/-- A handle is valid (R295). -/
def handleValid (s : State) (h : Nat) : Bool :=
  decide (handleIndex h < (poolClass s (handleCluster h) (handleClass h)).count)

/-- The engine address of a buffer. -/
def handleAddr (s : State) (h : Nat) : Nat :=
  (poolClass s (handleCluster h) (handleClass h)).base + handleIndex h * classBytes (handleClass h)

/-- The record of an allocated buffer. -/
def bufferOf? (s : State) (h : Nat) : Option Buffer := s.pools.buffers.find? fun b => b.handle == h

/-- Indices in use in a class. -/
def usedIndices (s : State) (cl k : Nat) : List Nat :=
  (s.pools.buffers.filter fun b => handleCluster b.handle == cl && handleClass b.handle == k).map fun b => handleIndex b.handle

/-- The free buffer of a class with the lowest INDEX. -/
def freeIndex? (s : State) (cl k : Nat) : Option Nat :=
  let used := usedIndices s cl k
  (List.range (min (poolClass s cl k).count (used.length + 1))).find? fun i => !used.contains i

/-! ## Allocation (R297, R298) -/

/-- Records an allocated buffer, and a fallback past its smallest fit. -/
def takeBuffer (cl k i len owner : Nat) (s : State) : State :=
  { s with pools := { s.pools with
    buffers := ⟨handleOf cl k i, owner, 0, none, 0⟩ :: s.pools.buffers
    fallbacks := if fitClass len < k then tblAdd s.pools.fallbacks cl 1 else s.pools.fallbacks } }

/-- Allocates by smallest fit, with fallback to larger classes. -/
def allocate? (cl len owner : Nat) (s : State) : Option (Nat × State) :=
  (classChain len).findSome? fun k => (freeIndex? s cl k).map fun i =>
    (handleOf cl k i, takeBuffer cl k i len owner s)

/-- DETAIL of a POOL event (R421). -/
def poolDetail (handle owner op step : Nat) : List Byte :=
  natLe 4 handle ++ natLe 2 owner ++ natLe 1 op ++ natLe 1 0 ++ natLe 4 step

/-- The stripe that Ibten stages receives its buffer. -/
def giveStage (ext stripe h : Nat) (s : State) : State :=
  { s with flash := { s.flash with stages := s.flash.stages.map fun g =>
    if g.ext = ext ∧ g.stripe = stripe then { g with buffer := some h } else g } }

/-- What a waiting request receives: a POOL event for the host, the buffer for a promotion or a stripe. -/
def grantWait (w : PoolWait) (h : Nat) (s : State) : State :=
  match w.copy, w.stage with
  | none, none => postEvent 2 stOk w.tag (poolDetail h w.owner 0x02 0) s
  | none, some (ext, stripe) => giveStage ext stripe h s
  | some (obj, tier), _ =>
    { s with tier := { s.tier with copies := s.tier.copies.map fun c =>
      if c.obj = obj ∧ c.tier = tier then { c with waitsPool := false, buffer := some h } else c } }

/-- Offers free buffers to the wait queue, oldest first (R298). -/
def serveWaits : List PoolWait → State → State
  | [], s => s
  | w :: r, s =>
    match allocate? w.cluster w.length w.owner s with
    | some (h, t) => serveWaits r (grantWait w h t)
    | none => serveWaits r { s with pools := { s.pools with waits := s.pools.waits ++ [w] } }

/-- Runs the wait queue. -/
def runWaits (s : State) : State := serveWaits s.pools.waits { s with pools := { s.pools with waits := [] } }

/-- A buffer becomes FREE and is offered at once. -/
def freeBuffer (h : Nat) (s : State) : State :=
  runWaits { s with pools := { s.pools with buffers := s.pools.buffers.filter fun b => b.handle != h } }

/-- Changes an allocated buffer. -/
def mapBuffer (h : Nat) (f : Buffer → Buffer) (s : State) : State :=
  { s with pools := { s.pools with buffers := s.pools.buffers.map fun b => if b.handle = h then f b else b } }

/-! ## Ibten's staging buffers (R303) -/

/-- The pools that Ibten's requests may go to: one whose classes 5 to 7 are not all without buffers. -/
def stagesIn (s : State) (cl : Nat) : Bool := [5, 6, 7].any fun k => (poolClass s cl k).count != 0

/-- The next pool of the rotation. -/
def stagePool? (s : State) : Option Nat :=
  ((List.range 16).map fun i => (s.flash.stagePool + i) % 16).find? (stagesIn s)

/-- Requests the buffer of a stripe that goes into flight; the request always waits. -/
def requestStage (cl : Nat) (e : Nat × Nat) (s : State) : State :=
  let s : State := { s with flash := { s.flash with
    stagePool := (cl + 1) % 16, stages := s.flash.stages ++ [⟨e.1, e.2, some cl, none, []⟩] } }
  match allocate? cl 188416 0xFFF1 s with
  | some (h, t) => giveStage e.1 e.2 h t
  | none => { s with pools := { s.pools with waits := s.pools.waits ++ [⟨cl, 188416, 0xFFF1, 0, none, some e⟩] } }

/-- Puts stripes into flight, at most 16. With every pool skipped one at a time goes through Ibten's own memory. -/
def startStages : List (Nat × Nat) → State → State
  | [], s => { s with flash := { s.flash with stageQueue := [] } }
  | e :: r, s =>
    let held : State := { s with flash := { s.flash with stageQueue := e :: r } }
    if 16 ≤ s.flash.stages.length then held
    else
      match stagePool? s with
      | some cl => startStages r (requestStage cl e s)
      | none =>
        if s.flash.stages.any fun g => g.pool.isNone then held
        else startStages r { s with flash := { s.flash with stages := s.flash.stages ++ [⟨e.1, e.2, none, none, []⟩] } }

/-- The stripe is staged or waits to be. -/
def isStaged (f : Flash) (e : Nat × Nat) : Bool :=
  f.stageQueue.contains e || f.stages.any fun g => g.ext == e.1 && g.stripe == e.2

/-- Takes stripes of an extent out of staging, with their requests and buffers. -/
def endStages (ext : Nat) (which : Staged → Bool) (s : State) : State :=
  let gone := s.flash.stages.filter fun g => g.ext == ext && which g
  let s : State := { s with
    flash := { s.flash with stages := s.flash.stages.filter fun g => !(g.ext == ext && which g) }
    pools := { s.pools with waits := s.pools.waits.filter fun w =>
      !(gone.any fun g => w.stage == some (g.ext, g.stripe)) } }
  let s := (gone.filterMap (·.buffer)).foldl (fun t h => freeBuffer h t) s
  startStages s.flash.stageQueue s

/-- An extent is done with: none of its stripes is staged any more. -/
def dropStages (ext : Nat) (s : State) : State :=
  endStages ext (fun _ => true)
    { s with flash := { s.flash with stageQueue := s.flash.stageQueue.filter fun e => e.1 != ext } }

/-- The pools have lost their classes: the stripes in flight are staged again. -/
def restage (s : State) : State :=
  let q := s.flash.stages.map (fun g => (g.ext, g.stripe)) ++ s.flash.stageQueue
  startStages q { s with flash := { s.flash with stages := [] } }

/-! ## Sharing and freeing (R301) -/

/-- POOL_SHARE. -/
def applyShare (h owner n : Nat) (s : State) : Nat × State :=
  if !handleValid s h then (stBadArg, s)
  else
    match bufferOf? s h with
    | none => (stBadState, s)
    | some b =>
      if b.freePending.isSome then (stBadState, s)
      else if b.owner ≠ owner then (stNotCloser, s)
      else if n = 0 ∨ 65535 < b.shares + n then (stBadArg, s)
      else (stOk, mapBuffer h (fun b => { b with shares := b.shares + n }) s)

/-- POOL_RELEASE: the status, the state, and what follows it: the last share of a buffer with FREE_PENDING frees it, and
the FREE's event is posted. -/
def applyRelease (h owner : Nat) (s : State) : Nat × State × (State → State) :=
  if !handleValid s h then (stBadArg, s, id)
  else
    match bufferOf? s h with
    | none => (stBadState, s, id)
    | some b =>
      if b.shares = 0 then (stBadState, s, id)
      else if b.owner = owner then (stBadArg, s, id)
      else
        let t := mapBuffer h (fun b => { b with shares := b.shares - 1 }) s
        match b.shares, b.freePending with
        | 1, some tag => (stOk, t, fun u => freeBuffer h (postEvent 2 stOk tag (poolDetail h b.owner 0x05 b.freeStep) u))
        | _, _ => (stOk, t, id)

/-- POOL_FREE. -/
def applyFree (h owner tag step : Nat) (s : State) : Nat × State × (State → State) :=
  if !handleValid s h then (stBadArg, s, id)
  else
    let double : State := { s with pools := { s.pools with
      doubleFrees := tblAdd s.pools.doubleFrees (handleCluster h) 1 } }
    match bufferOf? s h with
    | none => (stDoubleFree, double, id)
    | some b =>
      if b.freePending.isSome then (stDoubleFree, double, id)
      else if b.owner ≠ owner then (stNotCloser, s, id)
      else if 0 < b.shares then
        (stDeferred, mapBuffer h (fun b => { b with freePending := some tag, freeStep := step }) s, id)
      else (stOk, s, freeBuffer h)

/-! ## Commands -/

/-- A host owner (R296). -/
def hostOwner (o : Nat) : Bool := decide (o < 0xFFF0)

/-- A region of buffers that POOL_CONFIG may use (R294, R453). -/
def poolRegionOk (s : State) (cl k : Nat) (c : SizeClass) : Bool :=
  let n := c.count * classBytes k
  let others := s.pools.classes.filter fun e => e.1 != 8 * cl + k
  let loads : List Section := match s.job.image with
    | some im => im.sections.filter fun x => x.typ != 3 && x.typ != 7
    | none => []
  (if c.inHbm then hbmRange c.base n else inStore cl c.base n) &&
    (!(others.any fun e => overlaps c.base n e.2.base (e.2.count * classBytes (e.1 % 8))) &&
     !(loads.any fun x => overlaps c.base n x.load x.len))

/-- POOL_CONFIG. -/
def cmdPoolConfig (c : Cmd) (s : State) : CmdEnd :=
  let cl := cmdField c 16 1
  let k := cmdField c 17 1
  let back := cmdField c 18 1
  let x : SizeClass := { inHbm := back == 1, base := cmdField c 24 8, count := cmdField c 20 4 }
  if !s.job.opened then reject stBadState s
  else if 16 ≤ cl ∨ 8 ≤ k ∨ 2 ≤ back ∨ 1048576 < x.count then reject stBadArg s
  else if x.base % (if k ≤ 1 then classBytes k else 4096) ≠ 0 then reject stBadArg s
  else if !poolRegionOk s cl k x then reject stBadArg s
  else if (usedIndices s cl k).isEmpty = false ∨ (s.pools.waits.any fun w => w.cluster == cl) = true then
    reject stBadState s
  else .done stOk [] { s with pools := { s.pools with classes := kvPut s.pools.classes (8 * cl + k) x } }

/-- POOL_CONFIG. -/
def execPoolConfig (s : State) : Host.Outcome State Fault Refusal := .next (runPlain 0x0601 cmdPoolConfig s)

/-- The request is the host's. -/
def isHostWait (w : PoolWait) : Bool := w.copy.isNone && w.stage.isNone

/-- Host requests in a pool's wait queue. -/
def hostWaits (s : State) (cl : Nat) : Nat := (s.pools.waits.filter fun w => w.cluster == cl && isHostWait w).length

/-- POOL_ALLOC. -/
def cmdPoolAlloc (c : Cmd) (s : State) : CmdEnd :=
  let cl := cmdField c 16 1
  let len := cmdField c 20 4
  let owner := cmdField c 18 2
  if !s.job.opened then reject stBadState s
  else if 16 ≤ cl ∨ len = 0 ∨ 4194304 < len ∨ hostOwner owner = false then reject stBadArg s
  else if ((classChain len).all fun k => (poolClass s cl k).count == 0) = true then reject stNoResource s
  else
    match allocate? cl len owner s with
    | some (h, t) => .done stOk (natLe 4 h) t
    | none =>
      if bitOf (cmdField c 17 1) 0 = false ∨ 4096 ≤ hostWaits s cl then reject stNoResource s
      else .done stDeferred [] { s with pools := { s.pools with waits := s.pools.waits ++ [⟨cl, len, owner, c.tag, none, none⟩] } }

/-- POOL_ALLOC. -/
def execPoolAlloc (s : State) : Host.Outcome State Fault Refusal := .next (runPlain 0x0602 cmdPoolAlloc s)

/-- POOL_SHARE. -/
def cmdPoolShare (c : Cmd) (s : State) : CmdEnd :=
  if !hostOwner (cmdField c 20 2) then reject stBadArg s
  else
    let r := applyShare (handleNamed (cmdField c 16 4)) (cmdField c 20 2) (cmdField c 22 2) s
    .done r.1 [] r.2

/-- POOL_SHARE. -/
def execPoolShare (s : State) : Host.Outcome State Fault Refusal := .next (runPlain 0x0603 cmdPoolShare s)

/-- A bound command may name the step (R302): it is held, running, or its last run ABORTED and is not yet replayed. -/
def boundStepOk (s : State) (n : Word) : Bool :=
  (s.ctl.granted.any fun g => g.step == n) || (s.ctl.armed.any (fun g => g.step == n) ||
    (s.ctl.replay.any (fun g => g.step == n) || (s.ctl.run.any (fun r => r.g.step == n) ||
      (abortedRuns s).any fun p => p.g.step == n)))

/-- Applies a RELEASE or a FREE. -/
def applyPool (free : Bool) (h owner tag step : Nat) (s : State) : Nat × State × (State → State) :=
  if free then applyFree h owner tag step s else applyRelease h owner s

/-- POOL_RELEASE and POOL_FREE, at once or bound to a step. -/
def cmdPoolGive (free : Bool) (c : Cmd) (s : State) : CmdEnd :=
  let h := handleNamed (cmdField c 16 4)
  let owner := cmdField c 20 2
  let step : Word := BitVec.ofNat 32 (cmdField c 24 4)
  if !hostOwner owner then reject stBadArg s
  else if bitOf (cmdField c 22 1) 0 then
    if boundStepOk s step then
      .done stDeferred [] { s with pools := { s.pools with bound := s.pools.bound ++ [⟨free, h, owner, step, c.tag⟩] } }
    else reject stBadState s
  else
    let r := applyPool free h owner c.tag 0 s
    .done r.1 [] (r.2.2 r.2.1)

/-- POOL_RELEASE. -/
def execPoolRelease (s : State) : Host.Outcome State Fault Refusal := .next (runPlain 0x0604 (cmdPoolGive false) s)

/-- POOL_FREE. -/
def execPoolFree (s : State) : Host.Outcome State Fault Refusal := .next (runPlain 0x0605 (cmdPoolGive true) s)

/-- The low byte of a bound command's opcode. -/
def boundOp (b : Bound) : Nat := if b.free then 0x05 else 0x04

/-- Applies a bound command at its step's COMPLETED latch; its outcome is posted before what follows from it (R302,
R306). -/
def applyBound (b : Bound) (s : State) : State :=
  let r := applyPool b.free b.handle b.owner b.tag b.step.toNat s
  r.2.2 (postEvent 2 r.1 b.tag (poolDetail b.handle b.owner (boundOp b) b.step.toNat) r.2.1)

/-- Applies the bound commands of a step in the order in which they were accepted (R302). -/
def latchBound (step : Word) (s : State) : State :=
  (s.pools.bound.filter fun b => b.step == step).foldl (fun t b => applyBound b t)
    { s with pools := { s.pools with bound := s.pools.bound.filter fun b => b.step != step } }

/-- Discards every pending bound command, with its ABORTED event (R302). -/
def abortBound (s : State) : State :=
  s.pools.bound.foldl (fun t b =>
      postEvent 2 stAborted b.tag (poolDetail b.handle b.owner (boundOp b) b.step.toNat) t)
    { s with pools := { s.pools with bound := [] } }

/-- Ends every waiting request with an ABORTED event: the host's, and those that Ibten and the tier manager made, which
carry no command's TAG (R306, R427; DESIGN CHOICE for that TAG, log 107). -/
def abortWaits (s : State) : State :=
  s.pools.waits.foldl (fun t w => postEvent 2 stAborted w.tag (poolDetail 0 w.owner 0x02 0) t)
    { s with pools := { s.pools with waits := [] } }

/-- Ends every FREE that was DEFERRED for the shares of its buffer with an ABORTED event (R417, R427). -/
def abortFrees (s : State) : State :=
  s.pools.buffers.foldl (fun t b =>
    match b.freePending with
    | some tag => mapBuffer b.handle (fun x => { x with freePending := none })
        (postEvent 2 stAborted tag (poolDetail b.handle b.owner 0x05 b.freeStep) t)
    | none => t) s

/-- The status record of a pool (R305). -/
def poolStatusMem (s : State) (cl : Nat) : Mem :=
  let waits (f : PoolWait → Bool) : Nat := (s.pools.waits.filter fun w => w.cluster == cl && f w).length
  recMem (((List.range 8).flatMap fun k =>
      [(8 * k, 4, (poolClass s cl k).count), (8 * k + 4, 4, (poolClass s cl k).count - (usedIndices s cl k).length)]) ++
    [(64, 4, waits isHostWait), (68, 4, waits fun w => w.copy.isSome), (72, 4, waits fun w => w.stage.isSome),
     (76, 4, tblGet s.pools.fallbacks cl), (80, 4, tblGet s.pools.doubleFrees cl)])

/-- POOL_STATUS. -/
def cmdPoolStatus (c : Cmd) (s : State) : CmdEnd :=
  let cl := cmdField c 16 1
  if 16 ≤ cl ∨ argOk c 128 s = false then reject stBadArg s
  else .done stOk [] (putMem (argAddr c) 128 (poolStatusMem s cl) s)

/-- POOL_STATUS. -/
def execPoolStatus (s : State) : Host.Outcome State Fault Refusal := .next (runLong 0x0606 cmdPoolStatus s)

end Sys2Proof.Machine
end

