-- ==== Sys2Proof/Machine/Tiers.lean ====
section
/-! DEFINITION. Memory tiers: objects, residency, the commands on them and the TQ task (R247 to R268). -/

namespace Sys2Proof.Machine

/-! ## Objects and copies (R248, R251) -/

/-- An object by its id. -/
def objOf? (s : State) (id : Nat) : Option Obj := s.tier.objs.find? fun o => o.id == id

/-- The copy of an object in a tier, unless it is ABSENT. -/
def copyOf? (s : State) (obj tier : Nat) : Option Copy := s.tier.copies.find? fun c => c.obj == obj && c.tier == tier

/-- The fixed frame of an object in a tier. -/
def frameOf (o : Obj) (tier : Nat) : Option Nat :=
  if tier = 0 then o.scratchFrame else if tier = 1 then o.storeFrame else if tier = 2 then o.hbmFrame else none

/-- The object may have a copy in the tier: it has a frame there, or an HBM_POOL frame. -/
def hasFrame (o : Obj) (tier : Nat) : Bool := (frameOf o tier).isSome || (tier == 2 && o.hbmPool)

/-- The residency state of an object in a tier. -/
def residency (s : State) (o : Obj) (tier : Nat) : Residency :=
  if tier = o.homeTier then .resident
  else match copyOf? s o.id tier with
    | some c => c.state
    | none => .absent

/-- A complete copy that is not on its way out. -/
def isThere (r : Residency) : Bool := r == .resident || r == .pinned

/-- The occupant of an object's frame in a tier, if it is another object. -/
def occupant? (s : State) (o : Obj) (tier : Nat) : Option Copy :=
  match frameOf o tier with
  | none => none
  | some a => s.tier.copies.find? fun c => c.tier == tier && (c.obj != o.id &&
      match objOf? s c.obj with
      | some p => frameOf p tier == some a
      | none => false)

/-- Replaces a copy, or adds it. -/
def putCopy (c : Copy) (s : State) : State :=
  { s with tier := { s.tier with
    copies := c :: s.tier.copies.filter fun x => !(x.obj == c.obj && x.tier == c.tier) } }

/-- Changes a copy. -/
def mapCopy (obj tier : Nat) (f : Copy → Copy) (s : State) : State :=
  { s with tier := { s.tier with copies := s.tier.copies.map fun c => if c.obj = obj ∧ c.tier = tier then f c else c } }

/-- A copy becomes ABSENT; its pool buffer is released, and a request for one is withdrawn (R261). -/
def dropCopy (obj tier : Nat) (s : State) : State :=
  match copyOf? s obj tier with
  | none => s
  | some c =>
    let s : State := { s with
      tier := { s.tier with copies := s.tier.copies.filter fun x => !(x.obj == obj && x.tier == tier) }
      pools := { s.pools with waits := s.pools.waits.filter fun w => w.copy != some (obj, tier) } }
    match c.buffer with
    | some h => freeBuffer h s
    | none => s

/-- A RESIDENCY event of a deferred or started command (R421): the opcode's low byte names it. -/
def residencyEvent (obj tier op status tag : Nat) (s : State) : State :=
  postEvent 1 status tag (natLe 4 obj ++ natLe 1 tier ++ natLe 1 op) s

/-- A RESIDENCY event for each tag. -/
def residencyEvents (obj tier op status : Nat) (tags : List Nat) (s : State) : State :=
  tags.foldl (fun t tag => residencyEvent obj tier op status tag t) s

/-! ## Bound experts, granted readers and protection (R252, R256) -/

/-- Experts of a layer whose placement entry puts a replica on this device at a slot (R256). -/
def boundExperts (s : State) (layer slot : Nat) : List Nat :=
  let l := layerOf s layer
  (List.range l.experts).filter fun e =>
    let entry := placementOf s layer e
    slotOf entry == slot && (List.range (replicasOf entry)).any fun j =>
      (homeOf entry + j * l.stride) % 2 ^ 20 == selfId s

/-- The fields of a TQ body (R255). -/
structure Tq where
  op : Nat
  tier : Nat
  slotRel : Bool
  obj : Nat
  stride : Nat
  layer : Nat
  slot : Nat
  deriving DecidableEq, Repr

/-- Reads a TQ body. -/
def tqOf (d : Desc) : Tq where
  op := bodyBits d 16 31 28
  tier := bodyBits d 16 27 25
  slotRel := bitOf (bodyField d 16 4) 24
  obj := bodyField d 20 4
  stride := bodyBits d 24 31 24
  layer := bodyBits d 24 23 16
  slot := bodyBits d 24 11 0

/-- The object ids that a TQ body names: one, or one for each bound expert. -/
def tqObjects (s : State) (q : Tq) : List Nat :=
  if q.slotRel then (boundExperts s q.layer q.slot).map fun e => (q.obj + e * q.stride) % 2 ^ 32 else [q.obj]

/-- The TQ ENSURE tasks of a schedule (R252). -/
def ensuresOf (im : Image) (sched : Nat) : List Tq :=
  (List.range 512).flatMap fun cell => (List.range (listCount im sched cell)).filterMap fun i =>
    let d := listDesc im sched cell i
    if dClass d = 8 ∧ bodyOp d = 0 then some (tqOf d) else none

/-- The steps that may read copies: GRANTED, ARMED, RUNNING or DRAINING, or to be run again. -/
def heldSteps (s : State) : List GStep :=
  (s.ctl.run.map (·.g)).toList ++ s.ctl.armed.toList ++ s.ctl.granted ++ s.ctl.replay

/-- The granted readers of an object in a tier (R252). -/
def grantedReaders (s : State) (obj tier : Nat) : List Word :=
  match boundImage? s with
  | none => []
  | some im => ((heldSteps s).filter fun g =>
      (ensuresOf im g.sched).any fun q => q.tier == tier && (tqObjects s q).contains obj).map fun g => g.step

/-- The copy is protected in its tier (R252). -/
def protectedCopy (s : State) (c : Copy) : Bool :=
  c.state == .promoting || (c.state == .pinned || (c.hold || !(grantedReaders s c.obj c.tier).isEmpty))

/-! ## Promotions and evictions (R251, R260, R261, R265) -/

/-- A copy being promoted. -/
def newCopy (obj tier source : Nat) (tags : List Nat) : Copy where
  obj := obj
  tier := tier
  state := .promoting
  source := source
  pinTags := []
  hostTags := tags
  evictTags := []
  hold := false
  waitsPool := false
  buffer := none
  retried := false
  rebuilt := false
  doomed := false

/-- The fastest tier slower than a target that holds the object, else its home (R260). -/
def sourceTier (s : State) (o : Obj) (target : Nat) : Nat :=
  (([1, 2].filter fun t => decide (target < t)).find? fun t => isThere (residency s o t)).getD o.homeTier

/-- A displaced or evicted copy is on its way out (R251). -/
def beginEvict (obj tier : Nat) (tags : List Nat) (s : State) : State :=
  mapCopy obj tier (fun c => { c with state := .evicting, hold := false, evictTags := c.evictTags ++ tags }) s

/-- Displaces the occupant of an object's frame. -/
def displace (o : Obj) (tier : Nat) (s : State) : State :=
  match occupant? s o tier with
  | some c => if c.state = .evicting then s else beginEvict c.obj tier [] s
  | none => s

/-- Requests the HBM_POOL buffer of a copy; the request always waits (R261, R303). -/
def requestBuffer (o : Obj) (s : State) : State :=
  match allocate? o.pool o.length 0xFFF0 s with
  | some (h, t) => mapCopy o.id 2 (fun c => { c with buffer := some h }) t
  | none => mapCopy o.id 2 (fun c => { c with waitsPool := true })
      { s with pools := { s.pools with waits := s.pools.waits ++ [⟨o.pool, o.length, 0xFFF0, 0, some (o.id, 2), none⟩] } }

/-- Starts a promotion into one tier from another. -/
def startCopy (o : Obj) (tier source : Nat) (tags : List Nat) (s : State) : State :=
  let s := putCopy (newCopy o.id tier source tags) (displace o tier s)
  if tier = 2 ∧ o.hbmPool = true then requestBuffer o s else s

/-- The object's home is flash and R265 chooses its route. -/
def skipsLevels (o : Obj) : Bool := o.homeTier == 3 && o.levelSkip

/-- A promotion into SCRATCH or STORE may go through HBM: an object that is ABSENT there and can have a copy, read from its
home, if it is a LEVEL_SKIP object of flash (R265) or an HBM_POOL object (R259, R261; DEDUCED, log 46). -/
def mayPassHbm (s : State) (o : Obj) (tier : Nat) : Bool :=
  decide (tier < 2) && (o.homeTier != 2 && (residency s o 2 == .absent && (hasFrame o 2 &&
    (sourceTier s o tier == o.homeTier && (skipsLevels o || o.hbmPool)))))

/-- Whether a promotion that starts now goes through HBM. The HBM occupancy of the last 10 µs, which sends a LEVEL_SKIP
object of flash directly at 90 % or more, is a free value at each start (R265, R266). -/
def hbmRoute (o : Obj) (tier : Nat) (s : State) : Bool × State :=
  if mayPassHbm s o tier then (if skipsLevels o then freeChoice s else (true, s)) else (false, s)

/-- A promotion from flash that does not go through HBM is a direct one of R265, which the telemetry counts (R266). -/
def isDirect (s : State) (o : Obj) (tier : Nat) : Bool :=
  decide (tier < 2) && (skipsLevels o && (residency s o 2 == .absent && sourceTier s o tier == 3))

/-- Starts a promotion (R251) on a route: the object becomes its frames' occupant. -/
def startPromotion (through : Bool) (o : Obj) (tier : Nat) (tags : List Nat) (s : State) : State :=
  if through then startCopy o tier 2 tags (startCopy o 2 o.homeTier [] s)
  else
    let s := if isDirect s o tier then addCount tcDirectPromotions 1 s else s
    startCopy o tier (sourceTier s o tier) tags s

/-- The occupants of the frames that a promotion takes: its own, and the HBM frame if it goes through HBM. -/
def frameOccupants (s : State) (through : Bool) (o : Obj) (tier : Nat) : List Copy :=
  (if through then (occupant? s o 2).toList else []) ++ (occupant? s o tier).toList

/-- A task that an incomplete ENSURE waits for: R263 ends its step when the promotion fails. -/
def ensureWaits (s : State) (obj tier : Nat) : Bool :=
  s.cells.any fun e => e.2.flight.any fun f => f.needs == some (obj, tier) && bodyOp f.desc == 0

/-- The copy cannot be displaced: PINNED, under a step hold, or RESIDENT for an ENSURE that now completes (R257). -/
def keepsFrame (s : State) (c : Copy) : Bool :=
  c.state == .pinned || (c.hold || (c.state == .resident && ensureWaits s c.obj c.tier))

/-- The tags of the deferred PROMOTEs of an object's copy, which the promotion that starts now answers (R257). -/
def takeDeferred (obj tier : Nat) (s : State) : List Nat × State :=
  let mine (d : Deferred) : Bool := !d.evict && (d.obj == obj && d.tier == tier)
  ((s.tier.deferred.filter mine).map (·.tag),
   { s with tier := { s.tier with deferred := s.tier.deferred.filter fun d => !mine d } })

/-- What an ENSURE or a PREFETCH does now for an object that is not there (R257, R258): it starts the promotion, waits, or
ends the step with FRAME_CONFLICT. -/
def tryPromote (o : Obj) (tier : Nat) (s : State) : State :=
  if residency s o tier = .absent ∧ hasFrame o tier = true ∧ o.writable = false then
    let r := hbmRoute o tier s
    let held := frameOccupants s r.1 o tier
    if held.any (keepsFrame s) then stepFault fcFrameConflict s
    else if held.any (fun c => c.state == .promoting) then s
    else
      let d := takeDeferred o.id tier r.2
      startPromotion r.1 o tier d.1 d.2
  else s

/-- The task is a PREFETCH whose promotion has started or is unnecessary (R258). -/
def prefetchDone (s : State) (f : Flight) : Bool :=
  dClass f.desc == 8 && (bodyOp f.desc == 1 && match f.needs with
    | none => false
    | some (obj, tier) => (objOf? s obj).any fun o =>
        isThere (residency s o tier) || residency s o tier == .promoting)

/-- A PREFETCH that is done asks for nothing more, whatever becomes of the promotion. -/
def settlePrefetches (s : State) : State :=
  let settle (f : Flight) : Flight := if prefetchDone s f then { f with finished := true } else f
  { s with cells := s.cells.map fun e => (e.1, { e.2 with flight := e.2.flight.map settle }) }

/-- Objects that tasks in flight wait for. -/
def neededCopies (s : State) : List (Nat × Nat) :=
  s.cells.flatMap fun e => (e.2.flight.filter fun f => !f.finished).filterMap fun f => f.needs

/-- After a change of residency, tasks that could not start their promotion try again. -/
def retryEnsures (s : State) : State :=
  if stepActive s then
    settlePrefetches ((neededCopies s).foldl (fun t n =>
      match objOf? t n.1 with
      | some o => tryPromote o n.2 t
      | none => t) s)
  else s

/-! ## The end of a promotion or an eviction (R251, R254, R263) -/

/-- The bytes of an object in a tier. -/
def objectBytes (s : State) (o : Obj) (tier : Nat) : Mem :=
  if tier = o.homeTier ∧ o.homeTier = 3 then
    match s.flash.extents.find? fun x => x.id == o.homeAddr && x.sealedExt with
    | some x => memSlice x.data 0 o.length
    | none => []
  else
    let a := if tier = o.homeTier then o.homeAddr
      else match copyOf? s o.id tier with
        | some c => (c.buffer.map (handleAddr s)).getD ((frameOf o tier).getD 0)
        | none => 0
    memSlice s.mem a o.length

/-- The source of a promotion can be read at all: flash is mounted with the extent, or the copy is complete. -/
def sourceOk (s : State) (o : Obj) (tier : Nat) : Bool :=
  if tier = o.homeTier then
    o.homeTier != 3 || (s.flash.state == .online && s.flash.extents.any fun x => x.id == o.homeAddr && x.sealedExt)
  else (copyOf? s o.id tier).any fun c => c.state != .promoting

/-- The frame address of a copy. -/
def copyAddr? (s : State) (o : Obj) (c : Copy) : Option Nat :=
  match c.buffer with
  | some h => some (handleAddr s h)
  | none => frameOf o c.tier

/-- A promotion waits: for a pool buffer, for its source, for the mount, or for its frame to be given up. -/
def promotionWaits (s : State) (o : Obj) (c : Copy) : Bool :=
  c.waitsPool || ((occupant? s o c.tier).isSome ||
    ((c.source == o.homeTier && (o.homeTier == 3 && s.flash.state == .mounting)) ||
     (c.source != o.homeTier && (copyOf? s o.id c.source).any fun x => x.state == .promoting)))

/-- A promotion fails (R263): the target returns to ABSENT; pending pins are dropped. -/
def failCopy (obj tier : Nat) (s : State) : State :=
  match copyOf? s obj tier with
  | none => s
  | some c =>
    let s := dropCopy obj tier s
    let s := residencyEvents obj tier 0x04 stStepFault c.pinTags (residencyEvents obj tier 0x02 stStepFault c.hostTags s)
    faultIf (ensureWaits s obj tier) fcPromoteFailed s

/-- A failed promotion takes with it those that were to read its copy. -/
def failPromotion (obj tier : Nat) (s : State) : State :=
  let s := failCopy obj tier s
  (([0, 1].filter fun t => decide (t < tier)).filter fun t =>
      (copyOf? s obj t).any fun c => c.state == .promoting && c.source == tier).foldl (fun t k => failCopy obj k t) s

/-- A promotion reads or writes where an access is not carried out: a home that is not backed or mapped, or a frame in a
cell out of service (R246, R411). -/
def promotionBarred (s : State) (o : Obj) (c : Copy) : Bool :=
  (c.source == o.homeTier && (o.homeTier != 3 && !accessOk s o.homeAddr o.length)) ||
    (copyAddr? s o c).any fun a => !accessOk s a o.length

/-- MOVER_BYTES of a promotion: the mover of the frame's cluster carries it, and one into HBM is spread over all 16 in units
of 4,096 bytes (R260, R511; DEDUCED, log 51). -/
def countMoved (a n : Nat) (s : State) : State :=
  match regionOf a with
  | .store k => perfAdd k 0x0B n s
  | .scratch c => perfAdd (clusterOf c) 0x0B n s
  | .hbm => (List.range (ceilDiv n 4096)).foldl (fun t i => perfAdd (i % 16) 0x0B (min 4096 (n - 4096 * i)) t) s
  | .host | .window | .unmapped => s

/-- The next slower tier that holds the object, or its home. -/
def slowerTier (s : State) (o : Obj) (tier : Nat) : Nat :=
  (([1, 2].filter fun t => decide (tier < t)).find? fun t => isThere (residency s o t)).getD o.homeTier

/-- A copy that is uncorrectable becomes ABSENT, and every promotion that reads it goes on from the next slower tier (R263,
R463). -/
def dropBad (o : Obj) (tier : Nat) (s : State) : State :=
  let s := dropCopy o.id tier s
  { s with tier := { s.tier with copies := s.tier.copies.map fun c =>
      if c.obj == o.id && (c.state == .promoting && c.source == tier) then { c with source := slowerTier s o tier } else c } }

/-- A copy that the patrol scrub found bad during its promotion becomes ABSENT; the ENSUREs that waited for the promotion
complete (R473). -/
def dropDoomed (o : Obj) (c : Copy) (s : State) : State :=
  if c.doomed then
    dropBad o c.tier { s with cells := s.cells.map fun e =>
      (e.1, { e.2 with flight := e.2.flight.map fun f => if f.needs = some (o.id, c.tier) then { f with finished := true } else f }) }
  else s

/-- The copy is complete: RESIDENT, or PINNED if a pin is pending. -/
def finishCopy (o : Obj) (c : Copy) (s : State) : State :=
  let s := match copyAddr? s o c with
    | some a => countMoved a o.length (putMem a o.length (objectBytes s o c.source) s)
    | none => s
  let s := mapCopy o.id c.tier (fun c => { c with
    state := if c.pinTags.isEmpty then .resident else .pinned, hostTags := [], pinTags := [] }) s
  dropDoomed o c
    (progress (residencyEvents o.id c.tier 0x04 stOk c.pinTags (residencyEvents o.id c.tier 0x02 stOk c.hostTags s)))

/-- Where the bytes of an object stand in a tier; none for flash. -/
def sourceAddr? (s : State) (o : Obj) (tier : Nat) : Option Nat :=
  if tier = o.homeTier then (if o.homeTier = 3 then none else some o.homeAddr)
  else (copyOf? s o.id tier).bind (copyAddr? s o)

/-- A word of a promotion's source that is known to be uncorrectable. -/
def sourceWord? (s : State) (o : Obj) (c : Copy) : Option BadWord :=
  (sourceAddr? s o c.source).bind fun a => badRead? a o.length s

/-- How a promotion ends: one whose source holds a word known to be uncorrectable finds it (R463). -/
def promoteResult (s : State) (o : Obj) (c : Copy) (r : PromoteResult) : PromoteResult :=
  match r with
  | .done => if (sourceWord? s o c).isNone then .done else if c.source = o.homeTier then .homeBad else .copyBad
  | .copyBad => .copyBad
  | .homeBad => .homeBad

/-- A promotion met an uncorrectable word in its source, which the telemetry counts by the memory that holds it (R472). -/
def countBadSource (o : Obj) (c : Copy) (s : State) : State :=
  match sourceWord? s o c with
  | some (.burst a) => hbmUncorrectable a s
  | some (.sram _) => addCount tcSramUe 1 s
  | none =>
    match (sourceAddr? s o c.source).map regionOf with
    | some .hbm => addCount tcHbmUe 1 s
    | some (.store _) => addCount tcSramUe 1 s
    | some (.scratch _) => addCount tcSramUe 1 s
    | some .host | some .window | some .unmapped | none => s

/-! ## Stall causes (R262, R267) -/

/-- The promotions that an incomplete ENSURE's own reads: itself, and that of the HBM copy it reads. -/
def promotionsFor (s : State) (obj tier : Nat) : List Copy :=
  match copyOf? s obj tier with
  | none => []
  | some c => (c :: (if c.source = 2 then (copyOf? s obj 2).toList else [])).filter fun x => x.state == .promoting

/-- A promotion of an ENSURE waits for a pool buffer. -/
def poolWaits (s : State) (obj tier : Nat) : Bool := (promotionsFor s obj tier).any fun c => c.waitsPool

/-- The cause, POOL_WAIT apart, of an ENSURE's promotion: FLASH_REBUILD, FLASH_RETRY, FLASH_LATE or HBM_LATE. -/
def promotionCause (cs : List Copy) : Nat :=
  if cs.any fun c => c.rebuilt then 4
  else if cs.any fun c => c.retried then 3
  else if cs.any fun c => c.source == 3 then 2
  else 5

/-- The cause that an incomplete ENSURE shows now; none once its object is there. While the promotion that it waits for has
yet to start, the tier that it would read tells (R267). -/
def shownCause? (s : State) (obj tier : Nat) : Option Nat :=
  match objOf? s obj with
  | none => none
  | some o =>
    match residency s o tier with
    | .resident | .pinned => none
    | .promoting => some (promotionCause (promotionsFor s obj tier))
    | .absent | .evicting => some (if sourceTier s o tier = 3 then 2 else 5)

/-- The first in R262's order of two causes, POOL_WAIT apart. -/
def firstCause (a b : Option Nat) : Option Nat := [4, 3, 2, 5].find? fun k => a == some k || b == some k

/-- What an ENSURE has shown so far. -/
def noteCause (s : State) (f : Flight) : Flight :=
  match f.needs with
  | none => f
  | some (obj, tier) => if f.finished then f else { f with cause := firstCause f.cause (shownCause? s obj tier) }

/-- Every task in flight notes the cause that it shows. -/
def noteCauses (s : State) : State :=
  { s with cells := s.cells.map fun e => (e.1, { e.2 with flight := e.2.flight.map (noteCause s) }) }

/-- Another promotion reads the copy. -/
def isRead (s : State) (obj tier : Nat) : Bool :=
  s.tier.copies.any fun c => c.obj == obj && (c.state == .promoting && c.source == tier)

/-- EVICTION_END. -/
def evictionEndEffect (obj tier : Nat) (s : State) : State :=
  match copyOf? s obj tier with
  | none => s
  | some c =>
    if c.state ≠ .evicting ∨ isRead s obj tier = true then s
    else retryEnsures (residencyEvents obj tier 0x03 stOk c.evictTags (dropCopy obj tier s))

/-- EVICTION_END. -/
def execEvictionEnd (obj tier : Nat) (s : State) : Host.Outcome State Fault Refusal :=
  .next (evictionEndEffect obj tier s)

/-! ## Deferred commands (R253, R254) -/

/-- The copy would give up its frame to a deferred promotion. -/
def givesFrame (c : Copy) : Bool := !(c.state == .pinned || (c.state == .promoting || c.hold))

/-- A deferred command's readers have latched, and the copies it waits for are ready. An eviction leaves a copy under a step
hold alone until the step latches (R252). -/
def deferredReady (s : State) (d : Deferred) : Bool :=
  d.readers.isEmpty && match objOf? s d.obj with
    | none => true
    | some o =>
      if d.evict then residency s o d.tier != .promoting && !((copyOf? s d.obj d.tier).any fun c => c.hold)
      else residency s o d.tier != .evicting && (occupant? s o d.tier).all givesFrame

/-- Runs a deferred command; a PROMOTE takes the route given. One whose copy has come or gone by itself ends at once with OK (log 45). -/
def runDeferred (through : Bool) (d : Deferred) (s : State) : State :=
  match objOf? s d.obj with
  | none => residencyEvent d.obj d.tier (if d.evict then 0x03 else 0x02) stAborted d.tag s
  | some o =>
    let r := residency s o d.tier
    if d.evict then
      if r = .resident then beginEvict d.obj d.tier [d.tag] s
      else if r = .evicting then mapCopy d.obj d.tier (fun c => { c with evictTags := c.evictTags ++ [d.tag] }) s
      else residencyEvent d.obj d.tier 0x03 stOk d.tag s
    else
      if r = .absent then startPromotion through o d.tier [d.tag] s
      else if r = .promoting then mapCopy d.obj d.tier (fun c => { c with hostTags := c.hostTags ++ [d.tag] }) s
      else residencyEvent d.obj d.tier 0x02 stOk d.tag s

/-- The route of a deferred command's promotion, and whether the HBM frame that it needs can be taken. -/
def deferredRoute (d : Deferred) (s : State) : Bool × Bool × State :=
  match objOf? s d.obj with
  | none => (false, true, s)
  | some o =>
    if d.evict then (false, true, s)
    else
      let r := hbmRoute o d.tier s
      (r.1, !r.1 || (occupant? s o 2).all givesFrame, r.2)

/-- PROMOTION_START: the oldest deferred command of the copy starts, if it may. -/
def promotionStartEffect (obj tier : Nat) (s : State) : State :=
  match s.tier.deferred.find? fun d => d.obj == obj && (d.tier == tier && deferredReady s d) with
  | none => s
  | some d =>
    let r := deferredRoute d s
    if r.2.1 then
      runDeferred r.1 d { r.2.2 with tier := { r.2.2.tier with
        deferred := eraseFirst (fun x => x == d) r.2.2.tier.deferred } }
    else r.2.2

/-- PROMOTION_START. -/
def execPromotionStart (obj tier : Nat) (s : State) : Host.Outcome State Fault Refusal :=
  .next (promotionStartEffect obj tier s)

/-- A step has latched or was withdrawn: no deferred command waits for it any more. -/
def readersLatched (steps : List Word) (s : State) : State :=
  { s with tier := { s.tier with
    deferred := s.tier.deferred.map fun d => { d with readers := d.readers.filter fun n => !steps.contains n } } }

/-- Step holds are released at a terminal latch (R252). -/
def releaseHolds (s : State) : State :=
  { s with tier := { s.tier with copies := s.tier.copies.map fun c => { c with hold := false } } }

/-- Every deferred PROMOTE, EVICT and PIN ends with ABORTED (R427). -/
def abortDeferred (s : State) : State :=
  let s := s.tier.deferred.foldl (fun t d =>
      residencyEvent d.obj d.tier (if d.evict then 0x03 else 0x02) stAborted d.tag t)
    { s with tier := { s.tier with deferred := [] } }
  s.tier.copies.foldl (fun t c => residencyEvents c.obj c.tier 0x03 stAborted c.evictTags
      (residencyEvents c.obj c.tier 0x04 stAborted c.pinTags t))
    { s with tier := { s.tier with copies := s.tier.copies.map fun c => { c with pinTags := [], evictTags := [] } } }

/-! ## Commands (R249, R253, R254) -/

/-- A frame field, none for NONE. -/
def frameField (b : List Byte) (o : Nat) : Option Nat := if fieldOf b o 8 = noneAddr then none else some (fieldOf b o 8)

/-- An object record's fields (R248). -/
def objFrom (b : List Byte) (ofImage : Bool) : Obj where
  id := fieldOf b 0 4
  homeTier := fieldOf b 4 1
  levelSkip := bitOf (fieldOf b 5 1) 0
  writable := bitOf (fieldOf b 5 1) 1
  hbmPool := bitOf (fieldOf b 5 1) 2
  pool := fieldOf b 6 2 % 16
  length := fieldOf b 8 8
  homeAddr := fieldOf b 16 8
  hbmFrame := frameField b 24
  storeFrame := frameField b 32
  scratchFrame := frameField b 40
  ofImage := ofImage

/-- A frame is aligned and lies in its region. -/
def frameOk (f : Option Nat) (inside : Nat → Bool) : Bool :=
  match f with
  | none => true
  | some a => a % 64 == 0 && inside a

/-- The record keeps the rules of R248, R249 and R453 that give BAD_ARG. -/
def objRecordOk (s : State) (b : List Byte) : Bool :=
  let o := objFrom b false
  decide (fieldOf b 5 1 < 8) && ((if o.hbmPool then decide (fieldOf b 6 2 < 16) else fieldOf b 6 2 == 0) &&
  (allZero ((b.drop 48).take 16) && (decide (1 ≤ o.id) && (decide (o.id ≤ 0xFFFFFFFE) &&
  (decide (2 ≤ o.homeTier) && (decide (o.homeTier ≤ 4) &&
  (o.length % 64 == 0 && (decide (64 ≤ o.length) && (decide (o.length ≤ 2 ^ 36) &&
  (frameOk o.hbmFrame (fun a => hbmRange a o.length) && (frameOk o.storeFrame (fun a => inAnyStore a o.length) &&
  (frameOk o.scratchFrame (fun a => inAnyScratch a o.length) &&
  ((!(o.hbmPool || o.homeTier == 2) || o.hbmFrame.isNone) &&
  ((!o.writable || (o.hbmFrame.isNone && (o.storeFrame.isNone && (o.scratchFrame.isNone && !o.hbmPool)))) &&
  (!(o.homeTier != 3 && overlaps o.homeAddr o.length reserveBase (hbmBytes - reserveBase)) &&
  (o.homeTier != 3 || s.flash.extents.any fun x =>
    x.id == o.homeAddr && (x.sealedExt && decide (o.length ≤ x.length))))))))))))))))))

/-- Defines an object: the status, and the state. -/
def defineObj (ofImage : Bool) (b : List Byte) (s : State) : Nat × State :=
  let o := objFrom b ofImage
  if !objRecordOk s b then (stBadArg, s)
  else if (objOf? s o.id).isSome then (stBadState, s)
  else if 1048576 ≤ s.tier.objs.length then (stNoResource, s)
  else (stOk, { s with tier := { s.tier with objs := o :: s.tier.objs } })

/-- OBJ_DEFINE. -/
def cmdObjDefine (c : Cmd) (s : State) : CmdEnd :=
  if !argOk c 64 s then reject stBadArg s
  else
    let r := defineObj false (getBytes s (argAddr c) 64) s
    .done r.1 [] r.2

/-- OBJ_DEFINE. -/
def execObjDefine (s : State) : Host.Outcome State Fault Refusal := .next (runPlain 0x0501 cmdObjDefine s)

/-- The object and tier that a residency command names, if the object may have a copy there. -/
def copyNamed? (c : Cmd) (s : State) : Option (Obj × Nat) :=
  let tier := cmdField c 20 1
  match objOf? s (cmdField c 16 4) with
  | none => none
  | some o => if tier ≤ 2 ∧ tier ≠ o.homeTier ∧ hasFrame o tier = true then some (o, tier) else none

/-- Adds a deferred command. -/
def defer (d : Deferred) (s : State) : State := { s with tier := { s.tier with deferred := s.tier.deferred ++ [d] } }

/-- PROMOTE. -/
def cmdPromote (c : Cmd) (s : State) : CmdEnd :=
  match copyNamed? c s with
  | none => reject stBadArg s
  | some (o, tier) =>
    let d (readers : List Word) : Deferred := {
      evict := false, obj := o.id, tier := tier, tag := c.tag, readers := readers
      needed := BitVec.ofNat 32 (cmdField c 24 4) }
    let r := residency s o tier
    if o.writable then reject stBadArg s
    else if isThere r = true ∨ r = .promoting then reject stAlreadyDone s
    else
      let h := hbmRoute o tier s
      let kept := (frameOccupants s h.1 o tier).filter (protectedCopy s)
      if kept.isEmpty = false then
        .done stDeferred [] (defer (d (kept.flatMap fun x => grantedReaders s x.obj x.tier)) s)
      else if r = .evicting then .done stDeferred [] (defer (d []) s)
      else .done stOk [] (startPromotion h.1 o tier [c.tag] h.2)

/-- PROMOTE. -/
def execPromote (s : State) : Host.Outcome State Fault Refusal := .next (runPlain 0x0502 cmdPromote s)

/-- EVICT. -/
def cmdEvict (c : Cmd) (s : State) : CmdEnd :=
  match copyNamed? c s with
  | none => reject stBadArg s
  | some (o, tier) =>
    match copyOf? s o.id tier with
    | none => reject stAlreadyDone s
    | some x =>
      let readers := grantedReaders s o.id tier
      if x.state = .evicting then reject stAlreadyDone s
      else if x.state = .pinned then reject stBadState s
      else if x.state = .promoting ∨ x.hold = true ∨ readers.isEmpty = false then
        .done stDeferred [] (defer { evict := true, obj := o.id, tier := tier, tag := c.tag, readers := readers, needed := 0 } s)
      else .done stOk [] (beginEvict o.id tier [] s)

/-- EVICT. -/
def execEvict (s : State) : Host.Outcome State Fault Refusal := .next (runPlain 0x0503 cmdEvict s)

/-- A PIN cancels the deferred evictions of the copy, which end with ABORTED (R254; log 45). -/
def cancelEvicts (obj tier : Nat) (s : State) : State :=
  let mine (d : Deferred) : Bool := d.evict && (d.obj == obj && d.tier == tier)
  (s.tier.deferred.filter mine).foldl (fun t d => residencyEvent obj tier 0x03 stAborted d.tag t)
    { s with tier := { s.tier with deferred := s.tier.deferred.filter fun d => !mine d } }

/-- PIN. -/
def cmdPin (c : Cmd) (s : State) : CmdEnd :=
  match copyNamed? c s with
  | none => reject stBadArg s
  | some (o, tier) =>
    match residency s o tier with
    | .resident => .done stOk [] (mapCopy o.id tier (fun x => { x with state := .pinned }) (cancelEvicts o.id tier s))
    | .promoting => .done stDeferred []
        (mapCopy o.id tier (fun x => { x with pinTags := x.pinTags ++ [c.tag] }) (cancelEvicts o.id tier s))
    | .pinned => reject stAlreadyDone s
    | .absent => reject stBadState s
    | .evicting => reject stBadState s

/-- PIN. -/
def execPin (s : State) : Host.Outcome State Fault Refusal := .next (runPlain 0x0504 cmdPin s)

/-- The tier that the command names is the object's home, which is always RESIDENT (R251). -/
def namesHome (c : Cmd) (s : State) : Bool :=
  decide (cmdField c 20 1 ≤ 2) && (objOf? s (cmdField c 16 4)).any fun o => o.homeTier == cmdField c 20 1

/-- UNPIN. -/
def cmdUnpin (c : Cmd) (s : State) : CmdEnd :=
  match copyNamed? c s with
  | none => reject (if namesHome c s then stAlreadyDone else stBadArg) s
  | some (o, tier) =>
    match copyOf? s o.id tier with
    | none => reject stAlreadyDone s
    | some x =>
      if x.state = .pinned then .done stOk [] (mapCopy o.id tier (fun y => { y with state := .resident }) s)
      else .done stAlreadyDone []
        (residencyEvents o.id tier 0x04 stAborted x.pinTags (mapCopy o.id tier (fun y => { y with pinTags := [] }) s))

/-- UNPIN. -/
def execUnpin (s : State) : Host.Outcome State Fault Refusal := .next (runPlain 0x0505 cmdUnpin s)

/-! ## The TQ task (R255 to R259) -/

/-- ENSURE and PREFETCH at issue. -/
def tqWork (cell : Nat) (d : Desc) (s : State) : TaskEnd × State :=
  let q := tqOf d
  match tqObjects s q with
  | [] => (.finished, s)
  | [id] =>
    match objOf? s id with
    | none => (.waits, stepFault fcAddressRange s)
    | some o =>
      let t := tryPromote o q.tier (mapFlight cell d.index (fun f => { f with needs := some (id, q.tier) }) s)
      let r := residency t o q.tier
      (if q.op = 1 ∧ (isThere r = true ∨ r = .promoting) then .finished else .waits, t)
  | _ => (.waits, stepFault fcPlacementSkew s)

/-- ENSURE. -/
def execEnsure (cell : Nat) (h : Health) (s : State) : Host.Outcome State Fault Refusal :=
  .next (issueTask 8 (fun d => bodyOp d == 0) readsNothing tqWork cell h s)

/-- PREFETCH. -/
def execPrefetch (cell : Nat) (h : Health) (s : State) : Host.Outcome State Fault Refusal :=
  .next (issueTask 8 (fun d => bodyOp d == 1) readsNothing tqWork cell h s)

/-- The object that a TQ task waits for is there (R257). A PREFETCH is finished as soon as its promotion starts. -/
def tqReady (s : State) (f : Flight) : Bool :=
  match f.needs with
  | none => true
  | some (obj, tier) =>
    match objOf? s obj with
    | none => false
    | some o => isThere (residency s o tier)

/-- The object records of an image's manifest. -/
def manifestObjs (im : Image) : List Obj :=
  (List.range (sectionLen im 7 0 / 64)).map fun i => objFrom (sectionBytes im 7 0 (64 * i) 64) true

/-- LOAD_IMAGE accepts a TQ body (R259). -/
def tqCheck (im : Image) (objs : List Obj) (d : Desc) : Bool :=
  let q := tqOf d
  decide (q.op ≤ 1) && (decide (q.tier ≤ 2) && (bodyBits d 16 23 0 == 0 && (bodyBits d 24 15 12 == 0 &&
  (allZero (d.body.drop 12) &&
  (if q.slotRel then decide (1 ≤ q.stride) && (decide (q.layer < im.layers) && decide (q.slot < im.expertSlots))
   else q.stride == 0 && objs.any fun o => o.id == q.obj && (!o.writable && (hasFrame o q.tier &&
     (!o.hbmPool || q.tier != 2))))))))

/-- No two objects that one schedule ensures by id share a frame in a tier (R259). -/
def framesOk (im : Image) (objs : List Obj) (sched : Nat) : Bool :=
  let es := (ensuresOf im sched).filter fun q => !q.slotRel
  es.all fun a => es.all fun b => a.tier != b.tier || (a.obj == b.obj ||
    match objs.find? fun o => o.id == a.obj, objs.find? fun o => o.id == b.obj with
    | some x, some y => (frameOf x a.tier).isNone || frameOf x a.tier != frameOf y b.tier
    | _, _ => true)

end Sys2Proof.Machine
end

