-- ==== Sys2Proof/Machine/Flash.lean ====
section
/-! DEFINITION. The flash tier and Ibten (R269 to R292). A block is named die × blocks per die + index, a die
channel × dies per channel + number on the channel. -/

namespace Sys2Proof.Machine

/-! ## Geometry and capacity (R269, R271, R272, R274) -/

/-- Dies on one channel. -/
def diesPerChannel (g : FlashGeometry) : Nat := g.targets * g.dies

/-- Blocks on one channel. -/
def channelBlocks (g : FlashGeometry) : Nat := diesPerChannel g * g.blocksPerDie

/-- Every block of the tier. -/
def totalBlocks (g : FlashGeometry) : Nat := 48 * channelBlocks g

/-- Raw capacity in bytes. -/
def rawBytes (g : FlashGeometry) : Nat := totalBlocks g * g.pagesPerBlock * 16384

/-- The population keeps R269. -/
def populationOk (g : FlashGeometry) : Bool :=
  g.alike && ([1, 2, 4, 8].contains g.targets && ([1, 2, 4].contains g.dies && decide (rawBytes g ≤ 2 ^ 46)))

/-- LDPC parity bytes of a codeword, beside its 4,096 data bytes (R274). -/
def codewordParity : Nat := 144

/-- The part lies within the limits of R271; the spare area holds the parity of a page's four codewords. -/
def partOk (g : FlashGeometry) : Bool :=
  [3, 4].contains g.cellBits && (decide (4 * codewordParity ≤ g.spare) && (decide (g.tR ≤ 120000) &&
  (decide (g.tProg ≤ 3000000) && (
  [2, 4].contains g.planes && (decide (384 ≤ g.pagesPerBlock) && (decide (g.pagesPerBlock ≤ 3072) &&
  (decide (1000 ≤ g.endurance) && (decide (50000 ≤ g.rdLimit) && (decide (g.rdLimit ≤ 5000000) &&
  (decide (1 ≤ g.retMargin) && (decide (g.retMargin ≤ 255) && (decide (1 ≤ g.retryEntries) &&
  decide (g.retryEntries ≤ 15)))))))))))))

/-- A part's parameters in the order of R271's table. -/
def partValues (g : FlashGeometry) : List Nat :=
  [g.cellBits, 16384, g.spare, g.planes, g.pagesPerBlock, g.tR, g.tProg, g.endurance, g.rdLimit, g.retMargin, g.retryEntries]

/-- The parameters that an entry of the qualified list gives; the manual shows 0x0213 (R271). -/
def qualifiedValues (entry : Nat) : Option (List Nat) :=
  if entry = 0x0213 then some [3, 16384, 2048, 4, 1536, 45000, 900000, 3000, 500000, 96, 12]
  else Config.qualifiedPart entry

/-- The part matches its entry of the qualified list, which holds no part outside the limits (R269, R271). -/
def partQualified (g : FlashGeometry) : Bool := partOk g && qualifiedValues g.partEntry == some (partValues g)

/-- Data bytes of a stripe. -/
def stripeBytes : Nat := 188416

/-- Stripes that hold n bytes. -/
def stripesOf (n : Nat) : Nat := ceilDiv n stripeBytes

/-- Usable capacity in whole stripes. -/
def usableStripes (g : FlashGeometry) : Nat := rawBytes g * 9 / 10 / 196608

/-- Stripes not set aside for extents. -/
def freeStripes (f : Flash) : Nat := usableStripes f.geom - (f.extents.map fun x => stripesOf x.length).sum

/-- Stripes of a group of 48 blocks: four codewords a page. -/
def groupStripes (g : FlashGeometry) : Nat := 4 * g.pagesPerBlock

/-- Where Ibten puts the member of an extent's stripe on a channel: its block, page and codeword of the page. Consecutive
stripes fill a page, and a group's pages one after another (R272; which block comes first is Ibten's choice, log 47). -/
def memberPlace (g : FlashGeometry) (x : Extent) (stripe ch : Nat) : Nat × Nat × Nat :=
  (x.blocks.getD (48 * (stripe / groupStripes g) + ch) 0, stripe % groupStripes g / 4, stripe % 4)

/-- The stripe, data member and byte of a codeword that hold byte o of an extent (R273). -/
def bytePlace (o : Nat) : Nat × Nat × Nat := (o / stripeBytes, o % stripeBytes / 4096, o % 4096)

/-- Byte j of data member i of an extent's stripe; past the extent's data the stripe is padded with zeros (R273). -/
def dataByte (x : Extent) (stripe i j : Nat) : Byte := memGet x.data (stripe * stripeBytes + i * 4096 + j)

/-- Multiplication by g = 0x02 in GF(2^8) with polynomial 0x11D (R272). -/
def gfDouble (b : Byte) : Byte := if b.getLsbD 7 then (b <<< 1) ^^^ 0x1D else b <<< 1

/-- Byte j of P: the XOR of the data members (R272). -/
def parityP (x : Extent) (stripe j : Nat) : Byte := (List.range 46).foldl (fun a i => a ^^^ dataByte x stripe i j) 0

/-- Byte j of Q: the sum of g^i × D_i[j], by Horner's rule from the last member (R272). -/
def parityQ (x : Extent) (stripe j : Nat) : Byte :=
  (List.range 46).foldl (fun a i => gfDouble a ^^^ dataByte x stripe (45 - i) j) 0

/-- Byte j of the codeword of a stripe on a channel: a data member, P or Q. -/
def memberByte (x : Extent) (stripe ch j : Nat) : Byte :=
  if ch < 46 then dataByte x stripe ch j else if ch = 46 then parityP x stripe j else parityQ x stripe j

/-! ## Blocks (R276, R281, R282, R284) -/

/-- A block that the table does not list. -/
def Block.fresh (f : Flash) : Block where
  reads := f.readDefault
  erases := f.eraseDefault
  bad := false
  used := false
  moving := none
  erasing := false
  rebuiltAt := none

/-- A block of the tier. -/
def blockOf (f : Flash) (b : Nat) : Block := kvGetD f.blocks b (Block.fresh f)

/-- Changes a block. -/
def mapBlock (b : Nat) (g : Block → Block) (f : Flash) : Flash :=
  { f with blocks := kvPut f.blocks b (g (blockOf f b)) }

/-- The die of a block. -/
def dieOf (g : FlashGeometry) (b : Nat) : Nat := b / g.blocksPerDie
/-- The channel of a block. -/
def channelOf (g : FlashGeometry) (b : Nat) : Nat := b / channelBlocks g
/-- The channel of a die. -/
def dieChannel (g : FlashGeometry) (d : Nat) : Nat := d / diesPerChannel g

/-- A block is in the reserve. -/
def inReserve (f : Flash) (b : Nat) : Bool :=
  let x := blockOf f b
  !(x.bad || (x.used || (x.erasing || f.retiredDies.contains (dieOf f.geom b))))

/-- The blocks of a channel. -/
def blocksOfChannel (g : FlashGeometry) (ch : Nat) : List Nat :=
  (List.range (channelBlocks g)).map fun i => ch * channelBlocks g + i

/-- The least erased block of a list, the lowest of several (R281; which of them is Ibten's choice, log 47). -/
def leastErased (f : Flash) : List Nat → Option Nat
  | [] => none
  | b :: r =>
    match leastErased f r with
    | none => some b
    | some c => if (blockOf f b).erases ≤ (blockOf f c).erases then some b else some c

/-- A relocation fills the block, which belongs to the tenth that is set aside until the map names it (R274). -/
def isTarget (f : Flash) (b : Nat) : Bool := f.blocks.any fun e => e.2.moving == some b

/-- Blocks of a die that extents hold. -/
def usedOfDie (f : Flash) (d : Nat) : Nat :=
  (f.blocks.filter fun e => e.2.used && (dieOf f.geom e.1 == d && !isTarget f e.1)).length

/-- The die can give an extent one more block: a tenth of its blocks is set aside for Ibten (R274). -/
def dieGives (f : Flash) (d : Nat) : Bool := decide (10 * (usedOfDie f d + 1) ≤ 9 * f.geom.blocksPerDie)

/-- A block for an extent from a channel, beside the tenth of its die that is set aside. -/
def drawExtent? (f : Flash) (ch : Nat) : Option Nat :=
  leastErased f ((blocksOfChannel f.geom ch).filter fun b => inReserve f b && dieGives f (dieOf f.geom b))

/-- A block drawn from the reserve of a channel, outside one die. -/
def drawBlock? (f : Flash) (ch : Nat) (notDie : Option Nat) : Option Nat :=
  leastErased f ((blocksOfChannel f.geom ch).filter fun b => inReserve f b && notDie != some (dieOf f.geom b))

/-- Blocks out of the reserve: in use, bad, being erased, or on a retired die. -/
def takenBlocks (f : Flash) : Nat :=
  let gone (e : Nat × Block) : Bool :=
    (e.2.bad || (e.2.used || e.2.erasing)) && !f.retiredDies.contains (dieOf f.geom e.1)
  (f.blocks.filter gone).length + f.retiredDies.length * f.geom.blocksPerDie

/-- Blocks in the reserve. -/
def reserveBlocks (f : Flash) : Nat := totalBlocks f.geom - takenBlocks f

/-! ## State, flags and events (R284, R290, R291, R421) -/

/-- STATE's code. -/
def flashCode (x : FlashState) : Nat :=
  match x with
  | .none => 0
  | .unformatted => 1
  | .mounting => 2
  | .online => 3
  | .failed => 4

/-- FLAGS. -/
def flashFlags (f : Flash) : Nat :=
  (if f.degraded.isEmpty then 0 else 1) + (if f.lowReserve then 2 else 0) + (if f.worn then 4 else 0)

/-- A FLASH event of a kind, with the channel, target and die of kind 3. -/
def flashEvent (kind ch target die : Nat) (s : State) : State :=
  let f := s.flash
  postEvent 4 stOk 0 (natLe 1 kind ++ natLe 1 (flashCode f.state) ++ natLe 1 (flashFlags f) ++ natLe 2 f.failCause ++
    natLe 1 ch ++ natLe 1 target ++ natLe 1 die) s

/-- STATE becomes a new one; a change posts an event. -/
def setFlashState (x : FlashState) (cause : Nat) (s : State) : State :=
  let t : State := { s with flash := { s.flash with state := x, failCause := cause } }
  if s.flash.state = x then t else flashEvent 1 0 0 0 t

/-- LOW_RESERVE and WORN follow the free reserve (R284). -/
def judgeReserve (f : Flash) : Flash :=
  { f with
    lowReserve := decide (reserveBlocks f * 100 < 4 * totalBlocks f.geom)
    worn := decide (reserveBlocks f * 100 < totalBlocks f.geom) }

/-- Applies a change to flash; a flag set or cleared posts an event. -/
def updateFlash (g : Flash → Flash) (s : State) : State :=
  let f := judgeReserve (g s.flash)
  let t : State := { s with flash := f }
  if flashFlags f = flashFlags s.flash then t else flashEvent 2 0 0 0 t

/-! ## Metadata (R285, R287) -/

/-- A metadata update: the other copy is written, and a superblock that names it commits it. -/
def commitMeta (f : Flash) : Flash := { f with superSeq := f.superSeq + 1, superCopy := 1 - f.superCopy, journal := 0 }

/-- A change of the map, which the journal records until the next update. -/
def journalMap (f : Flash) : Flash := { f with journal := f.journal + 1 }

/-! ## Relocation, grown bad blocks and retired dies (R276, R281 to R283) -/

/-- Starts the relocation of a block's live data, if it has any and the reserve of its channel can take it. -/
def beginMove (notDie : Option Nat) (b : Nat) (f : Flash) : Flash :=
  let x := blockOf f b
  if x.used = true ∧ x.moving = none then
    match drawBlock? f (channelOf f.geom b) notDie with
    | none => f
    | some t => mapBlock b (fun y => { y with moving := some t }) (mapBlock t (fun y => { y with used := true }) f)
  else f

/-- A relocation or refresh, which stops while WORN is set (R284). -/
def relocate (b : Nat) (f : Flash) : Flash := if f.worn then f else beginMove none b f

/-- The blocks of a die. -/
def dieBlocks (g : FlashGeometry) (d : Nat) : List Nat := (List.range g.blocksPerDie).map fun i => d * g.blocksPerDie + i

/-- A channel becomes degraded. -/
def degrade (ch : Nat) (f : Flash) : Flash :=
  { f with degraded := if f.degraded.contains ch then f.degraded else ch :: f.degraded }

/-- The live members of a retired die that no relocation is moving yet, those that were moving onto the die among them. -/
def membersOfDie (d : Nat) (f : Flash) : List Nat :=
  (f.blocks.map (·.1)).filter fun b => (blockOf f b).used && (match (blockOf f b).moving with
    | some t => dieOf f.geom t == d
    | none => dieOf f.geom b == d && !isTarget f b)

/-- Relocations onto a retired die are given up. -/
def dropTargets (d : Nat) (f : Flash) : Flash :=
  { f with blocks := f.blocks.map fun e =>
      (e.1, if isTarget f e.1 ∧ dieOf f.geom e.1 = d then { e.2 with used := false }
        else if e.2.moving.any (fun t => dieOf f.geom t == d) then { e.2 with moving := none } else e.2) }

/-- Ibten rebuilds the live members of a retired die into other dies of its channel. Where their reserve lacks the room, or
the channel has only this die, the channel becomes degraded (R283). -/
def settleDie (d : Nat) (f : Flash) : Flash :=
  let ch := dieChannel f.geom d
  let live := membersOfDie d f
  let f := dropTargets d f
  let room := ((blocksOfChannel f.geom ch).filter (inReserve f)).length
  if diesPerChannel f.geom = 1 ∨ room < live.length then degrade ch f
  else live.foldl (fun g b => beginMove (some d) b g) f

/-- Retires a die. -/
def retireCore (d : Nat) (f : Flash) : Flash := settleDie d { f with retiredDies := d :: f.retiredDies }

/-- DIE_RETIRE's effect. -/
def retireDie (d : Nat) (s : State) : State :=
  let g := s.flash.geom
  if s.flash.retiredDies.contains d then s
  else
    let t := updateFlash (retireCore d) s
    flashEvent 3 (dieChannel g d) (d % diesPerChannel g / g.dies) (d % g.dies) t

/-- A block in service becomes a grown bad block; more than 16 of a die within an hour retire it (R282, R283). -/
def growBad (b : Nat) (s : State) : State :=
  if (blockOf s.flash b).bad then s
  else
  let d := dieOf s.flash.geom b
  let now := s.time.uptime
  let s := updateFlash (fun f =>
    let f := { f with grown := (d, now) :: f.grown.filter fun e => now < e.2 + hourTicks }
    beginMove none b (mapBlock b (fun x => { x with bad := true, erasing := false }) f)) s
  if 16 < (s.flash.grown.filter fun e => e.1 == d).length then retireDie d s else s

/-- Adds page reads to a block; at RD_LIMIT its relocation starts (R276). -/
def addReads (b n : Nat) (f : Flash) : Flash :=
  let f := mapBlock b (fun x => { x with reads := x.reads + n }) f
  if f.geom.rdLimit ≤ (blockOf f b).reads then relocate b f else f

/-- Adds page reads to each block of a list. -/
def addReadsAll (n : Nat) : List Nat → Flash → Flash
  | [], f => f
  | b :: r, f => addReadsAll n r (addReads b n f)

/-! ## Reading a codeword (R275) -/

/-- The block lies on a retired die. -/
def onRetired (f : Flash) (b : Nat) : Bool := f.retiredDies.contains (dieOf f.geom b)

/-- The port die of a channel works: channels 0 to 23 belong to port die A, and 24 to 47 to port die B (R468, R497). -/
def channelUp (s : State) (ch : Nat) : Bool :=
  if ch < 24 then decide (0 < s.errs.dieModulesA) else decide (0 < s.errs.dieModulesB)

/-- Both port dies work: every channel answers. -/
def channelsUp (s : State) : Bool := channelUp s 0 && channelUp s 24

/-- The channel of a block answers. -/
def blockUp (s : State) (b : Nat) : Bool := channelUp s (channelOf s.flash.geom b)

/-- A member of a stripe is absent: its die is retired, or its channel does not answer. -/
def absent (s : State) (b : Nat) : Bool := onRetired s.flash b || !blockUp s b

/-- Page reads of the block itself at each outcome of the ladder, beside the first. An absent one answers none. -/
def ladderReads (s : State) (b first : Nat) (r : Ladder) : Nat :=
  if absent s b then 0
  else
    match r with
    | .hard => first
    | .retry n => first + n
    | .soft => first + 2 + s.flash.geom.retryEntries
    | .rebuild _ => first + 2 + s.flash.geom.retryEntries
    | .failure => first + 2 + s.flash.geom.retryEntries

/-- The 48 blocks of the stripe group that holds a block, by channel. -/
def groupOf? (f : Flash) (b : Nat) : Option (List Nat) :=
  f.extents.findSome? fun x =>
    if x.blocks.contains b then
      let k := (x.blocks.findIdx fun c => c == b) / 48
      some ((x.blocks.drop (48 * k)).take 48)
    else none

/-- The other members of a block's stripes. -/
def otherMembers (f : Flash) (b : Nat) : List Nat := ((groupOf? f b).getD []).filter fun c => c != b

/-- Members of a stripe other than the block's that are lost: absent, or not read this time. -/
def lostOthers (s : State) (b : Nat) (second : Option Nat) : Nat :=
  ((otherMembers s.flash b).filter fun c => absent s c || second == some (channelOf s.flash.geom c)).length

/-- The other members that answer. -/
def answering (s : State) (b : Nat) : List Nat := (otherMembers s.flash b).filter fun c => !absent s c

/-- The members that a rebuild reads: 45 data and P; with a second member absent or unreadable, every one that answers, Q
among them. -/
def rebuildReads (s : State) (b : Nat) (second : Option Nat) : List Nat :=
  if lostOthers s b second = 0 then (answering s b).take 46 else answering s b

/-- The outcome of a codeword read that the ladder allows (R275, R292): none where the one named cannot be. An absent
member is only rebuilt, the retry table has its length, and with three members of a stripe lost the read fails. -/
def ladderResult? (s : State) (b : Nat) (r : Ladder) : Option Ladder :=
  match r with
  | .hard => if absent s b then none else some r
  | .soft => if absent s b then none else some r
  | .retry n => if absent s b = true ∨ n = 0 ∨ s.flash.geom.retryEntries < n then none else some r
  | .rebuild second => if lostOthers s b second ≤ 1 then some r else some .failure
  | .failure => some r

/-- What a codeword read does to flash beside its promotion: counts, read counts, relocation after a rebuild. `first` is 1
where the read senses the page and 0 where another of its four codewords did (R276). -/
def ladderEffect (b first : Nat) (r : Ladder) (s : State) : State :=
  let now := s.time.uptime
  let own := ladderReads s b first r
  match r with
  | .hard => updateFlash (addReads b own) s
  | .retry _ => updateFlash (fun f => addReads b own { f with retries := f.retries + 1 }) s
  | .soft => updateFlash (fun f => addReads b own { f with retries := f.retries + 1 }) s
  | .failure => updateFlash (fun f => addReadsAll 1 (answering s b) (addReads b own f)) s
  | .rebuild second =>
    let again := match (blockOf s.flash b).rebuiltAt with
      | some t => decide (now < t + dayTicks)
      | none => false
    let s := updateFlash (fun f =>
      let f := addReadsAll 1 (rebuildReads s b second) (addReads b own { f with rebuilds := f.rebuilds + 1 })
      mapBlock b (fun x => { x with rebuiltAt := some now }) f) s
    if absent s b then s
    else if again then growBad b s else updateFlash (beginMove none b) s

/-- The sealed extent that a block belongs to. -/
def extentOfBlock? (f : Flash) (b : Nat) : Option Extent := f.extents.find? fun x => x.sealedExt && x.blocks.contains b

/-- The place of a block in its extent: 48 a stripe group. -/
def blockIndex (x : Extent) (b : Nat) : Nat := x.blocks.findIdx fun c => c == b

/-- The extent has the codeword: a stripe of its own, in the group of the block (R272, R273). -/
def hasCodeword (f : Flash) (x : Extent) (w : CodewordAt) : Bool :=
  decide (w.stripe < stripesOf x.length) && w.stripe / groupStripes f.geom == blockIndex x w.block / 48

/-- The first len bytes of an extent have a byte in a stripe's codeword on a channel: a data member (R272, R273). -/
def readsMember (len stripe ch : Nat) : Bool := decide (ch < 46) && decide (stripe * stripeBytes + ch * 4096 < len)

/-- The promotions from flash that read a codeword of an extent. -/
def flashReaders (s : State) (x : Extent) (w : CodewordAt) : List Copy :=
  s.tier.copies.filter fun c => c.state == .promoting && (c.source == 3 && match objOf? s c.obj with
    | some o => o.homeTier == 3 && (o.homeAddr == x.id && readsMember o.length w.stripe (blockIndex x w.block % 48))
    | none => false)

/-- Marks the promotions that waited for a slow read (R262). -/
def markReaders (r : Ladder) (cs : List Copy) (s : State) : State :=
  match r with
  | .hard => s
  | .failure => s
  | .retry _ => cs.foldl (fun t c => mapCopy c.obj c.tier (fun x => { x with retried := true }) t) s
  | .soft => cs.foldl (fun t c => mapCopy c.obj c.tier (fun x => { x with retried := true }) t) s
  | .rebuild _ => cs.foldl (fun t c => mapCopy c.obj c.tier (fun x => { x with rebuilt := true }) t) s

/-- Promotions fail, and tasks that waited for their frames try again. -/
def failPromotions (cs : List Copy) (s : State) : State :=
  if cs.isEmpty then s else retryEnsures (cs.foldl (fun t c => failPromotion c.obj c.tier t) (noteCauses s))

/-- CODEWORD_READ: a read of sealed data. A failure fails the promotions that read it. An outcome that the ladder does not
allow is none. -/
def codewordReadEffect (w : CodewordAt) (r : Ladder) (s : State) : State :=
  match s.flash.state, extentOfBlock? s.flash w.block, ladderResult? s w.block r with
  | .online, some x, some q =>
    if hasCodeword s.flash x w then
      let cs := flashReaders s x w
      let t := markReaders q cs (ladderEffect w.block (if w.sensed then 1 else 0) q s)
      if q = .failure then failPromotions cs t else t
    else s
  | _, _, _ => s

/-- CODEWORD_READ. -/
def execCodewordRead (word : CodewordAt) (result : Ladder) (s : State) : Host.Outcome State Fault Refusal :=
  .next (codewordReadEffect word result s)

/-! ## The end of a promotion (R251, R263, R292, R463) -/

/-- The k-th group of an extent gives every data member that its first len bytes need: at most two of the 48 are absent, or
none of those needed. -/
def groupReadable (s : State) (x : Extent) (len k : Nat) : Bool :=
  let bs := (x.blocks.drop (48 * k)).take 48
  decide ((bs.filter (absent s)).length ≤ 2) ||
    !(bs.zipIdx.any fun e => absent s e.1 && readsMember len (k * groupStripes s.flash.geom) e.2)

/-- Flash can give an object that has its home there: no stripe that it needs has lost more than two members (R275, R292). -/
def flashReadable (s : State) (o : Obj) : Bool :=
  match s.flash.extents.find? fun x => x.id == o.homeAddr && x.sealedExt with
  | none => false
  | some x => (List.range (ceilDiv (stripesOf o.length) (groupStripes s.flash.geom))).all (groupReadable s x o.length)

/-- The source of a promotion can be read. -/
def sourceReadable (s : State) (o : Obj) (tier : Nat) : Bool :=
  sourceOk s o tier && (tier != o.homeTier || (o.homeTier != 3 || flashReadable s o))

/-- PROMOTION_END. -/
def promotionEndEffect (obj tier : Nat) (r : PromoteResult) (s : State) : State :=
  match objOf? s obj, copyOf? s obj tier with
  | some o, some c =>
    if c.state ≠ .promoting ∨ promotionWaits s o c = true then s
    else
      let t := noteCauses s
      match promoteResult s o c r with
      | .copyBad => if c.source = o.homeTier then s else dropBad o c.source (countBadSource o c t)
      | .homeBad =>
        if c.source = o.homeTier then retryEnsures (failPromotion obj tier (countBadSource o c t)) else s
      | .done =>
        if promotionBarred s o c then retryEnsures (failPromotion obj tier (stepFault fcAddressRange t))
        else retryEnsures (if sourceReadable s o c.source then finishCopy o c t else failPromotion obj tier t)
  | _, _ => s

/-- PROMOTION_END. -/
def execPromotionEnd (obj tier : Nat) (r : PromoteResult) (s : State) : Host.Outcome State Fault Refusal :=
  .next (promotionEndEffect obj tier r s)

/-! ## Relocation, the patrol and wear levelling (R276 to R278, R281) -/

/-- Replaces a block in the map. -/
def remap (b t : Nat) (xs : List Extent) : List Extent :=
  xs.map fun x => { x with blocks := x.blocks.map fun c => if c = b then t else c }

/-- Pages of a block that hold a stripe of its extent. -/
def livePages (f : Flash) (b : Nat) : Nat :=
  match f.extents.find? fun x => x.blocks.contains b with
  | none => 0
  | some x => ceilDiv (min (groupStripes f.geom) (stripesOf x.length - blockIndex x b / 48 * groupStripes f.geom)) 4

/-- The page reads of a relocation: it copies each live page of the block, or rebuilds it from the other members where the
block's die is retired (R276, R283). -/
def relocationReads (b : Nat) (s : State) (f : Flash) : Flash :=
  let n := livePages f b
  if absent s b then addReadsAll n (rebuildReads s b none) f else mapBlock b (fun x => { x with reads := x.reads + n }) f

/-- RELOCATION_END: the live codewords have been read, the map names the new block, and the old one is erased, unless it has
left service. -/
def relocationEndEffect (b : Nat) (s : State) : State :=
  match s.flash.state, (blockOf s.flash b).moving with
  | .online, some t =>
    if blockUp s b then
      updateFlash (fun f =>
        let f := relocationReads b s f
        mapBlock b (fun x => { x with used := false, moving := none, erasing := !x.bad && !onRetired f b })
          (journalMap { f with extents := remap b t f.extents, relocations := f.relocations + 1 })) s
    else s
  | _, _ => s

/-- RELOCATION_END. -/
def execRelocationEnd (block : Nat) (s : State) : Host.Outcome State Fault Refusal :=
  .next (relocationEndEffect block s)

/-- Checkpoints the read counts and the patrol's turns with a metadata update (R277, R278, R287). -/
def checkpointReads (s : State) : State :=
  if s.flash.state = .online then
    { s with flash := commitMeta { s.flash with
      checkpoint := s.flash.blocks.map fun e => (e.1, e.2.reads), checkDefault := s.flash.readDefault
      patrolCheck := s.flash.patrolTurns } }
  else s

/-- READ_COUNT_CHECKPOINT. -/
def execReadCountCheckpoint (s : State) : Host.Outcome State Fault Refusal := .next (checkpointReads s)

/-- A block of the mounted population. -/
def isBlock (f : Flash) (b : Nat) : Bool := decide (b < totalBlocks f.geom)

/-- The turn in which a block was last patrolled; 0 for none. -/
def patrolTurn (f : Flash) (b : Nat) : Nat := kvGetD f.patrolTurns b 0

/-- A block in service that the patrol has not read since the mount. -/
def unpatrolled (f : Flash) (b : Nat) : Bool :=
  !((blockOf f b).bad || (onRetired f b || (kvGet? f.patrolled b).isSome))

/-- The patrol may read the block next: during the pass that follows a mount, one with the oldest checkpoint of those that
the pass has still to read (R278). -/
def patrolDue (f : Flash) (b : Nat) : Bool :=
  (List.range (totalBlocks f.geom)).all fun c =>
    !unpatrolled f c || (unpatrolled f b && decide (patrolTurn f b ≤ patrolTurn f c))

/-- The patrol has read a block. -/
def notePatrol (b now : Nat) (f : Flash) : Flash :=
  { f with patrolled := kvPut f.patrolled b now, patrolTurns := kvPut f.patrolTurns b f.patrolNext
           patrolNext := f.patrolNext + 1 }

/-- RETENTION_PATROL: three pages of a block are read, and a weak block is refreshed (R278, R23). -/
def retentionPatrolEffect (p : PatrolFinding) (s : State) : State :=
  let b := p.block
  match s.flash.state, isBlock s.flash b && (blockUp s b && patrolDue s.flash b), ladderResult? s b p.ladder with
  | .online, true, some q =>
    let s := updateFlash (fun f => addReads b 2 (notePatrol b s.time.uptime f)) s
    let s := ladderEffect b 1 q s
    if s.flash.geom.retMargin < p.corrected ∨ q ≠ .hard then updateFlash (relocate b) s else s
  | _, _, _ => s

/-- RETENTION_PATROL. -/
def execRetentionPatrol (finding : PatrolFinding) (s : State) : Host.Outcome State Fault Refusal :=
  .next (retentionPatrolEffect finding s)

/-- The most erased block of a list. -/
def maxErases (f : Flash) (bs : List Nat) : Nat := bs.foldl (fun m b => max m (blockOf f b).erases) 0

/-- WEAR_LEVEL: the data of a die's least erased block moves when the erase counts lie too far apart (R281). -/
def wearLevelEffect (d : Nat) (s : State) : State :=
  let f := s.flash
  let bs := (dieBlocks f.geom d).filter fun b => !(blockOf f b).bad
  if f.state = .online ∧ d < 48 * diesPerChannel f.geom ∧ channelUp s (dieChannel f.geom d) = true then
    match leastErased f bs with
    | none => s
    | some b =>
      if f.geom.endurance < 10 * (maxErases f bs - (blockOf f b).erases) then updateFlash (relocate b) s else s
  else s

/-- WEAR_LEVEL. -/
def execWearLevel (die : Nat) (s : State) : Host.Outcome State Fault Refusal := .next (wearLevelEffect die s)

/-- DIE_RETIRE. -/
def dieRetireEffect (d : Nat) (s : State) : State :=
  if s.flash.state = .online ∧ d < 48 * diesPerChannel s.flash.geom ∧ channelUp s (dieChannel s.flash.geom d) = true then
    retireDie d s
  else s

/-- DIE_RETIRE. -/
def execDieRetire (die : Nat) (s : State) : Host.Outcome State Fault Refusal := .next (dieRetireEffect die s)

/-- The stripe's data has all been written, padding included. -/
def stripeWhole (x : Extent) (g : Staged) : Bool := x.sealing || decide ((g.stripe + 1) * stripeBytes ≤ x.writePoint)

/-- A stripe in flight of an extent whose member on a block is still to be programmed. -/
def awaitsProgram (f : Flash) (x : Extent) (b : Nat) (g : Staged) : Bool :=
  let i := x.blocks.findIdx fun c => c == b
  g.ext == x.id && (g.stripe / groupStripes f.geom == i / 48 && (!g.programmed.contains (i % 48) &&
    ((g.pool.isNone || g.buffer.isSome) && stripeWhole x g)))

/-- A page of an extent being written is programmed: up to four stripes have their member on the block's channel, and one
with all 48 leaves its staging buffer (R272, R303; DEDUCED, log 91). -/
def pageProgrammed (b : Nat) (s : State) : State :=
  match s.flash.extents.find? fun x => !x.sealedExt && x.blocks.contains b with
  | none => s
  | some x =>
    match s.flash.stages.find? (awaitsProgram s.flash x b) with
    | none => s
    | some g =>
      let ch := x.blocks.findIdx (fun c => c == b) % 48
      let mark (k : Staged) : Staged :=
        if awaitsProgram s.flash x b k && k.stripe / 4 == g.stripe / 4 then { k with programmed := ch :: k.programmed } else k
      endStages x.id (fun k => k.programmed.length == 48)
        { s with flash := { s.flash with stages := s.flash.stages.map mark } }

/-- NAND_PROGRAM_END: a failed program makes the block a grown bad block (R282). -/
def nandProgramEndEffect (b : Nat) (ok : Bool) (s : State) : State :=
  if s.flash.state = .online ∧ (blockOf s.flash b).used = true ∧ blockUp s b = true then
    if ok then pageProgrammed b s else growBad b s
  else s

/-- NAND_PROGRAM_END. -/
def execNandProgramEnd (block : Nat) (ok : Bool) (s : State) : Host.Outcome State Fault Refusal :=
  .next (nandProgramEndEffect block ok s)

/-- A block of a channel waits for room in the reserve: a grown bad block with live data, or one at RD_LIMIT. -/
def awaitsMove (ch : Nat) (f : Flash) (e : Nat × Block) : Bool :=
  channelOf f.geom e.1 == ch && (e.2.used && (e.2.moving.isNone && (!isTarget f e.1 && (e.2.bad || decide (f.geom.rdLimit ≤ e.2.reads)))))

/-- A block has come back to the reserve of a channel: what waited for one moves (R276, R282). -/
def retryMoves (ch : Nat) (f : Flash) : Flash :=
  (f.blocks.filter (awaitsMove ch f)).foldl (fun g e => if e.2.bad then beginMove none e.1 g else relocate e.1 g) f

/-- NAND_ERASE_END: the block joins the reserve, with no read counted since its erase, or becomes a grown bad block. -/
def nandEraseEndEffect (b : Nat) (ok : Bool) (s : State) : State :=
  if s.flash.state = .online ∧ (blockOf s.flash b).erasing = true ∧ blockUp s b = true then
    if ok then
      updateFlash (fun f => retryMoves (channelOf f.geom b) (mapBlock b (fun x => { x with
        erasing := false, used := false, erases := x.erases + 1, reads := 0, rebuiltAt := none }) f)) s
    else growBad b (updateFlash (mapBlock b (fun x => { x with used := false })) s)
  else s

/-- NAND_ERASE_END. -/
def execNandEraseEnd (block : Nat) (ok : Bool) (s : State) : Host.Outcome State Fault Refusal :=
  .next (nandEraseEndEffect block ok s)

/-! ## Mount (R285 to R287) -/

/-- Every promotion from flash fails. -/
def failFlashPromotions (s : State) : State :=
  failPromotions (s.tier.copies.filter fun c => c.state == .promoting && (c.source == 3 &&
    (objOf? s c.obj).any fun o => o.homeTier == 3)) s

/-- A mount that fails. -/
def mountFailed (cause : Nat) (g : FlashGeometry) (s : State) : State :=
  let s := setFlashState .failed cause { s with flash := { s.flash with geom := g } }
  failFlashPromotions (flashEvent 0 0 0 0 s)

/-- An extent that no reset finds sealed: it exists with all its data, or it does not (R287). -/
def recoverExtents : List Extent → State → List Extent × State
  | [], s => ([], s)
  | x :: r, s =>
    if x.sealedExt then
      let p := recoverExtents r s
      (x :: p.1, p.2)
    else
      let c := freeChoice s
      let p := recoverExtents r c.2
      if (x.sealing || x.writePoint == x.length) && c.1 then ({ x with sealedExt := true, sealing := false } :: p.1, p.2)
      else (p.1, p.2)

/-- The read count of a listed block after a mount (R277). -/
def mountedReads (f : Flash) (b : Nat) : Nat := (kvGet? f.checkpoint b).getD f.checkDefault + f.geom.rdLimit / 4

/-- What the mount finds of the blocks: those of no extent are free, an interrupted erase or relocation runs again. -/
def mountBlocks (f : Flash) : KV Block :=
  f.blocks.map fun e =>
    let used := f.extents.any fun x => x.blocks.contains e.1
    (e.1, { e.2 with
      reads := mountedReads f e.1, used := used, moving := none
      erasing := !e.2.bad && (!used && (e.2.used || e.2.erasing)) })

/-- After a mount, retired dies, blocks out of service and blocks at RD_LIMIT give up their data. -/
def resumeMoves (f : Flash) : Flash :=
  let f := f.retiredDies.foldl (fun g d => settleDie d g) f
  (f.blocks.map (·.1)).foldl (fun g b =>
    if (blockOf g b).bad then beginMove none b g
    else if g.geom.rdLimit ≤ (blockOf g b).reads then relocate b g else g) (judgeReserve f)

/-- The length of an extent keeps R273. -/
def extentLenOk (n : Nat) : Bool := n % 4096 == 0 && (decide (4096 ≤ n) && decide (n ≤ 2 ^ 36))

/-- Extent ids strictly ascend. -/
def ascendingIds : List MediumExtent → Bool
  | a :: b :: r => decide (a.id < b.id) && ascendingIds (b :: r)
  | [_] => true
  | [] => true

/-- An extent of a medium's map keeps R273, and its blocks lie on the channels in turn (R272). -/
def mediumExtentOk (g : FlashGeometry) (next : Nat) (x : MediumExtent) : Bool :=
  decide (1 ≤ x.id) && (decide (x.id ≤ 0xFFFFFFFE) && decide (x.id < next)) &&
  (extentLenOk x.length && (decide (x.data.length ≤ x.length) &&
    x.blocks.length == 48 * ceilDiv (stripesOf x.length) (groupStripes g))) &&
  x.blocks.zipIdx.all fun e => decide (e.1 < totalBlocks g) && channelOf g e.1 == e.2 % 48

/-- The map of a medium can be one of this population: the rules of R272, R273 and R279 for every extent, and no block of
two. -/
def mediumOk (g : FlashGeometry) (m : FlashMedium) : Bool :=
  let bs := m.extents.flatMap (·.blocks)
  decide (m.extents.length ≤ 1048576) && (decide (1 ≤ m.nextExtent) && ascendingIds m.extents) &&
  (bs.eraseDups.length == bs.length && decide ((m.extents.map fun x => stripesOf x.length).sum ≤ usableStripes g)) &&
  ((m.retired.all fun d => decide (d < 48 * diesPerChannel g)) && m.bad.all fun b => decide (b < totalBlocks g)) &&
  m.extents.all (mediumExtentOk g m.nextExtent)

/-- The extent that a medium's map names. -/
def adoptExtent (x : MediumExtent) : Extent where
  id := x.id
  length := x.length
  sealedExt := true
  sealing := false
  writePoint := x.length
  data := memWrite [] 0 x.data
  blocks := x.blocks

/-- The blocks that a medium's metadata says anything of, with their erase counts. -/
def adoptBlocks (m : FlashMedium) : KV Block :=
  let named := m.extents.flatMap (·.blocks) ++ (m.reads.map (·.1) ++ (m.erases.map (·.1) ++ m.bad))
  named.foldl (fun t b => kvPut t b {
    reads := 0, erases := ((m.erases.find? fun e => e.1 == b).map (·.2)).getD m.eraseDefault, bad := m.bad.contains b
    used := false, moving := none, erasing := false, rebuiltAt := none }) []

/-- What a medium holds that no mount has read before; one that is known is as the State has it (R285 step 5). -/
def adoptMedium (g : FlashGeometry) (m : FlashMedium) (f : Flash) : Flash :=
  if f.medium = .unknown then
    { f with
      medium := .formatted, mediumGeom := g, superSeq := m.superSeq, superCopy := m.superCopy, retiredDies := m.retired
      extents := m.extents.map adoptExtent, nextExtent := m.nextExtent, blocks := adoptBlocks m
      eraseDefault := m.eraseDefault
      checkpoint := m.reads.foldl (fun t e => kvPut t e.1 e.2) [], checkDefault := m.readDefault
      patrolCheck := m.patrols.foldl (fun t e => kvPut t e.1 e.2) []
      patrolNext := (m.patrols.foldl (fun n e => max n e.2) 0) + 1 }
  else f

/-- A mount can read the metadata that its result gives: every channel answers, a medium not known holds a map of the
population, and one that is known lies in the population that it was written on. -/
def mountPossible (g : FlashGeometry) (m : FlashMedium) (s : State) : Bool :=
  channelsUp s && (match s.flash.medium with
    | .unknown => mediumOk g m
    | .formatted => g == s.flash.mediumGeom
    | .blank | .cut => false)

/-- A mount that reaches its step 6. -/
def mountOnline (g : FlashGeometry) (m : FlashMedium) (s : State) : State :=
  let p := recoverExtents s.flash.extents s
  let s := p.2
  let f := adoptMedium g m { s.flash with extents := p.1 }
  let f := { f with
    geom := g, degraded := [], patrolled := [], patrolTurns := f.patrolCheck, retries := 0, rebuilds := 0, relocations := 0
    grown := [] }
  let f := { f with blocks := mountBlocks f, readDefault := f.checkDefault + g.rdLimit / 4 }
  let s := setFlashState .online 0 { s with flash := f }
  let s := flashEvent 0 0 0 0 s
  updateFlash resumeMoves s

/-- Whether a mount finds a valid superblock on some die, as its result says for a medium not known (R285). A format that
was cut off may have left one (R287). -/
def findsSuper (f : Flash) (r : MountResult) : Bool :=
  match f.medium, r with
  | .formatted, _ => true
  | .blank, _ => false
  | _, .unformatted _ => false
  | _, _ => true

/-- A mount finds no valid superblock. -/
def mountUnformatted (g : FlashGeometry) (s : State) : State :=
  let s : State := { s with flash := { s.flash with geom := g, extents := [], medium := .blank } }
  failFlashPromotions (flashEvent 0 0 0 0 (setFlashState .unformatted 0 s))

/-- A mount of a population that breaks R269, of a part on no entry, or of a medium without a valid superblock ends so
whatever else it met; none if nothing of the kind decides (R285, R286). -/
def mountDecided? (r : MountResult) (g : FlashGeometry) (s : State) : Option State :=
  if !populationOk g then some (mountFailed 1 g s)
  else if !partQualified g then some (mountFailed 2 g s)
  else if !findsSuper s.flash r then some (mountUnformatted g s)
  else none

/-- MOUNT_END, in the order of R285. A result that what went before rules out ends nothing: a cause of R286 that is not
its own, no superblock on a formatted medium, and, of a format that was cut off, a complete copy or a newer format (R287). -/
def mountEndEffect (r : MountResult) (s : State) : State :=
  if s.flash.state = .mounting ∧ s.boot.stage = .ready then
    match r with
    | .none => flashEvent 0 0 0 0 (setFlashState .none 0 s)
    | .unformatted g => (mountDecided? r g s).getD s
    | .failed 3 g =>
      if populationOk g = true ∧ partQualified g = true then mountFailed 3 g s else (mountDecided? r g s).getD s
    | .failed c g => (mountDecided? r g s).getD (if c = 4 ∨ (c = 5 ∧ s.flash.medium ≠ .cut) then mountFailed c g s else s)
    | .online g m => (mountDecided? r g s).getD (if mountPossible g m s then mountOnline g m s else s)
  else s

/-- MOUNT_END. -/
def execMountEnd (r : MountResult) (s : State) : Host.Outcome State Fault Refusal := .next (mountEndEffect r s)

/-! ## Flash commands (R279, R280) -/

/-- Blocks that are in service: the patrol reads them. -/
def blocksInService (f : Flash) : Nat :=
  totalBlocks f.geom - f.retiredDies.length * f.geom.blocksPerDie -
    (f.blocks.filter fun e => e.2.bad && !onRetired f e.1).length

/-- Seconds since the oldest block in service was last patrolled, once every one has been since the mount. -/
def patrolAge? (s : State) : Option Nat :=
  let done := s.flash.patrolled.filter fun e => !(blockOf s.flash e.1).bad && !onRetired s.flash e.1
  if done.length < blocksInService s.flash then none
  else some ((s.time.uptime - done.foldl (fun m e => min m e.2) s.time.uptime) / 1250000000)

/-- The FLASH_STATUS record (R290). PATROL_AGE before every block has been patrolled is free. -/
def flashRecord (s : State) : List Byte × State :=
  let f := s.flash
  let g := f.geom
  let age := match patrolAge? s with
    | some n => (natLe 8 n, s)
    | none => freeBytes 8 s
  (natLe 1 (flashCode f.state) ++ natLe 1 (flashFlags f) ++ natLe 2 f.failCause ++ natLe 1 g.targets ++ natLe 1 g.dies ++
    natLe 2 g.partEntry ++ natLe 8 (rawBytes g) ++ natLe 8 (usableStripes g * stripeBytes) ++
    natLe 8 (freeStripes f * stripeBytes) ++
    natLe 4 (if totalBlocks g = 0 then 0 else reserveBlocks f * 1000000 / totalBlocks g) ++ natLe 4 f.extents.length ++
    natLe 4 f.retiredDies.length ++ natLe 4 0 ++ natLe 8 (f.degraded.foldl (fun m c => m + 2 ^ c) 0) ++ age.1 ++
    natLe 8 f.retries ++ natLe 8 f.rebuilds ++ natLe 8 f.relocations ++ natLe 40 0, age.2)

/-- FLASH_STATUS. -/
def cmdFlashStatus (c : Cmd) (s : State) : CmdEnd :=
  if argOk c 128 s then
    let r := flashRecord s
    .done stOk [] (putBytes (argAddr c) r.1 r.2)
  else reject stBadArg s

/-- FLASH_STATUS. -/
def execFlashStatus (s : State) : Host.Outcome State Fault Refusal := .next (runLong 0x0801 cmdFlashStatus s)

/-- FLASH_FORMAT. From its start the tier holds no metadata: STATE is UNFORMATTED (R279, R287; DEDUCED, log 48). -/
def cmdFlashFormat (c : Cmd) (s : State) : CmdEnd :=
  let f := s.flash
  let may := match f.state with
    | .unformatted => true
    | .failed => f.failCause == 4
    | .online => f.extents.isEmpty
    | .mounting => false
    | .none => false
  if cmdField c 16 4 ≠ 0x46424D54 then reject stBadArg s
  else if f.formatting ∨ may = false then reject stBadState s
  else
    .opened .flashFormat (setFlashState .unformatted 0 (updateFlash (fun f => { f with
      formatting := true, extents := [], medium := .blank, superSeq := 0, superCopy := 0, journal := 0
      blocks := f.blocks.map fun e => (e.1, { e.2 with used := false, moving := none }) }) s))

/-- FLASH_FORMAT. -/
def execFlashFormat (s : State) : Host.Outcome State Fault Refusal := .next (runPlain 0x0802 cmdFlashFormat s)

/-- The open command is a FLASH_FORMAT. -/
def closesFormat (o : OpenCmd) : Option (Nat × List Byte) :=
  match o.kind with
  | .flashFormat => some (stOk, [])
  | .abortStep _ | .abortJob | .peal _ | .extentSeal _ | .jobClose | .loadImage | .late _ _ => none

/-- FLASH_FORMAT_DONE: every block has been erased, the factory marks are recorded, and the tier is ONLINE and empty. A
block out of service stays so (R282), and the counts since the mount go on (R290). -/
def formatDoneEffect (bad : List Nat) (s : State) : State :=
  if s.flash.formatting ∧ s.boot.stage = .ready ∧ channelsUp s = true then
    let kept (f : Flash) : KV Block := f.blocks.map fun e => (e.1, { e.2 with
      reads := 0, erases := e.2.erases + 1, used := false, moving := none, erasing := false, rebuiltAt := none })
    let done (f : Flash) : Flash := commitMeta { f with
      formatting := false, readDefault := 0, eraseDefault := f.eraseDefault + 1, checkpoint := [], checkDefault := 0
      retiredDies := [], degraded := [], patrolled := [], patrolTurns := [], patrolCheck := [], grown := []
      medium := .formatted, mediumGeom := f.geom
      blocks := bad.foldl (fun t b => kvPut t b { (kvGetD t b (Block.fresh f)) with bad := true }) (kept f) }
    closeOpen closesFormat (setFlashState .online 0 (updateFlash done s))
  else s

/-- FLASH_FORMAT_DONE. -/
def execFlashFormatDone (factoryBad : List Nat) (s : State) : Host.Outcome State Fault Refusal :=
  .next (formatDoneEffect factoryBad s)

/-- An extent by its id. -/
def extentOf? (f : Flash) (id : Nat) : Option Extent := f.extents.find? fun x => x.id == id

/-- Changes an extent. -/
def mapExtent (id : Nat) (g : Extent → Extent) (f : Flash) : Flash :=
  { f with extents := f.extents.map fun x => if x.id = id then g x else x }

/-- Draws one block of each channel from the reserve. -/
def drawGroup : List Nat → Flash → Option (List Nat × Flash)
  | [], f => some ([], f)
  | ch :: r, f =>
    match drawExtent? f ch with
    | none => none
    | some b =>
      match drawGroup r (mapBlock b (fun x => { x with used := true }) f) with
      | none => none
      | some (bs, g) => some (b :: bs, g)

/-- Draws n groups of 48 blocks. -/
def drawGroups : Nat → Flash → Option (List Nat × Flash)
  | 0, f => some ([], f)
  | n + 1, f =>
    match drawGroup (List.range 48) f with
    | none => none
    | some (bs, g) =>
      match drawGroups n g with
      | none => none
      | some (cs, h) => some (bs ++ cs, h)

/-- EXTENT_CREATE. -/
def cmdExtentCreate (c : Cmd) (s : State) : CmdEnd :=
  let n := cmdField c 16 8
  let f := s.flash
  if f.state ≠ .online then reject stBadState s
  else if !extentLenOk n then reject stBadArg s
  else if f.lowReserve = true ∨ freeStripes f < stripesOf n ∨ 1048576 ≤ f.extents.length ∨ 0xFFFFFFFE < f.nextExtent then
    reject stNoResource s
  else
    match drawGroups (ceilDiv (stripesOf n) (groupStripes f.geom)) f with
    | none => reject stNoResource s
    | some (bs, g) =>
      .done stOk (natLe 4 f.nextExtent) (updateFlash (fun _ => journalMap { g with
        nextExtent := f.nextExtent + 1
        extents := f.extents ++ [⟨f.nextExtent, n, false, false, 0, [], bs⟩] }) s)

/-- EXTENT_CREATE. -/
def execExtentCreate (s : State) : Host.Outcome State Fault Refusal := .next (runPlain 0x0803 cmdExtentCreate s)

/-- The source of an EXTENT_WRITE lies in HBM outside the firmware reserve, or in backed host-die memory. -/
def writeSourceOk (s : State) (a n : Nat) : Bool := hbmRange a n || hostOk s a n

/-- The stripes that a write reaches go into flight, those already there apart (R303). The extent holds the bytes that the
source has at the command, since they stay unchanged until the seal (R280). -/
def stageWrite (id ofs n : Nat) (s : State) : State :=
  let reached := ((List.range (ceilDiv (ofs % stripeBytes + n) stripeBytes)).map fun i => (id, ofs / stripeBytes + i))
  startStages (s.flash.stageQueue ++ reached.filter fun e => !isStaged s.flash e) s

/-- EXTENT_WRITE. -/
def cmdExtentWrite (c : Cmd) (s : State) : CmdEnd :=
  let id := cmdField c 16 4
  let ofs := cmdField c 24 8
  let src := cmdField c 32 8
  let n := cmdField c 40 8
  if s.flash.state ≠ .online then reject stBadState s
  else
    match extentOf? s.flash id with
    | none => reject stBadArg s
    | some x =>
      if x.sealedExt = true ∨ ofs ≠ x.writePoint ∨ n % 4096 ≠ 0 ∨ x.length < ofs + n ∨ writeSourceOk s src n = false then
        reject stBadArg s
      else if s.flash.lowReserve then reject stNoResource s
      else
        .done stOk [] (stageWrite id ofs n { s with flash := mapExtent id (fun y => { y with
          writePoint := ofs + n, data := memCopy y.data ofs n (memSlice s.mem src n) }) s.flash })

/-- EXTENT_WRITE. -/
def execExtentWrite (s : State) : Host.Outcome State Fault Refusal := .next (runPlain 0x0804 cmdExtentWrite s)

/-- The stripes of an extent that no write has reached are programmed as padding at its seal (R273, R279). -/
def stageRest (x : Extent) (s : State) : State :=
  if x.sealing then s
  else
    let first := ceilDiv x.writePoint stripeBytes
    let rest := (List.range (stripesOf x.length - first)).map fun i => (x.id, first + i)
    startStages (s.flash.stageQueue ++ rest) s

/-- Every stripe of an extent is programmed: none is in flight or waits to be. -/
def allProgrammed (f : Flash) (id : Nat) : Bool :=
  !(f.stages.any fun g => g.ext == id) && !(f.stageQueue.any fun e => e.1 == id)

/-- EXTENT_SEAL. -/
def cmdExtentSeal (c : Cmd) (s : State) : CmdEnd :=
  let id := cmdField c 16 4
  if s.flash.state ≠ .online then reject stBadState s
  else
    match extentOf? s.flash id with
    | none => reject stBadArg s
    | some x =>
      if x.sealedExt then reject stBadArg s
      else .opened (.extentSeal id) (stageRest x
        { s with flash := mapExtent id (fun y => { y with sealing := true }) s.flash })

/-- EXTENT_SEAL. -/
def execExtentSeal (s : State) : Host.Outcome State Fault Refusal := .next (runPlain 0x0805 cmdExtentSeal s)

/-- The open command seals an extent. -/
def closesSeal (id status : Nat) (o : OpenCmd) : Option (Nat × List Byte) :=
  match o.kind with
  | .extentSeal e => if e = id then some (status, []) else none
  | .abortStep _ | .abortJob | .peal _ | .flashFormat | .jobClose | .loadImage | .late _ _ => none

/-- EXTENT_SEAL_DONE: every stripe of the extent is programmed, and both metadata copies hold the map. -/
def sealDoneEffect (id : Nat) (s : State) : State :=
  match s.flash.state, extentOf? s.flash id with
  | .online, some x =>
    if x.sealing = true ∧ allProgrammed s.flash id = true then
      closeOpen (closesSeal id stOk)
        { s with flash := commitMeta (commitMeta
          (mapExtent id (fun y => { y with sealedExt := true, sealing := false }) s.flash)) }
    else s
  | _, _ => s

/-- EXTENT_SEAL_DONE. -/
def execExtentSealDone (extent : Nat) (s : State) : Host.Outcome State Fault Refusal := .next (sealDoneEffect extent s)

/-- The blocks of an extent, and those its relocations write, are erased in the background. -/
def releaseBlocks (x : Extent) (f : Flash) : Flash :=
  let drop (b : Nat) (f : Flash) : Flash :=
    mapBlock b (fun y => { y with used := false, moving := none, erasing := !y.bad && !onRetired f b }) f
  x.blocks.foldl (fun g b =>
    match (blockOf g b).moving with
    | some t => drop b (drop t g)
    | none => drop b g) f

/-- EXTENT_DELETE. -/
def cmdExtentDelete (c : Cmd) (s : State) : CmdEnd :=
  let id := cmdField c 16 4
  if s.flash.state ≠ .online then reject stBadState s
  else
    match extentOf? s.flash id with
    | none => reject stBadArg s
    | some x =>
      if s.tier.objs.any fun o => o.homeTier == 3 && o.homeAddr == id then reject stBadState s
      else
        .done stOk [] (closeOpen (closesSeal id stAborted) (dropStages id (updateFlash (fun f =>
          releaseBlocks x (journalMap { f with extents := f.extents.filter fun y => y.id != id })) s)))

/-- EXTENT_DELETE. -/
def execExtentDelete (s : State) : Host.Outcome State Fault Refusal := .next (runPlain 0x0806 cmdExtentDelete s)

end Sys2Proof.Machine
end

