-- ==== Sys2Proof/Machine/Launch.lean ====
section
/-! DEFINITION. Launch trees and Peal (R371 to R378), but for the decision point and the strobe, which stand with the step. -/

namespace Sys2Proof.Machine

/-! ## The launch trees (R372) -/

/-- Reads a tree record from its fields at offset 16 of the command entry. -/
def treeOf (b : List Byte) : Tree where
  index := fieldOf b 16 2
  members := fieldOf b 20 4
  pParent := if fieldOf b 24 1 = 0xFF then none else some (fieldOf b 24 1)
  sParent := if fieldOf b 25 1 = 0xFF then none else some (fieldOf b 25 1)
  depth := fieldOf b 26 1
  pChildren := fieldOf b 32 16
  sChildren := fieldOf b 48 16

/-- The launch root has neither parent. -/
def isRoot (t : Tree) : Bool := t.pParent.isNone && t.sParent.isNone

/-- The ports of a tree's children: tree 0 primary, 1 shadow. -/
def treeChildren (t : Tree) (tree : Nat) : List Nat := bitList 128 (if tree = 0 then t.pChildren else t.sChildren)

/-- The port to a tree's parent. -/
def treeParent (t : Tree) (tree : Nat) : Option Nat := if tree = 0 then t.pParent else t.sParent

/-- The checks of R372 on a tree record. -/
def treeRecordOk (b : List Byte) : Bool :=
  let t := treeOf b
  let ports := t.pParent.toList ++ (t.sParent.toList ++ (treeChildren t 0 ++ treeChildren t 1))
  t.pParent.isSome == t.sParent.isSome && (ports.all (fun p => decide (p < 128)) && (decide ports.Nodup &&
  (decide (1 ≤ t.members) && (decide (t.members ≤ 65536) && (decide (t.index < t.members) &&
  (fieldOf b 18 2 == 0 && (allZero ((b.drop 27).take 5) &&
  (if isRoot t then (if t.members = 1 then t.depth == 0 else decide (1 ≤ t.depth) && decide (t.depth ≤ 16))
   else t.depth == 0))))))))

/-- TREE_SET. -/
def cmdTreeSet (c : Cmd) (s : State) : CmdEnd :=
  if s.job.opened = false ∨ s.launch.pend.isSome = true then reject stBadState s
  else if treeRecordOk c.bytes then
    .done stOk [] { s with launch := { s.launch with tree := some (treeOf c.bytes) } }
  else reject stBadArg s

/-- TREE_SET. -/
def execTreeSet (s : State) : Host.Outcome State Fault Refusal := .next (runPlain 0x0404 cmdTreeSet s)

/-! ## Peal messages (R374) -/

/-- The ticks between the decision point and the Downbeat (R371). -/
def guardTicks : Nat := 12500

/-- The payload of a Peal message. -/
def pealPayload (kind tree : Nat) (q : Pending) (indices : List Nat) : List Byte :=
  natLe 1 kind ++ natLe 1 tree ++ natLe 2 0 ++ natLe 4 q.id.toNat ++ natLe 8 q.downbeat ++ natLe 4 q.step.toNat ++
    natLe 2 indices.length ++ natLe 10 0 ++ indices.flatMap (natLe 2)

/-- The fields of a Peal message. -/
def pealKind (p : Packet) : Nat := fieldOf p.payload 0 1
/-- TREE of a Peal message. -/
def pealTree (p : Packet) : Nat := fieldOf p.payload 1 1
/-- LAUNCH_ID of a Peal message. -/
def pealId (p : Packet) : Word := BitVec.ofNat 32 (fieldOf p.payload 4 4)
/-- DOWNBEAT of a Peal message. -/
def pealD (p : Packet) : Nat := fieldOf p.payload 8 8
/-- STEP of a Peal message. -/
def pealStep (p : Packet) : Word := BitVec.ofNat 32 (fieldOf p.payload 16 4)
/-- The indices of an ACK. -/
def pealIndices (p : Packet) : List Nat := (List.range (fieldOf p.payload 20 2)).map fun i => fieldOf p.payload (32 + 2 * i) 2

/-- Sends a Peal message to a tree's children. -/
def pealDown (kind tree : Nat) (q : Pending) (t : Tree) (s : State) : State :=
  queueControls (controlPacket s 0x10 (pealPayload kind tree q [])) (treeChildren t tree) s

/-- Notes a copy as forwarded. -/
def noteForward (key : Word × Nat × Nat × Nat) (s : State) : State :=
  { s with launch := { s.launch with fwd := key :: s.launch.fwd } }

/-- What tells a copy of a Peal message apart: its launch, by LAUNCH_ID and Downbeat, its kind and its tree (log 41). -/
def pealKey (p : Packet) : Word × Nat × Nat × Nat := (pealId p, pealD p, pealKind p, pealTree p)

/-- Forwards the first copy received on a tree to the children in it, once (R375). -/
def forwardPeal (p : Packet) (s : State) : State :=
  let key := pealKey p
  match s.launch.tree with
  | none => s
  | some t =>
    if s.launch.fwd.contains key then s
    else noteForward key
      (queueControls (controlPacket s 0x10 p.payload) (treeChildren t (pealTree p)) s)

/-- Replaces the pending launch. -/
def setPending (q : Pending) (s : State) : State := { s with launch := { s.launch with pend := some q } }

/-- A pending launch as it begins. -/
def Pending.start (id : Word) (downbeat : Nat) (step : Word) (armed : Bool) : Pending where
  id := id
  downbeat := downbeat
  step := step
  armed := armed
  acked := false
  disarmed := !armed
  abandoned := false
  abortJob := false
  acks := []
  disarmSent := false

/-- The decision point of a Downbeat has been reached. -/
def pastDecision (s : State) (d : Nat) : Bool := decide (d ≤ s.time.beat + guardTicks)

/-- The root's DISARM on both trees; the root itself is disarmed, unless the launch was abandoned first. -/
def sendDisarm (q : Pending) (t : Tree) (s : State) : State :=
  let s := pealDown 2 1 q t (pealDown 2 0 q t s)
  setPending { q with disarmSent := true, armed := false, disarmed := q.disarmed || !q.abandoned } s

/-- A launch event (R377, R421). -/
def launchEvent (step : Word) (outcome downbeat : Nat) (s : State) : State :=
  postEvent 5 stOk 0 (natLe 4 step.toNat ++ natLe 1 outcome ++ natLe 3 0 ++ natLe 8 downbeat) s

/-- The PEAL of a launch completes: with ABORTED if the root disarmed or the launch was abandoned (R373, R428). -/
def closesPeal (q : Pending) (o : OpenCmd) : Option (Nat × List Byte) :=
  match o.kind with
  | .peal id =>
    if id = q.id then some (if q.disarmSent ∨ q.abortJob then (stAborted, []) else (stOk, natLe 4 id.toNat)) else none
  | .abortStep _ | .abortJob | .extentSeal _ | .flashFormat | .jobClose | .loadImage | .late _ _ => none

/-- The launch outcome, its event, and the strobe of a LAUNCHED device. A DISARM without an ARM posts nothing (R377). -/
def latchOutcome (q : Pending) (s : State) : State :=
  let s : State := { s with launch := { s.launch with pend := none } }
  if q.abandoned then launchEvent q.step 3 q.downbeat s
  else if q.disarmed then (if s.launch.known.contains (q.id, q.downbeat) then launchEvent q.step 1 q.downbeat s else s)
  else launchEvent q.step 0 q.downbeat { s with launch := { s.launch with strobe := some (q.step, q.downbeat) } }

/-- R376: at D − 12,500 − L the root that lacks an index sends DISARM, and one that holds them all sends nothing. -/
def ackDeadlineEffect (s : State) : State :=
  match s.launch.pend, s.launch.tree with
  | some q, some t =>
    if isRoot t ∧ q.disarmSent = false ∧
        q.downbeat ≤ s.time.beat + guardTicks + 1250 * t.depth ∧ q.acks.length < t.members then sendDisarm q t s
    else s
  | _, _ => s

/-- ACK_DEADLINE. -/
def execAckDeadline (s : State) : Host.Outcome State Fault Refusal := .next (ackDeadlineEffect s)

/-- An obeyed Gong ends a pending launch here (R381). The root's collection goes on to its deadline (R376). -/
def abandonLaunch (s : State) : State :=
  match s.launch.pend with
  | none => s
  | some q => if q.disarmed ∨ q.abandoned then s else setPending { q with abandoned := true, armed := false } s

/-- ABORT_JOB ends a pending launch; the root disarms the others at once if its ack deadline has not passed (R378, R428). -/
def abortLaunch (s : State) : State :=
  match s.launch.pend with
  | none => s
  | some q =>
    let q := if q.disarmed then { q with abortJob := true }
      else { q with abortJob := true, abandoned := true, armed := false }
    match s.launch.tree with
    | none => setPending q s
    | some t =>
      if isRoot t ∧ q.disarmSent = false ∧ s.time.beat + guardTicks + 1250 * t.depth < q.downbeat then sendDisarm q t s
      else setPending q s

/-- PEAL (R373). -/
def cmdPeal (c : Cmd) (s : State) : CmdEnd :=
  let d := cmdField c 16 8
  match s.launch.tree with
  | none => reject stBadState s
  | some t =>
    if isRoot t = false ∨ s.time.state ≠ .locked ∨ s.launch.pend.isSome = true then reject stBadState s
    else if d < s.time.beat + max 50000 (guardTicks + 3 * (1250 * t.depth)) then reject stBadArg s
    else
      let q := Pending.start s.launch.nextId d (BitVec.ofNat 32 (cmdField c 24 4)) true
      let s := noteForward (q.id, d, 0, 1) (noteForward (q.id, d, 0, 0) (pealDown 0 1 q t (pealDown 0 0 q t s)))
      let s := setPending q { s with launch := { s.launch with
        nextId := q.id + 1, downbeat := d, known := (q.id, d) :: s.launch.known } }
      .opened (.peal q.id) s

/-- PEAL. -/
def execPeal (s : State) : Host.Outcome State Fault Refusal := .next (runPlain 0x0405 cmdPeal s)

/-! ## Receiving Peal messages (R375) -/

/-- A Peal message arrives: one of another job, or with a reserved KIND or TREE, is dropped and counted. -/
def receivePeal (kind port : Nat) (p : Packet) (f : State → State) (s : State) : State :=
  receive 0x10 true (some port) p (fun t =>
    if ¬ (t.job.opened = true ∧ p.job = t.job.id) ∨ 2 < pealKind p ∨ 1 < pealTree p then addCount tcStrayPeal 1 t
    else if pealKind p = kind then f t else s) s

/-- An ARM that reaches a device which is not armed: it arms the device, or is late. A launch that was disarmed or abandoned
and gives way to it latches its outcome then (DESIGN CHOICE, log 41: R377 has that at the decision point, and R375 keeps no
second pending launch apart). -/
def armFresh (first : Bool) (p : Packet) (s : State) : State :=
  if pastDecision s (pealD p) then
    let s := addCount tcLateArm 1 s
    if first then launchEvent (pealStep p) 2 (pealD p) s else s
  else
    let s := match s.launch.pend with
      | some q => closeOpen (closesPeal q) (latchOutcome q s)
      | none => s
    setPending (Pending.start (pealId p) (pealD p) (pealStep p) true)
      { s with launch := { s.launch with downbeat := pealD p } }

/-- An ARM (R375). -/
def armEffect (p : Packet) (s : State) : State :=
  let s := forwardPeal p s
  let id := pealId p
  let key := (id, pealD p)
  let first := !s.launch.known.contains key
  let s : State := { s with launch := { s.launch with known := if first then key :: s.launch.known else s.launch.known } }
  match s.launch.pend with
  | some q =>
    if q.id = id then (if pastDecision s (pealD p) then addCount tcLateArm 1 s else s)
    else if q.armed then addCount tcStrayPeal 1 s
    else armFresh first p s
  | none => armFresh first p s

/-- PEAL_ARM. -/
def execPealArm (port : Nat) (p : Packet) (s : State) : Host.Outcome State Fault Refusal :=
  .next (receivePeal 0 port p (armEffect p) s)

/-- A DISARM: before the decision point it disarms, and an ARM of the same launch that follows it arms nothing (log 41). -/
def disarmEffect (p : Packet) (s : State) : State :=
  let s := forwardPeal p s
  if pastDecision s (pealD p) then addCount tcStrayPeal 1 s
  else
    match s.launch.pend with
    | none => setPending (Pending.start (pealId p) (pealD p) (pealStep p) false) s
    | some q =>
      if q.id ≠ pealId p then addCount tcStrayPeal 1 s
      else if q.abandoned then s
      else setPending { q with armed := false, disarmed := true } s

/-- PEAL_DISARM. -/
def execPealDisarm (port : Nat) (p : Packet) (s : State) : Host.Outcome State Fault Refusal :=
  .next (receivePeal 2 port p (disarmEffect p) s)

/-- Indices added to those collected. -/
def mergeIndices (members : Nat) (new acks : List Nat) : List Nat :=
  new.foldl (fun l i => if l.contains i || decide (members ≤ i) then l else i :: l) acks

/-- An ACK from a tree child is relayed up the same tree, or collected by the root (R375, R376). -/
def ackPealEffect (port : Nat) (p : Packet) (s : State) : State :=
  match s.launch.tree with
  | none => addCount tcStrayPeal 1 s
  | some t =>
    if !((treeChildren t (pealTree p)).contains port) then addCount tcStrayPeal 1 s
    else
      match treeParent t (pealTree p) with
      | some up => queueControl up (controlPacket s 0x10 p.payload) s
      | none =>
        let s := ackDeadlineEffect s
        match s.launch.pend with
        | none => addCount tcStrayPeal 1 s
        | some q =>
          if q.id ≠ pealId p then addCount tcStrayPeal 1 s
          else setPending { q with acks := mergeIndices t.members (pealIndices p) q.acks } s

/-- PEAL_ACK. -/
def execPealAck (port : Nat) (p : Packet) (s : State) : Host.Outcome State Fault Refusal :=
  .next (receivePeal 1 port p (ackPealEffect port p) s)

/-- The conditions of an acknowledgement (R375). -/
def mayAcknowledge (q : Pending) (s : State) : Bool :=
  q.armed && (!q.acked && (s.time.state == .locked && (s.ctl.gongPending.isNone && (!pastDecision s q.downbeat &&
    match s.ctl.armed with
    | some g => g.step == q.step
    | none => false))))

/-- ARM_ACKNOWLEDGE: the armed device sends its index up both trees, or, as the root, collects it. -/
def armAcknowledgeEffect (s : State) : State :=
  match s.launch.pend, s.launch.tree with
  | some q, some t =>
    if mayAcknowledge q s then
      if isRoot t then
        if q.downbeat ≤ s.time.beat + guardTicks + 1250 * t.depth then ackDeadlineEffect s
        else setPending { q with acked := true, acks := mergeIndices t.members [t.index] q.acks } s
      else
        let send (tree : Nat) (u : State) : State :=
          queueControls (controlPacket u 0x10 (pealPayload 1 tree q [t.index])) (treeParent t tree).toList u
        setPending { q with acked := true } (send 1 (send 0 s))
    else s
  | _, _ => s

/-- ARM_ACKNOWLEDGE. -/
def execArmAcknowledge (s : State) : Host.Outcome State Fault Refusal := .next (armAcknowledgeEffect s)

end Sys2Proof.Machine
end

