-- ==== Sys2Proof/Machine/Time.lean ====
section
/-! DEFINITION. Beat time (R362 to R367) and the SY task (R368 to R370). -/

namespace Sys2Proof.Machine

/-! ## Time messages (R367) -/

/-- The device's candidate key (R364). -/
def ownKey (s : State) : Nat := selfId s * 2 ^ 24 + s.mgmt.physId.toNat

/-- The root key that the device advertises: that of the root at distance 0, itself, while it is the time root or has had no
lock (DEDUCED, log 40); else that of the root that it last followed. -/
def rootKeyOf (s : State) : Nat := if s.time.state = .unlocked ∨ s.time.dist = 0 then ownKey s else s.time.rootKey

/-- The 48-byte payload of a TIME message; the time of its sending is stamped as it leaves. -/
def timePayload (kind : Nat) (seq t1 t2 : Nat) (s : State) : List Byte :=
  natLe 1 kind ++ natLe 1 (timeCode s.time.state) ++ natLe 1 (if s.time.state = .unlocked then 0 else s.time.dist) ++
    natLe 1 0 ++ natLe 8 (rootKeyOf s) ++ natLe 4 seq ++ natLe 8 t1 ++ natLe 8 t2 ++ natLe 8 0 ++ natLe 8 0

/-- Queues a TIME message; one that finds the out-queue of its port full is skipped (R403). -/
def queueTime (port : Nat) (payload : List Byte) (s : State) : State :=
  if outQueueLen s port < 32 then queueControl port (controlPacket s 0x12 payload) s else s

/-! ## The choice of the time parent (R364) -/

/-- The neighbours heard on ports that are up. -/
def heard (s : State) : KV Neighbour := s.time.neighbours.filter fun e => portUp s e.1

/-- The order in which eligible neighbours are preferred. -/
def betterNeighbour (a b : Nat × Neighbour) : Bool :=
  decide (a.2.root < b.2.root) || (a.2.root == b.2.root && (decide (a.2.dist < b.2.dist) ||
    (a.2.dist == b.2.dist && decide (a.1 < b.1))))

/-- The preferred neighbour of a list. -/
def bestNeighbour (l : List (Nat × Neighbour)) : Option (Nat × Neighbour) :=
  l.foldl (fun b e =>
    match b with
    | none => some e
    | some x => if betterNeighbour e x then some e else some x) none

/-- Records the parent, and counts a change of it (R388). -/
def setParent (p : Option Nat) (s : State) : State :=
  let s := if s.time.parent.isSome ∧ s.time.parent ≠ p then addCount tcParentChange 1 s else s
  { s with time := { s.time with parent := p } }

/-- The choice of R364. A device becomes the root once it has heard every neighbour, or has waited for 3 answers in vain
(DEDUCED, log 40). -/
def chooseParent (waited : Bool) (s : State) : State :=
  let l := heard s
  let locked := l.filter fun e => e.2.state == 1
  match bestNeighbour (locked.filter fun e => decide (e.2.dist < 15)) with
  | some (port, n) =>
    let s := setParent (some port) s
    { s with time := { s.time with dist := n.dist + 1, rootKey := n.root } }
  | none =>
    if locked.isEmpty && (l.all (fun e => decide (ownKey s < e.2.root)) &&
        (waited || (upPorts s).all fun p => (kvGet? l p).isSome)) then
      let s := setParent none s
      { s with time := { s.time with
        state := .locked, dist := 0, rootKey := ownKey s, offset := 0, catchingUp := false } }
    else
      let s := setParent none s
      { s with time := { s.time with
        state := if s.time.state = .unlocked then .unlocked else .holdover
        offset := 0, catchingUp := false } }

/-- The device is the time root, and no LOCKED neighbour has a lower root key (DEDUCED, log 40). -/
def staysRoot (s : State) : Bool :=
  s.time.parent.isNone && (s.time.state == .locked &&
    !(heard s).any fun e => e.2.state == 1 && (decide (e.2.dist < 15) && decide (e.2.root < ownKey s)))

/-- Takes what a TIME message says of its sender, and chooses afresh (R364). -/
def noteNeighbour (port : Nat) (p : Packet) (s : State) : State :=
  let n : Neighbour := {
    state := fieldOf p.payload 1 1, dist := fieldOf p.payload 2 1, root := fieldOf p.payload 4 8 % 2 ^ 44 }
  let s : State := { s with time := { s.time with neighbours := kvPut s.time.neighbours port n } }
  if staysRoot s then s else chooseParent false s

/-! ## SYNC and FOLLOW (R365) -/

/-- The device expects answers: it follows a parent, or has none to follow. The time root does not. -/
def expectsAnswers (s : State) : Bool := s.time.parent.isSome || s.time.state != .locked

/-- After 3 missed answers the parent is forgotten and the device chooses again. -/
def chooseAfterMisses (s : State) : State :=
  if expectsAnswers s ∧ 3 ≤ s.time.missed then
    let gone := match s.time.parent with
      | some p => kvDel s.time.neighbours p
      | none => s.time.neighbours
    chooseParent true { s with time := { s.time with neighbours := gone, missed := 0 } }
  else s

/-- SYNC_SEND: a SYNC on every port that is up. -/
def syncSendEffect (s : State) : State :=
  if (s.boot.stage == .ready || s.boot.stage == .firmwareInit) && !s.time.stopped then
    let s := chooseAfterMisses s
    let s := (upPorts s).foldl (fun t p => queueTime p (timePayload 0 t.time.seq.toNat 0 0 t) t) s
    { s with time := { s.time with
      seq := s.time.seq + 1, missed := if expectsAnswers s then s.time.missed + 1 else 0 } }
  else s

/-- SYNC_SEND. -/
def execSyncSend (s : State) : Host.Outcome State Fault Refusal := .next (syncSendEffect s)

/-- A SYNC is answered with a FOLLOW that copies its SEQ and T1 and carries the time of its receipt. -/
def syncEffect (port : Nat) (p : Packet) (s : State) : State :=
  let s := noteNeighbour port p s
  queueTime port (timePayload 1 (fieldOf p.payload 12 4) (fieldOf p.payload 16 8) s.time.beat s) s

/-- SYNC. -/
def execSync (port : Nat) (p : Packet) (s : State) : Host.Outcome State Fault Refusal :=
  .next (receive 0x12 true (some port) p (fun t =>
    if fieldOf p.payload 0 1 = 0 then syncEffect port p t else if fieldOf p.payload 0 1 = 1 then s else t) s)

/-- Half of an integer; which way an odd one rounds is free (log 40). -/
def halfOf (x : Int) (s : State) : Int × State :=
  if x % 2 = 0 then (x / 2, s)
  else
    let c := freeChoice s
    (if c.1 then x / 2 + 1 else x / 2, c.2)

/-- What an offset does to the time state (R365): within 1,250 ticks the rate removes it; a counter further behind
catches up; one further ahead diverges. -/
def takeOffset (offset : Int) (s : State) : State :=
  let starts := decide (1250 < offset) && !s.time.catchingUp
  let s : State := { s with time := { s.time with
    offset := offset, state := if offset < -1250 then .diverged else .locked
    catchingUp := decide (1250 < offset) } }
  if starts then addCount tcBeatStep 1 s else s

/-- The parent's answer: the first lock loads its value and the measured delay; later ones give the offset. -/
def disciplined (p : Packet) (s : State) : State :=
  let t1 : Int := (fieldOf p.payload 16 8 : Nat)
  let t2 : Int := (fieldOf p.payload 24 8 : Nat)
  let t3 : Int := (fieldOf p.payload 32 8 : Nat)
  let t4 : Int := (s.time.beat : Nat)
  let s : State := { s with time := { s.time with missed := 0 } }
  if s.time.state = .unlocked then
    let d := halfOf ((t2 - t1) + (t4 - t3)) s
    let s := d.2
    { s with time := { s.time with beat := (t3 + d.1).toNat, state := .locked, offset := 0, catchingUp := false } }
  else
    let o := halfOf ((t2 - t1) - (t4 - t3)) s
    takeOffset o.1 o.2

/-- A FOLLOW arrives; only the parent's answers are used. A counter whose reference has stopped is neither loaded nor
disciplined (R495). -/
def followEffect (port : Nat) (p : Packet) (s : State) : State :=
  let s := noteNeighbour port p s
  if s.time.parent = some port ∧ s.time.stopped = false then disciplined p s else s

/-- FOLLOW. -/
def execFollow (port : Nat) (p : Packet) (s : State) : Host.Outcome State Fault Refusal :=
  .next (receive 0x12 true (some port) p (fun t =>
    if fieldOf p.payload 0 1 = 1 then followEffect port p t else if fieldOf p.payload 0 1 = 0 then s else t) s)

/-! ## One tick period of the counter (R362, R365) -/

/-- The counter moves by n ticks, and by as many more or fewer than one the offset closes. -/
def moveBeat (n : Nat) (phase : Nat) (s : State) : State :=
  { s with time := { s.time with
    beat := s.time.beat + n, offset := s.time.offset - ((n : Int) - 1), phase := phase } }

/-- The state of the counter once its offset has come within 1,250 ticks. -/
def settleOffset (s : State) : State :=
  { s with time := { s.time with
    catchingUp := s.time.catchingUp && decide (1250 < s.time.offset)
    state := if s.time.state = .diverged ∧ -1250 ≤ s.time.offset then .locked else s.time.state } }

/-- The ticks of a period in which a rate inserts or withholds one. -/
def rateTicks (rate : Int) : Nat := if 0 < rate then 2 else if rate < 0 then 0 else 1

/-- One tick period: 0, 1 or 2 ticks. A rate of ±500 ppm inserts or withholds at most one tick in 2,000 periods; when
discipline does so is free (log 40). HOLDOVER goes on at the last disciplined rate (R363). -/
def beatPeriod (s : State) : State :=
  let t := s.time
  if t.stopped ∨ s.pins.pwrgd = false ∨ t.state = .unlocked then s
  else if t.catchingUp then settleOffset (moveBeat 2 t.phase s)
  else if t.phase + 1 < 2000 then moveBeat 1 (t.phase + 1) s
  else
    match t.state with
    | .diverged => settleOffset (moveBeat 0 0 s)
    | .unlocked => s
    | .locked =>
      if t.offset = 0 then moveBeat 1 (t.phase + 1) s
      else
        let c := freeChoice s
        if c.1 then
          let r : Int := if 0 < t.offset then 1 else -1
          moveBeat (rateTicks r) 0 { c.2 with time := { c.2.time with rate := r, gap := t.phase + 1 } }
        else moveBeat 1 (t.phase + 1) c.2
    | .holdover =>
      if t.rate ≠ 0 ∧ t.gap ≤ t.phase + 1 then moveBeat (rateTicks t.rate) 0 s else moveBeat 1 (t.phase + 1) s

/-! ## The SY task (R368 to R370) -/

/-- LOAD_IMAGE accepts an SY body of a cell (R370, R453). -/
def syCheck (idleLimit cell : Nat) (d : Desc) : Bool :=
  let op := bodyBits d 16 31 28
  let a := bodyField d 32 8
  decide (op ≤ 1) && (bodyBits d 16 27 0 == 0 && (bodyField d 20 4 == 0 && (allZero ((d.body.drop 24).take 24) &&
    (if op = 0 then a == 0 && decide (bodyField d 24 8 ≤ idleLimit * 1250)
     else bodyField d 24 8 == 0 && (a % 8 == 0 &&
      (inOwnScratch cell a 8 || (inStore (clusterOf cell) a 8 || hbmRange a 8)))))))

/-- WAIT_REL waits for T_RUNNING plus OFFSET on the engine's copy of the counter (R369). -/
def waitRelWork (cell : Nat) (d : Desc) (s : State) : TaskEnd × State :=
  let start := match s.ctl.run with
    | some r => r.tRunning
    | none => 0
  (.waits, mapFlight cell d.index (fun f => { f with until? := some (start + bodyField d 24 8) }) s)

/-- WAIT_REL. -/
def execWaitRel (cell : Nat) (h : Health) (s : State) : Host.Outcome State Fault Refusal :=
  .next (issueTask 7 (fun d => bodyOp d == 0) readsNothing waitRelWork cell h s)

/-- MARK writes the Beat count at issue, as the engine's copy shows it (R362, R369). -/
def markWork (_cell : Nat) (d : Desc) (s : State) : TaskEnd × State :=
  let a := bodyField d 32 8
  let b := engineBeat s
  if accessOk s a 8 then (.finished, putBytes a (natLe 8 b.1) b.2) else (.finished, stepFault fcAddressRange s)

/-- MARK. -/
def execMark (cell : Nat) (h : Health) (s : State) : Host.Outcome State Fault Refusal :=
  .next (issueTask 7 (fun d => bodyOp d == 1) readsNothing markWork cell h s)

end Sys2Proof.Machine
end

