-- ==== Sys2Proof/Machine/Steps.lean ====
section
/-! DEFINITION. Step control: descriptor fetch and completion (R46, R60), the states of a step (R64 to R68), grants and
the grant record (R226 to R231), reports (R232 to R236), the terminal latch (R237 to R240), replay (R241 to R243), the
decision point and the launch strobe (R377), and the Gong (R379 to R382). -/

namespace Sys2Proof.Machine

/-! ## Descriptor fetch (R39 to R42, R58, R60) -/

/-- The class codes of R42 but HALT. -/
def taskClass (c : Nat) : Bool := decide (1 ≤ c) && decide (c ≤ 8)

/-- The header of a descriptor at a position of its list keeps the field maps and the flag rules. -/
def descHeadOk (pos : Nat) (d : Desc) : Bool :=
  let w := d.taskId.toNat
  dIndex d == pos && (bitsOf w 8 8 == 0 &&
  (if dClass d = haltClass then
     bitsOf w 15 9 == 0 && (d.waitA == 0 && (d.waitB == 0 && d.signal == 0))
   else
     taskClass (dClass d) && ((dSigArr d || decide (sigCounter d < 1024)) &&
       (!dVoidable d || ([1, 2, 3, 6, 8].contains (dClass d) && !dWbArr d)))))

/-- The n descriptors of a cell's list from a position, read from CELL_LISTS in memory. -/
def readDescs (s : State) (im : Image) (g : GStep) (cell ofs n : Nat) : List Desc :=
  let base := loadAddr im 1 g.sched
  let list := base + memLe s.mem (base + 8 * cell) 6
  (List.range n).map fun i => descOf g.step (ofs + i) (memRead s.mem (list + 64 * (ofs + i)) 64)

/-- Descriptors in a cell's list, as its directory in memory says. -/
def memListCount (s : State) (im : Image) (sched cell : Nat) : Nat :=
  memLe s.mem (loadAddr im 1 sched + 8 * cell + 6) 2 + 1

/-- Descriptors that one fetch reads. -/
def fetchSize : Nat := 32

/-- A fetch of the running step's list. -/
def fetchRun (im : Image) (cell : Nat) (r : Run) (s : State) : State :=
  let x := cellOf s cell
  let n := min fetchSize (memListCount s im r.g.sched cell - x.fetched)
  let ds := readDescs s im r.g cell x.fetched n
  if (List.range n).all fun i => (ds[i]?).any (descHeadOk (x.fetched + i)) then
    setCell cell { x with window := x.window ++ ds, fetched := x.fetched + n } s
  else stepFault fcBadDescriptor s

/-- A fetch of the armed step's list: a failed check is held for its RUNNING entry (R60). -/
def fetchArmed (im : Image) (cell : Nat) (g : GStep) (s : State) : State :=
  let x := cellOf s cell
  let n := min fetchSize (memListCount s im g.sched cell - x.fetchedNext)
  let ds := readDescs s im g cell x.fetchedNext n
  if n = 0 ∨ s.ctl.heldBad = true then s
  else if (List.range n).all fun i => (ds[i]?).any (descHeadOk (x.fetchedNext + i)) then
    setCell cell { x with window := x.window ++ ds, fetchedNext := x.fetchedNext + n } s
  else { s with ctl := { s.ctl with heldBad := true } }

/-- DESCRIPTOR_FETCH: at least 32 slots of the cell's store are free. -/
def descriptorFetchEffect (cell : Nat) (s : State) : State :=
  match boundImage? s with
  | none => s
  | some im =>
    let x := cellOf s cell
    if cellEnabled s cell = false ∨ 4096 < x.window.length + fetchSize then s
    else
      match s.ctl.run with
      | some r =>
        if r.fault.isSome then s
        else if x.fetched < memListCount s im r.g.sched cell then settleDrain (settleCell cell (fetchRun im cell r s))
        else
          match s.ctl.armed with
          | some g => fetchArmed im cell g s
          | none => s
      | none =>
        match s.ctl.armed with
        | some g => fetchArmed im cell g s
        | none => s

/-- DESCRIPTOR_FETCH. -/
def execDescriptorFetch (cell : Nat) (s : State) : Host.Outcome State Fault Refusal :=
  .next (descriptorFetchEffect cell s)

/-! ## Completion of a task (R46, R257, R262) -/

/-- Requests of a task that await their answers. -/
def taskRequests (s : State) (cell index : Nat) : Bool :=
  s.rem.requests.any fun r => r.cell == cell && r.index == index

/-- The parts of a task that others serve are done: borrowed routing engines, and the sums of a collective. -/
def partsDone (s : State) (cell : Nat) (f : Flight) : Bool :=
  f.parts.isEmpty || (dClass f.desc == 5 && (f.parts == [1] && gatherDone s cell f.desc))

/-- The work of a task in flight is done. -/
def taskReady (s : State) (cell : Nat) (f : Flight) : Bool :=
  let c := dClass f.desc
  partsDone s cell f && (!taskRequests s cell f.index &&
    (if c = 8 then f.finished || tqReady s f
     else if c = 7 then (match f.until? with
       | some b => decide (b ≤ (engineBeat s).1)
       | none => f.finished)
     else if c = 4 ∨ c = 5 ∨ c = 6 then true
     else f.finished))

/-- A queue's head task waits, unmet, on the counter that a task's signal raises. -/
def headWaits (s : State) (cell : Nat) (d : Desc) (other q : Nat) : Bool :=
  match headTask? s other q with
  | none => false
  | some h =>
    let on (w : Word) (inArr : Bool) : Bool :=
      !waitMet s other h w inArr && (inArr == dSigArr d &&
        (if inArr then clusterOf other == clusterOf cell && dQuarter h * 1024 + waitCounter w == sigCounter d
         else other == cell && waitCounter w == sigCounter d))
    on h.waitA (dWaArr h) || on h.waitB (dWbArr h)

/-- An incomplete ENSURE holds at least one queue (R262). -/
def holdsQueue (s : State) (cell : Nat) (f : Flight) : Bool :=
  dClass f.desc == 8 && (bodyOp f.desc == 0 && (decide (0 < sigIncrement f.desc) &&
    (List.range 32).any fun k => (List.range 4).any fun q => headWaits s cell f.desc (32 * clusterOf cell + k) q))

/-- An ENSURE that holds a queue is noted, and whether a pool buffer is what it waits for (R262). -/
def noteStall (cell : Nat) (f : Flight) (s : State) : State :=
  match f.needs with
  | none => s
  | some (obj, tier) =>
    if holdsQueue s cell f then
      mapFlight cell f.index (fun t => { t with stalled := true, pooled := t.pooled || poolWaits s obj tier }) s
    else s

/-- The code of an ENSURE's one stall event: the first in R262's order of the causes that it has shown; none if its object was
there. -/
def stallCode? (f : Flight) : Option Nat := if f.pooled then some 6 else f.cause

/-- The stall event of an ENSURE that ends, if it held a queue (R262). -/
def endStall (held : Bool) (f : Flight) (s : State) : State :=
  if held then
    match stallCode? f with
    | some k => addStallEvent k s
    | none => s
  else s

/-- The stall events of the ENSUREs that a terminal latch finds incomplete. -/
def latchStalls (s : State) : State :=
  (s.cells.flatMap fun e => e.2.flight).foldl (fun t f => endStall f.stalled f t) s

/-- A completed ENSURE places a step hold on the copy (R252). -/
def placeHold (f : Flight) (s : State) : State :=
  match f.needs with
  | some (obj, tier) => if bodyOp f.desc = 0 then mapCopy obj tier (fun c => { c with hold := true }) s else s
  | none => s

/-- TASK_COMPLETE. -/
def taskCompleteEffect (cell index : Nat) (s : State) : State :=
  match flight? s cell index with
  | none => s
  | some f =>
    if stepActive s ∧ taskReady s cell f = true then
      completeTask cell index
        (placeHold f (mapFlight cell index (fun t => { t with finished := true })
          (endStall (f.stalled || holdsQueue s cell f) f s)))
    else s

/-- TASK_COMPLETE. -/
def execTaskComplete (cell : Nat) (index : Nat) (s : State) : Host.Outcome State Fault Refusal :=
  .next (taskCompleteEffect cell index s)

/-! ## Lasting state and the grant record (R226 to R230) -/

/-- Whether a slot is ACTIVE. -/
def slotActive (l : Lasting) (n : Nat) : Bool := (kvGetD l.slots n (false, 0)).1

/-- ACTIVE slots. -/
def activeSlots (l : Lasting) : Nat := (l.slots.filter fun e => e.2.1).length

/-- Applies one change entry at step n (R229, R230): PLACE first or ADMIT and CANCEL, by type. -/
def applyChange (place : Bool) (step : Nat) (l : Lasting) (c : Change) : Lasting :=
  if c.typ = 3 then (if place then { l with place := kvPut l.place (c.layer * 16384 + c.target) c.entry } else l)
  else if place then l
  else { l with slots := kvPut l.slots c.target (c.typ == 1, step % 65536) }

/-- Applies a grant's changes in the order of R229, if the step is its grant's first. -/
def applyGrant (g : GStep) (l : Lasting) : Lasting :=
  if g.head then
    let n := g.step.toNat
    let l := match g.grant.epoch with
      | some e => { l with epoch := e, biasDigest := g.grant.biasDigest, bias := g.grant.bias }
      | none => l
    let l := g.grant.changes.foldl (applyChange true n) l
    let l := g.grant.changes.foldl (applyChange false n) l
    match g.grant.tokens with
    | some t => { l with tokens := t }
    | none => l
  else l

/-- The steps whose changes are still to be applied, in the order in which they will run: kept for a replay not yet granted,
armed, to run again after it, granted. -/
def stagedSteps (s : State) : List GStep :=
  ((abortedRuns s).map (·.g)).reverse ++ s.ctl.armed.toList ++ s.ctl.replay ++ s.ctl.granted

/-- The lasting state that every earlier accepted grant leaves behind (R228). -/
def stagedLasting (s : State) : Lasting := (stagedSteps s).foldl (fun l g => applyGrant g l) s.job.lasting

/-- Experts of every routing layer of an image. -/
def layerExperts (s : State) (im : Image) : List Nat := (List.range im.layers).map fun l => (layerOf s l).experts

/-- Bytes of a bias epoch (R172). -/
def biasBytes (es : List Nat) : Nat := 4 * es.foldl (· + ·) 0

/-- The bias vectors at an address, by layer × 16,384 + expert. -/
def readBias (m : Mem) : Nat → Nat → List Nat → Tbl
  | _, _, [] => []
  | a, l, n :: r =>
    ((List.range n).filterMap fun e =>
      let v := memLe m (a + 4 * e) 4
      if v = 0 then none else some (l * 16384 + e, v)) ++ readBias m (a + 4 * n) (l + 1) r

/-- The bias digest over n bytes at an address (R172). -/
def biasDigestAt (m : Mem) (a n : Nat) : Word := (sha3_256 n (memSlice m a n)).setWidth 32

/-- The bits are a NaN or an infinity of FP32. -/
def nonFinite (v : Nat) : Bool := bitsOf v 30 23 == 255

/-- A placement entry keeps R183. -/
def entryOk (im : Image) (v : Nat) : Bool :=
  bitsOf v 63 36 == 0 && (replicasOf v == 0 || (decide (slotOf v < im.expertSlots) && groupOf (homeOf v) != 0xFFF))

/-- A grant record as copied (R226). -/
structure GrantRec where
  first : Nat
  count : Nat
  flags : Nat
  scheds : Nat
  epoch : Nat
  changes : Nat
  changeAddr : Nat
  biasAddr : Nat
  mapAddr : Nat
  bytes : List Byte
  deriving DecidableEq, Repr

/-- Reads a grant record. -/
def grantRec (b : List Byte) : GrantRec where
  first := fieldOf b 0 4
  count := fieldOf b 4 1
  flags := fieldOf b 5 1
  scheds := fieldOf b 8 4
  epoch := fieldOf b 12 4
  changes := fieldOf b 16 4
  changeAddr := fieldOf b 24 8
  biasAddr := fieldOf b 32 8
  mapAddr := fieldOf b 40 8
  bytes := b

/-- REPLAY and BIAS. -/
def isReplay (r : GrantRec) : Bool := bitOf r.flags 0
/-- BIAS. -/
def hasBias (r : GrantRec) : Bool := bitOf r.flags 1

/-- The schedule of step FIRST_STEP + i. -/
def schedOf (r : GrantRec) (i : Nat) : Nat := bitsOf r.scheds (4 * i + 3) (4 * i)

/-- Change entry i as 16 bytes. -/
def changeBytes (s : State) (r : GrantRec) (i : Nat) : List Byte := memRead s.mem (r.changeAddr + 16 * i) 16

/-- A change entry. -/
def changeOf (b : List Byte) : Change where
  typ := fieldOf b 0 1
  layer := fieldOf b 1 1
  target := fieldOf b 2 2
  entry := fieldOf b 8 8

/-- The change entries of a record. -/
def changesOf (s : State) (r : GrantRec) : List Change :=
  (List.range r.changes).map fun i => changeOf (changeBytes s r i)

/-- The token map of a record. -/
def tokensOf (s : State) (r : GrantRec) (im : Image) : Tbl :=
  (List.range im.stepTokens).filterMap fun t =>
    let v := memLe s.mem (r.mapAddr + 2 * t) 2
    if v = 0 then none else some (t, v)

/-- A change entry has a defined type and zero in its reserved fields. -/
def changeFieldsOk (b : List Byte) : Bool :=
  let t := fieldOf b 0 1
  decide (1 ≤ t) && (decide (t ≤ 3) && (fieldOf b 4 4 == 0 && (t == 3 || (fieldOf b 1 1 == 0 && fieldOf b 8 8 == 0))))

/-- The reserved fields and codes of a record, its schedules and its addresses (R228). -/
def grantFieldsOk (s : State) (im : Image) (r : GrantRec) : Bool :=
  let b := r.bytes
  decide (1 ≤ r.count) && (decide (r.count ≤ 8) && (bitsOf r.flags 7 2 == 0 && (fieldOf b 6 2 == 0 &&
  (fieldOf b 20 4 == 0 && (allZero ((b.drop 48).take 16) && ((hasBias r || (r.epoch == 0 && r.biasAddr == 0)) &&
  (r.scheds / 16 ^ r.count == 0 && ((List.range r.count).all (fun i => decide (schedOf r i < im.schedules)) &&
  (decide (r.changes ≤ 4096) && (accessOk s r.changeAddr (16 * r.changes) &&
  ((List.range r.changes).all (fun i => changeFieldsOk (changeBytes s r i)) &&
  ((!hasBias r || accessOk s r.biasAddr (biasBytes (layerExperts s im))) &&
  (r.mapAddr == 0 || (accessOk s r.mapAddr (2 * im.stepTokens) &&
    (tokensOf s r im).all fun e => bitsOf e.2 14 10 == 0))))))))))))))

/-- The supplied bias epoch is the next one and finite (R173, R228). -/
def grantBiasOk (s : State) (im : Image) (r : GrantRec) : Bool :=
  !hasBias r || (r.epoch == (stagedLasting s).epoch + 1 &&
    (readBias s.mem r.biasAddr 0 (layerExperts s im)).all fun e => !nonFinite e.2)

/-- A change entry names what the image has. -/
def changeTargetOk (s : State) (im : Image) (c : Change) : Bool :=
  if c.typ = 3 then decide (c.layer < im.layers) && (decide (c.target < (layerOf s c.layer).experts) && entryOk im c.entry)
  else decide (c.target < im.seqSlots)

/-- No slot is both admitted and cancelled, and no map entry, VALID or not, names a slot that the image lacks. -/
def grantSlotsOk (s : State) (im : Image) (r : GrantRec) : Bool :=
  let cs := changesOf s r
  !(cs.any fun a => a.typ == 1 && cs.any fun b => b.typ == 2 && b.target == a.target) &&
    (r.mapAddr == 0 || (tokensOf s r im).all fun e => decide (e.2 % 1024 < im.seqSlots))

/-- ADMIT names an inactive slot and CANCEL an active one, in the state that every earlier accepted grant leaves (R228). -/
def admitsOk (l : Lasting) (cs : List Change) : Bool :=
  cs.all fun c => c.typ == 3 || ((c.typ == 1) != slotActive l c.target)

/-- The kept steps that a REPLAY grant of step n runs again, oldest first (R241). -/
def replaySteps? (s : State) (n : Word) : Option (List GStep) :=
  if s.ctl.aborted && (!s.ctl.replaying && s.ctl.run.isNone) then
    match s.ctl.past.filter (·.kept) with
    | [] => none
    | a :: r =>
      if a.g.step = n then some [a.g]
      else if a.g.step = n + 1 then (r.find? fun p => p.g.step == n).map fun p => [p.g, a.g]
      else none
  else none

/-- A kept step as it runs again: one attempt more, and the first one at a launch point (R241, R371). -/
def again (now : Nat) (g : GStep) : GStep := { g with attempt := g.attempt + 1, launch := false, tGranted := now }

/-- The first element at a launch point. -/
def launchFirst : List GStep → List GStep
  | [] => []
  | g :: r => { g with launch := true } :: r

/-- Empties the part of the task stores that the prefetchers read for the armed step. -/
def dropArmedWindow (s : State) : State :=
  match s.ctl.armed with
  | none => s
  | some g => { s with cells := s.cells.map fun e =>
      (e.1, { e.2 with window := e.2.window.filter (fun d => d.step != g.step), fetchedNext := 0 }) }

/-- Accepts a REPLAY grant: the kept steps run again, then what was left of an earlier replay, then the armed and granted
steps (R241). GONG_PENDING is cleared (R381). At most one step is ARMED at a time and the replayed one must be it, so a
step that is ARMED goes back to GRANTED, its prefetched descriptors, a held BAD_DESCRIPTOR and its T_ARMED dropped
(DESIGN CHOICE, log 86: R64 has it stay ARMED and does not say how the replayed step passes before it). -/
def acceptReplay (steps : List GStep) (s : State) : State :=
  let b := engineBeat s
  let s := dropArmedWindow b.2
  { s with ctl := { s.ctl with
    replay := launchFirst (steps.map (again b.1)) ++ s.ctl.replay
    granted := s.ctl.armed.toList ++ s.ctl.granted
    armed := none, tArmed := 0, heldBad := false, waitedRing := false, ringTicks := 0
    gongPending := none, gongSpent := false, replaying := true
    stepPulses := s.ctl.stepPulses + steps.length + s.ctl.armed.toList.length } }

/-- Accepts a grant (R64, R226): its content is copied, and its steps become GRANTED. -/
def acceptGrant (im : Image) (r : GrantRec) (s : State) : State :=
  let g : Grant := {
    first := BitVec.ofNat 32 r.first
    epoch := if hasBias r then some r.epoch else none
    biasDigest := if hasBias r then biasDigestAt s.mem r.biasAddr (biasBytes (layerExperts s im)) else 0
    bias := if hasBias r then readBias s.mem r.biasAddr 0 (layerExperts s im) else []
    changes := changesOf s r
    tokens := if r.mapAddr = 0 then none else some (tokensOf s r im) }
  let b := engineBeat s
  let steps := (List.range r.count).map fun i =>
    ({ step := BitVec.ofNat 32 (r.first + i), sched := schedOf r i, head := i == 0, grant := g
       launch := i == 0 && s.ctl.launchNext, attempt := 0, tGranted := b.1 } : GStep)
  { b.2 with ctl := { s.ctl with
    granted := s.ctl.granted ++ steps, launchNext := false, stepPulses := s.ctl.stepPulses + r.count
    nextStep := some (BitVec.ofNat 32 (r.first + r.count)) } }

/-- The fields of a REPLAY grant but FIRST_STEP, STEP_COUNT and REPLAY are 0. -/
def replayFieldsOk (r : GrantRec) : Bool :=
  r.count == 1 && (r.flags == 1 && (fieldOf r.bytes 6 2 == 0 && allZero (r.bytes.drop 8)))

/-- A grant completes with OK and the last granted step (R424). -/
def granted (s : State) : CmdEnd := .done stOk (natLe 4 (s.ctl.nextStep.getD 0 - 1).toNat) s

/-- GRANT: the first row of R228 that applies decides. -/
def cmdGrant (c : Cmd) (s : State) : CmdEnd :=
  match boundImage? s with
  | none => reject stBadState s
  | some im =>
    if !argOk c 64 s then reject stBadArg s
    else
      let r := grantRec (getBytes s (argAddr c) 64)
      if isReplay r then
        match replaySteps? s (BitVec.ofNat 32 r.first) with
        | none => reject stBadState s
        | some steps => if replayFieldsOk r then granted (acceptReplay steps s) else reject stBadArg s
      else if s.ctl.nextStep.any (fun n => n != BitVec.ofNat 32 r.first) then reject stBadArg s
      else if !grantFieldsOk s im r then reject stBadArg s
      else if !grantBiasOk s im r then reject stBadArg s
      else if !((changesOf s r).all (changeTargetOk s im)) then reject stBadArg s
      else if !grantSlotsOk s im r then reject stBadArg s
      else if !admitsOk (stagedLasting s) (changesOf s r) then reject stBadState s
      else if 8 < s.ctl.granted.length + r.count then reject stNoResource s
      else granted (acceptGrant im r s)

/-- GRANT. -/
def execGrant (s : State) : Host.Outcome State Fault Refusal := .next (runPlain 0x0401 cmdGrant s)

/-! ## The step report (R232 to R236) -/

/-- A figure of the slot count table. -/
def slotFigure (n : Nat) : Nat := min n 0xFFFF

/-- The fixed part and the slot count table of a report, but for CONFIG_DIGEST, which is filled in as it is written. -/
def reportMem (s : State) (r : Run) (completed : Bool) (tTerminal : Nat) : Mem :=
  let l := s.job.lasting
  let slots := match s.job.image with
    | some im => im.expertSlots
    | none => 0
  let cause := (r.fault.map (·.cause)).getD 0
  let origin := match r.fault with
    | some f => f.origin % 2 ^ 20 + if f.isLocal then 2 ^ 31 else 0
    | none => 0
  recMem ([(0, 4, r.g.step.toNat), (4, 4, r.g.attempt), (8, 4, r.imageId.toNat), (12, 4, l.biasDigest.toNat),
      (24, 1, if completed then 1 else 2), (25, 1, r.g.sched), (26, 2, if completed then 0 else cause),
      (28, 4, if completed then 0 else origin), (32, 4, l.epoch), (36, 4, activeSlots l),
      (40, 8, r.g.tGranted), (48, 8, r.tArmed), (56, 8, r.tRunning), (64, 8, r.tDraining), (72, 8, tTerminal),
      (80, 4, r.voids)] ++
    (r.stallTicks.map fun e => (96 + 16 * e.1, 8, e.2)) ++ (r.stallEvents.map fun e => (104 + 16 * e.1, 4, e.2)) ++
    (r.counts.map fun e => (256 + 8 * e.1, 8, e.2)) ++
    (r.offered.map fun e => (1024 + 8 * (e.1 / 4096 * slots + e.1 % 4096), 2, slotFigure e.2)) ++
    (r.accepted.map fun e => (1026 + 8 * (e.1 / 4096 * slots + e.1 % 4096), 2, slotFigure e.2)) ++
    (r.overflow.map fun e => (1028 + 8 * (e.1 / 4096 * slots + e.1 % 4096), 2, slotFigure e.2)))

/-- The report ring has a free entry that no report holds. -/
def ringRoom (s : State) : Bool :=
  s.mb.rptRing.isSome && decide ((s.mb.rptTail - s.mb.rptHead).toNat < s.mb.rptEntries)

/-- Writes a report into its entry and sets REPORT (R64, R419, R422); a write answered UNBACKED is the device fault
RING_UNBACKED. -/
def writeReport (m : Mem) (s : State) : State :=
  match s.mb.rptRing with
  | none => s
  | some (base, _) =>
    let a := base + s.mb.rptTail.toNat % s.mb.rptEntries * s.mb.rptSize
    if hostOk s a s.mb.rptSize then
      let s := putMem a s.mb.rptSize (memPutLe m 16 8 s.boot.digest.toNat) s
      setCause 2 { s with mb := { s.mb with rptTail := s.mb.rptTail + 1 } }
    else deviceFault 2 s

/-- Writes held reports, oldest first, as long as an entry is free. -/
def writeReports : List Mem → State → State
  | [], s => s
  | m :: r, s =>
    if ringRoom s then writeReports r (writeReport m { s with ctl := { s.ctl with
      reportsHeld := r, stepPulses := s.ctl.stepPulses + 1 } }) else s

/-- Writes what is held once a cell test is over and entries are free. -/
def settleReport (s : State) : State := if s.errs.testing.isNone then writeReports s.ctl.reportsHeld s else s

/-- A report is due. -/
def holdReport (m : Mem) (s : State) : State :=
  settleReport { s with ctl := { s.ctl with reportsHeld := s.ctl.reportsHeld ++ [m] } }

/-! ## The second stage of ABORT_JOB (R240, R470) -/

/-- Virtual channels 1 to 5. -/
def dataChannel (p : Packet) : Bool := decide (1 ≤ vcOf p) && decide (vcOf p ≤ 5)

/-- A port die holds a packet of the job on virtual channels 1 to 5 (R470). -/
def portsHoldJob (s : State) : Bool :=
  let mine (p : Packet) : Bool := p.job == s.job.id && dataChannel p
  (s.rem.tx.any fun t => mine t.packet) || (s.rem.loop.any mine || (s.rem.lanes.any (fun e => mine e.packet) ||
    (s.fab.parked.any (fun e => mine e.packet) || s.fab.ports.any fun e => e.2.unacked.any fun u => u.packet.any mine)))

/-- Withdraws every step held, with what was staged, fetched and tallied for it, and the kept grants (R37, R240). -/
def withdrawSteps (s : State) : State :=
  let steps := ((s.ctl.armed.toList ++ s.ctl.granted ++ s.ctl.replay).map fun g => g.step)
  let s := readersLatched steps s
  { s with
    ctl := { s.ctl with
      granted := [], armed := none, tArmed := 0, heldBad := false, waitedRing := false, ringTicks := 0, replay := []
      nextStep := none, aborted := false, replaying := false, gongPending := none, gongSpent := false
      past := s.ctl.past.map fun p => { p with kept := false }
      entrySteps := [], heldFaults := [], keptDigest := none, keptDiffers := false }
    cells := s.cells.map fun e => (e.1, { e.2 with window := [], fetched := 0, fetchedNext := 0, halted := 0, windowWait := 0 })
    ctr := { s.ctr with tally := [] }
    exch := Exch.init }

/-- Pair numbering and what was kept of every pair restart (R470). -/
def resetPairs (s : State) : State := { s with rem := { s.rem with pairs := [], requests := [] } }

/-- Stage 2 of ABORT_JOB. -/
def abortJobStage (s : State) : State :=
  let s := resetPairs (abortBound (withdrawSteps s))
  { s with
    ctl := { s.ctl with noCurrent := true, launchNext := true }
    launch := { s.launch with strobe := none, strobeLate := false } }

/-- The open command is an ABORT_JOB. -/
def isAbortJob (o : OpenCmd) : Bool :=
  match o.kind with
  | .abortJob => true
  | .abortStep _ | .peal _ | .extentSeal _ | .flashFormat | .jobClose | .loadImage | .late _ _ => false

/-- Completes an ABORT_JOB with OK. -/
def closesAbortJob (o : OpenCmd) : Option (Nat × List Byte) := if isAbortJob o then some (stOk, []) else none

/-- An open ABORT_JOB ends once its run has latched, a pending PEAL has completed (R428) and the port dies hold no packet
of its job (R470). -/
def settleAbortJob (s : State) : State :=
  if s.mb.opened.any isAbortJob && (s.ctl.run.isNone && !(s.mb.opened.any isPeal) && !portsHoldJob s) then
    closeOpen closesAbortJob s
  else s

/-- ABORT_JOB, beside its taking. -/
def cmdAbortJob (_c : Cmd) (s : State) : CmdEnd :=
  match s.job.image with
  | none => reject stBadState s
  | some _ =>
    let s := abortLaunch s
    if s.ctl.run.isSome then .opened .abortJob (stepFault fcHostAbort s)
    else
      let s := abortJobStage s
      if s.mb.opened.any isPeal || portsHoldJob s then .opened .abortJob s else .done stOk [] s

/-- ABORT_JOB: taken when no earlier command but a PEAL is open (R417). -/
def execAbortJob (s : State) : Host.Outcome State Fault Refusal :=
  .next (if s.mb.opened.all isPeal then runPlain 0x0403 cmdAbortJob s else s)

/-! ## The terminal latch (R237, R238) -/

/-- Completes the ABORT_STEPs of a step that has latched (R239). -/
def closesAbortStep (step : Word) (completed : Bool) (o : OpenCmd) : Option (Nat × List Byte) :=
  match o.kind with
  | .abortStep n => if n = step then some (if completed then stAlreadyDone else stAborted, []) else none
  | .abortJob | .peal _ | .extentSeal _ | .flashFormat | .jobClose | .loadImage | .late _ _ => none

/-- Drops what the cells hold of a run. -/
def clearCells (step : Word) (s : State) : State :=
  { s with cells := s.cells.map fun e => (e.1, { e.2 with
    window := e.2.window.filter (fun d => d.step != step), fetched := 0, flight := [], windowWait := 0, halted := 0 }) }

/-- What every terminal latch does beside its record: step holds, readers, deferred windows, the table swap, and what
remains of the run's packets. -/
def latchEffects (step : Word) (s : State) : State :=
  let s := readersLatched [step] (releaseHolds (clearCells step s))
  tableSwap (latchWindows (sendCums (dropUnsent s)))

/-- What an ABORTED latch discards (R242, R381). -/
def abortedLatch (s : State) : State :=
  { s with
    ctl := { s.ctl with
      aborted := true, replaying := false, entrySteps := [], heldFaults := [], keptDigest := none, keptDiffers := false }
    ctr := { s.ctr with tally := [] }
    exch := Exch.init }

/-- Keeps a latched run among the last two. -/
def keepRun (r : Run) (completed : Bool) (s : State) : State :=
  { s with ctl := { s.ctl with
    past := ⟨r.g, completed, (r.fault.map (·.cause)).getD 0, true⟩ :: s.ctl.past.take 1 } }

/-- The COMPLETED latch of a run. -/
def latchCompleted (r : Run) (s : State) : State :=
  let b := engineBeat s
  let m := reportMem s r true b.1
  let s : State := keepRun r true { b.2 with ctl := { s.ctl with run := none } }
  let s := latchEffects r.g.step (latchBound r.g.step s)
  holdReport m (closeOpen (closesAbortStep r.g.step true) s)

/-- The ABORTED latch of a run: the entry changes are rolled back. A cell that caused it is tested before the report is
written (R466). -/
def latchAborted (r : Run) (s : State) : State :=
  let b := engineBeat s
  let m := reportMem s r false b.1
  let isLocal := (r.fault.map (·.isLocal)).getD false
  let s : State := keepRun r false { b.2 with
    ctl := { s.ctl with run := none }
    job := { s.job with lasting := r.saved }
    errs := { s.errs with testing := s.errs.faultCell, faultCell := none } }
  let s := abortedLatch (latchEffects r.g.step s)
  let s := if isLocal then addCount tcStepFaultsLocal 1 s else s
  let s := closeOpen (closesAbortStep r.g.step false) s
  let s := if s.mb.opened.any isAbortJob then abortJobStage s else s
  settleAbortJob (holdReport m s)

/-- Nothing of the run is still to complete or to be acknowledged (R66). -/
def runFinished (s : State) : Bool :=
  (s.cells.all fun e => e.2.flight.isEmpty) && s.rem.requests.isEmpty

/-- STEP_COMPLETE. -/
def stepCompleteEffect (s : State) : State :=
  match s.ctl.run with
  | none => s
  | some r => if r.draining && (r.fault.isNone && runFinished s) then latchCompleted r s else s

/-- STEP_COMPLETE. -/
def execStepComplete (s : State) : Host.Outcome State Fault Refusal := .next (stepCompleteEffect s)

/-- STEP_ABORT: the run is stopping, and every packet that left the device is acknowledged or abandoned (R238). -/
def stepAbortEffect (s : State) : State :=
  if allAnswered s then
    match (latchStalls s).ctl.run with
    | none => s
    | some r => if r.fault.isSome then latchAborted r (latchStalls s) else s
  else s

/-- STEP_ABORT. -/
def execStepAbort (s : State) : Host.Outcome State Fault Refusal := .next (stepAbortEffect s)

/-- STEP_HUNG: idle time has reached IDLE_LIMIT microseconds (R67). -/
def stepHungEffect (s : State) : State :=
  match s.ctl.run, s.job.image with
  | some r, some im => faultIf (decide (1250 * im.idleLimit ≤ r.idle)) fcStepHung s
  | _, _ => s

/-- STEP_HUNG. -/
def execStepHung (s : State) : Host.Outcome State Fault Refusal := .next (stepHungEffect s)

/-! ## ARMED and RUNNING (R64, R65) -/

/-- A run as it begins. -/
def Run.start (g : GStep) (imageId : Word) (tArmed tRunning : Nat) (saved : Lasting) : Run where
  g := g
  imageId := imageId
  draining := false
  tArmed := tArmed
  tRunning := tRunning
  tDraining := 0
  fault := none
  voids := 0
  stallTicks := []
  stallEvents := []
  counts := []
  offered := []
  accepted := []
  overflow := []
  saved := saved
  idle := 0

/-- The wait for a report entry goes into the run's stalls: one REPORT_RING event, and its ticks (R64, R232). -/
def noteRingWait (c : Ctl) (r : Run) : Run :=
  if c.waitedRing then { r with stallTicks := tblPut [] 1 c.ringTicks, stallEvents := [(1, 1)] } else r

/-- The ARMED step latches ABORTED without running (R238, R381). -/
def latchArmed (f : StepFault) (s : State) : State :=
  match s.ctl.armed with
  | none => s
  | some g =>
    let id := (s.job.image.map (·.imageId)).getD 0
    let r := noteRingWait s.ctl { Run.start g id s.ctl.tArmed 0 s.job.lasting with fault := some f }
    let b := engineBeat s
    let m := reportMem s r false b.1
    let s := keepRun r false { b.2 with ctl := { s.ctl with
      armed := none, tArmed := 0, heldBad := false, waitedRing := false, ringTicks := 0 } }
    let s := { s with cells := s.cells.map fun e => (e.1, { e.2 with fetchedNext := 0 }) }
    holdReport m (abortedLatch (latchEffects g.step s))

/-- The next step to be armed: of a replay, else GRANTED. -/
def nextGranted? (s : State) : Option (GStep × State) :=
  match s.ctl.replay with
  | g :: r => some (g, { s with ctl := { s.ctl with replay := r } })
  | [] =>
    match s.ctl.granted with
    | g :: r => some (g, { s with ctl := { s.ctl with granted := r } })
    | [] => none

/-- The Gong that ends the next step to become ARMED: one step, though GONG_PENDING stays set until the REPLAY grant or
ABORT_JOB clears it (R381; DEDUCED, log 49). -/
def waitingGong? (s : State) : Option StepFault := if s.ctl.gongSpent then none else s.ctl.gongPending

/-- STEP_ARM: the next GRANTED step becomes ARMED once its predecessor runs or has latched, COMPLETED or ABORTED (R64). A
waiting Gong ends it at once (R381). -/
def stepArmEffect (s : State) : State :=
  if s.ctl.armed.isSome || s.errs.deviceFault then s
  else
    match nextGranted? s with
    | none => s
    | some (g, t) =>
      let b := engineBeat t
      let u : State := { b.2 with ctl := { t.ctl with armed := some g, tArmed := b.1, stepPulses := t.ctl.stepPulses + 1 } }
      match waitingGong? u with
      | some f => abandonLaunch (latchArmed f { u with ctl := { u.ctl with gongSpent := true } })
      | none => u

/-- STEP_ARM. -/
def execStepArm (s : State) : Host.Outcome State Fault Refusal := .next (stepArmEffect s)

/-- The bids that a sender landed early for a step of the parity (R212). -/
def earlyBids (step : Word) (t : Tbl) : Tbl := t.filter fun e => e.1 / 274877906944 == step.toNat % 2

/-- What has landed of a step before its RUNNING entry is kept (R52). -/
def enterExch (first : Bool) (step : Word) (x : Exch) : Exch :=
  { Exch.init with
    msgs := x.msgs.filter (fun m => m.key.step == step || m.key.step == step + 1)
    landed := x.landed.filter (fun k => k.step == step || k.step == step + 1)
    early := x.early.filter (fun m => m.key.step == step || m.key.step == step + 1)
    bids := if first then x.bids else earlyBids step x.bids }

/-- The causes that RUNNING entry raises: landings judged at entry (R53, R205), checks failed before it, and a held
BAD_DESCRIPTOR (R60). -/
def entryFaults (g : GStep) (c : Ctl) (s : State) : State :=
  let s := faultIf (c.entrySteps.any fun n => n != g.step && n != g.step + 1) fcStepSkew s
  let s := faultIf (c.keptDiffers || c.keptDigest.any fun d => d != s.job.lasting.biasDigest) fcBiasSkew s
  let s := (c.heldFaults.filter fun f => f.1 == g.step).foldl (fun t f => stepFault f.2 t) s
  faultIf c.heldBad fcBadDescriptor s

/-- Opens the queues: the prefetched part of each list becomes the running step's. -/
def openQueues (s : State) : State :=
  let s : State := { s with cells := s.cells.map fun e => (e.1, { e.2 with
    fetched := e.2.fetchedNext, fetchedNext := 0, flight := [], windowWait := 0, halted := 0 }) }
  settleDrain ((enabledList s).foldl (fun t c => settleCell c t) s)

/-- RUNNING entry (R65): the staged changes, the counters, the Beat count, the queues. -/
def enterRunning (g : GStep) (im : Image) (tRunning : Nat) (s : State) : State :=
  let c := s.ctl
  let r := Run.start g im.imageId c.tArmed tRunning s.job.lasting
  let r := noteRingWait c r
  let s : State := { s with
    job := { s.job with lasting := applyGrant g s.job.lasting }
    exch := enterExch c.noCurrent g.step s.exch
    ctl := { c with
      run := some r, armed := none, tArmed := 0, heldBad := false, waitedRing := false, ringTicks := 0
      noCurrent := false, aborted := false, replaying := false
      stepPulses := c.stepPulses + 1, launchPulses := if g.launch then c.launchPulses + 1 else c.launchPulses
      entrySteps := [], keptDigest := none, keptDiffers := false
      heldFaults := c.heldFaults.filter fun f => f.1 == g.step + 1 } }
  let s := settleEarly g.step (entryFaults g c (resetCounters g.sched s))
  if stepActive s then openQueues s else s

/-- The step may enter RUNNING but for its report entry: no run, and its predecessor COMPLETED or the step first of a
replay. -/
def entryReady (s : State) (g : GStep) : Bool :=
  s.ctl.run.isNone && (!s.errs.deviceFault && (!s.ctl.aborted || (s.ctl.replaying && g.launch)))

/-- A report entry is free for the step: no earlier report waits for one. -/
def entryFree (s : State) : Bool := s.ctl.reportsHeld.isEmpty && ringRoom s

/-- Enters RUNNING, or begins the wait for a report entry (R64). While a cell is tested the report before it is not
written yet, and the entry waits without a REPORT_RING event (log 87). -/
def enterOrWait (g : GStep) (t : State → Nat × State) (s : State) : State :=
  match boundImage? s with
  | none => s
  | some im =>
    if entryFree s then
      let b := t s
      enterRunning g im b.1 b.2
    else if s.errs.testing.isSome then s
    else { s with ctl := { s.ctl with waitedRing := true } }

/-- STEP_RUN: a step that is at no launch point enters RUNNING. -/
def stepRunEffect (s : State) : State :=
  match s.ctl.armed with
  | none => s
  | some g => if g.launch = false ∧ entryReady s g = true then enterOrWait g engineBeat s else s

/-- STEP_RUN. -/
def execStepRun (s : State) : Host.Outcome State Fault Refusal := .next (stepRunEffect s)

/-! ## The decision point and the launch strobe (R377) -/

/-- DECISION_POINT. -/
def decisionPointEffect (s : State) : State :=
  let s := ackDeadlineEffect s
  match s.launch.pend with
  | none => s
  | some q =>
    if pastDecision s q.downbeat then settleAbortJob (closeOpen (closesPeal q) (latchOutcome q s)) else s

/-- DECISION_POINT. -/
def execDecisionPoint (s : State) : Host.Outcome State Fault Refusal := .next (decisionPointEffect s)

/-- T_RUNNING of a launched step: at most 16 ticks after D. -/
def strobeBeat (d : Nat) (s : State) : Nat × State :=
  (d + min 16 (Config.beatLag s.time.freeUses), { s with time := { s.time with freeUses := s.time.freeUses + 1 } })

/-- LAUNCH_STROBE: the Beat counter has reached D. A step that is not ARMED at D does not run. One that must wait for its
report entry keeps its strobe and enters when LAUNCH_STROBE finds one, at the Beat count of that moment (R64). -/
def launchStrobeEffect (s : State) : State :=
  match s.launch.strobe with
  | none => s
  | some (step, d) =>
    if s.time.beat < d then s
    else
      let off : State := { s with launch := { s.launch with strobe := none, strobeLate := false } }
      match s.ctl.armed with
      | none => off
      | some g =>
        if g.step = step ∧ g.launch = true ∧ entryReady s g = true then
          if entryFree s then enterOrWait g (if s.launch.strobeLate then engineBeat else strobeBeat d) off
          else enterOrWait g engineBeat { s with launch := { s.launch with strobeLate := true } }
        else off

/-- LAUNCH_STROBE. -/
def execLaunchStrobe (s : State) : Host.Outcome State Fault Refusal := .next (launchStrobeEffect s)

/-! ## ABORT_STEP (R239) -/

/-- The step is queued to run. -/
def stepQueued (s : State) (n : Word) : Bool :=
  (s.ctl.armed.toList ++ s.ctl.granted ++ s.ctl.replay).any fun g => g.step == n

/-- ABORT_STEP. -/
def cmdAbortStep (c : Cmd) (s : State) : CmdEnd :=
  let n : Word := BitVec.ofNat 32 (cmdField c 16 4)
  if s.ctl.run.any (fun r => r.g.step == n) then .opened (.abortStep n) (stepFault fcHostAbort s)
  else if stepQueued s n then reject stBadState s
  else
    match s.ctl.past.find? fun p => p.g.step == n with
    | some p => reject (if p.completed then stAlreadyDone else stAborted) s
    | none => reject stBadArg s

/-- ABORT_STEP. -/
def execAbortStep (s : State) : Host.Outcome State Fault Refusal := .next (runPlain 0x0402 cmdAbortStep s)

/-! ## The Gong (R379 to R382) -/

/-- Obeys a Gong of the open job: it stops the run, or ends the ARMED step, or waits for the next one (R381). During a cell
test it waits (R473). -/
def obeyGong (f : StepFault) (s : State) : State :=
  let s := addCount tcStepFaultsReceived 1 s
  match s.ctl.run with
  | some r => if r.fault.isSome then s else { s with ctl := { s.ctl with run := some { r with fault := some f } } }
  | none =>
    if s.ctl.armed.isSome ∧ s.errs.testing = none then abandonLaunch (latchArmed f s)
    else if (waitingGong? s).isSome then s
    else { s with ctl := { s.ctl with gongPending := some f, gongSpent := false } }

/-- A Gong arrives: its first copy is forwarded on every other port that is up, whatever its job (R380). -/
def gongEffect (port : Nat) (p : Packet) (s : State) : State :=
  let origin := fieldOf p.payload 0 4 % 2 ^ 20
  let step : Word := BitVec.ofNat 32 (fieldOf p.payload 4 4)
  let attempt : Word := BitVec.ofNat 32 (fieldOf p.payload 8 4)
  if (liveGongs s).any fun k => k.origin == origin && (k.step == step && k.attempt == attempt) then
    addCount tcGongDuplicate 1 s
  else
    let copy := sealPacket { controlPacket s 0x11 p.payload with job := p.job }
    let s := queueControls copy ((upPorts s).filter fun q => q != port) (rememberGong origin step attempt s)
    if s.job.opened = true ∧ p.job = s.job.id then obeyGong ⟨fieldOf p.payload 12 2, false, origin⟩ s else s

/-- GONG. -/
def execGong (port : Nat) (p : Packet) (s : State) : Host.Outcome State Fault Refusal :=
  .next (receive 0x11 true (some port) p (gongEffect port p) s)

end Sys2Proof.Machine
end

