-- ==== Sys2Proof/Machine/Image.lean ====
section
/-! DEFINITION. Program images: LOAD_IMAGE with every check of R29 to R34, R63 and the body rules of each class, BIND
(R36), JOB_OPEN (R426) and JOB_CLOSE (R427). -/

namespace Sys2Proof.Machine

/-! ## The header and the section table (R29 to R33) -/

/-- A header field of an image. -/
def hdr (b : Mem) (o n : Nat) : Nat := memLe b o n

/-- Section-table entry i. -/
def sectionAt (b : Mem) (i : Nat) : Section where
  typ := hdr b (128 + 32 * i) 2
  sched := hdr b (130 + 32 * i) 1
  ofs := hdr b (136 + 32 * i) 8
  len := hdr b (144 + 32 * i) 8
  load := hdr b (152 + 32 * i) 8

/-- The image that a string of bytes holds. -/
def imageOf (b : Mem) (len : Nat) : Image where
  bytes := b
  length := len
  imageId := BitVec.ofNat 32 (hdr b 8 4)
  digest := BitVec.ofNat 64 (hdr b 16 8)
  schedules := hdr b 24 2
  layers := hdr b 26 2
  seqSlots := hdr b 28 2
  expertSlots := hdr b 30 2
  stepTokens := hdr b 32 4
  expertsMax := hdr b 36 2
  kMax := hdr b 38 1
  idleLimit := hdr b 40 4
  sections := (List.range (hdr b 6 2)).map (sectionAt b)
  meas := sha3_384 len b
  bound := false

/-- IMAGE_ID is bytes 0 to 3 of the SHA3-256 of the image with the field zero (R29). -/
def imageIdOk (im : Image) : Bool :=
  (sha3_256 im.length (memClear im.bytes 8 4)).setWidth 32 == im.imageId

/-- The limits of R25 and R29 on the header. -/
def headerLimitsOk (im : Image) : Bool :=
  let b := im.bytes
  decide (128 ≤ im.length) && (hdr b 0 4 == 0x58384D49 && (hdr b 4 2 == 3 &&
  (decide (1 ≤ hdr b 6 2) && (decide (hdr b 6 2 ≤ 64) &&
  (decide (1 ≤ im.schedules) && (decide (im.schedules ≤ 16) && (decide (im.layers ≤ 256) &&
  (decide (1 ≤ im.seqSlots) && (decide (im.seqSlots ≤ 1024) && (decide (im.expertSlots ≤ 4096) &&
  (decide (1 ≤ im.stepTokens) && (decide (im.stepTokens ≤ 65536) && (decide (im.expertsMax ≤ 16384) &&
  (decide (im.kMax ≤ 32) && (decide (1000 ≤ im.idleLimit) && (decide (im.idleLimit ≤ 60000000) &&
  imageIdOk im))))))))))))))))

/-- CELL_LISTS and PRESETS have one section per schedule. -/
def perSchedule (typ : Nat) : Bool := typ == 1 || typ == 3

/-- PRESETS and MANIFEST are consumed by the control firmware and have no load address. -/
def isLoaded (x : Section) : Bool := x.typ != 3 && x.typ != 7

/-- A section-table entry keeps R30 and R31. -/
def sectionOk (im : Image) (x : Section) : Bool :=
  decide (1 ≤ x.typ) && (decide (x.typ ≤ 8) &&
  (x.ofs % 64 == 0 && (x.load % 64 == 0 && (decide (x.ofs + x.len ≤ im.length) &&
  ((if perSchedule x.typ then decide (x.sched < im.schedules) else x.sched == 0) &&
  (if isLoaded x then hbmRange x.load x.len else x.load == 0))))))

/-- Sections of a type for a schedule. -/
def sectionCount (im : Image) (typ sched : Nat) : Nat :=
  (im.sections.filter fun x => x.typ == typ && x.sched == sched).length

/-- The section counts of R31, and load ranges that do not overlap (R34). -/
def sectionsOk (im : Image) : Bool :=
  decide (128 + 32 * im.sections.length ≤ im.length) &&
  (im.sections.all (sectionOk im) &&
  ([2, 4, 5, 6, 7, 8].all (fun t => sectionCount im t 0 == 1) &&
  ((List.range im.schedules).all (fun k => sectionCount im 1 k == 1 && sectionCount im 3 k == 1) &&
  ((List.range im.sections.length).all fun i => (List.range i).all fun j =>
    match im.sections[i]?, im.sections[j]? with
    | some x, some y => !(isLoaded x && (isLoaded y && overlaps x.load x.len y.load y.len))
    | _, _ => true))))

/-! ## Lists (R32, R34, R39 to R42, R63) -/

/-- Each list lies within its section and holds valid headers, with one HALT as its last descriptor. -/
def listOk (im : Image) (sched cell : Nat) : Bool :=
  let n := listCount im sched cell
  let o := listOfs im sched cell
  o % 64 == 0 && (decide (o + 64 * n ≤ sectionLen im 1 sched) &&
  (List.range n).all fun i =>
    let d := listDesc im sched cell i
    descHeadOk i d && (decide (dClass d = haltClass) == decide (i + 1 = n)))

/-- A dependence-space wait is reached by the preset and the increments of earlier tasks of the list (R63). -/
def waitReached (im : Image) (sched cell : Nat) (sums : Tbl) (w : Word) : Bool :=
  decide (waitThreshold w ≤ sectionLe im 3 sched (4 * (cell * 1024 + waitCounter w)) 4 + tblGet sums (waitCounter w))

/-- The order rule over the descriptors of a list. -/
def orderOk (im : Image) (sched cell : Nat) : Tbl → List Desc → Bool
  | _, [] => true
  | sums, d :: r =>
    (dWaArr d || waitReached im sched cell sums d.waitA) &&
    ((dWbArr d || (dVoidable d || waitReached im sched cell sums d.waitB)) &&
     orderOk im sched cell (if dSigArr d then sums else tblAdd sums (sigCounter d) (sigIncrement d)) r)

/-- The descriptors of a list. -/
def listDescs (im : Image) (sched cell : Nat) : List Desc :=
  (List.range (listCount im sched cell)).map (listDesc im sched cell)

/-! ## ROUTING, PLACEMENT and FUNCTIONS (R149, R165 to R167, R183) -/

/-- A section as a memory of its own. -/
def sectionMem (im : Image) (typ sched : Nat) : Mem :=
  match imgSection? im typ sched with
  | some x => memSlice im.bytes x.ofs x.len
  | none => []

/-- FP32 bits are a NaN. -/
def isNan32 (v : Nat) : Bool := nonFinite v && v % 2 ^ 23 != 0

/-- Layer record l keeps R166 and R167; `place` is the PLACEMENT section at its load address. -/
def layerRecordOk (im : Image) (r place : Mem) (tables l : Nat) : Bool :=
  let x := layerAt r l
  let o := 64 + 64 * l
  decide (1 ≤ x.experts) && (decide (x.experts ≤ im.expertsMax) && (decide (x.kmin ≤ x.kmax) && (decide (1 ≤ x.kmax) &&
  (decide (x.kmax ≤ im.kMax) && (decide (x.scoreFn ≤ 2) && (decide (x.policy ≤ 3) &&
  (decide (memLe r (o + 7) 1 < 8) && (decide (x.spillRounds ≤ 3) && ((x.policy == 3 || x.spillRounds == 0) &&
  ((x.policy != 3 || (x.negotiated && decide (x.kmax * (x.spillRounds + 1) ≤ 32))) &&
  (!isNan32 x.tau && (!isNan32 x.gateScale && ((x.scoreFn == 2 || decide (x.table < tables)) &&
  (decide (1 ≤ x.capacity) && (decide (x.capacity ≤ 65536) && ((x.policy != 0 || decide (x.groupTokens ≤ x.capacity)) &&
  (decide (loadAddr im 5 0 ≤ x.placeAddr) &&
  (decide (x.placeAddr + 8 * x.experts ≤ loadAddr im 5 0 + sectionLen im 5 0) &&
  (x.biasOfs % 64 == 0 && (decide (x.biasOfs + 4 * x.experts ≤ sectionLen im 4 0) &&
  ((List.range x.experts).all fun e => !nonFinite (memLe r (x.biasOfs + 4 * e) 4) &&
    entryOk im (memLe place (x.placeAddr - loadAddr im 5 0 + 8 * e) 8))))))))))))))))))))))

/-- The ROUTING section (R165, R167). -/
def routingOk (im : Image) (tables : Nat) : Bool :=
  let r := sectionMem im 4 0
  let place := sectionMem im 5 0
  decide (64 + 64 * im.layers ≤ sectionLen im 4 0) && (memLe r 0 4 == im.layers &&
    (List.range im.layers).all fun l => layerRecordOk im r place tables l)

/-- FP32 arithmetic on bits, rounded to nearest even. -/
def sub32 (a b : Nat) : Nat := (fEncode .fp32 .rne (fAdd (fDecode .fp32 a) (fNeg (fDecode .fp32 b)))).1

/-- The product of two FP32 values, rounded to nearest even. -/
def mul32 (a b : Nat) : Nat := (fEncode .fp32 .rne (fMul (fDecode .fp32 a) (fDecode .fp32 b))).1

/-- One FP32 value lies below another. -/
def less32 (a b : Nat) : Bool := decide (fCmp (fDecode .fp32 a) (fDecode .fp32 b) < 0)

/-- A function table keeps R149. -/
def tableOk (f : Mem) (i : Nat) : Bool :=
  let o := 4160 * i
  let w (k : Nat) : Nat := memLe f (o + k) 4
  let mode := memLe f o 1
  decide (mode ≤ 3) && ((mode != 0 || (!nonFinite (w 4) && (!nonFinite (w 8) && (!nonFinite (w 12) &&
    (less32 (w 4) (w 8) && (less32 0 (w 12) &&
     !nonFinite (mul32 (sub32 (w 8) (w 4)) (w 12)))))))) &&
  (mode != 1 || !nonFinite (w 16)))

/-- Tables of a FUNCTIONS section. -/
def tableCount (im : Image) : Nat := sectionLen im 6 0 / 4160

/-- The FUNCTIONS section (R149). -/
def functionsOk (im : Image) : Bool :=
  sectionLen im 6 0 % 4160 == 0 && (decide (1 ≤ tableCount im) && (decide (tableCount im ≤ 16) &&
    (List.range (tableCount im)).all (tableOk (sectionMem im 6 0))))

/-! ## Task bodies -/

/-- Exchange plans of AUX_DESC, after the stride pattern table (R143, R211). -/
def planCount (im : Image) : Nat := (sectionLen im 2 0 - 1024) / 128

/-- Every pattern entry that a VX body names stands in the stride pattern table, which the AUX_DESC section may cut short
(R143; DEDUCED, log 39). -/
def patternsIn (im : Image) (aux : Mem) (d : Desc) : Bool :=
  let v := vxOf aux 0 0 d
  [v.src0, v.src1, v.src2, v.dst, v.mask, v.aux].all fun t =>
    !present t || (decide (t.pattern < 4) || decide (16 * (t.pattern + 1) ≤ sectionLen im 2 0))

/-- A body keeps the rules of its class. `mem` is memory with the sections loaded, `aux` AUX_DESC and `r` ROUTING. -/
def bodyOk (im : Image) (objs : List Obj) (mem aux r : Mem) (cell : Nat) (d : Desc) : Bool :=
  let plans := planCount im
  if dClass d = 1 then mxCheck cell d
  else if dClass d = 2 then vxCheck aux 0 (tableCount im) d && patternsIn im aux d
  else if dClass d = 3 then cpCheck cell d
  else if dClass d = 4 then rtCheck im r plans cell d && planOk mem aux (layerAt r (rtOf d).layer) (clusterOf cell) (rtOf d).plan
  else if dClass d = 5 then
    if 8 ≤ bodyOp d then collCheck mem aux plans cell d
    else xcCheck im r plans cell d && (xcSpansOk aux r d &&
      planOk mem aux (layerAt r (xcOf d).layer) (clusterOf cell) (xcOf d).plan)
  else if dClass d = 6 then fmCheck cell d
  else if dClass d = 7 then syCheck im.idleLimit cell d
  else if dClass d = 8 then tqCheck im objs d
  else true

/-- How a task uses an exchange plan: the layer, the round, the cluster and the plan. -/
def planUse? (cell : Nat) (d : Desc) : Option (Nat × Nat × Nat × Nat) :=
  if dClass d = 4 then some (bodyBits d 16 27 20, bodyBits d 16 19 16, clusterOf cell, bodyBits d 44 31 16)
  else if dClass d = 5 ∧ bodyOp d < 8 then some (bodyBits d 16 27 20, bodyBits d 16 19 16, clusterOf cell, bodyField d 24 2)
  else none

/-- Every use of an exchange plan in the image, each once. -/
def planUses (im : Image) : List (Nat × Nat × Nat × Nat) :=
  ((List.range im.schedules).flatMap fun k => (List.range 512).flatMap fun c =>
    (listDescs im k c).filterMap (planUse? c)).eraseDups

/-- Two uses keep R214: no two plans of intersecting parities serve one layer, round and cluster, and no two of
intersecting parities reserve overlapping landing space. No field of a plan names its cluster: a plan is that of every cluster
whose tasks name it, and two may name one whose addresses lie in HBM (R218; DESIGN CHOICE, log 106). -/
def usesAgree (aux r : Mem) (a b : Nat × Nat × Nat × Nat) : Bool :=
  let x := xplanAt aux a.2.2.2
  let y := xplanAt aux b.2.2.2
  a.2.2.2 == b.2.2.2 || (!parityMeets x.parity y.parity ||
    (!(a.1 == b.1 && (a.2.1 == b.2.1 && a.2.2.1 == b.2.2.1)) &&
      (landingSpace x (layerAt r a.1)).all fun p => (landingSpace y (layerAt r b.1)).all fun q =>
        !overlaps p.1 p.2 q.1 q.2))

/-- The collective plans that tasks name. -/
def collUses (im : Image) : List Nat :=
  ((List.range im.schedules).flatMap fun k => (List.range 512).flatMap fun c =>
    (listDescs im k c).filterMap fun d => if dClass d = 5 ∧ 8 ≤ bodyOp d then some (collPlan d) else none).eraseDups

/-- The rules on plans across tasks (R214, R384). -/
def plansOk (im : Image) (aux r : Mem) : Bool :=
  let us := planUses im
  us.all (fun a => us.all fun b => usesAgree aux r a b) && (collUses im).all fun p => us.all fun a => a.2.2.2 != p

/-- Every list of the image: its headers, its order and its bodies. -/
def listsOk (im : Image) (objs : List Obj) (mem : Mem) : Bool :=
  let aux := sectionMem im 2 0
  let r := sectionMem im 4 0
  (List.range im.schedules).all (fun k =>
    decide (4096 ≤ sectionLen im 1 k) && (sectionLen im 3 k == 2359296 && (framesOk im objs k &&
      (List.range 512).all fun c =>
        listOk im k c && (orderOk im k c [] (listDescs im k c) && (listDescs im k c).all (bodyOk im objs mem aux r c))))) &&
  plansOk im aux r

/-! ## LOAD_IMAGE (R34, R35) -/

/-- Memory with every section copied to its load address. -/
def copySections (im : Image) : List Section → Mem → Mem
  | [], m => m
  | x :: r, m => copySections im r (if isLoaded x then memCopy m x.load x.len (memSlice im.bytes x.ofs x.len) else m)

/-- Every check of an image but those of its manifest's records. -/
def imageOk (s : State) (im : Image) : Bool :=
  headerLimitsOk im && (sectionsOk im && (functionsOk im && (routingOk im (tableCount im) &&
    (sectionLen im 7 0 % 64 == 0 && listsOk im (manifestObjs im) (copySections im im.sections s.mem)))))

/-- Defines the objects of a manifest from record i on, as OBJ_DEFINE would: the first refusal decides. -/
def defineManifest (im : Image) : Nat → Nat → State → Nat × State
  | 0, _, s => (stOk, s)
  | n + 1, i, s =>
    let r := defineObj true (sectionBytes im 7 0 (64 * i) 64) s
    if r.1 = stOk then defineManifest im n (i + 1) r.2 else (r.1, s)

/-- Loads an image with no other loaded: the status, the result and the state. A refused image copies nothing. -/
def loadImage (a len : Nat) (s : State) : Nat × List Byte × State :=
  if hostOk s a len = false ∨ len < 128 then (stBadArg, [], s)
  else
    let im := imageOf (memSlice s.mem a len) len
    if !imageOk s im then (stBadArg, [], s)
    else
      let r := defineManifest im (sectionLen im 7 0 / 64) 0 s
      if r.1 = stOk then
        (stOk, natLe 4 im.imageId.toNat,
          (im.sections.filter isLoaded).foldl (fun t x => replaceBursts x.load x.len t) { r.2 with mem := copySections im im.sections s.mem, job := { s.job with image := some im } })
      else (r.1, [], s)

/-- An object of the image is being promoted. -/
def imagePromoting (s : State) : Bool :=
  s.tier.copies.any fun c => c.state == .promoting && (objOf? s c.obj).any (·.ofImage)

/-- Unloads the image: the copies of its objects become ABSENT, and the objects are removed (R34, R268). -/
def unloadImage (s : State) : State :=
  let mine := (s.tier.objs.filter (·.ofImage)).map (·.id)
  let s := (s.tier.copies.filter fun c => mine.contains c.obj).foldl (fun t c => dropCopy c.obj c.tier t) s
  { s with
    tier := { s.tier with objs := s.tier.objs.filter fun o => !o.ofImage }
    job := { s.job with image := none } }

/-- LOAD_IMAGE, beside its taking. -/
def cmdLoadImage (c : Cmd) (s : State) : CmdEnd :=
  if s.job.opened = false ∨ (boundImage? s).isSome = true then reject stBadState s
  else if imagePromoting s then .opened .loadImage s
  else
    let r := loadImage (cmdField c 16 8) (cmdField c 24 8) (unloadImage s)
    .done r.1 r.2.1 r.2.2

/-- LOAD_IMAGE. -/
def execLoadImage (s : State) : Host.Outcome State Fault Refusal := .next (runSerial 0x0301 cmdLoadImage s)

/-- The open LOAD_IMAGE. -/
def isLoadImage (o : OpenCmd) : Bool :=
  match o.kind with
  | .loadImage => true
  | .abortStep _ | .abortJob | .peal _ | .extentSeal _ | .flashFormat | .jobClose | .late _ _ => false

/-- A LOAD_IMAGE that waited goes on once the old image's promotions have ended. -/
def settleLoadImage (s : State) : State :=
  match s.mb.opened.find? isLoadImage with
  | none => s
  | some o =>
    if imagePromoting s then s
    else
      let r := loadImage (fieldOf o.args 16 8) (fieldOf o.args 24 8) (unloadImage s)
      closeOpen (fun x => if isLoadImage x then some (r.1, r.2.1) else none) r.2.2

/-! ## BIND (R36, R172, R232, R419) -/

/-- The report entry size S for an image (R232). -/
def reportSize (im : Image) : Nat := roundUp (1024 + 8 * (im.layers * im.expertSlots)) 4096

/-- The number of report entries (R419). -/
def reportEntries (s : State) (im : Image) : Nat :=
  match s.mb.rptRing with
  | none => 0
  | some (_, len) => min (len / reportSize im) 1024

/-- A section as it stands at its load address. -/
def loadedSection (s : State) (im : Image) (typ : Nat) : Mem := memSlice s.mem (loadAddr im typ 0) (sectionLen im typ 0)

/-- The initial bias vectors of the layers from l on (R165). -/
def initialBias (r : Mem) : Nat → Nat → Tbl
  | 0, _ => []
  | n + 1, l =>
    ((List.range (layerAt r l).experts).filterMap fun e =>
      let v := memLe r ((layerAt r l).biasOfs + 4 * e) 4
      if v = 0 then none else some (l * 16384 + e, v)) ++ initialBias r n (l + 1)

/-- The concatenated bias vectors of epoch 0 from layer l on, at an offset: the bytes and their number (R172). -/
def biasImage (r : Mem) : Nat → Nat → Nat → Mem × Nat
  | 0, _, o => ([], o)
  | n + 1, l, o =>
    let len := 4 * (layerAt r l).experts
    let rest := biasImage r n (l + 1) (o + len)
    (memMerge rest.1 o (memSlice r (layerAt r l).biasOfs len), rest.2)

/-- The lasting state that BIND puts in force (R230). -/
def bindLasting (r : Mem) (layers : Nat) : Lasting :=
  let b := biasImage r layers 0 0
  { Lasting.init with bias := initialBias r layers 0, biasDigest := (sha3_256 b.2 b.1).setWidth 32 }

/-- Binds the image: FUNCTIONS, ROUTING and the plans go to their units. -/
def bindImage (im : Image) (entries : Nat) (s : State) : State :=
  let r := loadedSection s im 4
  { s with
    mb := { s.mb with rptSize := reportSize im, rptEntries := entries }
    job := { s.job with
      image := some { im with bound := true }
      functions := loadedSection s im 6, functionsLen := sectionLen im 6 0, routing := r
      plans := loadedSection s im 2, plansLen := sectionLen im 2 0, lasting := bindLasting r im.layers }
    ctr := { s.ctr with sched := none, dep := [], arr := [] }
    ctl := { s.ctl with nextStep := none, launchNext := true, noCurrent := true } }

/-- BIND. -/
def cmdBind (_c : Cmd) (s : State) : CmdEnd :=
  match s.job.image with
  | none => reject stBadState s
  | some im =>
    let n := reportEntries s im
    if im.bound then reject stBadState s
    else if im.digest ≠ s.boot.digest then reject stDigestMismatch s
    else if n < 2 then reject stNoResource s
    else .done stOk (natLe 4 (reportSize im) ++ natLe 4 n) (bindImage im n s)

/-- BIND. -/
def execBind (s : State) : Host.Outcome State Fault Refusal := .next (runSerial 0x0302 cmdBind s)

/-! ## JOB_OPEN and JOB_CLOSE (R426, R427) -/

/-- JOB_OPEN. -/
def cmdJobOpen (c : Cmd) (s : State) : CmdEnd :=
  let id := cmdField c 16 2
  if s.job.opened then reject stBadState s
  else if id = 0 ∨ id = 0xFFFF then reject stBadArg s
  else .done stOk [] { s with
    job := { Job.init with opened := true, id := BitVec.ofNat 16 id, rank := BitVec.ofNat 16 (cmdField c 20 2) }
    rem := { s.rem with pairs := [], windows := [], firstRefuse := none }
    pools := { s.pools with classes := [], fallbacks := [], doubleFrees := [] } }

/-- JOB_OPEN. -/
def execJobOpen (s : State) : Host.Outcome State Fault Refusal := .next (runSerial 0x0201 cmdJobOpen s)

/-- A step is GRANTED, ARMED, RUNNING or DRAINING. -/
def stepHeld (s : State) : Bool :=
  s.ctl.run.isSome || (s.ctl.armed.isSome || (!s.ctl.granted.isEmpty || !s.ctl.replay.isEmpty))

/-- A promotion is going on. -/
def anyPromoting (s : State) : Bool := s.tier.copies.any fun c => c.state == .promoting

/-- What JOB_CLOSE does once promotions have ended (R268, R427). -/
def closeJob (s : State) : State :=
  let s := abortFrees (abortBound (abortWaits (abortDeferred s)))
  restage <| checkpointReads { s with
    job := Job.init
    ctl := { Ctl.init with
      reportsHeld := s.ctl.reportsHeld, stepPulses := s.ctl.stepPulses, launchPulses := s.ctl.launchPulses }
    ctr := Counters.init
    exch := Exch.init
    cells := []
    tier := { s.tier with objs := [], copies := [] }
    pools := { s.pools with classes := [], buffers := [], waits := [] }
    rem := { s.rem with windows := [] }
    launch := { s.launch with tree := none, strobe := none, strobeLate := false, known := [], fwd := [] } }

/-- JOB_CLOSE, beside its taking. -/
def cmdJobClose (_c : Cmd) (s : State) : CmdEnd :=
  if stepHeld s ∨ s.launch.pend.isSome = true ∨ s.job.opened = false then reject stBadState s
  else if anyPromoting s then .opened .jobClose s
  else .done stOk [] (closeJob s)

/-- JOB_CLOSE. -/
def execJobClose (s : State) : Host.Outcome State Fault Refusal := .next (runSerial 0x0202 cmdJobClose s)

/-- The open JOB_CLOSE. -/
def isJobClose (o : OpenCmd) : Bool :=
  match o.kind with
  | .jobClose => true
  | .abortStep _ | .abortJob | .peal _ | .extentSeal _ | .flashFormat | .loadImage | .late _ _ => false

/-- A JOB_CLOSE that waited goes on once every promotion has ended. -/
def settleJobClose (s : State) : State :=
  if s.mb.opened.any isJobClose && !anyPromoting s then
    closeOpen (fun o => if isJobClose o then some (stOk, []) else none) (closeJob s)
  else s

end Sys2Proof.Machine
end

