-- ==== Sys2Proof/Machine/Errors.lean ====
section
/-! DEFINITION. Patrol scrubs, the cell test and cell retirement, and the device faults (21 R459 to R473, 23 R495). -/

namespace Sys2Proof.Machine

/-- The control firmware runs: in FIRMWARE_INIT and READY, without a device fault. -/
def firmwareRuns (s : State) : Bool :=
  engineRuns s && (s.boot.stage == .ready || s.boot.stage == .firmwareInit)

/-- A device fault that the running firmware or its engine meets. -/
def faultWhile (c : Bool) (cause : Nat) (s : State) : State := if c && firmwareRuns s then deviceFault cause s else s

/-! ## Scrubs (R459 to R463, R473, R488) -/

/-- The copy in HBM that holds a burst. -/
def copyAt? (s : State) (burst : Nat) : Option Copy :=
  s.tier.copies.find? fun c => c.tier == 2 && (match objOf? s c.obj with
    | some o => (copyAddr? s o c).any fun a => overlaps a o.length burst 64
    | none => false)

/-- A device fault that the engine meets at any stage (R495). -/
def faultNow (cause : Nat) (s : State) : State := if engineRuns s then deviceFault cause s else s

/-- A copy that the patrol scrub found uncorrectable: it becomes ABSENT, after the promotion that fills it, and the promotions
that read it go on from the next slower tier (R463, R473). -/
def copyUncorrectable (c : Copy) (s : State) : State :=
  match objOf? s c.obj with
  | none => s
  | some o =>
    match c.state with
    | .promoting => mapCopy c.obj c.tier (fun x => { x with doomed := true }) s
    | .evicting => s
    | .absent => s
    | .resident | .pinned => retryEnsures (dropBad o c.tier s)

/-- The patrol scrub's finding in a burst. -/
def hbmScrubEffect (addr : Nat) (found : ScrubFinding) (s : State) : State :=
  match found with
  | .clean => s
  | .corrected => hbmCorrected addr s
  | .uncorrectable =>
    let b := addr / 64 * 64
    let s := hbmUncorrectable addr s
    if reserveBase ≤ b then deviceFault 3 s
    else
      match copyAt? s b with
      | some c => copyUncorrectable c s
      | none => s

/-- HBM_SCRUB. -/
def execHbmScrub (addr : Nat) (found : ScrubFinding) (s : State) : Host.Outcome State Fault Refusal :=
  .next (if firmwareRuns s ∧ addr < hbmBytes then hbmScrubEffect addr found s else s)

/-- A landing packet that holds its buffer of a port die leaves it, discarded; another is in no buffer. `t` is the state without
it. -/
def discardHeld (w : LaneWait) (t s : State) : State := if w.held then leaveBuffer w.port w.packet t else s

/-- The n-th packet that waits in a buffer of a port die is discarded: one in transit, one that waits for its lane, or one that
waits to cross to the engine. End-to-end retry recovers it (R330, R462; which packets the buffers hold is DEDUCED, log 98). -/
def dropBuffered (n : Nat) (s : State) : State :=
  match s.rem.tx[n]? with
  | some t => if t.transit then unqueue n t s else s
  | none =>
    let i := n - s.rem.tx.length
    match s.rem.lanes[i]? with
    | some w => discardHeld w { s with rem := { s.rem with lanes := dropAt i s.rem.lanes } } s
    | none =>
      let j := i - s.rem.lanes.length
      match s.fab.parked[j]? with
      | some w => discardHeld w { s with fab := { s.fab with parked := dropAt j s.fab.parked } } s
      | none => s

/-- The SRAM patrol scrub reads a memory: SCRUB_HOLD stops that of a cluster (R508). -/
def scrubs (s : State) (x : SramSite) : Bool :=
  match x with
  | .cluster k _ => decide (k < 16) && !s.boot.scrubHold.getLsbD k
  | .conductor | .portDie _ => true

/-- An address lies in the store of a cluster, or in the scratchpad of one of its cells. -/
def inCluster (k a : Nat) : Bool :=
  match regionOf a with
  | .store j => j == k
  | .scratch c => clusterOf c == k
  | .hbm | .host | .window | .unmapped => false

/-- An uncorrectable word of a cluster's memories stays as it is until a write replaces it, and the next read of it follows
R462 (R463). -/
def markWord (k : Nat) (word : Option Nat) (s : State) : State :=
  match word with
  | none => s
  | some a =>
    let b := a / 8 * 8
    if inCluster k b && !s.errs.badWords.contains b then
      { s with errs := { s.errs with badWords := b :: s.errs.badWords } } else s

/-- The SRAM patrol scrub corrects a word, which a cluster counts, or finds it uncorrectable: that is counted, ends no step,
is a device fault in mailbox RAM or a conductor memory, and discards the packet of a port die's buffer; a cluster's word stays
bad (R461 to R463, R472, R473). -/
def sramScrubEffect (f : SramFinding) (s : State) : State :=
  match f.found, f.site with
  | .clean, _ => s
  | .corrected, .cluster k _ => sramCorrected k s
  | .corrected, .conductor => s
  | .corrected, .portDie _ => s
  | .uncorrectable, .cluster k word => markWord k word (addCount tcSramUe 1 s)
  | .uncorrectable, .conductor => deviceFault 3 (addCount tcSramUe 1 s)
  | .uncorrectable, .portDie n => dropBuffered n (addCount tcSramUe 1 s)

/-- SRAM_SCRUB. -/
def execSramScrub (f : SramFinding) (s : State) : Host.Outcome State Fault Refusal :=
  .next (if firmwareRuns s ∧ scrubs s f.site = true then sramScrubEffect f s else s)

/-- A stack no longer answers: no training of it succeeds until a reset (R451, R468). -/
def loseStack (s : State) : State := { s with errs := { s.errs with hbmLost := true } }

/-- HBM_RETRAIN: timing only, unless the retraining of a stack fails: HBM_STACK_LOST (R468, R488). -/
def execHbmRetrain (_stack : Nat) (ok : Bool) (s : State) : Host.Outcome State Fault Refusal :=
  .next (if ok = false ∧ firmwareRuns s = true then deviceFault 5 (loseStack s) else s)

/-! ## The cell test (R466, R467, R473) -/

/-- SRAM_UNCORRECTABLE and UNIT_CHECK causes of a physical cell within 24 hours. -/
def recentFaults (s : State) (p : Nat) : Nat :=
  (s.errs.cellFaults.filter fun f => f.1 == p && decide (s.time.uptime < f.2 + dayTicks)).length

/-- The lowest-numbered healthy unused slot of a cluster. -/
def spareSlot? (s : State) (cl : Nat) : Option Nat :=
  (healthySlots s.errs.bad cl).find? fun p => !(s.errs.unit.any fun e => e.2 == p)

/-- The highest-numbered logical cell of a cluster that is in service. -/
def lastCell? (s : State) (cl : Nat) : Option Nat :=
  ((List.range 32).reverse.map fun i => 32 * cl + i).find? fun c => (kvGet? s.errs.unit c).isSome

/-- Complete copies in the scratchpad of a cell. -/
def scratchCopies (s : State) (cell : Nat) : List Copy :=
  s.tier.copies.filter fun c => c.tier == 0 && (isThere c.state && (objOf? s c.obj).any fun o =>
    o.scratchFrame.any fun a => regionOf a == .scratch cell)

/-- The tier that a scratch copy is promoted from again, none where not even the home can be read: a slower copy with an
uncorrectable word becomes ABSENT (R463). `n` bounds the copies passed over: an object has two at most. -/
def refillTier? (o : Obj) (c : Copy) : Nat → State → Option Nat × State
  | 0, s => (none, s)
  | n + 1, s =>
    let tier := slowerTier s o 0
    let x : Copy := { c with source := tier }
    if (sourceWord? s o x).isNone then (if sourceReadable s o tier then some tier else none, s)
    else
      let s := countBadSource o x s
      if tier = o.homeTier then (none, s) else refillTier? o c n (dropBad o tier s)

/-- Fills a scratch copy afresh from the next slower tier that holds the object, or its home (R467). One that no tier can give
is no longer there (R263). -/
def refillCopy (s : State) (c : Copy) : State :=
  match objOf? s c.obj with
  | none => s
  | some o =>
    let r := refillTier? o c 3 s
    match o.scratchFrame, r.1 with
    | some a, some tier => putMem a o.length (objectBytes r.2 o tier) r.2
    | some _, none => dropCopy c.obj 0 r.2
    | none, _ => s

/-- The words of a cell's scratchpad are those that another range held, or fresh ones: so are the bad words among them. -/
def wordsFrom (old : Option Nat) (cell : Nat) (s : State) : State :=
  let base (k : Nat) : Nat := scratchBase + 0x200000 * k
  let within (k b : Nat) : Bool := regionOf b == .scratch k
  let rest := s.errs.badWords.filter fun b => !within cell b
  let moved := match old with
    | none => []
    | some k => (s.errs.badWords.filter (within k)).map fun b => base cell + (b - base k)
  { s with errs := { s.errs with badWords := moved ++ rest } }

/-- The scratchpad and the accumulator file of a cell become those of a physical cell that no cell has used since READY
(R513; DEDUCED, log 52), and its complete copies are promoted again (R467). -/
def freshCell (cell : Nat) (s : State) : State :=
  let copies := scratchCopies s cell
  copies.foldl refillCopy { wordsFrom none cell s with
    mem := memClear s.mem (scratchBase + 0x200000 * cell) 0x200000
    tiles := memClear s.tiles (32768 * cell) 32768 }

/-- The scratchpad and the accumulator file of a cell become those that another logical cell used, and its complete
copies are promoted again (R467); copies of the other are no longer there (DEDUCED, log 52). -/
def takeOverCell (cell old : Nat) (s : State) : State :=
  let mine := scratchCopies s cell
  let s := (scratchCopies s old).foldl (fun t c => dropCopy c.obj 0 t) s
  mine.foldl refillCopy { wordsFrom (some old) cell s with
    mem := memCopy s.mem (scratchBase + 0x200000 * cell) 0x200000 (memSlice s.mem (scratchBase + 0x200000 * old) 0x200000)
    tiles := memCopy s.tiles (32768 * cell) 32768 (memSlice s.tiles (32768 * old) 32768) }

/-- The logical unit map has changed: the digest follows, and the image is unbound (R18, R37, R393). -/
def changeDigest (s : State) : State :=
  let s := withdrawSteps { s with boot := { s.boot with digest := digestNow s s.errs.unit } }
  { s with
    job := { s.job with image := s.job.image.map fun im => { im with bound := false } } }

/-- Retires the physical cell of a logical cell (R466). -/
def retireCell (cell : Nat) (s : State) : State :=
  let cl := clusterOf cell
  let s : State := { s with errs := { s.errs with bad := physOf s cell :: s.errs.bad } }
  match spareSlot? s cl with
  | some p =>
    freshCell cell (addCount tcCellsRemapped 1 { s with errs := { s.errs with unit := kvPut s.errs.unit cell p } })
  | none =>
    match lastCell? s cl with
    | none => s
    | some last =>
      let p := physOf s last
      if last = cell then
        changeDigest { s with errs := { s.errs with unit := kvDel s.errs.unit cell } }
      else
        let s := takeOverCell cell last s
        changeDigest (addCount tcCellsRemapped 1
          { s with errs := { s.errs with unit := kvPut (kvDel s.errs.unit last) cell p } })

/-- The 2 ms test of a physical cell ends: it is retired if it failed, or on its third such cause in 24 hours. Its logical cell
is the one that it carries by now (R466). -/
def testPhys (p : Nat) (failed : Bool) (s : State) : State :=
  if failed ∨ 3 ≤ recentFaults s p then
    match s.errs.unit.find? fun e => e.2 == p with
    | some e => retireCell e.1 s
    | none => s
  else s

/-- The second cell that failed during a test, with how its own ended: another cell in service of the same cluster (R473). -/
def secondTest? (s : State) (cell : Nat) (e : TestEnd) : Option (Nat × Bool) :=
  match e.second with
  | none => none
  | some x => if x.1 ≠ cell ∧ clusterOf x.1 = clusterOf cell ∧ (kvGet? s.errs.unit x.1).isSome then some x else none

/-- CELL_TEST: the test of the faulted cell ends, and that of a second cell that failed meanwhile, in physical cell order; then
the report is written (R466, R473). -/
def cellTestEffect (e : TestEnd) (s : State) : State :=
  match s.errs.testing with
  | none => s
  | some cell =>
    let p := physOf s cell
    let t : State := { s with errs := { s.errs with testing := none } }
    settleReport (match secondTest? s cell e with
      | none => testPhys p e.failed t
      | some x =>
        let q := physOf s x.1
        let u : State := { t with errs := { t.errs with cellFaults := (q, s.time.uptime) :: t.errs.cellFaults } }
        if q < p then testPhys p e.failed (testPhys q x.2 u) else testPhys q x.2 (testPhys p e.failed u))

/-- CELL_TEST. -/
def execCellTest (result : TestEnd) (s : State) : Host.Outcome State Fault Refusal := .next (cellTestEffect result s)

/-! ## Device faults (R468, R469, R495) -/

/-- FIRMWARE_WATCHDOG. -/
def execFirmwareWatchdog (s : State) : Host.Outcome State Fault Refusal := .next (faultWhile true 4 s)

/-- HBM_STACK_LOST. -/
def execHbmStackLost (_stack : Nat) (s : State) : Host.Outcome State Fault Refusal :=
  .next (if s.pins.pwrgd then faultWhile true 5 (loseStack s) else s)

/-- No UCIe module of a port die is in service. -/
def dropDie (dieB : Bool) (s : State) : State :=
  { s with errs := { s.errs with
    dieModulesA := if dieB then s.errs.dieModulesA else 0, dieModulesB := if dieB then 0 else s.errs.dieModulesB } }

/-- Every UCIe module to one port die has failed: PORT_DIE_LOST. -/
def portDieLost (dieB : Bool) (s : State) : State := faultWhile true 6 (dropDie dieB s)

/-- PORT_DIE_LOST. -/
def execPortDieLost (dieB : Bool) (s : State) : Host.Outcome State Fault Refusal :=
  .next (if s.pins.pwrgd then portDieLost dieB s else s)

/-- The UCIe modules to a port die that are in service. -/
def dieModules (dieB : Bool) (e : Errs) : Nat := if dieB then e.dieModulesB else e.dieModulesA

/-- A module to a port die fails: the attachment runs on the remaining modules, and with the last one the die is lost (R408,
R468). -/
def dieModuleFails (dieB : Bool) (s : State) : State :=
  if dieModules dieB s.errs = 0 then s
  else if dieModules dieB s.errs = 1 then portDieLost dieB s
  else if dieB then { s with errs := { s.errs with dieModulesB := s.errs.dieModulesB - 1 } }
  else { s with errs := { s.errs with dieModulesA := s.errs.dieModulesA - 1 } }

/-- PORT_DIE_MODULE_FAIL. -/
def execPortDieModuleFail (dieB : Bool) (s : State) : Host.Outcome State Fault Refusal :=
  .next (if s.pins.pwrgd then dieModuleFails dieB s else s)

/-- A port whose reference has stopped goes DOWN, unless it is disabled (R495). -/
def portLosesClock (s : State) (port : Nat) : State :=
  let st := (portOf s port).state
  if st = .disabled ∨ st = .down then s
  else
    let c := freeChoice s
    leaveService port .down c.1 c.2

/-- A reference clock stops: the loss of a port die's or of HBM's is a device fault at every stage (R495). -/
def refclkLossEffect (clk : RefClk) (s : State) : State :=
  match clk with
  | .core dieB =>
    let s := faultNow 6 (dropDie dieB s)
    if dieB then s else { s with time := { s.time with stopped := true } }
  | .ser dieB quad =>
    ((List.range 16).map fun i => (if dieB then 64 else 0) + 16 * quad + i).foldl portLosesClock s
  | .hbm _ => faultNow 5 (loseStack s)

/-- REFCLK_LOSS. -/
def execRefclkLoss (clk : RefClk) (s : State) : Host.Outcome State Fault Refusal :=
  .next (if s.pins.pwrgd then refclkLossEffect clk s else s)

end Sys2Proof.Machine
end

