-- ==== Sys2Proof/Machine/Debug.lean ====
section
/-! DEFINITION. Boundary scan (24 R505 to R507), the task trace (R509, R510), DEBUG_MEMREAD (18 R424) and
the probe points (R503). -/

namespace Sys2Proof.Machine

/-! ## JTAG (R505 to R507) -/

/-- The identification register (R506). -/
def idcodeRegister : Word := 0x158085AF

/-- EXTEST, CLAMP and HIGHZ take the pins only in ROM_WAIT and FAILED; in every other stage they act as BYPASS. -/
def scanMayDrive (s : State) : Bool := s.boot.stage == .romWait || s.boot.stage == .failed

/-- The instruction as it acts. -/
def jtagActs (s : State) : JtagIr :=
  match s.dbg.ir with
  | .extest => if scanMayDrive s then .extest else .bypass
  | .clamp => if scanMayDrive s then .clamp else .bypass
  | .highz => if scanMayDrive s then .highz else .bypass
  | .samplePreload => .samplePreload
  | .idcode => .idcode
  | .ijtag => .ijtag
  | .bypass => .bypass

/-- What drives the output pins. -/
inductive PinSource where
  | device
  | boundary (cells : List Bool)
  | floating
  deriving DecidableEq, Repr

/-- The outputs as the tray sees them (R493, R505, R506). -/
def pinSource (s : State) : PinSource :=
  if s.pins.floated then .floating
  else
    match jtagActs s with
    | .extest | .clamp => .boundary s.dbg.boundary
    | .highz => .floating
    | .samplePreload | .idcode | .ijtag | .bypass => .device

/-- The instrument network is reached: IJTAG with JTAG_LOCK clear (R507). -/
def ijtagReached (s : State) : Bool := jtagActs s == .ijtag && !locked 2 s

/-- The code that an instruction has in the 8-bit instruction register (R505). -/
def irCode (i : JtagIr) : BitVec 8 :=
  match i with
  | .extest => 0x00
  | .samplePreload => 0x01
  | .idcode => 0x02
  | .clamp => 0x03
  | .highz => 0x04
  | .ijtag => 0x10
  | .bypass => 0xFF

/-- A data register of the JTAG port (R505, R507). -/
inductive DataRegister where
  | boundary
  | identification
  | bypass
  | network
  /-- The 1-bit register that IJTAG selects while JTAG_LOCK is set. -/
  | lockedBit
  deriving DecidableEq, Repr

/-- The data register that the instruction selects. -/
def dataRegister (s : State) : DataRegister :=
  match jtagActs s with
  | .extest | .samplePreload => .boundary
  | .idcode => .identification
  | .clamp | .highz | .bypass => .bypass
  | .ijtag => if ijtagReached s then .network else .lockedBit

/-- What the selected register shifts out, its least significant bit first: the captured cells, the identification register, or the
one bit that captures 0 (for BYPASS as IEEE 1149.1 has it, PRESUMED, log 95). What the instruments of the network hold is not the
manual's (log 98). -/
def dataShown? (s : State) : Option (List Bool) :=
  match dataRegister s with
  | .boundary => some s.dbg.captured
  | .identification => some ((List.range 32).map idcodeRegister.getLsbD)
  | .bypass | .lockedBit => some [false]
  | .network => none

/-- Loads a JTAG instruction, while the device has power. -/
def loadIr (i : JtagIr) (s : State) : State := if s.pins.pwrgd then { s with dbg := { s.dbg with ir := i } } else s

/-- Values for the boundary cells: one for every land of the chain. A shift of another length leaves the first values, or 0 beyond
them (DESIGN CHOICE, log 95). -/
def chainCells (v : List Bool) : List Bool := (List.range Config.chainLength).map fun i => v.getD i false

/-- The boundary cells capture the levels of the lands, which are free, and take new values (R505, log 95). -/
def scanCells (v : List Bool) (s : State) : State :=
  if s.pins.pwrgd then
    { s with
      dbg := { s.dbg with
        boundary := chainCells v
        captured := (List.range Config.chainLength).map fun i => Config.pinLevel i s.time.freeUses }
      time := { s.time with freeUses := s.time.freeUses + 1 } }
  else s

/-- EXTEST: drives and captures the boundary cells. In another stage the bypass register is selected, and no cell is touched. -/
def execExtest (drive : List Bool) (s : State) : Host.Outcome State Fault Refusal :=
  .next (loadIr .extest (if scanMayDrive s then scanCells drive s else s))

/-- SAMPLE_PRELOAD: captures the pins without disturbing them, and loads the cells. -/
def execSamplePreload (preload : List Bool) (s : State) : Host.Outcome State Fault Refusal :=
  .next (loadIr .samplePreload (scanCells preload s))

/-- IDCODE. -/
def execIdcode (s : State) : Host.Outcome State Fault Refusal := .next (loadIr .idcode s)

/-- CLAMP. -/
def execClamp (s : State) : Host.Outcome State Fault Refusal := .next (loadIr .clamp s)

/-- HIGHZ. -/
def execHighz (s : State) : Host.Outcome State Fault Refusal := .next (loadIr .highz s)

/-- IJTAG. -/
def execIjtag (s : State) : Host.Outcome State Fault Refusal := .next (loadIr .ijtag s)

/-- Codes that R505 gives another instruction. -/
def namedIr (code : Nat) : Bool := decide (code ≤ 4) || code == 0x10

/-- BYPASS, and every code without a name. -/
def execBypass (code : BitVec 8) (s : State) : Host.Outcome State Fault Refusal :=
  .next (if namedIr code.toNat then s else loadIr .bypass s)

/-- TEST_LOGIC_RESET: TRST_N low, or 5 TCK cycles with TMS high. -/
def execTestLogicReset (s : State) : Host.Outcome State Fault Refusal := .next (loadIr .idcode s)

/-! ## DEBUG_TRACE (R509) -/

/-- ACTION. -/
def traceAction (c : Cmd) : Nat := cmdField c 16 1

/-- A capture runs. -/
def capturing (s : State) : Bool := s.dbg.capture.any (·.running)

/-- The buffer overlaps a load range of the loaded image. -/
def overlapsImage (s : State) (a n : Nat) : Bool :=
  match s.job.image with
  | none => false
  | some im => (im.sections.filter isLoaded).any fun x => overlaps a n x.load x.len

/-- The result of STOP and STATUS. -/
def captureCounts (s : State) : List Byte :=
  match s.dbg.capture with
  | none => natLe 8 0
  | some x => natLe 4 x.written ++ natLe 4 x.dropped

/-- START; another ACTION returns BAD_ARG. -/
def cmdTraceStart (c : Cmd) (s : State) : CmdEnd :=
  let a := cmdField c 24 8
  let n := cmdField c 32 4
  if locked 3 s then reject stAuthFail s
  else if traceAction c ≠ 0 then reject stBadArg s
  else if capturing s then reject stBadState s
  else if a % 4096 = 0 ∧ n % 4096 = 0 ∧ 65536 ≤ n ∧ n ≤ 1073741824 ∧ hbmRange a n = true ∧ overlapsImage s a n = false then
    .done stOk [] { s with dbg := { s.dbg with capture := some {
      base := a, length := n, wrap := bitOf (cmdField c 36 1) 0, all := bitOf (cmdField c 36 1) 1
      written := 0, dropped := 0, running := true } } }
  else reject stBadArg s

/-- DEBUG_TRACE_START: START, and every ACTION that R509 does not give. -/
def execDebugTraceStart (s : State) : Host.Outcome State Fault Refusal :=
  .next (runCmd (fun c => c.op == 0x0B01 && (traceAction c != 1 && traceAction c != 2)) cmdTraceStart s)

/-- STOP. -/
def cmdTraceStop (_c : Cmd) (s : State) : CmdEnd :=
  if locked 3 s then reject stAuthFail s
  else if capturing s then
    .done stOk (captureCounts s)
      { s with dbg := { s.dbg with capture := s.dbg.capture.map fun x => { x with running := false } } }
  else reject stBadState s

/-- DEBUG_TRACE_STOP. -/
def execDebugTraceStop (s : State) : Host.Outcome State Fault Refusal :=
  .next (runCmd (fun c => c.op == 0x0B01 && traceAction c == 1) cmdTraceStop s)

/-- STATUS. -/
def cmdTraceStatus (_c : Cmd) (s : State) : CmdEnd :=
  if locked 3 s then reject stAuthFail s else .done stOk (captureCounts s) s

/-- DEBUG_TRACE_STATUS. -/
def execDebugTraceStatus (s : State) : Host.Outcome State Fault Refusal :=
  .next (runCmd (fun c => c.op == 0x0B01 && traceAction c == 2) cmdTraceStatus s)

/-! ## DEBUG_MEMREAD (R424, R463) -/

/-- The source lies in HBM outside the reserve, in a cluster store, or in the scratchpad of a cell in service. -/
def memreadSource (s : State) (a n : Nat) : Bool :=
  match regionOf a with
  | .hbm | .store _ | .scratch _ => accessOk s a n
  | .host | .window | .unmapped => false

/-- What the read finds: whether it ends with data, and the state. No step is affected (R463). -/
def memreadHealth (h : Health) (s : State) : Bool × State :=
  match h with
  | .clean => (true, s)
  | .hbmCorrected a => (true, hbmCorrected a s)
  | .sramCorrected => (true, s)
  | .hbmUncorrectable a => (false, hbmUncorrectable a s)
  | .sramUncorrectable _ => (false, addCount tcSramUe 1 s)
  | .unitCheck | .unitFailed => (true, s)

/-- What a read of a range finds: its operand says so, and a word known to be bad is met again (R463). -/
def memreadFinds (a n : Nat) (h : Health) (s : State) : Bool × State :=
  let r := memreadHealth h s
  if r.1 then memreadHealth (metHealth (fun b m => overlaps a n b m) r.2) r.2 else r

/-- The cluster that holds an address of a store or a scratchpad counts a corrected word. -/
def memreadCorrected (a : Nat) (h : Health) (s : State) : State :=
  match h, regionOf a with
  | .sramCorrected, .store k => sramCorrected k s
  | .sramCorrected, .scratch c => sramCorrected (clusterOf c) s
  | _, _ => s

/-- DEBUG_MEMREAD. -/
def cmdDebugMemread (h : Health) (c : Cmd) (s : State) : CmdEnd :=
  let a := cmdField c 16 8
  let n := cmdField c 24 8
  if locked 3 s then reject stAuthFail s
  else if 64 ≤ n ∧ n ≤ 1048576 ∧ n % 64 = 0 ∧ memreadSource s a n = true ∧ argOk c n s = true then
    if stepRunning s then reject stBadState s
    else
      let r := memreadFinds a n h (memreadCorrected a h s)
      if r.1 then .done stOk [] (putMem (argAddr c) n (memSlice s.mem a n) r.2) else .done stStepFault [] r.2
  else reject stBadArg s

/-- DEBUG_MEMREAD. -/
def execDebugMemread (h : Health) (s : State) : Host.Outcome State Fault Refusal :=
  .next (runLong 0x0B02 (cmdDebugMemread h) s)

/-! ## Probe points (R503) -/

/-- A probe point. -/
inductive ProbePoint where
  /-- A unit of a logical cell: 0 matrix unit, 1 vector engine, 2 copy port, 3 task prefetcher. -/
  | cell (cell unit : Nat)
  /-- A handshake of a cluster: 0 routing engine, 1 and 2 exchange unit send and receive, 3 cluster mover, 4 pool manager. -/
  | cluster (cluster signal : Nat)
  | arrival (cluster : Nat)
  | pace (cluster : Nat)
  | beatDiv
  | stepState
  | gong
  | launch
  | reserved
  deriving DecidableEq, Repr

/-- The probe point of a PROBE value. -/
def probePoint (v : Nat) : ProbePoint :=
  if v < 0x800 then .cell (v / 4) (v % 4)
  else if v < 0xA00 then
    let cl := v / 32 % 16
    if v % 32 < 5 then .cluster cl (v % 32)
    else if v % 32 = 5 then .arrival cl
    else if v % 32 = 6 then .pace cl
    else .reserved
  else if v = 0xA00 then .beatDiv
  else if v = 0xA01 then .stepState
  else if v = 0xA02 then .gong
  else if v = 0xA03 then .launch
  else .reserved

/-- A Gong has been received or originated and no ABORTED latch has followed. -/
def gongHigh (s : State) : Bool :=
  (match s.ctl.run with
    | some r => r.fault.isSome
    | none => false) || (waitingGong? s).isSome

/-- The level of a probe point between its pulses. The square waves of handshakes and of the pace monitor are free: they
follow the pace of a part without clock (DESIGN CHOICE, log 95). -/
def probeLevel (s : State) (v : Nat) : Bool :=
  match probePoint v with
  | .cell _ _ => Config.probeLevel v s.time.freeUses
  | .cluster _ _ => Config.probeLevel v s.time.freeUses
  | .pace _ => Config.probeLevel v s.time.freeUses
  | .beatDiv => (engineBeat s).1 / 1024 % 2 == 1
  | .gong => gongHigh s
  | .arrival _ => false
  | .stepState => false
  | .launch => false
  | .reserved => false

/-- The pulses that a probe point has shown. -/
def probePulses (s : State) (v : Nat) : Nat :=
  match probePoint v with
  | .arrival cl => tblGet s.dbg.strobes cl
  | .stepState => s.ctl.stepPulses
  | .launch => s.ctl.launchPulses
  | .cell _ _ | .cluster _ _ | .pace _ | .beatDiv | .gong | .reserved => 0

/-- The PROBE value that pin TMX_OUT[i] shows: with PIN_LOOP every pin shows that of TMX_SEL0 (R508). -/
def pinProbe (s : State) (i : Nat) : Nat := tblGet s.dbg.tmxSel (if s.boot.pinLoop then 0 else i)

/-- Pin TMX_OUT[i] as the device drives it: none while DRIVE is 0 or the device does not drive its pins (R493, R497, R506),
else the level of its probe point. -/
def tmxOut (s : State) (i : Nat) : Option Bool :=
  if s.dbg.tmxDrive = true ∧ pinSource s = .device then some (probeLevel s (pinProbe s i)) else none

/-- What the network's second selector shows of a probe point, and none where the network is not reached (R507). -/
def networkProbe (s : State) (v : Nat) : Option Bool := if ijtagReached s then some (probeLevel s v) else none

end Sys2Proof.Machine
end

