-- ==== Sys2Proof/Machine/Mgmt.lean ====
section
/-! DEFINITION. The management plane (22 R474 to R489): requests and responses, sensors, the governor and the thermal
policy; and the telemetry snapshot (19 R439 to R441). -/

namespace Sys2Proof.Machine

/-! ## Requests and responses (R476, R477) -/

/-- The broadcast address. -/
def broadcastMac : BitVec 48 := 0xFFFFFFFFFFFF

/-- Takes what arrives on an interface: an Ethernet frame with a bad FCS is dropped and counted, and one of another
EtherType or for another address is ignored (R475). -/
def takeFrame (via : MgmtVia) (f : State → State) (s : State) : State :=
  match via with
  | .i3c => f s
  | .ethernet dst _ etherType fcsGood =>
    if fcsGood = false then { s with mgmt := { s.mgmt with badFcs := s.mgmt.badFcs + 1 } }
    else if etherType = 0x88B5 ∧ (dst = Config.macAddress ∨ dst = broadcastMac) then f s
    else s

/-- The Ethernet address that an answer goes to. -/
def replyMac (via : MgmtVia) : Option (BitVec 48) :=
  match via with
  | .i3c => none
  | .ethernet _ src _ _ => some src

/-- The bytes of an Ethernet address, in the order sent. -/
def macBytes (a : BitVec 48) : List Byte := (natLe 6 a.toNat).reverse

/-- The Ethernet frame of an MCTP packet, without its FCS: header, MCTP transport header, payload, and padding to the frame
minimum of 60 bytes (R475). -/
def mgmtFrame (dst : BitVec 48) (head payload : List Byte) : List Byte :=
  let b := macBytes dst ++ (macBytes Config.macAddress ++ ([0x88, 0xB5] ++ (head ++ payload)))
  b ++ List.replicate (60 - b.length) 0

/-- The packets of what was sent: at most 1,024 payload bytes each over Ethernet, in frames, and 64 over I3C (R474, R475).
The MCTP transport header is DSP0236's (log 54). -/
def mgmtPackets (o : MgmtOut) : List (List Byte) :=
  let size := if o.mac.isSome then 1024 else 64
  let n := max 1 (ceilDiv o.bytes.length size)
  (List.range n).map fun i =>
    let head := natLe 4 (Config.mctpHead o.endpoint i n).toNat
    let part := (o.bytes.drop (size * i)).take size
    match o.mac with
    | some a => mgmtFrame a head part
    | none => head ++ part

/-- The bytes of a response: the header of R476 with RESPONSE set, the status and the result. -/
def mgmtBytes (q : MgmtReq) (status : Nat) (result : List Byte) : List Byte :=
  [0x7F, 0x00, 0x01, 0x4B, 0x58, q.command, q.flags ||| 0x80, 0] ++ natLe 2 status ++ natLe 2 0 ++ result

/-- Sends a response to the endpoint that sent the request (R480). -/
def mgmtRespond (q : MgmtReq) (status : Nat) (result : List Byte) (s : State) : State :=
  { s with mgmt := { s.mgmt with out := ⟨q.endpoint, mgmtBytes q status result, replyMac q.via⟩ :: s.mgmt.out } }

/-- A field of a request's ARGS. -/
def arg (q : MgmtReq) (o n : Nat) : Nat := fieldOf q.args o n

/-- What a request does: a status, a result and the state. -/
abbrev MgmtBody := MgmtReq → State → Nat × List Byte × State

/-- A request that returns a status and changes nothing. -/
def refuseMgmt (status : Nat) (s : State) : Nat × List Byte × State := (status, [], s)

/-- Serves a request whose command code is meant and which carries at least n bytes of ARGS; longer ARGS are padding of
the frame (log 53). A response that arrives as a request is ignored. -/
def serveMgmt (meant : Nat → Bool) (n : Nat) (body : MgmtBody) (q : MgmtReq) (s : State) : State :=
  if meant q.command.toNat = true ∧ q.flags.getLsbD 7 = false then
    if q.reserved ≠ 0 ∨ q.args.length < n then mgmtRespond q stBadArg [] s
    else
      let r := body q s
      mgmtRespond q r.1 r.2.1 r.2.2
  else s

/-- A request arrives, if the device has power (R475). -/
def runMgmt (meant : Nat → Bool) (n : Nat) (body : MgmtBody) (q : MgmtReq) (s : State) : State :=
  if s.pins.pwrgd then takeFrame q.via (serveMgmt meant n body q) s else s

/-- The request's code is this one. -/
def isCode (k : Nat) (c : Nat) : Bool := c == k

/-- A request that is served only from READY on (R479). -/
def afterReady (body : MgmtBody) : MgmtBody := fun q s =>
  if s.boot.stage = .ready then body q s else refuseMgmt stBadState s

/-! ## What a sample of the sensors says (R484, R491) -/

/-- TJ_MAX: the hottest junction sensor, in tenths of a degree (R484). -/
def tjMax (x : Sample) : Int :=
  match x.junctions with
  | [] => 0
  | a :: r => r.foldl max a

/-- Package power in milliwatts, the fraction dropped: VCORE and every further rail, each its voltage times its current (R491;
the rounding is a DESIGN CHOICE, log 80). -/
def packageMw (x : Sample) : Nat :=
  (x.rails.foldl (fun n r => n + r.1 * r.2) (x.vcoreMv * x.currentMa)) / 1000

/-! ## State and identity (R477, R481) -/

/-- GET_STATE. -/
def mgmtGetState (_q : MgmtReq) (s : State) : Nat × List Byte × State :=
  (stOk, natLe 1 (stageCode s.boot.stage) ++ natLe 1 (if s.mb.ready then 1 else 0) ++ natLe 2 0 ++
    natLe 4 s.mgmt.physId.toNat ++ natLe 4 (selfId s) ++ natLe 2 s.mb.evtFault.toNat, s)

/-- GET_STATE. -/
def execGetState (q : MgmtReq) (s : State) : Host.Outcome State Fault Refusal :=
  .next (runMgmt (isCode 0x01) 0 mgmtGetState q s)

/-- The device takes a physical id: every port that is up retrains, and with none every port is disabled (R481). -/
def takePhysId (v : Nat) (s : State) : State :=
  let s := settlePorts false { s with mgmt := { s.mgmt with physId := BitVec.ofNat 24 v } }
  (upPorts s).foldl (fun t p => retrain p t) s

/-- SET_PHYS_ID. -/
def mgmtSetPhysId (q : MgmtReq) (s : State) : Nat × List Byte × State :=
  if arg q 0 4 < 2 ^ 24 then (stOk, [], takePhysId (arg q 0 4) s) else refuseMgmt stBadArg s

/-- SET_PHYS_ID. -/
def execSetPhysId (q : MgmtReq) (s : State) : Host.Outcome State Fault Refusal :=
  .next (runMgmt (isCode 0x02) 4 mgmtSetPhysId q s)

/-! ## Forwarding tables (R21, R316, R481) -/

/-- Bytes of a forwarding table. -/
def forwardTableBytes : Nat := 140288

/-- TABLE_WRITE: writes the shadow copy and clears its ready mark. -/
def mgmtTableWrite (q : MgmtReq) (s : State) : Nat × List Byte × State :=
  let o := arg q 0 4
  let n := arg q 4 2
  if 4 ≤ n ∧ n ≤ 1024 ∧ n % 4 = 0 ∧ o + n ≤ forwardTableBytes ∧ arg q 6 2 = 0 ∧ 8 + n ≤ q.args.length then
    (stOk, [], { s with fab := { s.fab with
      shadow := memWrite s.fab.shadow o ((q.args.drop 8).take n), shadowReady := false } })
  else refuseMgmt stBadArg s

/-- TABLE_WRITE. -/
def execTableWrite (q : MgmtReq) (s : State) : Host.Outcome State Fault Refusal :=
  .next (runMgmt (isCode 0x03) 8 mgmtTableWrite q s)

/-- TABLE_READY: refused under R316; otherwise the copy is marked ready, and with no step RUNNING or DRAINING the swap
takes place at once (R21). -/
def mgmtTableReady (_q : MgmtReq) (s : State) : Nat × List Byte × State :=
  if tableRefused s.fab.shadow then
    (stBadArg, [], { s with fab := { s.fab with shadowReady := false } })
  else
    let s : State := { s with fab := { s.fab with shadowReady := true } }
    (stOk, [], if stepRunning s then s else tableSwap s)

/-- TABLE_READY. -/
def execTableReady (q : MgmtReq) (s : State) : Host.Outcome State Fault Refusal :=
  .next (runMgmt (isCode 0x04) 0 mgmtTableReady q s)

/-- TABLE_READ. -/
def mgmtTableRead (q : MgmtReq) (s : State) : Nat × List Byte × State :=
  let o := arg q 4 4
  let n := arg q 8 2
  if arg q 0 1 ≤ 1 ∧ arg q 1 3 = 0 ∧ 4 ≤ n ∧ n ≤ 1024 ∧ o + n ≤ forwardTableBytes then
    (stOk, memRead (if arg q 0 1 = 0 then s.fab.active else s.fab.shadow) o n, s)
  else refuseMgmt stBadArg s

/-- TABLE_READ. -/
def execTableRead (q : MgmtReq) (s : State) : Host.Outcome State Fault Refusal :=
  .next (runMgmt (isCode 0x05) 10 mgmtTableRead q s)

/-! ## Limits and shares (R479, R482, R484, R487) -/

/-- SET_POWER: before READY it waits for READY. -/
def mgmtSetPower (q : MgmtReq) (s : State) : Nat × List Byte × State :=
  let a := arg q 0 2
  let b := arg q 2 2
  if 600 ≤ a ∧ a ≤ b ∧ b ≤ 2400 then
    (stOk, [], { s with mgmt := if s.boot.stage = .ready then { s.mgmt with sustainedW := a, burstW := b }
      else { s.mgmt with powerNext := some (a, b) } })
  else refuseMgmt stBadArg s

/-- SET_POWER. -/
def execSetPower (q : MgmtReq) (s : State) : Host.Outcome State Fault Refusal :=
  .next (runMgmt (isCode 0x06) 4 mgmtSetPower q s)

/-- SET_THERMAL: before READY it waits for READY. -/
def mgmtSetThermal (q : MgmtReq) (s : State) : Nat × List Byte × State :=
  let a := arg q 0 2
  let b := arg q 2 2
  if 700 ≤ a ∧ a ≤ 1020 ∧ a + 50 ≤ b ∧ b ≤ 1100 then
    (stOk, [], { s with mgmt := if s.boot.stage = .ready then { s.mgmt with throttle := a, trip := b }
      else { s.mgmt with thermalNext := some (a, b) } })
  else refuseMgmt stBadArg s

/-- SET_THERMAL. -/
def execSetThermal (q : MgmtReq) (s : State) : Host.Outcome State Fault Refusal :=
  .next (runMgmt (isCode 0x07) 4 mgmtSetThermal q s)

/-- SET_SHARES. -/
def mgmtSetShares (q : MgmtReq) (s : State) : Nat × List Byte × State :=
  let h := arg q 0 4
  let n := arg q 4 4
  let f := arg q 8 4
  if 1000 ≤ h ∧ h ≤ 100000 ∧ 10000 ≤ n ∧ n ≤ 250000 ∧ 1000 ≤ f ∧ f ≤ 50000 then
    (stOk, [], { s with mgmt := { s.mgmt with shareHbm := h, shareNand := n, shareFabric := f } })
  else refuseMgmt stBadArg s

/-- SET_SHARES. -/
def execSetShares (q : MgmtReq) (s : State) : Host.Outcome State Fault Refusal :=
  .next (runMgmt (isCode 0x08) 12 (afterReady mgmtSetShares) q s)

/-! ## Telemetry (R439 to R441) -/

/-- GET_SNAPSHOT. -/
def mgmtGetSnapshot (q : MgmtReq) (s : State) : Nat × List Byte × State :=
  let o := arg q 0 4
  let n := arg q 4 2
  if 4 ≤ n ∧ n ≤ 1024 ∧ o + n ≤ 9216 then (stOk, natLe 4 (telSeqShown s).toNat ++ telRead s o n, s)
  else refuseMgmt stBadArg s

/-- GET_SNAPSHOT. -/
def execGetSnapshot (q : MgmtReq) (s : State) : Host.Outcome State Fault Refusal :=
  .next (runMgmt (isCode 0x09) 6 (afterReady mgmtGetSnapshot) q s)

/-- The lowest figure of a list, 0 of an empty one. -/
def lowest (l : List Nat) : Nat :=
  match l with
  | [] => 0
  | a :: r => r.foldl min a

/-- The mean of the first n figures of a list, or of all there are. -/
def meanOf (n : Nat) (l : List Nat) : Nat :=
  let x := l.take n
  x.foldl (· + ·) 0 / max 1 x.length

/-- PKG_POWER_MW: package power over the last 1 ms. -/
def meanPower (s : State) : Nat := meanOf 100 s.mgmt.powerHist

/-- Port state codes (R441). -/
def portCode (x : PortState) : Nat :=
  match x with
  | .disabled => 0
  | .training => 1
  | .upFull => 2
  | .upHalf => 3
  | .down => 4
  | .miscabled => 5

/-- The fields of a port entry. -/
def portFields (s : State) (p : Nat) : List (Nat × Nat × Nat) :=
  let q := portOf s p
  let o := 1024 + 64 * p
  [(o, 1, portCode q.state), (o + 1, 1, q.medium), (o + 4, 4, q.phys.toNat), (o + 8, 4, q.logical.toNat),
   (o + 16, 8, q.fecCorrected), (o + 24, 8, q.fecUncorrected), (o + 32, 8, q.replays), (o + 40, 8, q.retrains),
   (o + 48, 8, q.flitsTx), (o + 56, 8, q.flitsRx)]

/-- FIRST_REFUSE. -/
def refuseWord (s : State) : Nat :=
  match s.rem.firstRefuse with
  | none => 0
  | some (reason, status) => 2 ^ 31 + reason % 256 * 65536 + status % 65536

/-- A telemetry snapshot. -/
def telMem (s : State) (seq : Nat) : Mem :=
  recMem ([(0, 4, seq), (4, 4, 9216), (8, 8, s.time.beat), (16, 4, 1000)] ++
    ((List.range 5).map fun i => (64 + 4 * i, 4, s.tier.occupancy.getD i 0)) ++
    [(96, 4, meanPower s), (100, 2, s.mgmt.sample.vcoreMv), (102, 2, unsigned 16 (tjMax s.mgmt.sample)),
     (104, 2, lowest s.mgmt.sample.pace), (384, 4, refuseWord s)] ++
    ((List.range 32).map fun i => (128 + 8 * i, 8, tblGet s.errs.counts i)) ++
    (List.range 128).flatMap (portFields s))

/-- The occupancy figures of R266, which depend on timing: free, within 0 to 1,000,000. -/
def freeOccupancy (s : State) : State :=
  { s with
    tier := { s.tier with occupancy := (List.range 5).map fun i => min 1000000 (Config.occupancy i s.time.freeUses) }
    time := { s.time with freeUses := s.time.freeUses + 1 } }

/-- The symbols that the FEC corrected in the period, on every port that is up: free figures (R332, log 69). -/
def countFec (s : State) : State :=
  (upPorts s).foldl (fun t p => mapPort p (fun q =>
    { q with fecCorrected := q.fecCorrected + Config.fecCorrections p s.time.freeUses }) t) s

/-- TEL_UPDATE: the new snapshot is whole, with SEQ 2 higher (R439). -/
def telUpdateEffect (s : State) : State :=
  let s := freeOccupancy (countFec s)
  let n := s.dbg.telSeq + 2
  { s with dbg := { s.dbg with
    tel := telMem s n.toNat, telSeq := n, telWriting := false, paceMinLast := s.dbg.paceMin, paceMin := [] } }

/-- TEL_UPDATE. -/
def execTelUpdate (s : State) : Host.Outcome State Fault Refusal :=
  .next (if s.pins.pwrgd ∧ s.boot.stage = .ready then telUpdateEffect s else s)

/-- TEL_SNAPSHOT: one whole snapshot, its SEQ and its length (R424, R439). -/
def cmdTelSnapshot (c : Cmd) (s : State) : CmdEnd :=
  if argOk c 9216 s then
    .done stOk (natLe 4 s.dbg.telSeq.toNat ++ natLe 4 9216) (putMem (argAddr c) 9216 s.dbg.tel s)
  else reject stBadArg s

/-- TEL_SNAPSHOT. -/
def execTelSnapshot (s : State) : Host.Outcome State Fault Refusal := .next (runLong 0x0901 cmdTelSnapshot s)

/-! ## Attestation and reset (R437, R477, R479) -/

/-- ATTEST of the management plane: the report of R456, and its length. -/
def mgmtAttestBody (q : MgmtReq) (s : State) : Nat × List Byte × State :=
  (stOk, natLe 4 (reportBytes s), { s with mgmt := { s.mgmt with
    report := some (attestReport (q.args.take 32) s), reportLen := reportBytes s } })

/-- MGMT_ATTEST. -/
def execMgmtAttest (q : MgmtReq) (s : State) : Host.Outcome State Fault Refusal :=
  .next (runMgmt (isCode 0x0A) 32 (afterReady mgmtAttestBody) q s)

/-- ATTEST_READ. -/
def mgmtAttestRead (q : MgmtReq) (s : State) : Nat × List Byte × State :=
  match s.mgmt.report with
  | none => refuseMgmt stBadState s
  | some m =>
    let o := arg q 0 4
    let n := arg q 4 2
    if 4 ≤ n ∧ n ≤ 1024 ∧ o + n ≤ s.mgmt.reportLen then (stOk, memRead m o n, s) else refuseMgmt stBadArg s

/-- ATTEST_READ. -/
def execAttestRead (q : MgmtReq) (s : State) : Host.Outcome State Fault Refusal :=
  .next (runMgmt (isCode 0x0B) 6 (afterReady mgmtAttestRead) q s)

/-- RESET: a full reset with CAUSE MANAGEMENT. -/
def mgmtReset (q : MgmtReq) (s : State) : Nat × List Byte × State :=
  if arg q 0 2 = 0xA5C3 then (stOk, [], requestReset 2 s) else refuseMgmt stBadArg s

/-- RESET. -/
def execReset (q : MgmtReq) (s : State) : Host.Outcome State Fault Refusal :=
  .next (runMgmt (isCode 0x0C) 2 mgmtReset q s)

/-! ## PORT_CONFIG (R478) -/

/-- The magnitude of a signed tap byte. -/
def tapSize (b : Byte) : Nat := if b.toNat < 128 then b.toNat else 256 - b.toNat

/-- A C2M lane keeps the tap limits, the CTLE range and its reserved bytes. -/
def laneOk (l : List Byte) : Bool :=
  let c0 := (l.getD 3 0).toNat
  decide (16 ≤ c0) && (decide (c0 ≤ 64) && (decide (((l.take 5).map tapSize).foldl (· + ·) 0 ≤ 64) &&
    (decide ((l.getD 5 0).toNat ≤ 15) && allZero (l.drop 6))))

/-- A PORT_CONFIG request is in range. -/
def portConfigOk (q : MgmtReq) : Bool :=
  decide (arg q 0 1 < 128) && (decide (arg q 1 1 ≤ 2) && (decide (arg q 2 1 ≤ 1) && (arg q 3 1 == 0 && (arg q 20 4 == 0 &&
    (if arg q 1 1 = 2 then laneOk ((q.args.drop 4).take 8) && laneOk ((q.args.drop 12).take 8)
     else allZero ((q.args.drop 4).take 16))))))

/-- A port that is enabled, whatever its training has come to, retrains (R478). -/
def retrainEnabled (port : Nat) (s : State) : State :=
  match (portOf s port).state with
  | .training | .upFull | .upHalf | .down => retrain port s
  | .disabled | .miscabled => s

/-- PORT_CONFIG: with QUERY it only returns the configuration. -/
def mgmtPortConfig (q : MgmtReq) (s : State) : Nat × List Byte × State :=
  let p := arg q 0 1
  if !portConfigOk q then refuseMgmt stBadArg s
  else if arg q 2 1 = 1 then
    (stOk, natLe 1 p ++ natLe 1 (portOf s p).medium ++ natLe 2 1 ++ padTo 16 (portOf s p).lanes ++ natLe 4 0, s)
  else
    (stOk, [], retrainEnabled p
      (mapPort p (fun x => { x with medium := arg q 1 1, lanes := padTo 16 ((q.args.drop 4).take 16) }) s))

/-- PORT_CONFIG. -/
def execPortConfig (q : MgmtReq) (s : State) : Host.Outcome State Fault Refusal :=
  .next (runMgmt (isCode 0x0D) 24 mgmtPortConfig q s)

/-- A reserved code returns BAD_ARG (R477). -/
def execMgmtReservedCommand (q : MgmtReq) (s : State) : Host.Outcome State Fault Refusal :=
  .next (runMgmt (fun c => c == 0 || decide (0x0D < c)) 0 (fun _ t => refuseMgmt stBadArg t) q s)

/-! ## MCTP control and PLDM (R474, R485, R486) -/

/-- Sends bytes to an endpoint. -/
def mgmtSend (via : MgmtVia) (endpoint : Nat) (b : List Byte) (s : State) : State :=
  { s with mgmt := { s.mgmt with out := ⟨endpoint, b, replyMac via⟩ :: s.mgmt.out } }

/-- Takes a free value. -/
def nextFree (s : State) : State := { s with time := { s.time with freeUses := s.time.freeUses + 1 } }

/-- MCTP_CONTROL: an answer, whose content DSP0236 gives (log 54). -/
def execMctpControl (sender : MgmtSender) (code : Nat) (s : State) : Host.Outcome State Fault Refusal :=
  .next (if s.pins.pwrgd then takeFrame sender.via (fun t =>
    nextFree (mgmtSend sender.via sender.endpoint (Config.mctpAnswer code t.time.freeUses) t)) s else s)

/-- The reading of a PLDM sensor as a 32-bit value (R485). -/
def sensorValue? (s : State) (id : Nat) : Option Nat :=
  let x := s.mgmt.sample
  if id = 1 then some (meanPower s / 1000)
  else if id = 2 then some x.vcoreMv
  else if id = 3 then some (x.currentMa / 1000)
  else if id = 4 then some (unsigned 32 (tjMax x))
  else if 5 ≤ id ∧ id ≤ 20 then some (unsigned 32 (x.hbmTemp.getD (id - 5) 0))
  else if id = 21 then some (lowest x.pace)
  else if id = 22 then some s.mgmt.sustainedW
  else none

/-- PLDM_REQUEST: SetEventReceiver sets the receiver, a sensor reading returns its value, and every other request of either type
is answered (R474; the bytes of answers are DSP0240's and DSP0248's, log 54). -/
def pldmEffect (via : MgmtVia) (endpoint : Nat) (q : PldmReq) (s : State) : State :=
  match q with
  | .base code => nextFree (mgmtSend via endpoint (Config.pldmAnswer code s.time.freeUses) s)
  | .monitoring code => nextFree (mgmtSend via endpoint (Config.pldmAnswer code s.time.freeUses) s)
  | .setEventReceiver r =>
    let s : State := { s with mgmt := { s.mgmt with receiver := some r, receiverMac := replyMac via } }
    nextFree (mgmtSend via endpoint (Config.pldmAnswer 0x04 s.time.freeUses) s)
  | .sensorReading id =>
    match sensorValue? s id with
    | some v => mgmtSend via endpoint (natLe 2 id ++ natLe 4 v) s
    | none => nextFree (mgmtSend via endpoint (Config.pldmAnswer 0x11 s.time.freeUses) s)

/-- PLDM_REQUEST. -/
def execPldmRequest (sender : MgmtSender) (q : PldmReq) (s : State) : Host.Outcome State Fault Refusal :=
  .next (if s.pins.pwrgd then takeFrame sender.via (pldmEffect sender.via sender.endpoint q) s else s)

/-! ## Sensors, the governor and the thermal policy (R482 to R484) -/

/-- The mean of the last n samples of package power, as their sum against a limit in watts: above it by the factor
percent ÷ 100. -/
def powerAbove (percent n watts : Nat) (s : State) : Bool :=
  let x := s.mgmt.powerHist.take n
  decide (percent * watts * 1000 * x.length < 100 * x.foldl (· + ·) 0)

/-- A figure of the governor exceeds percent ÷ 100 of its limit. -/
def figureAbove (percent : Nat) (s : State) : Bool :=
  powerAbove percent 100000 s.mgmt.sustainedW s || (powerAbove percent 1000 s.mgmt.burstW s ||
    (decide (percent * 1900000 < 100 * s.mgmt.sample.currentMa) ||
     decide ((percent * s.mgmt.throttle : Nat) < 100 * tjMax s.mgmt.sample)))

/-- The stacks that a threshold in degrees holds, until they fall below another. -/
def stacksHeld (on off : Int) (temps : List Int) (old : List Nat) : List Nat :=
  (List.range 16).filter fun k =>
    let t := temps.getD k 0
    decide (on ≤ t) || (old.contains k && decide (off ≤ t))

/-- The lowest pace of each cluster in this snapshot period. -/
def lowestPaces (old new : List Nat) : List Nat :=
  (List.range 16).map fun k =>
    match old[k]? with
    | some a => min a (new.getD k 0)
    | none => new.getD k 0

/-- THROTTLING: TJ_MAX has crossed THROTTLE upward, and since the last event it has been 2.0 °C below (R486). -/
def noteThrottling (s : State) : State :=
  let t := tjMax s.mgmt.sample
  if s.mgmt.throttled = false ∧ (s.mgmt.throttle : Int) < t then
    pldmEvent 1 [] { s with mgmt := { s.mgmt with throttled := true } }
  else if s.mgmt.throttled = true ∧ t ≤ (s.mgmt.throttle : Int) - 20 then
    { s with mgmt := { s.mgmt with throttled := false } }
  else s

/-- THERMAL_TRIP: a junction sensor has reached TRIP. The output asserts and the device fault stops the engine (R484). -/
def noteTrip (s : State) : State :=
  if (s.mgmt.trip : Int) ≤ tjMax s.mgmt.sample ∧ s.pins.thermtrip = false then
    deviceFault 7 (pldmEvent 3 [] { s with pins := { s.pins with thermtrip := true } })
  else s

/-- SENSOR_SAMPLE. -/
def sensorSampleEffect (x : Sample) (s : State) : State :=
  let m := s.mgmt
  let s : State := { s with
    mgmt := { m with
      sample := x, powerHist := packageMw x :: m.powerHist.take 99999
      hbmHalf := stacksHeld 95 90 x.hbmTemp m.hbmHalf, hbmRefresh := stacksHeld 85 85 x.hbmTemp m.hbmRefresh }
    dbg := { s.dbg with paceMin := lowestPaces s.dbg.paceMin x.pace } }
  let s : State := { s with mgmt := { s.mgmt with insideRun := if figureAbove 95 s then 0 else s.mgmt.insideRun + 1 } }
  noteTrip (noteThrottling s)

/-- SENSOR_SAMPLE. -/
def execSensorSample (x : Sample) (s : State) : Host.Outcome State Fault Refusal :=
  .next (if s.pins.pwrgd then sensorSampleEffect x s else s)

/-- LIMIT_UNMET, once (R483, R491). -/
def raiseUnmet (s : State) : State :=
  if s.mgmt.limitUnmet then s else pldmEvent 2 [] { s with mgmt := { s.mgmt with limitUnmet := true } }

/-- A setpoint command to VSRAM. One that is not acknowledged changes nothing, and the third in a row is the last (R491). -/
def commandVsram (mv : Nat) (acked : Bool) (s : State) : State :=
  if 3 ≤ s.mgmt.vsramMisses then s
  else if acked then { s with mgmt := { s.mgmt with vsramSet := mv, vsramMisses := 0 } }
  else
    let s : State := { s with mgmt := { s.mgmt with vsramMisses := s.mgmt.vsramMisses + 1 } }
    if s.mgmt.vsramMisses = 3 then raiseUnmet s else s

/-- A setpoint command to VCORE, under the same rule (R491). -/
def commandVcore (mv : Nat) (acked : Bool) (s : State) : State :=
  if 3 ≤ s.mgmt.vcoreMisses then s
  else if acked then { s with mgmt := { s.mgmt with vcoreSet := mv, vcoreMisses := 0 } }
  else
    let s : State := { s with mgmt := { s.mgmt with vcoreMisses := s.mgmt.vcoreMisses + 1 } }
    if s.mgmt.vcoreMisses = 3 then raiseUnmet s else s

/-- Raises both setpoints, VSRAM first. VCORE follows only where VSRAM stands 50 mV above its new setpoint (R491; DEDUCED,
log 80). -/
def raiseSetpoints (mv : Nat) (a : AvsAck) (s : State) : State :=
  let t := commandVsram (mv + 50) a.vsram s
  if mv + 50 ≤ t.mgmt.vsramSet then commandVcore mv a.vcore t else t

/-- Lowers both setpoints, VCORE first. VSRAM follows only where VCORE has taken its new setpoint (R491; DEDUCED, log 80). -/
def lowerSetpoints (mv : Nat) (a : AvsAck) (s : State) : State :=
  let t := commandVcore mv a.vcore s
  if t.mgmt.vcoreSet = mv then commandVsram (mv + 50) a.vsram t else t

/-- A target has been given up (R491). -/
def targetLost (s : State) : Bool := decide (3 ≤ s.mgmt.vsramMisses) || decide (3 ≤ s.mgmt.vcoreMisses)

/-- GOVERNOR_STEP (R482, R483, R491). -/
def governorStepEffect (a : AvsAck) (s : State) : State :=
  if figureAbove 100 s then
    if s.mgmt.vcoreSet ≤ 600 then raiseUnmet s else lowerSetpoints (s.mgmt.vcoreSet - 5) a s
  else
    let s : State := { s with mgmt := { s.mgmt with limitUnmet := s.mgmt.limitUnmet && targetLost s } }
    if 100 ≤ s.mgmt.insideRun ∧ s.mgmt.vcoreSet < 900 then raiseSetpoints (s.mgmt.vcoreSet + 5) a s else s

/-- GOVERNOR_STEP. -/
def execGovernorStep (acked : AvsAck) (s : State) : Host.Outcome State Fault Refusal :=
  .next (if s.pins.pwrgd then governorStepEffect acked s else s)

end Sys2Proof.Machine
end

