-- ==== Sys2Proof/Machine/Dispatch.lean ====
section
/-! DEFINITION. One arm per command: a direct call of its meaning. -/

namespace Sys2Proof.Machine

def exec (i : Instr) (s : State) : Host.Outcome State Fault Refusal :=
  match i with
  | .identify => Sys2Proof.Machine.execIdentify s
  | .getCaps => Sys2Proof.Machine.execGetCaps s
  | .setConfig => Sys2Proof.Machine.execSetConfig s
  | .jobOpen => Sys2Proof.Machine.execJobOpen s
  | .jobClose => Sys2Proof.Machine.execJobClose s
  | .loadImage => Sys2Proof.Machine.execLoadImage s
  | .bind => Sys2Proof.Machine.execBind s
  | .grant => Sys2Proof.Machine.execGrant s
  | .abortStep => Sys2Proof.Machine.execAbortStep s
  | .abortJob => Sys2Proof.Machine.execAbortJob s
  | .treeSet => Sys2Proof.Machine.execTreeSet s
  | .peal => Sys2Proof.Machine.execPeal s
  | .objDefine => Sys2Proof.Machine.execObjDefine s
  | .promote => Sys2Proof.Machine.execPromote s
  | .evict => Sys2Proof.Machine.execEvict s
  | .pin => Sys2Proof.Machine.execPin s
  | .unpin => Sys2Proof.Machine.execUnpin s
  | .poolConfig => Sys2Proof.Machine.execPoolConfig s
  | .poolAlloc => Sys2Proof.Machine.execPoolAlloc s
  | .poolShare => Sys2Proof.Machine.execPoolShare s
  | .poolRelease => Sys2Proof.Machine.execPoolRelease s
  | .poolFree => Sys2Proof.Machine.execPoolFree s
  | .poolStatus => Sys2Proof.Machine.execPoolStatus s
  | .winSet => Sys2Proof.Machine.execWinSet s
  | .winClear => Sys2Proof.Machine.execWinClear s
  | .winRead => Sys2Proof.Machine.execWinRead s
  | .flashStatus => Sys2Proof.Machine.execFlashStatus s
  | .flashFormat => Sys2Proof.Machine.execFlashFormat s
  | .flashFormatDone factoryBad => Sys2Proof.Machine.execFlashFormatDone factoryBad s
  | .extentCreate => Sys2Proof.Machine.execExtentCreate s
  | .extentWrite => Sys2Proof.Machine.execExtentWrite s
  | .extentSeal => Sys2Proof.Machine.execExtentSeal s
  | .extentSealDone extent => Sys2Proof.Machine.execExtentSealDone extent s
  | .extentDelete => Sys2Proof.Machine.execExtentDelete s
  | .telSnapshot => Sys2Proof.Machine.execTelSnapshot s
  | .attest => Sys2Proof.Machine.execAttest s
  | .debugTraceStart => Sys2Proof.Machine.execDebugTraceStart s
  | .debugTraceStop => Sys2Proof.Machine.execDebugTraceStop s
  | .debugTraceStatus => Sys2Proof.Machine.execDebugTraceStatus s
  | .debugMemread h => Sys2Proof.Machine.execDebugMemread h s
  | .reservedOpcode => Sys2Proof.Machine.execReservedOpcode s
  | .cmdDoorbell v => Sys2Proof.Machine.execCmdDoorbell v s
  | .loadRecord v => Sys2Proof.Machine.execLoadRecord v s
  | .cplHead v => Sys2Proof.Machine.execCplHead v s
  | .evtHead v => Sys2Proof.Machine.execEvtHead v s
  | .rptHead v => Sys2Proof.Machine.execRptHead v s
  | .evtClear v => Sys2Proof.Machine.execEvtClear v s
  | .evtEnable v => Sys2Proof.Machine.execEvtEnable v s
  | .resetCtl v => Sys2Proof.Machine.execResetCtl v s
  | .bootSramWrite ofs v => Sys2Proof.Machine.execBootSramWrite ofs v s
  | .bootDoorbell v => Sys2Proof.Machine.execBootDoorbell v s
  | .tmxSel n v => Sys2Proof.Machine.execTmxSel n v s
  | .tmxCtl v => Sys2Proof.Machine.execTmxCtl v s
  | .clPerfSel cluster v => Sys2Proof.Machine.execClPerfSel cluster v s
  | .ecsWrite ofs data => Sys2Proof.Machine.execEcsWrite ofs data s
  | .memCpl addr user answer => Sys2Proof.Machine.execMemCpl addr user answer s
  | .hostModuleFail => Sys2Proof.Machine.execHostModuleFail s
  | .pwrgdRise => Sys2Proof.Machine.execPwrgdRise s
  | .pwrgdFall => Sys2Proof.Machine.execPwrgdFall s
  | .romWait => Sys2Proof.Machine.execRomWait s
  | .romVerify => Sys2Proof.Machine.execRomVerify s
  | .firmwareVerify => Sys2Proof.Machine.execFirmwareVerify s
  | .ready badCells => Sys2Proof.Machine.execReady badCells s
  | .firmwareInitFail code => Sys2Proof.Machine.execFirmwareInitFail code s
  | .mountEnd r => Sys2Proof.Machine.execMountEnd r s
  | .stepArm => Sys2Proof.Machine.execStepArm s
  | .stepRun => Sys2Proof.Machine.execStepRun s
  | .launchStrobe => Sys2Proof.Machine.execLaunchStrobe s
  | .stepComplete => Sys2Proof.Machine.execStepComplete s
  | .stepAbort => Sys2Proof.Machine.execStepAbort s
  | .stepHung => Sys2Proof.Machine.execStepHung s
  | .descriptorFetch cell => Sys2Proof.Machine.execDescriptorFetch cell s
  | .taskComplete cell index => Sys2Proof.Machine.execTaskComplete cell index s
  | .mx cell h => Sys2Proof.Machine.execMx cell h s
  | .cp cell h => Sys2Proof.Machine.execCp cell h s
  | .add cell h => Sys2Proof.Machine.execAdd cell h s
  | .sub cell h => Sys2Proof.Machine.execSub cell h s
  | .mul cell h => Sys2Proof.Machine.execMul cell h s
  | .fma cell h => Sys2Proof.Machine.execFma cell h s
  | .div cell h => Sys2Proof.Machine.execDiv cell h s
  | .max cell h => Sys2Proof.Machine.execMax cell h s
  | .min cell h => Sys2Proof.Machine.execMin cell h s
  | .unary cell h => Sys2Proof.Machine.execUnary cell h s
  | .cmp cell h => Sys2Proof.Machine.execCmp cell h s
  | .select cell h => Sys2Proof.Machine.execSelect cell h s
  | .reduce cell h => Sys2Proof.Machine.execReduce cell h s
  | .scan cell h => Sys2Proof.Machine.execScan cell h s
  | .table cell h => Sys2Proof.Machine.execTable cell h s
  | .rmsnorm cell h => Sys2Proof.Machine.execRmsnorm cell h s
  | .layernorm cell h => Sys2Proof.Machine.execLayernorm cell h s
  | .softmax cell h => Sys2Proof.Machine.execSoftmax cell h s
  | .convert cell h => Sys2Proof.Machine.execConvert cell h s
  | .compress cell h => Sys2Proof.Machine.execCompress cell h s
  | .expand cell h => Sys2Proof.Machine.execExpand cell h s
  | .compress24 cell h => Sys2Proof.Machine.execCompress24 cell h s
  | .gather cell h => Sys2Proof.Machine.execGather cell h s
  | .scatter cell h => Sys2Proof.Machine.execScatter cell h s
  | .scatterAdd cell h => Sys2Proof.Machine.execScatterAdd cell h s
  | .route cell h => Sys2Proof.Machine.execRoute cell h s
  | .accept cell h => Sys2Proof.Machine.execAccept cell h s
  | .spill cell h => Sys2Proof.Machine.execSpill cell h s
  | .routePart cluster => Sys2Proof.Machine.execRoutePart cluster s
  | .sendBids cell h => Sys2Proof.Machine.execSendBids cell h s
  | .sendAccepts cell h => Sys2Proof.Machine.execSendAccepts cell h s
  | .sendRows cell h => Sys2Proof.Machine.execSendRows cell h s
  | .sendEager cell h => Sys2Proof.Machine.execSendEager cell h s
  | .sendAnswers cell h => Sys2Proof.Machine.execSendAnswers cell h s
  | .allReduce cell h => Sys2Proof.Machine.execAllReduce cell h s
  | .reduceScatter cell h => Sys2Proof.Machine.execReduceScatter cell h s
  | .collectiveSum cell index h => Sys2Proof.Machine.execCollectiveSum cell index h s
  | .fmLoad cell h => Sys2Proof.Machine.execFmLoad cell h s
  | .fmStore cell h => Sys2Proof.Machine.execFmStore cell h s
  | .fmAtomic cell h => Sys2Proof.Machine.execFmAtomic cell h s
  | .fmPut cell h => Sys2Proof.Machine.execFmPut cell h s
  | .fmGet cell h => Sys2Proof.Machine.execFmGet cell h s
  | .fmFlagStore cell h => Sys2Proof.Machine.execFmFlagStore cell h s
  | .waitRel cell h => Sys2Proof.Machine.execWaitRel cell h s
  | .mark cell h => Sys2Proof.Machine.execMark cell h s
  | .ensure cell h => Sys2Proof.Machine.execEnsure cell h s
  | .prefetch cell h => Sys2Proof.Machine.execPrefetch cell h s
  | .promotionStart obj tier => Sys2Proof.Machine.execPromotionStart obj tier s
  | .promotionEnd obj tier r => Sys2Proof.Machine.execPromotionEnd obj tier r s
  | .evictionEnd obj tier => Sys2Proof.Machine.execEvictionEnd obj tier s
  | .exchange src p => Sys2Proof.Machine.execExchange src p s
  | .messageLanded m => Sys2Proof.Machine.execMessageLanded m s
  | .collective src p => Sys2Proof.Machine.execCollective src p s
  | .load src p => Sys2Proof.Machine.execLoad src p s
  | .store src p => Sys2Proof.Machine.execStore src p s
  | .flagStore src p => Sys2Proof.Machine.execFlagStore src p s
  | .atomic src p => Sys2Proof.Machine.execAtomic src p s
  | .put src p => Sys2Proof.Machine.execPut src p s
  | .get src p => Sys2Proof.Machine.execGet src p s
  | .loadResp src p => Sys2Proof.Machine.execLoadResp src p s
  | .atomicResp src p => Sys2Proof.Machine.execAtomicResp src p s
  | .getData src p => Sys2Proof.Machine.execGetData src p s
  | .ack src p => Sys2Proof.Machine.execAck src p s
  | .refuse src p => Sys2Proof.Machine.execRefuse src p s
  | .lineWriteBack line => Sys2Proof.Machine.execLineWriteBack line s
  | .e2eRetry dst psn => Sys2Proof.Machine.execE2eRetry dst psn s
  | .cumAck dst => Sys2Proof.Machine.execCumAck dst s
  | .packetSend n views => Sys2Proof.Machine.execPacketSend n views s
  | .forward port p => Sys2Proof.Machine.execForward port p s
  | .linkReplay port e => Sys2Proof.Machine.execLinkReplay port e s
  | .replayWindowExpiry port => Sys2Proof.Machine.execReplayWindowExpiry port s
  | .laneFail port part => Sys2Proof.Machine.execLaneFail port part s
  | .portTrained port r => Sys2Proof.Machine.execPortTrained port r s
  | .portRetry port => Sys2Proof.Machine.execPortRetry port s
  | .halfRetrain port => Sys2Proof.Machine.execHalfRetrain port s
  | .pealArm port p => Sys2Proof.Machine.execPealArm port p s
  | .pealAck port p => Sys2Proof.Machine.execPealAck port p s
  | .pealDisarm port p => Sys2Proof.Machine.execPealDisarm port p s
  | .armAcknowledge => Sys2Proof.Machine.execArmAcknowledge s
  | .ackDeadline => Sys2Proof.Machine.execAckDeadline s
  | .decisionPoint => Sys2Proof.Machine.execDecisionPoint s
  | .gong port p => Sys2Proof.Machine.execGong port p s
  | .syncSend => Sys2Proof.Machine.execSyncSend s
  | .sync port p => Sys2Proof.Machine.execSync port p s
  | .follow port p => Sys2Proof.Machine.execFollow port p s
  | .probe src p => Sys2Proof.Machine.execProbe src p s
  | .codewordRead word result => Sys2Proof.Machine.execCodewordRead word result s
  | .relocationEnd block => Sys2Proof.Machine.execRelocationEnd block s
  | .readCountCheckpoint => Sys2Proof.Machine.execReadCountCheckpoint s
  | .retentionPatrol finding => Sys2Proof.Machine.execRetentionPatrol finding s
  | .wearLevel die => Sys2Proof.Machine.execWearLevel die s
  | .dieRetire die => Sys2Proof.Machine.execDieRetire die s
  | .hbmScrub addr found => Sys2Proof.Machine.execHbmScrub addr found s
  | .sramScrub finding => Sys2Proof.Machine.execSramScrub finding s
  | .hbmRetrain stack ok => Sys2Proof.Machine.execHbmRetrain stack ok s
  | .cellTest result => Sys2Proof.Machine.execCellTest result s
  | .firmwareWatchdog => Sys2Proof.Machine.execFirmwareWatchdog s
  | .refclkLoss clk => Sys2Proof.Machine.execRefclkLoss clk s
  | .hbmStackLost stack => Sys2Proof.Machine.execHbmStackLost stack s
  | .portDieLost dieB => Sys2Proof.Machine.execPortDieLost dieB s
  | .sensorSample x => Sys2Proof.Machine.execSensorSample x s
  | .governorStep acked => Sys2Proof.Machine.execGovernorStep acked s
  | .telUpdate => Sys2Proof.Machine.execTelUpdate s
  | .getState q => Sys2Proof.Machine.execGetState q s
  | .setPhysId q => Sys2Proof.Machine.execSetPhysId q s
  | .tableWrite q => Sys2Proof.Machine.execTableWrite q s
  | .tableReady q => Sys2Proof.Machine.execTableReady q s
  | .tableRead q => Sys2Proof.Machine.execTableRead q s
  | .setPower q => Sys2Proof.Machine.execSetPower q s
  | .setThermal q => Sys2Proof.Machine.execSetThermal q s
  | .setShares q => Sys2Proof.Machine.execSetShares q s
  | .getSnapshot q => Sys2Proof.Machine.execGetSnapshot q s
  | .mgmtAttest q => Sys2Proof.Machine.execMgmtAttest q s
  | .attestRead q => Sys2Proof.Machine.execAttestRead q s
  | .reset q => Sys2Proof.Machine.execReset q s
  | .portConfig q => Sys2Proof.Machine.execPortConfig q s
  | .mgmtReservedCommand q => Sys2Proof.Machine.execMgmtReservedCommand q s
  | .mctpControl sender code => Sys2Proof.Machine.execMctpControl sender code s
  | .pldmRequest sender q => Sys2Proof.Machine.execPldmRequest sender q s
  | .extest drive => Sys2Proof.Machine.execExtest drive s
  | .samplePreload preload => Sys2Proof.Machine.execSamplePreload preload s
  | .idcode => Sys2Proof.Machine.execIdcode s
  | .clamp => Sys2Proof.Machine.execClamp s
  | .highz => Sys2Proof.Machine.execHighz s
  | .ijtag => Sys2Proof.Machine.execIjtag s
  | .bypass code => Sys2Proof.Machine.execBypass code s
  | .testLogicReset => Sys2Proof.Machine.execTestLogicReset s
  | .vccqNandLoss => Sys2Proof.Machine.execVccqNandLoss s
  | .nandProgramEnd block ok => Sys2Proof.Machine.execNandProgramEnd block ok s
  | .nandEraseEnd block ok => Sys2Proof.Machine.execNandEraseEnd block ok s
  | .portDieModuleFail dieB => Sys2Proof.Machine.execPortDieModuleFail dieB s
  | .adapterRetry => Sys2Proof.Machine.execAdapterRetry s

end Sys2Proof.Machine
end

