-- ==== Sys2Proof/Machine/Tick.lean ====
section
/-! DEFINITION. One tick period in which no command is carried out (log 3): the Beat counter, the idle time of the run
(R67), the ticks of its stall causes (R232, R262), the timers of requests (R350), the pace events of
CL_PERF (R511), the control firmware under its protection (R452), the telemetry that it writes (R439), and what waits for nothing
else: landing packets that transit held (R330), a held report, an open ABORT_JOB, JOB_CLOSE or LOAD_IMAGE, and a command of R417
that completes late. -/

namespace Sys2Proof.Machine

/-- A tier transfer makes progress: a promotion that waits for nothing, or the flash mount (R67, R262). An eviction
moves no bytes (R250). -/
def tierMoves (s : State) : Bool :=
  s.flash.state == .mounting ||
    s.tier.copies.any fun c => c.state == .promoting && (objOf? s c.obj).any fun o => !promotionWaits s o c

/-- Idle time: one tick more, or none while a tier transfer makes progress (R67). -/
def idleTime (s : State) : State :=
  let moves := tierMoves s
  mapRun (fun r => { r with idle := if moves then 0 else r.idle + 1 }) s

/-- The ENSUREs that hold a queue, as cell and flight. -/
def holdingEnsures (s : State) : List (Nat × Flight) :=
  s.cells.flatMap fun e => (e.2.flight.filter fun f => holdsQueue s e.1 f).map fun f => (e.1, f)

/-- The cause of an ENSURE that holds a queue: POOL_WAIT while its promotion waits for a buffer, else the first that the
promotion has shown (R262). -/
def ensureCause (s : State) (f : Flight) : Option Nat :=
  if f.needs.any (fun n => poolWaits s n.1 n.2) then some 6 else f.cause

/-- The stall causes that hold at least one queue in this tick. -/
def heldCauses (s : State) : List Nat :=
  ((if s.cells.any (fun e => e.2.windowWait != 0) then [0] else []) ++
    (holdingEnsures s).filterMap fun (e : Nat × Flight) => ensureCause s e.2).eraseDups

/-- Adds a tick to every cause of a list. -/
def addStallTicks : List Nat → State → State
  | [], s => s
  | k :: r, s => addStallTicks r (mapRun (fun x => { x with stallTicks := tblAdd x.stallTicks k 1 }) s)

/-- The stall events of the ENSUREs that hold a queue, each once. -/
def noteStalls : List (Nat × Flight) → State → State
  | [], s => s
  | e :: r, s => noteStalls r (noteStall e.1 e.2 s)

/-- The stalls of a tick of a run (R61, R232, R262). -/
def stallTick (s : State) : State :=
  if stepActive s then
    let t := noteCauses s
    noteStalls (holdingEnsures t) (addStallTicks (heldCauses t) t)
  else s

/-- The armed step waits for a report entry and for nothing else: a launched one from D on (R64, R377). -/
def ringWaits (s : State) : Bool :=
  match s.ctl.armed with
  | none => false
  | some g =>
    entryReady s g && (!entryFree s && (s.errs.testing.isNone && (!g.launch ||
      (s.launch.strobe.any fun x => x.1 == g.step && decide (x.2 ≤ s.time.beat)))))

/-- A tick of the wait for a report entry. -/
def ringTick (s : State) : State :=
  if ringWaits s then
    { s with ctl := { s.ctl with waitedRing := true, ringTicks := s.ctl.ringTicks + 1 } } else s

/-- A tick of the timers of requests (R350, R354). -/
def requestTick (s : State) : State :=
  let l := s.rem.requests.map fun r => if timerRuns s r then { r with timer := r.timer + 1 } else r
  { s with rem := { s.rem with requests := l } }

/-- One more tick period since reset. -/
def countPeriod (s : State) : State := { s with time := { s.time with uptime := s.time.uptime + 1 } }

/-- An event that follows the pace can happen in a cluster: array cycles pass, the array pauses where an MX task uses it, and a
queue waits under TASK_WINDOW (R61, R101, R511). -/
def paceMay (s : State) (cl code : Nat) : Bool :=
  let cells := s.cells.filter fun e => clusterOf e.1 == cl
  if code = 0x04 then cells.any fun e => e.2.flight.any fun f => dClass f.desc == 1
  else if code = 0x07 then cells.any fun e => e.2.windowWait != 0
  else true

/-- The events of a cluster's tick that follow the pace: array cycles, array pauses, and the array cycles in which a queue
waited under TASK_WINDOW. CL_PERF counts the one that it selects, by a free figure (R511, log 82). -/
def paceEvents (cl : Nat) (s : State) : State :=
  [0x01, 0x04, 0x07].foldl (fun t e =>
    if paceMay t cl e then perfAdd cl e (Config.arrayEvents cl e t.time.freeUses) t else t) s

/-- The pace events of a tick in every cluster, from READY on. -/
def paceCounts (s : State) : State :=
  if s.boot.stage = .ready then
    (List.range 16).foldl (fun t cl => paceEvents cl t) { s with time := { s.time with freeUses := s.time.freeUses + 1 } }
  else s

/-! ## The control firmware (R439, R452) -/

/-- What R452 grants the control firmware of a resource; code memory is read-only where the code lies, and the rest is data. -/
def sandboxAllows (p : Config.Protected) (a : Config.Access) : Bool :=
  match p with
  | .secretFuses | .keyFuses | .privateKeys | .lockBits | .bootSram | .configDigest | .monitorSram => false
  | .code => a != .write
  | .data => a != .execute
  | .reserve | .engine => true

/-- The control firmware touches what it touches, a free value: an access that the protection blocks is the device fault
SANDBOX_VIOLATION (R452, R468, log 98). -/
def firmwareTouches (s : State) : State :=
  if firmwareRuns s then
    let t : State := { s with
      boot := { s.boot with touch := Config.firmwareTouch s.time.freeUses }
      time := { s.time with freeUses := s.time.freeUses + 1 } }
    if s.boot.touch.all fun x => sandboxAllows x.1 x.2 then t else deviceFault 1 t
  else s

/-- The control firmware may begin to write the next snapshot, from READY on (R439; when is a free choice, log 81). -/
def telStart (s : State) : State :=
  if firmwareRuns s ∧ s.boot.stage = .ready ∧ s.dbg.telWriting = false then
    let c := freeChoice s
    { c.2 with dbg := { c.2.dbg with telWriting := c.1 } }
  else s

/-! ## Landing packets that waited (R330) -/

/-- A packet that waited at its port die lands, as its operation has it; of the others none waits. -/
def landPacket (p : Packet) (s : State) : State :=
  let op := opOf p
  if op = 0x01 then bulkArrival placeExchange p s
  else if op = 0x02 then bulkArrival placeCollective p s
  else if op = 0x05 ∨ op = 0x09 then takeAnswer [op - 1] (placeAnswer p) p s
  else if op = 0x0C then takeAnswer [0x0B] (placeGet p) p s
  else if op = 0x0D then ackEffect p s
  else if op = 0x0E then refuseEffect p s
  else if op = 0x13 then probeEffect p s
  else s

/-- The oldest landing packet at a port die that no transit crosses any more. -/
def landable? (s : State) : Option Nat := s.fab.parked.findIdx? fun w => w.port.all fun q => !crossing s (q / 64)

/-- A waiting packet leaves its buffer and lands. -/
def landWaiting (i : Nat) (w : LaneWait) (s : State) : State :=
  let s : State := { s with
    rem := { s.rem with arrival := w.port }
    fab := { s.fab with parked := dropAt i s.fab.parked } }
  landPacket w.packet (if w.held then leaveBuffer w.port w.packet s else s)

/-- Landing packets go on where transit has passed, oldest first, n at most; and then the requests of their lanes. -/
def landParked : Nat → State → State
  | 0, s => s
  | n + 1, s =>
    match landable? s with
    | none => s
    | some i =>
      match s.fab.parked[i]? with
      | none => s
      | some w => landParked n (landWaiting i w s)

/-- What arrived and waited at the port dies goes on in this tick. -/
def landTick (s : State) : State := settleLanes (landParked s.fab.parked.length s)

/-- One tick period. -/
def idleTick (s : State) : State :=
  if s.pins.pwrgd then
    let s := paceCounts (requestTick (ringTick (stallTick (idleTime (countPeriod (beatPeriod s))))))
    firmwareTouches (telStart (settleLoadImage (settleJobClose (settleAbortJob (settleLate (settleReport (settleFuses
      (landTick s))))))))
  else s

end Sys2Proof.Machine
end

