-- ==== Sys2Proof/Safety.lean ====
section
/-! DEFINITION. What a safe run is, and what it means that a command leaves parts of the device alone. -/

namespace Sys2Proof

/-- The first n steps from a state all answer a next state. -/
def RunsFor (n : Nat) (s : Machine.State) : Prop := ∃ t, core.run n s = .next t

namespace Machine

/-- The parts of the device, one for each field of State. -/
inductive Part where
  | pending
  | mb
  | boot
  | mem
  | unbacked
  | tiles
  | cells
  | ctr
  | job
  | ctl
  | exch
  | tier
  | flash
  | pools
  | rem
  | fab
  | time
  | launch
  | mgmt
  | errs
  | dbg
  | pins
  deriving DecidableEq, Repr

/-- Two states agree on a part. -/
def Part.Agree (s t : State) : Part → Prop
  | .pending => t.pending = s.pending
  | .mb => t.mb = s.mb
  | .boot => t.boot = s.boot
  | .mem => t.mem = s.mem
  | .unbacked => t.unbacked = s.unbacked
  | .tiles => t.tiles = s.tiles
  | .cells => t.cells = s.cells
  | .ctr => t.ctr = s.ctr
  | .job => t.job = s.job
  | .ctl => t.ctl = s.ctl
  | .exch => t.exch = s.exch
  | .tier => t.tier = s.tier
  | .flash => t.flash = s.flash
  | .pools => t.pools = s.pools
  | .rem => t.rem = s.rem
  | .fab => t.fab = s.fab
  | .time => t.time = s.time
  | .launch => t.launch = s.launch
  | .mgmt => t.mgmt = s.mgmt
  | .errs => t.errs = s.errs
  | .dbg => t.dbg = s.dbg
  | .pins => t.pins = s.pins

/-- State t differs from s at most in the parts of a list: every part outside it is unchanged. -/
def Keeps (k : List Part) (s t : State) : Prop := ∀ c : Part, c ∉ k → c.Agree s t

/-- Every memory that commands write byte by byte is in its canonical form: engine memory, the accumulator files, mailbox
RAM and BOOT_SRAM. -/
def Canon (s : State) : Prop :=
  memWf s.mem = true ∧ memWf s.tiles = true ∧ memWf s.mb.ram = true ∧ memWf s.boot.sram = true

end Machine

end Sys2Proof
end

