-- ==== Sys2Proof/Certificates/Slice0/Obligations.lean ====
section
/-! DEFINITION. The statements for the provers: what the block's step is, which parts of the device each command can
change, the invariants that every step keeps, and, for every command, a next state that it answers and what that holds. -/

namespace Sys2Proof.Claims

open Sys2Proof.Machine

/-! ## Vocabulary of the statements -/

/-- The command entry c stands at CMD_HEAD, may be taken (READY, a completion entry can be reserved, no serialising command
is open), and has this opcode. -/
abbrev AtHead (op : Nat) (c : Cmd) (s : State) : Prop := headCmd? s = some c ∧ c.op = op

/-- The taken command c has completed: CMD_HEAD and CPL_TAIL have advanced by one, and the entry at the old CPL_TAIL
carries its opcode, tag and count, a status and a result. -/
abbrev Completed (c : Cmd) (st : Nat) (res : List Byte) (s t : State) : Prop :=
  t.mb.cmdHead = s.mb.cmdHead + 1 ∧ t.mb.cplTail = s.mb.cplTail + 1 ∧
  memRead t.mb.ram (0x4000 + 32 * (s.mb.cplTail.toNat % 256)) 32 = cplBytes c.op c.tag st c.index s.mb.cplTail.toNat res

/-- The taken command c is open: CMD_HEAD has advanced, nothing is posted, and it stands last among the open commands. -/
abbrev Opened (c : Cmd) (k : OpenKind) (s t : State) : Prop :=
  t.mb.cmdHead = s.mb.cmdHead + 1 ∧ t.mb.opened = s.mb.opened ++ [⟨c.op, c.tag, c.index, k, c.bytes⟩]

/-- A command of R417 has ended: it has completed at once, or it stands open with its status and result, which a later tick
posts. Which of the two is a free choice of the device. -/
abbrev Finishes (c : Cmd) (st : Nat) (res : List Byte) (s t : State) : Prop :=
  Completed c st res s t ∨ Opened c (.late st res) s t

/-- The event ring, if one is configured, has entries and lies in backed host-die memory, so that no event meets
UNBACKED. -/
def RingBacked (s : State) : Prop := ∀ b n, s.mb.evtRing = some (b, n) → 0 < n ∧ hostOk s b (32 * n) = true

/-- The head task of its class's queue in a cell is this descriptor, and it may issue; it is not void, no trace capture
has been set up, and no word of memory is known to be uncorrectable. -/
abbrev Issues (cls : Nat) (meant : Desc → Bool) (cell : Nat) (d : Desc) (s : State) : Prop :=
  issuable? s cell cls meant = some d ∧ isVoid s cell d = false ∧ s.dbg.capture = none ∧ wordsGood s = true

/-- The task stands in flight, its own work done or not, and no descriptor of its index is left to issue. -/
abbrev Taken (cell : Nat) (d : Desc) (done : Bool) (t : State) : Prop :=
  (flight? t cell d.index).map (·.finished) = some done ∧
  ∀ x ∈ (cellOf t cell).window, x.index = d.index → x.step = d.step → x.issued = true

/-- The vector engine's view of a task at its issue. -/
def vxView (s : State) (cell : Nat) (d : Desc) : VxRun := ⟨cell, vxOf s.mem (auxDesc s) d.step.toNat d, s⟩

/-- The vector operations: code, command for a cell whose reads are intact, and work. -/
def vectorOps (cell : Nat) : List (Nat × Instr × (VxRun → TaskEnd × State)) :=
  [(0x01, .add cell .clean, vxAdd), (0x02, .sub cell .clean, vxSub), (0x03, .mul cell .clean, vxMul),
   (0x04, .fma cell .clean, vxFma), (0x05, .div cell .clean, vxDiv), (0x06, .max cell .clean, vxMax),
   (0x07, .min cell .clean, vxMin), (0x08, .unary cell .clean, vxUnary), (0x09, .cmp cell .clean, vxCmp),
   (0x0A, .select cell .clean, vxSelect), (0x10, .reduce cell .clean, vxReduce), (0x11, .scan cell .clean, vxScan),
   (0x18, .table cell .clean, vxTable), (0x20, .rmsnorm cell .clean, vxRmsnorm),
   (0x21, .layernorm cell .clean, vxLayernorm), (0x22, .softmax cell .clean, vxSoftmax),
   (0x28, .convert cell .clean, vxConvert), (0x30, .compress cell .clean, vxCompress),
   (0x31, .expand cell .clean, vxExpand), (0x32, .compress24 cell .clean, vxCompress24),
   (0x38, .gather cell .clean, vxGather), (0x39, .scatter cell .clean, vxScatter),
   (0x3A, .scatterAdd cell .clean, vxScatterAdd)]

/-- Memory after codes are stored, one after another, at elements of a stream. -/
def storeCodes (cell : Nat) (t : Stream) (w : List (Nat × Nat × Nat)) (m : Mem) : Mem :=
  w.foldl (fun m e => putBitsAt m (streamBase cell t) (streamPos t e.1 e.2.1) (sBits t.fmt) e.2.2) m

/-- The code of a result at element (r, e) of DST. -/
def vxCode (x : VxRun) (r e : Nat) (v : FVal) : Nat :=
  (streamCode x.v.dst.fmt x.v.window (rndAt x.v.rnd (r * x.v.rowLen + e)) v).1

/-- Every element of DST with its code, row by row. -/
def eachWrite (x : VxRun) (f : Nat → Nat → Nat) : List (Nat × Nat × Nat) :=
  (List.range x.v.rows).flatMap fun r => (List.range x.v.rowLen).map fun e => (r, e, f r e)

/-- The elements of DST that are written under MASK, each with its code. -/
def maskedWrites (x : VxRun) (f : Nat → Nat → FVal) : List (Nat × Nat × Nat) :=
  (List.range x.v.rows).flatMap fun r => (List.range x.v.rowLen).filterMap fun e =>
    if kept x r e then some (r, e, vxCode x r e (f r e)) else if x.v.maskZero then some (r, e, 0) else none

/-- The writes of an inclusive scan along a row, from a running value on. -/
def scanWrites (x : VxRun) (ints : Bool) (r : Nat) : List Nat → Option FVal → List (Nat × Nat × Nat)
  | [], _ => []
  | e :: l, p =>
    if kept x r e then
      let v := pathIn x ints x.v.src0 r e
      let n := match p with
        | none => v
        | some q => if x.v.func = 0 then pathRound ints (fAdd q v) else if x.v.func = 2 then vMax q v else vMin q v
      (r, e, vxCode x r e n) :: scanWrites x ints r l (some n)
    else (if x.v.maskZero then [(r, e, 0)] else []) ++ scanWrites x ints r l p

/-- The result of LAYERNORM at element (r, e): mean, difference, mean square, and the affine part, each step rounded. -/
def lnResult (x : VxRun) (r e : Nat) : FVal :=
  let els := rowElements x false r
  let mean := rnd32 (fMul (reduceRow 0 rnd32 els) (invN els.length))
  let d (v : FVal) : FVal := rnd32 (fAdd v (fNeg mean))
  let q := normQ x (reduceRow 1 rnd32 (els.map fun p => (p.1, d p.2))) els.length
  rnd32 (fAdd (rnd32 (fMul (rnd32 (fMul (d (pathIn x false x.v.src0 r e)) q)) (normG x r e))) (normB x r e))

/-- The elements that COMPRESS keeps, in order. -/
def keptIndices (x : VxRun) : List Nat := (List.range x.v.rowLen).filter fun e => mapBit x e

/-- What COMPRESS writes to DST: the kept elements of a row at its front, and with PAD zeros behind them. -/
def compressWrites (x : VxRun) : List (Nat × Nat × Nat) :=
  (List.range x.v.rows).flatMap fun r =>
    ((keptIndices x).mapIdx fun j e => (r, j, vxCode x r j (rawIn x x.v.src0 r e))) ++
      (if x.v.pad then ((List.range x.v.rowLen).filter fun e => decide ((keptIndices x).length ≤ e)).map fun e => (r, e, 0) else [])

/-- What EXPAND writes to a row: at each set bit of the map the next element of the row, COUNT at most; elsewhere, and where MASK
is off, +0 under MASK_ZERO and nothing without it. -/
def expandedRow (x : VxRun) (r : Nat) : List Nat → Nat → List (Nat × Nat × Nat)
  | [], _ => []
  | e :: l, j =>
    let live := zmapBit x.s.mem (auxAddr x) e && decide (j < memLe x.s.mem (auxAddr x) 4)
    (if kept x r e && live then [(r, e, vxCode x r e (rawIn x x.v.src0 r j))]
     else if x.v.maskZero then [(r, e, 0)] else []) ++ expandedRow x r l (if live then j + 1 else j)

/-- Memory after a block of codes is stored from element e of row r on, and its scale at the place of element k. -/
def storeBlock (x : VxRun) (r e k scale : Nat) (codes : List Nat) (m : Mem) : Mem :=
  memPut (storeCodes x.cell x.v.dst (codes.mapIdx fun j c => (r, e + j, c)) m)
    (streamBase x.cell x.v.aux + scalePos x.v.aux x.v.rowLen r k) (BitVec.ofNat 8 scale)

/-- Memory after CONVERT to a block format: each block of 32 elements quantised together, a last short one in a dense stream
padded with codes 0. -/
def convertedBlocks (x : VxRun) (f : EFmt) (m : Mem) : Mem :=
  (List.range x.v.rows).foldl (fun m r => (List.range (ceilDiv x.v.rowLen 32)).foldl (fun m b =>
    let es := ((List.range 32).map fun j => 32 * b + j).filter fun e => decide (e < x.v.rowLen)
    let q := quantise f x.v.rnd (es.map fun e => (r * x.v.rowLen + e, (blockIn x f r e).1))
    storeBlock x r (32 * b) (32 * b) q.1
      (if x.v.dst.pattern = 0 then q.2.1 ++ List.replicate (32 - q.2.1.length) 0 else q.2.1) m) m) m

/-- The two values that COMPRESS24 keeps of every group of a row. -/
def keptPairs (x : VxRun) (r : Nat) : List FVal := (List.range (groupCount x)).flatMap fun g => (groupPick x r g).2.1

/-- Memory after COMPRESS24 has written the kept values of row r, a block of 16 after another in a block format. -/
def pairsStored (x : VxRun) (r : Nat) (m : Mem) : Mem :=
  let vals := keptPairs x r
  match x.v.dst.fmt with
  | .elem f =>
    if hasScale f then
      (List.range (ceilDiv (groupCount x) 8)).foldl (fun m b =>
        let es := ((List.range 16).map fun j => 16 * b + j).filter fun j => decide (j < vals.length)
        let q := quantise f x.v.rnd (es.map fun j => (r * x.v.rowLen + j, vals.getD j fZero))
        storeBlock x r (16 * b) (32 * b) q.1 q.2.1 m) m
    else storeCodes x.cell x.v.dst (vals.mapIdx fun j v => (r, j, vxCode x r j v)) m
  | .bit => storeCodes x.cell x.v.dst (vals.mapIdx fun j v => (r, j, vxCode x r j v)) m

/-- Memory after COMPRESS24 has written the positions that it kept in row r, eight groups a word, where it derives them. -/
def positionsStored (x : VxRun) (r : Nat) (m : Mem) : Mem :=
  if policySupplied x.v.func then m
  else (List.range (ceilDiv (groupCount x) 8)).foldl (fun m b =>
    memWrite m (streamBase x.cell x.v.mask + x.v.mask.ofs + 8 * (r * ceilDiv x.v.rowLen 32 + b))
      (natLe 8 (((List.range 8).filter fun g => decide (8 * b + g < groupCount x)).foldl (fun n g =>
        n + ((groupPick x r (8 * b + g)).1.1 + 4 * (groupPick x r (8 * b + g)).1.2) * 2 ^ (4 * g)) 0))) m

/-- Memory after SCATTER_ADD has added row r to the DST row that its index names, as that row stands by then. -/
def rowAdded (x : VxRun) (r : Nat) (m : Mem) : Mem :=
  if rowIndex x r < x.v.imm0 then
    (List.range x.v.rowLen).foldl (fun m e =>
      let old := ofF32 (readCode { x.s with mem := m } x.cell x.v.dst (rowIndex x r) e)
      let sum := rnd32 (fAdd old (rnd32 (rawIn x x.v.src0 r e)))
      if kept x r e then storeCodes x.cell x.v.dst [(rowIndex x r, e, vxCode x (rowIndex x r) e sum)] m
      else if x.v.maskZero then storeCodes x.cell x.v.dst [(rowIndex x r, e, 0)] m else m) m
  else m

/-- The run is stopping for a cause that this device raised. -/
abbrev Stopped (cause : Nat) (s t : State) : Prop :=
  t.ctl.run.map (·.fault) = some (some ⟨cause, true, selfId s⟩)

/-- The step g of a bound image has entered RUNNING as the run r. Memory changes only by the messages of step g that came
early and are placed now (R183). -/
def Entered (g : GStep) (im : Image) (s t : State) (r : Run) : Prop :=
  t.ctl.run = some r ∧ r.g = g ∧ r.imageId = im.imageId ∧ r.saved = s.job.lasting ∧ t.ctl.armed = none ∧
  t.ctl.noCurrent = false ∧ t.job.lasting = applyGrant g s.job.lasting ∧ t.ctr.sched = some g.sched ∧
  ((∀ m ∈ s.exch.early, m.key.step ≠ g.step) → t.mem = s.mem) ∧
  ∀ cell ctr : Nat, depGet t cell ctr = presetAt t (4 * (cell * 1024 + ctr))

/-- The requests that a task has made, after those there were: one for each element of a list, in order, on its way to its
destination with the operation, the address, the payload and the place of its answer that the element gives. -/
abbrev Sends (cell : Nat) (d : Desc) (outs : List (Out × Answer)) (s t : State) : Prop :=
  t.rem.requests.length = s.rem.requests.length + outs.length ∧
  t.rem.requests.take s.rem.requests.length = s.rem.requests ∧
  ∀ e ∈ outs.zip (t.rem.requests.drop s.rem.requests.length),
    e.2.dst = e.1.1.dst ∧ e.2.cell = cell ∧ e.2.index = d.index ∧ e.2.answerAt = e.1.2.answerAt ∧
    e.2.landing = e.1.2.landing ∧ e.2.bg = e.1.2.bg ∧ e.2.packet.vcop = BitVec.ofNat 8 (32 * e.1.1.vc + e.1.1.op) ∧
    e.2.packet.addr = BitVec.ofNat 64 e.1.1.addr ∧ e.2.packet.payload = e.1.1.payload ∧ e.2.packet.hcrc = hcrcOf e.2.packet ∧
    (if e.1.1.dst % 2 ^ 20 = selfId s then e.2.packet ∈ t.rem.loop else ∃ x ∈ t.rem.tx, x.packet = e.2.packet)

/-- The packets of one message of bulk traffic: its body cut into parts of 4,064 bytes, each behind its header. -/
def messageOuts (op dst : Nat) (header : Nat → List Byte) (body : List Byte) : List (Out × Answer) :=
  (List.range (bodyPackets body.length)).map fun i =>
    (bulkOut dst op (header (bodyMax * i) ++ (body.drop (bodyMax * i)).take bodyMax), noAnswer)

/-- An answer has been sent: a packet of an operation to a device, on its way, with a response head for a PSN and a kind,
and with data behind it. -/
abbrev Answers (dst op : Nat) (psn : Word) (kind : Nat) (data : List Byte) (t : State) : Prop :=
  ∃ q ∈ t.rem.loop ++ t.rem.tx.map (·.packet), q.dst = BitVec.ofNat 32 (dst % 2 ^ 20) ∧ opOf q = op ∧ reqPsn q = psn ∧
    fieldOf q.payload 7 1 = kind ∧ q.payload.drop 16 = data ∧ q.hcrc = hcrcOf q

/-- A packet of an operation arrives for this device with a sound header, on a port that is up or by loopback, and at its port
die nothing comes before it (R330). -/
abbrev Arrives (op : Nat) (linkLocal : Bool) (from? : Option Nat) (p : Packet) (s : State) : Prop :=
  (arrive? from? p s).any (fun u => !landingHeld u from? p) = true ∧ forMe s p = true ∧ headerOk p = true ∧ opOf p = op ∧
    (p.dst.toNat % 2 ^ 20 == 0xFFFFF) = linkLocal

/-- A control packet with this payload waits for a port. -/
abbrev Queued (port op : Nat) (payload : List Byte) (t : State) : Prop :=
  ∃ x ∈ t.rem.tx, x.port = some port ∧ opOf x.packet = op ∧ x.packet.payload = payload

/-- A request passes every check of R344, is no duplicate, and reaches memory that the device may access, none of which is known
to be uncorrectable. -/
abbrev Served (p : Packet) (s : State) : Prop :=
  refusal? s p = none ∧ isSeen s p = false ∧ accessOk s (requestAddr s p) (requestLen p) = true ∧ wordsGood s = true

/-- A device fault has been raised. -/
abbrev Raised (cause : Nat) (s t : State) : Prop :=
  t.errs.deviceFault = true ∧ t.mb.ready = false ∧ t.mb.opened = [] ∧
    (s.mb.evtFault = 0 → t.mb.evtFault = BitVec.ofNat 16 cause)

/-- The device takes what comes this way: over I3C, or in a sound Ethernet frame of the plane's type for its own address or
for all (R475). -/
def Heard (via : MgmtVia) : Prop :=
  via = .i3c ∨ ∃ dst src, via = .ethernet dst src 0x88B5 true ∧ (dst = Config.macAddress ∨ dst = broadcastMac)

/-- A management request as R476 has it, which the device can serve: power, this code, RESPONSE clear, reserved bytes 0, and
at least n bytes of arguments. -/
abbrev Asks (q : MgmtReq) (code n : Nat) (s : State) : Prop :=
  Heard q.via ∧ s.pins.pwrgd = true ∧ q.command.toNat = code ∧ q.flags.getLsbD 7 = false ∧ q.reserved = 0 ∧ n ≤ q.args.length

/-- The response to a management request has been sent, with a status and a result, back the way the request came. -/
abbrev Responds (q : MgmtReq) (status : Nat) (result : List Byte) (s t : State) : Prop :=
  t.mgmt.out = ⟨q.endpoint, mgmtBytes q status result, replyMac q.via⟩ :: s.mgmt.out

end Sys2Proof.Claims

section

open Sys2Proof Sys2Proof.Machine Sys2Proof.Claims

/-! ## The step, reset and the invariants -/

/-- A step runs the command at the front of the queue on the state with the queue's rest. -/
def Obligations.StepRunsTheFrontCommand : Prop :=
  ∀ (s : State) (c : Instr) (r : List Instr), s.pending = c :: r → step s = exec c { s with pending := r }

/-- On an empty queue a step lets one tick period pass and always answers a next state. The model's choice (log 3). -/
def Obligations.StepOnEmptyQueueTicks : Prop :=
  ∀ s : State, s.pending = [] → ∃ t, step s = .next t ∧ t.pending = [] ∧ (s.pins.pwrgd = false → t = s)

/-- What reset leaves in the registers for which R430, R434, R441 and R482 give a reset value. -/
def Obligations.ResetValuesOfTheRegisters : Prop :=
  (∀ o : Nat, o ∈ [0x3000, 0x3004, 0x300C, 0x3010, 0x3014, 0x4004, 0x4008, 0x10000, 0x10004, 0x10008, 0x1000C, 0x10010,
      0x10014, 0x10018, 0x1001C, 0x10020, 0x20000, 0x20040, 0x0008, 0x000C, 0x1000, 0x1004, 0x2000] →
    ecsRead State.reset o = 0) ∧
  ecsRead State.reset 0x0000 = 0x4B4D5808 ∧ State.reset.mgmt.physId = 0xFFFFFF ∧
  State.reset.mgmt.sustainedW = 2400 ∧ State.reset.mgmt.burstW = 2400

/-- The memories of the state right after reset are in canonical form. -/
def Obligations.ResetMemoriesAreCanonical : Prop := Canon State.reset

/-- Every step keeps the memories in canonical form, whatever command stands at the front and on an empty queue too. -/
def Obligations.EveryStepKeepsMemoriesCanonical : Prop :=
  ∀ s t : State, Canon s → step s = .next t → Canon t

/-- What only one event can do: no step clears a revoked key slot, lowers the rollback counter or returns a raise record; in
a tick a revocation and a raise that READY has begun may end whole, each, and nothing else of a tick changes the fuses, nor does any
command; and only the event READY brings BOOT_STAT to STAGE READY. That each change ends whole, in some tick, is the model's choice
(log 99: R447 and R448 give no time; log 3 for the tick). -/
def Obligations.FusesOnlyBlowAndOnlyReadyReachesReady : Prop :=
  (∀ s t : State, step s = .next t →
    s.boot.revoked &&& t.boot.revoked = s.boot.revoked ∧ s.boot.rollback ≤ t.boot.rollback ∧
    t.boot.raisesLeft ≤ s.boot.raisesLeft) ∧
  (∀ s t : State, s.pending = [] → step s = .next t →
    (t.boot.revoked = s.boot.revoked ∧ t.boot.revokeDue = s.boot.revokeDue ∨
      s.boot.revokeDue = true ∧ t.boot.revokeDue = false ∧ t.boot.revoked = (revokeSlots s.boot).revoked) ∧
    (t.boot.rollback = s.boot.rollback ∧ t.boot.raisesLeft = s.boot.raisesLeft ∧ t.boot.raiseDue = s.boot.raiseDue ∨
      s.boot.raiseDue = true ∧ t.boot.raiseDue = false ∧ t.boot.rollback = (raiseRollback s.boot).rollback ∧
        t.boot.raisesLeft = (raiseRollback s.boot).raisesLeft)) ∧
  (∀ (c : Instr) (s t : State), exec c s = .next t →
    t.boot.revoked = s.boot.revoked ∧ t.boot.rollback = s.boot.rollback ∧ t.boot.raisesLeft = s.boot.raisesLeft) ∧
  (∀ (c : Instr) (s t : State), exec c s = .next t → s.boot.stage ≠ .ready → t.boot.stage = .ready →
    ∃ bad, c = .ready bad)
/-! ## Engine control space: registers and rings (R414, R430 to R434, R437, R438, R503, R508, R511) -/

/-- R434: in EVT_ENABLE, the one write-masked register, a written bit n takes effect only where bit n + 16 is 1, and a mask
bit over a reserved bit has no effect. A write of each other mailbox register that R414 and R433 accept takes effect, and
one that they do not accept changes nothing; EVT_HEAD also lets waiting events into the ring. -/
def Obligations.MailboxRegisterWrites : Prop :=
  ∀ (s : State) (v : Word), s.boot.stage = .ready → hostLink s = true →
    (exec (.cmdDoorbell v) s = .next (if (v.setWidth 16 - s.mb.cmdHead).toNat ≤ 256
      then { s with mb := { s.mb with cmdDoorbell := v.setWidth 16 } } else s)) ∧
    (exec (.cplHead v) s = .next (if (v.setWidth 16 - s.mb.cplHead).toNat ≤ (s.mb.cplTail - s.mb.cplHead).toNat
      then { s with mb := { s.mb with cplHead := v.setWidth 16 } } else s)) ∧
    (exec (.rptHead v) s = .next (if (v - s.mb.rptHead).toNat ≤ (s.mb.rptTail - s.mb.rptHead).toNat
      then { s with mb := { s.mb with rptHead := v } } else s)) ∧
    (exec (.evtClear v) s = .next (if v = s.mb.evtSeq then { s with mb := { s.mb with evtCause := 0 } } else s)) ∧
    (∃ e : BitVec 4, exec (.evtEnable v) s = .next { s with mb := { s.mb with evtEnable := e } } ∧ ∀ i : Nat, i < 4 →
      e.getLsbD i = if v.getLsbD (i + 16) then v.getLsbD i else s.mb.evtEnable.getLsbD i) ∧
    ((v - s.mb.evtHead).toNat ≤ (s.mb.evtTail - s.mb.evtHead).toNat →
      ∃ t, exec (.evtHead v) s = .next t ∧ t.mb.evtHead = v ∧
        (s.mb.queue = [] → t = { s with mb := { s.mb with evtHead := v } })) ∧
    ((s.mb.evtTail - s.mb.evtHead).toNat < (v - s.mb.evtHead).toNat → exec (.evtHead v) s = .next s)

/-- R438: BOOT_SRAM takes words and BOOT_DOORBELL with a LENGTH of 1 to 262,144 starts ROM_VERIFY only in ROM_WAIT with
BOOT_LOCK clear; any other doorbell is ignored; BOOT_SRAM reads back what was written in ROM_WAIT and as 0 at all other
times. The load record: in MONITOR_RUN a doorbell of 1 whose record keeps R449 starts FIRMWARE_VERIFY with its SOURCE and
LENGTH, and one that breaks R449 fails boot with 0x0311; CMD_DOORBELL rings the same bell. With no host module in service
the ROM hears nothing of this. -/
def Obligations.BootWindowAndLoadRecord : Prop :=
  ∀ (s : State) (v : Word) (o : Nat), s.pins.pwrgd = true →
    (s.boot.romUp = true → hostLink s = true → s.boot.stage = .romWait → s.boot.locks.getLsbD 4 = false → Canon s →
      o % 4 = 0 → o < 262144 →
      ∃ t, exec (.bootSramWrite o v) s = .next t ∧ Keeps [.boot] s t ∧ memRead t.boot.sram o 4 = natLe 4 v.toNat ∧
        ecsRead t (0x180000 + o) = v ∧ ∀ a, (a < o ∨ o + 4 ≤ a) → memGet t.boot.sram a = memGet s.boot.sram a) ∧
    (s.boot.romUp = true → hostLink s = true → s.boot.stage = .romWait → s.boot.locks.getLsbD 4 = false →
      1 ≤ v.toNat % 2 ^ 19 → v.toNat % 2 ^ 19 ≤ 262144 →
      exec (.bootDoorbell v) s = .next { s with boot := { s.boot with stage := .romVerify, sramLen := v.toNat % 2 ^ 19 } }) ∧
    ((s.boot.stage ≠ .romWait ∨ s.boot.locks.getLsbD 4 = true ∨ hostLink s = false) →
      exec (.bootSramWrite o v) s = .next s ∧ exec (.bootDoorbell v) s = .next s) ∧
    ((v.toNat % 2 ^ 19 = 0 ∨ 262144 < v.toNat % 2 ^ 19) → exec (.bootDoorbell v) s = .next s) ∧
    (s.boot.stage ≠ .romWait → o < 262144 → ecsRead s (0x180000 + o) = 0) ∧
    (s.boot.stage = .monitorRun → hostLink s = true →
      (loadRecordBad (memRead s.mb.ram 0 64) = false → ∃ t, exec (.loadRecord 1) s = .next t ∧ Keeps [.boot] s t ∧
        t.boot.stage = .firmwareVerify ∧ t.boot.loadLen = fieldOf (memRead s.mb.ram 0 64) 4 4 ∧
        t.boot.loadSrc = fieldOf (memRead s.mb.ram 0 64) 8 8) ∧
      (loadRecordBad (memRead s.mb.ram 0 64) = true → ∃ t, exec (.loadRecord 1) s = .next t ∧
        t.boot.stage = .failed ∧ t.boot.error = 0x0311) ∧
      exec (.cmdDoorbell 1) s = exec (.loadRecord 1) s)

/-- What reaches the engine over the host link: a host write into mailbox RAM stores its 4 or 64 aligned bytes and nothing
else, and a write of any other size or alignment changes nothing, nor does any host write with no host module in service; a read of another
size than 4 bytes gives zeros. While the device has power, a MEM_CPL's bytes become what the engine reads in
host-die memory, and the range counts as backed (that it counts so from then on is the model's choice, log 15); UNBACKED on a ring is
the device fault RING_UNBACKED; a lost module and an adapter retry are counted. Without power none of these has an effect (log 12). -/
def Obligations.HostLinkTraffic : Prop :=
  ∀ (s : State) (o a n : Nat) (b : List Byte) (u : MemUser),
    (∀ k : Nat, k ≠ 4 → ecsReadBytes s o k = List.replicate k 0) ∧
    (hostLink s = false → exec (.ecsWrite o b) s = .next s ∧ ∀ (v : Word) (i : Nat),
      ∀ c ∈ [Instr.cmdDoorbell v, .loadRecord v, .cplHead v, .evtHead v, .rptHead v, .evtClear v, .evtEnable v,
        .resetCtl v, .tmxSel i v, .tmxCtl v, .clPerfSel i v], exec c s = .next s) ∧
    (s.pins.pwrgd = true → hostLink s = true →
    (((b.length = 4 ∧ o % 4 = 0) ∨ (b.length = 64 ∧ o % 64 = 0)) → 0x18000 ≤ o → o + b.length ≤ 0x1E000 → Canon s →
      ∃ t, exec (.ecsWrite o b) s = .next t ∧ Keeps [.mb] s t ∧ memRead t.mb.ram (o - 0x18000) b.length = b ∧
        ∀ a, (a < o - 0x18000 ∨ o - 0x18000 + b.length ≤ a) → memGet t.mb.ram a = memGet s.mb.ram a) ∧
    (¬ ((b.length = 4 ∧ o % 4 = 0) ∨ (b.length = 64 ∧ o % 64 = 0)) → exec (.ecsWrite o b) s = .next s)) ∧
    (s.pins.pwrgd = true → Canon s → hostBase ≤ a → a + b.length ≤ windowBase →
      ∃ t, exec (.memCpl a u (.data b)) s = .next t ∧ Keeps [.mem, .unbacked] s t ∧ memRead t.mem a b.length = b ∧
        (∀ x, (x < a ∨ a + b.length ≤ x) → memGet t.mem x = memGet s.mem x) ∧
        ∀ r ∈ t.unbacked, r ∈ s.unbacked ∧ overlaps a b.length r.1 r.2 = false) ∧
    (s.pins.pwrgd = true → ∃ t, exec (.memCpl a .ring (.unbacked n)) s = .next t ∧ t.errs.deviceFault = true ∧ t.mb.ready = false ∧
      (s.mb.evtFault = 0 → t.mb.evtFault = 2)) ∧
    (s.pins.pwrgd = true → ∃ t, exec .hostModuleFail s = .next t ∧ Keeps [.errs] s t ∧ t.errs.hostModules = s.errs.hostModules - 1) ∧
    (s.pins.pwrgd = true → ∃ t, exec .adapterRetry s = .next t ∧ Keeps [.errs] s t ∧
      tblGet t.errs.counts 31 = tblGet s.errs.counts 31 + 1) ∧
    (s.pins.pwrgd = false → ∀ r : MemAnswer, exec (.ecsWrite o b) s = .next s ∧ exec (.memCpl a u r) s = .next s ∧
      exec .hostModuleFail s = .next s ∧ exec .adapterRetry s = .next s)
/-! ## Yopin commands (R415 to R428): identity, jobs, images, grants and launches -/

/-- IDENTIFY, GET_CAPS, SET_CONFIG and a reserved opcode complete at once: with the identity, with the capability record
written at ARG_ADDR, with both rings placed and their counters 0, and with BAD_ARG. GET_CAPS may end later, at a tick (R417):
then the tick posts its status and result, and it is open no more. -/
def Obligations.IdentityCommandsComplete : Prop :=
  ∀ (s : State) (c : Cmd), Canon s →
    (AtHead 0x0101 c s → ∃ t, exec .identify s = .next t ∧ Keeps [.mb] s t ∧
      Completed c stOk (natLe 4 0x4B4D5808 ++ natLe 4 0xB0 ++ natLe 8 s.boot.digest.toNat) s t) ∧
    (AtHead 0x0102 c s → argOk c 64 s = true → ∃ t, exec .getCaps s = .next t ∧ Keeps [.mb, .mem, .time, .errs] s t ∧
      Finishes c stOk [] s t ∧ memRead t.mem (argAddr c) 64 = capsRecord s ∧
      ∀ a, (a < argAddr c ∨ argAddr c + 64 ≤ a) → memGet t.mem a = memGet s.mem a) ∧
    (AtHead 0x0103 c s → s.mb.opened = [] → s.job.opened = false → cmdField c 16 8 % 4096 = 0 →
      cmdField c 32 8 % 4096 = 0 → eventEntriesOk (cmdField c 24 4) = true →
      hostOk s (cmdField c 16 8) (32 * cmdField c 24 4) = true → hostOk s (cmdField c 32 8) (cmdField c 40 8) = true →
      ∃ t, exec .setConfig s = .next t ∧ Completed c stOk [] s t ∧
        t.mb.evtRing = some (cmdField c 16 8, cmdField c 24 4) ∧ t.mb.rptRing = some (cmdField c 32 8, cmdField c 40 8) ∧
        t.mb.evtHead = 0 ∧ t.mb.rptTail = 0 ∧ t.mb.rptHead = 0 ∧ (s.mb.queue = [] → t.mb.evtTail = 0)) ∧
    (headCmd? s = some c → c.op ∉ knownOpcodes → ∃ t, exec .reservedOpcode s = .next t ∧ Keeps [.mb] s t ∧
      Completed c stBadArg [] s t) ∧
    (∀ (o : OpenCmd) (st : Nat) (res : List Byte), s.mb.opened = [o] → o.kind = .late st res →
      (settleLate s).mb.opened = [] ∧ (settleLate s).mb.cplTail = s.mb.cplTail + 1 ∧
      memRead (settleLate s).mb.ram (0x4000 + 32 * (s.mb.cplTail.toNat % 256)) 32 =
        cplBytes o.op o.tag st o.index s.mb.cplTail.toNat res)

/-- JOB_OPEN, LOAD_IMAGE, BIND and JOB_CLOSE: a job opens with its id and rank; an image without a manifest is loaded, with
its id as the result, if every check of R34 passes, and else BAD_ARG is answered and nothing is loaded; a loaded image with the device's digest is bound and the report ring is divided into
entries of its report size; a job with no step, launch or promotion closes. -/
def Obligations.JobCommandsComplete : Prop :=
  ∀ (s : State) (c : Cmd), Canon s → s.mb.opened = [] →
    (AtHead 0x0201 c s → s.job.opened = false → cmdField c 16 2 ≠ 0 → cmdField c 16 2 ≠ 0xFFFF →
      ∃ t, exec .jobOpen s = .next t ∧ Keeps [.mb, .job, .rem, .pools] s t ∧ Completed c stOk [] s t ∧
        t.job = { Job.init with
          opened := true, id := BitVec.ofNat 16 (cmdField c 16 2), rank := BitVec.ofNat 16 (cmdField c 20 2) } ∧
        t.rem.windows = [] ∧ t.rem.pairs = [] ∧ t.pools.classes = []) ∧
    (AtHead 0x0301 c s → s.job.opened = true → s.job.image = none → s.tier.objs = [] → s.tier.copies = [] →
      hostOk s (cmdField c 16 8) (cmdField c 24 8) = true → 128 ≤ cmdField c 24 8 →
      let im := imageOf (memSlice s.mem (cmdField c 16 8) (cmdField c 24 8)) (cmdField c 24 8)
      ∃ t, exec .loadImage s = .next t ∧
        (imageOk s im = true → sectionLen im 7 0 = 0 →
          Completed c stOk (natLe 4 im.imageId.toNat) s t ∧ t.job.image = some im ∧
          t.mem = copySections im im.sections s.mem) ∧
        (imageOk s im = false → Completed c stBadArg [] s t ∧ t.job.image = none ∧ t.mem = s.mem)) ∧
    (∀ im : Image, AtHead 0x0302 c s → s.job.image = some im → im.bound = false → im.digest = s.boot.digest →
      2 ≤ reportEntries s im → ∃ t, exec .bind s = .next t ∧ Keeps [.mb, .ctr, .job, .ctl] s t ∧
        Completed c stOk (natLe 4 (reportSize im) ++ natLe 4 (reportEntries s im)) s t ∧
        t.job.image = some { im with bound := true } ∧ t.mb.rptSize = reportSize im ∧
        t.mb.rptEntries = reportEntries s im ∧ t.ctl.nextStep = none ∧ t.ctr.sched = none ∧ t.job.lasting.epoch = 0) ∧
    (AtHead 0x0202 c s → s.job.opened = true → stepHeld s = false → s.launch.pend = none → anyPromoting s = false →
      s.tier.deferred = [] → s.tier.copies = [] → s.pools.waits = [] → s.pools.bound = [] →
      (RingBacked s ∨ ∀ b ∈ s.pools.buffers, b.freePending = none) →
      ∃ t, exec .jobClose s = .next t ∧ Completed c stOk [] s t ∧ t.job = Job.init ∧ t.ctl.granted = [] ∧
        t.ctl.run = none ∧ t.rem.windows = [] ∧ t.launch.tree = none ∧ t.tier.objs = [])

/-- GRANT: an ordinary grant that passes every check of R226 to R231 adds its steps, in order, to those GRANTED, and names
the step that the next grant must begin with. -/
def Obligations.GrantAddsItsSteps : Prop :=
  ∀ (s : State) (c : Cmd) (im : Image), Canon s → AtHead 0x0401 c s → boundImage? s = some im → argOk c 64 s = true →
    let r := grantRec (getBytes s (argAddr c) 64)
    isReplay r = false → s.ctl.nextStep.all (fun n => n == BitVec.ofNat 32 r.first) = true →
    grantFieldsOk s im r = true → grantBiasOk s im r = true → (changesOf s r).all (changeTargetOk s im) = true →
    grantSlotsOk s im r = true → admitsOk (stagedLasting s) (changesOf s r) = true →
    s.ctl.granted.length + r.count ≤ 8 →
    ∃ t, exec .grant s = .next t ∧ Keeps [.mb, .ctl, .time] s t ∧
      t.ctl.nextStep = some (BitVec.ofNat 32 (r.first + r.count)) ∧
      t.ctl.granted.length = s.ctl.granted.length + r.count ∧ t.ctl.granted.take s.ctl.granted.length = s.ctl.granted ∧
      (∀ i : Nat, i < r.count → (t.ctl.granted[s.ctl.granted.length + i]?).map (fun g => (g.step, g.sched)) =
        some (BitVec.ofNat 32 (r.first + i), schedOf r i)) ∧
      Completed c stOk (natLe 4 (BitVec.ofNat 32 (r.first + r.count) - 1 : Word).toNat) s t

/-- ABORT_STEP of the running step stops it with HOST_ABORT and stays open; of an earlier run it answers how that ended;
of a step the device does not know it answers BAD_ARG. ABORT_JOB withdraws every granted step: with a run in progress it
stops the run with HOST_ABORT and stays open; otherwise nothing is held any more. With no image it answers BAD_STATE. -/
def Obligations.AbortsStopAndWithdraw : Prop :=
  ∀ (s : State) (c : Cmd), Canon s →
    (AtHead 0x0402 c s →
      (∀ r : Run, s.ctl.run = some r → r.fault = none → r.g.step = BitVec.ofNat 32 (cmdField c 16 4) →
        ∃ t, exec .abortStep s = .next t ∧ Keeps [.mb, .ctl, .rem, .launch] s t ∧ Opened c (.abortStep r.g.step) s t ∧
          t.ctl.run = some { r with fault := some ⟨0x01, true, selfId s⟩ }) ∧
      (s.ctl.run = none → stepQueued s (BitVec.ofNat 32 (cmdField c 16 4)) = false →
        ∃ t, exec .abortStep s = .next t ∧ Keeps [.mb] s t ∧
          Completed c (match s.ctl.past.find? fun p => p.g.step == BitVec.ofNat 32 (cmdField c 16 4) with
            | some p => if p.completed then stAlreadyDone else stAborted
            | none => stBadArg) [] s t)) ∧
    (AtHead 0x0403 c s → s.mb.opened = [] →
      (s.job.image = none → ∃ t, exec .abortJob s = .next t ∧ Keeps [.mb] s t ∧ Completed c stBadState [] s t) ∧
      (∀ (im : Image) (r : Run), s.job.image = some im → s.ctl.run = some r → r.fault = none →
        ∃ t, exec .abortJob s = .next t ∧ Opened c .abortJob s t ∧
          t.ctl.run = some { r with fault := some ⟨0x01, true, selfId s⟩ }) ∧
      (∀ im : Image, s.job.image = some im → s.ctl.run = none → s.pools.bound = [] → ∃ t, exec .abortJob s = .next t ∧
        t.mb.cmdHead = s.mb.cmdHead + 1 ∧ t.ctl.granted = [] ∧ t.ctl.armed = none ∧ t.ctl.replay = [] ∧
        t.ctl.noCurrent = true))

/-- TREE_SET stores the record; PEAL of a locked root with a Downbeat far enough ahead begins a launch with the next
LAUNCH_ID, sets DOWNBEAT and stays open. -/
def Obligations.LaunchCommandsComplete : Prop :=
  ∀ (s : State) (c : Cmd), Canon s →
    (AtHead 0x0404 c s → s.job.opened = true → s.launch.pend = none → treeRecordOk c.bytes = true →
      ∃ t, exec .treeSet s = .next t ∧ Keeps [.mb, .launch] s t ∧ Completed c stOk [] s t ∧
        t.launch = { s.launch with tree := some (treeOf c.bytes) }) ∧
    (∀ tr : Tree, AtHead 0x0405 c s → s.launch.tree = some tr → tr.pParent = none → tr.sParent = none →
      s.time.state = .locked → s.launch.pend = none →
      s.time.beat + max 50000 (guardTicks + 3 * (1250 * tr.depth)) ≤ cmdField c 16 8 →
      ∃ t, exec .peal s = .next t ∧ Keeps [.mb, .rem, .launch] s t ∧ Opened c (.peal s.launch.nextId) s t ∧
        t.launch.nextId = s.launch.nextId + 1 ∧ t.launch.downbeat = cmdField c 16 8 ∧
        t.launch.pend.map (fun p => (p.id, p.downbeat, p.step, p.armed)) =
          some (s.launch.nextId, cmdField c 16 8, BitVec.ofNat 32 (cmdField c 24 4), true))

/-! ## Yopin commands: tiers, pools, windows, flash, telemetry and debug -/

/-- OBJ_DEFINE adds the object of its record; PROMOTE of an absent copy with free frames, at its tier and in
HBM, begins the promotion; EVICT, PIN
and UNPIN move the copy to EVICTING, PINNED and RESIDENT. -/
def Obligations.ResidencyCommandsComplete : Prop :=
  ∀ (s : State) (c : Cmd), Canon s →
    (AtHead 0x0501 c s → argOk c 64 s = true → objRecordOk s (getBytes s (argAddr c) 64) = true →
      objOf? s (objFrom (getBytes s (argAddr c) 64) false).id = none → s.tier.objs.length < 1048576 →
      ∃ t, exec .objDefine s = .next t ∧ Keeps [.mb, .tier] s t ∧ Completed c stOk [] s t ∧
        t.tier.objs = objFrom (getBytes s (argAddr c) 64) false :: s.tier.objs) ∧
    (∀ (o : Obj) (k : Nat), copyNamed? c s = some (o, k) →
      (AtHead 0x0502 c s → o.writable = false → o.hbmPool = false → copyOf? s o.id k = none → occupant? s o k = none →
        occupant? s o 2 = none → ∃ t, exec .promote s = .next t ∧ Completed c stOk [] s t ∧
          (copyOf? t o.id k).map (·.state) = some .promoting) ∧
      (∀ x : Copy, AtHead 0x0503 c s → copyOf? s o.id k = some x → x.state = .resident → x.hold = false →
        grantedReaders s o.id k = [] → ∃ t, exec .evict s = .next t ∧ Keeps [.mb, .tier] s t ∧ Completed c stOk [] s t ∧
          (copyOf? t o.id k).map (·.state) = some .evicting) ∧
      (∀ x : Copy, AtHead 0x0504 c s → copyOf? s o.id k = some x → x.state = .resident → s.tier.deferred = [] →
        ∃ t, exec .pin s = .next t ∧ Keeps [.mb, .tier] s t ∧ Completed c stOk [] s t ∧
          (copyOf? t o.id k).map (·.state) = some .pinned) ∧
      (∀ x : Copy, AtHead 0x0505 c s → copyOf? s o.id k = some x → x.state = .pinned →
        ∃ t, exec .unpin s = .next t ∧ Keeps [.mb, .tier] s t ∧ Completed c stOk [] s t ∧
          (copyOf? t o.id k).map (·.state) = some .resident))

/-- Pool commands: a class is configured; a buffer of the smallest class that fits is allocated with
the lowest free index; shares are added and released; a buffer with no share is freed; the status record is written. -/
def Obligations.PoolCommandsComplete : Prop :=
  ∀ (s : State) (c : Cmd), Canon s →
    (AtHead 0x0601 c s → s.job.opened = true → cmdField c 16 1 < 16 → cmdField c 17 1 < 8 → cmdField c 18 1 < 2 →
      cmdField c 20 4 ≤ 1048576 →
      cmdField c 24 8 % (if cmdField c 17 1 ≤ 1 then classBytes (cmdField c 17 1) else 4096) = 0 →
      poolRegionOk s (cmdField c 16 1) (cmdField c 17 1) ⟨cmdField c 18 1 == 1, cmdField c 24 8, cmdField c 20 4⟩ = true →
      usedIndices s (cmdField c 16 1) (cmdField c 17 1) = [] → s.pools.waits = [] →
      ∃ t, exec .poolConfig s = .next t ∧ Keeps [.mb, .pools] s t ∧ Completed c stOk [] s t ∧
        poolClass t (cmdField c 16 1) (cmdField c 17 1) = ⟨cmdField c 18 1 == 1, cmdField c 24 8, cmdField c 20 4⟩ ∧
        ∀ cl k : Nat, k < 8 → (cl, k) ≠ (cmdField c 16 1, cmdField c 17 1) → poolClass t cl k = poolClass s cl k) ∧
    (AtHead 0x0602 c s → s.job.opened = true → cmdField c 16 1 < 16 → 0 < cmdField c 20 4 → cmdField c 20 4 ≤ 4194304 →
      cmdField c 18 2 < 0xFFF0 → ∀ k i : Nat, fitClass (cmdField c 20 4) = k → freeIndex? s (cmdField c 16 1) k = some i →
      ∃ t, exec .poolAlloc s = .next t ∧ Keeps [.mb, .pools] s t ∧
        Completed c stOk (natLe 4 (handleOf (cmdField c 16 1) k i)) s t ∧
        t.pools.buffers = ⟨handleOf (cmdField c 16 1) k i, cmdField c 18 2, 0, none, 0⟩ :: s.pools.buffers) ∧
    (∀ b : Buffer, handleValid s (cmdField c 16 4) = true → bufferOf? s (handleNamed (cmdField c 16 4)) = some b →
      (AtHead 0x0603 c s → b.freePending = none → cmdField c 20 2 < 0xFFF0 → b.owner = cmdField c 20 2 →
        0 < cmdField c 22 2 → b.shares + cmdField c 22 2 ≤ 65535 →
        ∃ t, exec .poolShare s = .next t ∧ Keeps [.mb, .pools] s t ∧ Completed c stOk [] s t ∧
          bufferOf? t (handleNamed (cmdField c 16 4)) = some { b with shares := b.shares + cmdField c 22 2 }) ∧
      (AtHead 0x0604 c s → cmdField c 20 2 < 0xFFF0 → bitOf (cmdField c 22 1) 0 = false → b.owner ≠ cmdField c 20 2 →
        1 < b.shares → ∃ t, exec .poolRelease s = .next t ∧ Keeps [.mb, .pools] s t ∧ Completed c stOk [] s t ∧
          bufferOf? t (handleNamed (cmdField c 16 4)) = some { b with shares := b.shares - 1 }) ∧
      (AtHead 0x0605 c s → cmdField c 20 2 < 0xFFF0 → bitOf (cmdField c 22 1) 0 = false → b.owner = cmdField c 20 2 →
        b.shares = 0 → b.freePending = none → s.pools.waits = [] →
        ∃ t, exec .poolFree s = .next t ∧ Keeps [.mb, .pools] s t ∧ Completed c stOk [] s t ∧
          bufferOf? t (handleNamed (cmdField c 16 4)) = none)) ∧
    (AtHead 0x0606 c s → cmdField c 16 1 < 16 → argOk c 128 s = true →
      ∃ t, exec .poolStatus s = .next t ∧ Keeps [.mb, .mem, .time, .errs] s t ∧ Finishes c stOk [] s t ∧
        (∀ i : Nat, i < 128 → memGet t.mem (argAddr c + i) = memGet (poolStatusMem s (cmdField c 16 1)) i) ∧
        ∀ a, (a < argAddr c ∨ argAddr c + 128 ≤ a) → memGet t.mem a = memGet s.mem a)

/-- Window commands, with no step running: WIN_SET puts a window whose fields keep R334 in force, WIN_CLEAR makes it invalid,
WIN_READ writes the window's record. -/
def Obligations.WindowCommandsComplete : Prop :=
  ∀ (s : State) (c : Cmd), Canon s → s.job.opened = true → cmdField c 16 2 < 4096 →
    (AtHead 0x0701 c s → s.ctl.run = none → windowReservedOk c.bytes 32 = true →
      (windowFrom c.bytes 32).job = s.job.id.toNat → (windowFrom c.bytes 32).groupLo ≤ (windowFrom c.bytes 32).groupHi →
      windowRangeOk (windowFrom c.bytes 32) = true →
      ∃ t, exec .winSet s = .next t ∧ Keeps [.mb, .rem] s t ∧ Completed c stOk [] s t ∧
        windowOf t (cmdField c 16 2) = windowFrom c.bytes 32 ∧
        ∀ w : Nat, w ≠ cmdField c 16 2 → windowOf t w = windowOf s w) ∧
    (AtHead 0x0702 c s → s.ctl.run = none → ∃ t, exec .winClear s = .next t ∧ Keeps [.mb, .rem] s t ∧
      Completed c stOk [] s t ∧ (windowOf t (cmdField c 16 2)).flags = (windowOf s (cmdField c 16 2)).flags % 128 ∧
      ∀ w : Nat, w ≠ cmdField c 16 2 → windowOf t w = windowOf s w) ∧
    (AtHead 0x0703 c s → argOk c 32 s = true → ∃ t, exec .winRead s = .next t ∧ Keeps [.mb, .mem, .time, .errs] s t ∧
      Finishes c stOk [] s t ∧ memRead t.mem (argAddr c) 32 = windowBytes (windowOf s (cmdField c 16 2)) ∧
      ∀ a, (a < argAddr c ∨ argAddr c + 32 ≤ a) → memGet t.mem a = memGet s.mem a)

/-- Flash commands on an ONLINE tier: STATUS writes its record; FORMAT with its key stays open and makes the tier
UNFORMATTED from its start (the model's reading, log 48); CREATE answers the next extent id; WRITE at the write point advances it; SEAL stays open; DELETE removes an
extent that no object names. -/
def Obligations.FlashCommandsComplete : Prop :=
  ∀ (s : State) (c : Cmd), Canon s → s.flash.state = .online →
    (AtHead 0x0801 c s → argOk c 128 s = true → ∃ t, exec .flashStatus s = .next t ∧ Finishes c stOk [] s t ∧
      Keeps [.mb, .mem, .time, .errs] s t ∧ memRead t.mem (argAddr c) 128 = (flashRecord s).1 ∧
      ∀ a, (a < argAddr c ∨ argAddr c + 128 ≤ a) → memGet t.mem a = memGet s.mem a) ∧
    (AtHead 0x0802 c s → cmdField c 16 4 = 0x46424D54 → s.flash.formatting = false → s.flash.extents = [] →
      RingBacked s → ∃ t, exec .flashFormat s = .next t ∧ Opened c .flashFormat s t ∧
        t.flash.formatting = true ∧ t.flash.state = .unformatted) ∧
    (∀ (bs : List Nat) (g : Flash), AtHead 0x0803 c s → extentLenOk (cmdField c 16 8) = true →
      s.flash.lowReserve = false → stripesOf (cmdField c 16 8) ≤ freeStripes s.flash →
      s.flash.extents.length < 1048576 → s.flash.nextExtent ≤ 0xFFFFFFFE → RingBacked s →
      drawGroups (ceilDiv (stripesOf (cmdField c 16 8)) (groupStripes s.flash.geom)) s.flash = some (bs, g) →
      ∃ t, exec .extentCreate s = .next t ∧ Completed c stOk (natLe 4 s.flash.nextExtent) s t ∧
        t.flash.nextExtent = s.flash.nextExtent + 1 ∧
        t.flash.extents = s.flash.extents ++ [⟨s.flash.nextExtent, cmdField c 16 8, false, false, 0, [], bs⟩]) ∧
    (∀ x : Extent, extentOf? s.flash (cmdField c 16 4) = some x → x.sealedExt = false →
      (AtHead 0x0804 c s → cmdField c 24 8 = x.writePoint → cmdField c 40 8 % 4096 = 0 →
        cmdField c 24 8 + cmdField c 40 8 ≤ x.length → writeSourceOk s (cmdField c 32 8) (cmdField c 40 8) = true →
        s.flash.lowReserve = false → ∃ t, exec .extentWrite s = .next t ∧ Keeps [.mb, .flash, .pools] s t ∧
          Completed c stOk [] s t ∧
          (extentOf? t.flash (cmdField c 16 4)).map (·.writePoint) = some (cmdField c 24 8 + cmdField c 40 8)) ∧
      (AtHead 0x0805 c s → ∃ t, exec .extentSeal s = .next t ∧ Keeps [.mb, .flash, .pools] s t ∧
        Opened c (.extentSeal (cmdField c 16 4)) s t ∧
        (extentOf? t.flash (cmdField c 16 4)).map (·.sealing) = some true)) ∧
    (∀ x : Extent, AtHead 0x0806 c s → extentOf? s.flash (cmdField c 16 4) = some x →
      (s.tier.objs.any fun o => o.homeTier == 3 && o.homeAddr == cmdField c 16 4) = false → s.mb.opened = [] →
      RingBacked s → ∃ t, exec .extentDelete s = .next t ∧ Completed c stOk [] s t ∧
        extentOf? t.flash (cmdField c 16 4) = none)

/-- TEL_SNAPSHOT and ATTEST: the 9,216 bytes of the latest snapshot, with its sequence number and length as the result, and
the attestation report for the command's nonce, with its length as the result, are written at ARG_ADDR, and nothing else.
Both may end later, at a tick (R417). -/
def Obligations.SnapshotAndReportAreWritten : Prop :=
  ∀ (s : State) (c : Cmd), Canon s →
    (AtHead 0x0901 c s → argOk c 9216 s = true → ∃ t, exec .telSnapshot s = .next t ∧
      Keeps [.mb, .mem, .time, .errs] s t ∧ Finishes c stOk (natLe 4 s.dbg.telSeq.toNat ++ natLe 4 9216) s t ∧
      (∀ i : Nat, i < 9216 → memGet t.mem (argAddr c + i) = memGet s.dbg.tel i) ∧
      ∀ a, (a < argAddr c ∨ argAddr c + 9216 ≤ a) → memGet t.mem a = memGet s.mem a) ∧
    (AtHead 0x0A01 c s → argOk c 32768 s = true → ∃ t, exec .attest s = .next t ∧
      Keeps [.mb, .mem, .time, .errs] s t ∧ Finishes c stOk (natLe 4 (reportBytes s)) s t ∧
      (∀ i : Nat, i < reportBytes s →
        memGet t.mem (argAddr c + i) = memGet (attestReport ((c.bytes.drop 16).take 32) s) i) ∧
      ∀ a, (a < argAddr c ∨ argAddr c + reportBytes s ≤ a) → memGet t.mem a = memGet s.mem a)

/-- The debug commands, while debug is not locked: DEBUG_TRACE START sets a capture up over an accepted range with its
flags; STOP ends a running capture and answers its counts; STATUS answers the counts; DEBUG_MEMREAD copies engine memory to
the host with no step running, or ends with STEP_FAULT where a word that it reads is known to be uncorrectable (R463), and may end
later (R417). While debug is locked each of them answers AUTH_FAIL. -/
def Obligations.DebugCommandsComplete : Prop :=
  ∀ (s : State) (c : Cmd), Canon s →
    (s.boot.locks.getLsbD 3 = false →
      (AtHead 0x0B01 c s → traceAction c = 0 → capturing s = false → cmdField c 24 8 % 4096 = 0 →
        cmdField c 32 4 % 4096 = 0 → 65536 ≤ cmdField c 32 4 → cmdField c 32 4 ≤ 1073741824 →
        hbmRange (cmdField c 24 8) (cmdField c 32 4) = true → overlapsImage s (cmdField c 24 8) (cmdField c 32 4) = false →
        ∃ t, exec .debugTraceStart s = .next t ∧ Keeps [.mb, .dbg] s t ∧ Completed c stOk [] s t ∧
          t.dbg.capture = some ⟨cmdField c 24 8, cmdField c 32 4, bitOf (cmdField c 36 1) 0, bitOf (cmdField c 36 1) 1,
            0, 0, true⟩) ∧
      (∀ x : Capture, s.dbg.capture = some x →
        (AtHead 0x0B01 c s → traceAction c = 1 → x.running = true →
          ∃ t, exec .debugTraceStop s = .next t ∧ Keeps [.mb, .dbg] s t ∧
            Completed c stOk (natLe 4 x.written ++ natLe 4 x.dropped) s t ∧
            t.dbg.capture = some { x with running := false }) ∧
        (AtHead 0x0B01 c s → traceAction c = 2 → ∃ t, exec .debugTraceStatus s = .next t ∧ Keeps [.mb] s t ∧
          Completed c stOk (natLe 4 x.written ++ natLe 4 x.dropped) s t)) ∧
      (AtHead 0x0B02 c s → 64 ≤ cmdField c 24 8 → cmdField c 24 8 ≤ 1048576 → cmdField c 24 8 % 64 = 0 →
        memreadSource s (cmdField c 16 8) (cmdField c 24 8) = true → argOk c (cmdField c 24 8) s = true →
        s.ctl.run = none → ∃ t, exec (.debugMemread .clean) s = .next t ∧ Keeps [.mb, .mem, .time, .errs] s t ∧
          (badRead? (cmdField c 16 8) (cmdField c 24 8) s = none → Finishes c stOk [] s t ∧
            memRead t.mem (argAddr c) (cmdField c 24 8) = memRead s.mem (cmdField c 16 8) (cmdField c 24 8) ∧
            ∀ a, (a < argAddr c ∨ argAddr c + cmdField c 24 8 ≤ a) → memGet t.mem a = memGet s.mem a) ∧
          ((badRead? (cmdField c 16 8) (cmdField c 24 8) s).isSome = true → Finishes c stStepFault [] s t ∧ t.mem = s.mem))) ∧
    (s.boot.locks.getLsbD 3 = true →
      (AtHead 0x0B01 c s → traceAction c = 0 → ∃ t, exec .debugTraceStart s = .next t ∧ Keeps [.mb] s t ∧
        Completed c stAuthFail [] s t) ∧
      (AtHead 0x0B01 c s → traceAction c = 1 → ∃ t, exec .debugTraceStop s = .next t ∧ Keeps [.mb] s t ∧
        Completed c stAuthFail [] s t) ∧
      (AtHead 0x0B01 c s → traceAction c = 2 → ∃ t, exec .debugTraceStatus s = .next t ∧ Keeps [.mb] s t ∧
        Completed c stAuthFail [] s t) ∧
      (AtHead 0x0B02 c s → ∃ t, exec (.debugMemread .clean) s = .next t ∧ Keeps [.mb, .time] s t ∧
        Finishes c stAuthFail [] s t))

/-! ## Power, boot and flash mount (R285, R286, R443 to R451, R492, R493) -/

/-- The power pins and the full reset: PWRGD low stops the device with NAND protected and every other output floated; PWRGD
high is a power-on into ROM_WAIT that keeps fuses and flash; VCCQ_NAND lost lets the NAND lines go; ROM_WAIT opens the
boot window; RESET_CTL with KEY 0xA5C3 and FULL 1 resets the engine, RESET_STAT counts, and fuses, host-die memory and
flash extents are kept, without the changes that a revocation or a raise under way would have made; a request that comes while a
reset is under way adds none (R442). That host-die memory is lost with power and that unwritten bytes of it and of engine memory
then read 0 are the model's choices (logs 12, 15 and 16; R437 says of a reset that HBM is not kept, and R513 clears it at READY). -/
def Obligations.PowerPinsAndFullReset : Prop :=
  ∀ s : State,
    (s.pins.pwrgd = true → ∃ t, exec .pwrgdFall s = .next t ∧ t.pins = ⟨false, false, true, true⟩ ∧ t.mem = [] ∧
      t.job.opened = false ∧ t.boot.revoked = s.boot.revoked ∧ t.boot.rollback = s.boot.rollback ∧
      t.flash.extents = s.flash.extents ∧ t.pending = s.pending) ∧
    (s.pins.pwrgd = false → ∃ t, exec .pwrgdRise s = .next t ∧ t.pins = ⟨true, false, false, false⟩ ∧
      t.boot = { Boot.init with
        revoked := s.boot.revoked, rollback := s.boot.rollback, raisesLeft := s.boot.raisesLeft } ∧
      t.mb.ready = false ∧ t.mgmt.physId = 0xFFFFFF ∧ t.fab.hasActive = false ∧ t.flash.extents = s.flash.extents ∧
      t.errs.repaired = s.errs.repaired ∧ t.errs.hardRepaired = s.errs.hardRepaired ∧ t.mem = [] ∧ t.pending = s.pending) ∧
    (s.pins.pwrgd = false → exec .vccqNandLoss s = .next { s with pins := { s.pins with nandProtect := false } }) ∧
    (s.pins.pwrgd = true → s.boot.stage = .romWait →
      exec .romWait s = .next { s with boot := { s.boot with romUp := true, resetting := false } }) ∧
    (∀ v : Word, s.boot.resetting = true → exec (.resetCtl v) s = .next s) ∧
    (∀ v : Word, s.pins.pwrgd = true → hostLink s = true → v.toNat / 65536 = 0xA5C3 → v.getLsbD 0 = true →
      s.boot.resetting = false → ∃ t, exec (.resetCtl v) s = .next t ∧ t.pending = s.pending ∧
        t.boot.stage = .romWait ∧ t.boot.romUp = false ∧ t.boot.resetting = true ∧ t.boot.resetCause = 1 ∧
        t.boot.resetCount = (if s.boot.resetCount = 0xFFFF then 0xFFFF else s.boot.resetCount + 1) ∧
        t.boot.revoked = s.boot.revoked ∧ t.boot.rollback = s.boot.rollback ∧ t.boot.revokeDue = false ∧
        t.boot.raiseDue = false ∧ t.boot.locks = 0 ∧
        t.mb.ready = false ∧ t.mb.cmdDoorbell = 0 ∧ t.mb.cmdHead = 0 ∧ t.mb.cplTail = 0 ∧ t.mb.evtCause = 0 ∧
        t.job.opened = false ∧ t.ctl.run = none ∧ t.time.state = .unlocked ∧ t.flash.extents = s.flash.extents ∧
        (∀ a, (a < hostBase ∨ windowBase ≤ a) → memGet t.mem a = 0) ∧
        (Canon s → ∀ a, hostBase ≤ a → a < windowBase → memGet t.mem a = memGet s.mem a))

/-- ROM_VERIFY: a monitor image that passes every check of R446 is measured, its identity secrets and the device key are derived,
UDS is blocked and the monitor runs; the first check k that fails puts 0x0100 + k into BOOT_STAT ERROR with STAGE FAILED. -/
def Obligations.RomVerifyEnds : Prop :=
  ∀ s : State, s.boot.stage = .romVerify → s.pins.pwrgd = true → s.errs.deviceFault = false →
    ∃ t, exec .romVerify s = .next t ∧ Keeps [.boot, .mgmt] s t ∧
      match imageCheck 1 s.boot s.boot.sram s.boot.sramLen with
      | none => t.boot.stage = .monitorRun ∧ t.boot.mon = some (acceptedImage s.boot.sram s.boot.sramLen) ∧
        t.boot.udsBlocked = true ∧ t.boot.devSeed = deviceSeed ∧ t.boot.devKey = Config.mldsaPublic deviceSeed ∧
        t.boot.cdiMon = monitorCdi (acceptedImage s.boot.sram s.boot.sramLen).meas ∧ t.boot.sram = s.boot.sram ∧ t.boot.locks = s.boot.locks ∧ t.mgmt = s.mgmt
      | some k => t.boot.stage = .failed ∧ t.boot.error = BitVec.ofNat 16 (0x0100 + k) ∧ t.boot.mon = s.boot.mon

/-- FIRMWARE_VERIFY: a control-firmware image that passes every check of R446 is measured, and the secrets of the alias key are
derived; mailbox RAM and the ring counters are cleared, the locks are set, rows under a soft repair get a hard one (R460), and
FIRMWARE_INIT begins; a check k that fails leaves 0x0300 + k, and a source
that the host die does not back leaves 0x0312. -/
def Obligations.FirmwareVerifyEnds : Prop :=
  ∀ s : State, s.boot.stage = .firmwareVerify → s.pins.pwrgd = true → s.errs.deviceFault = false →
    let m := memSlice s.mem s.boot.loadSrc s.boot.loadLen
    (hostOk s s.boot.loadSrc s.boot.loadLen = true → ∃ t, exec .firmwareVerify s = .next t ∧
      match imageCheck 2 s.boot m s.boot.loadLen with
      | none => Keeps [.mb, .boot, .fab, .time, .errs] s t ∧ t.boot.stage = .firmwareInit ∧
        t.boot.fw = some (acceptedImage m s.boot.loadLen) ∧ t.boot.fwCopy = m ∧
        t.boot.cdiFw = firmwareCdi s.boot.cdiMon (acceptedImage m s.boot.loadLen).meas ∧
        t.boot.aliasSeed = aliasSeedOf t.boot.cdiFw ∧ t.errs.repaired = [] ∧
        t.errs.hardRepaired = s.errs.repaired ++ s.errs.hardRepaired ∧
        t.boot.locks = shippedLocks s.boot.locks ∧ t.mb.ram = [] ∧ t.mb.cmdDoorbell = 0 ∧ t.mb.cmdHead = 0 ∧
        t.mb.cplTail = 0 ∧ t.mb.cplHead = 0 ∧ t.mb.evtTail = 0 ∧ t.mb.rptTail = 0 ∧ t.mb.ready = s.mb.ready
      | some k => Keeps [.boot, .mgmt] s t ∧ t.boot.stage = .failed ∧ t.boot.error = BitVec.ofNat 16 (0x0300 + k)) ∧
    (hostOk s s.boot.loadSrc s.boot.loadLen = false → ∃ t, exec .firmwareVerify s = .next t ∧
      Keeps [.boot, .mgmt] s t ∧ t.boot.stage = .failed ∧ t.boot.error = 0x0312)

/-- The end of FIRMWARE_INIT: READY sets STAGE and MB_STATUS, builds the unit map and the digest, clears engine memory and
accumulators, with good check bits (R513), but not host-die memory, and begins the changes of the fuses (R447, R448); it does not come
while no module to a port die or an HBM stack answers (R451); a failure of R451 fails boot with its code. -/
def Obligations.FirmwareInitEnds : Prop :=
  ∀ s : State, s.boot.stage = .firmwareInit → s.pins.pwrgd = true → s.errs.deviceFault = false →
    (∀ bad : List Nat, (s.errs.dieModulesA = 0 ∨ s.errs.dieModulesB = 0 ∨ s.errs.hbmLost = true) →
      exec (.ready bad) s = .next s) ∧
    (∀ bad : List Nat, portsSettled s = true → clustersAlive bad = true → 0 < s.errs.dieModulesA → 0 < s.errs.dieModulesB →
      s.errs.hbmLost = false → ∃ t, exec (.ready bad) s = .next t ∧
      Keeps [.mb, .boot, .mem, .tiles, .cells, .mgmt, .errs] s t ∧ t.boot.stage = .ready ∧ t.mb.ready = true ∧
      t.errs.unit = unitMapOf bad ∧ t.errs.mapUp = true ∧ t.boot.digest = digestNow s (unitMapOf bad) ∧
      t.tiles = [] ∧ t.boot.revoked = s.boot.revoked ∧ t.boot.rollback = s.boot.rollback ∧
      t.boot.revokeDue = true ∧ t.boot.raiseDue = true ∧
      t.errs.badBursts = [] ∧ t.errs.badWords = [] ∧
      (∀ a, (a < hostBase ∨ windowBase ≤ a) → memGet t.mem a = 0) ∧
      (∀ a, hostBase ≤ a → a < windowBase → memGet t.mem a = memGet s.mem a) ∧
      (∀ p : Nat × Nat, s.mgmt.powerNext = some p → t.mgmt.sustainedW = p.1 ∧ t.mgmt.burstW = p.2)) ∧
    (∀ code : Nat, 0x0401 ≤ code → code ≤ 0x0403 → ∃ t, exec (.firmwareInitFail code) s = .next t ∧
      Keeps [.boot, .mgmt] s t ∧ t.boot.stage = .failed ∧ t.boot.error = BitVec.ofNat 16 code)

/-- How a mount ends (R285, R286). A population or a part that breaks R269 or R271 fails it with cause 1 or 2, whatever else
was found; a blank medium gives UNFORMATTED with no extent; metadata that fails gives cause 4 or 5 (never 5 on a medium whose
format was cut short, R287), channels that do not answer cause 3; otherwise, with both port dies there to reach the channels (R497),
the tier is ONLINE with the geometry that was read and its counts start at 0, and the extents of a medium not known before are those
of its map. With no channel populated the state is NONE. -/
def Obligations.FlashMountsEnd : Prop :=
  ∀ s : State, s.flash.state = .mounting → s.boot.stage = .ready → s.tier.copies = [] →
    (∃ t, exec (.mountEnd .none) s = .next t ∧ t.flash = { s.flash with state := .none, failCause := 0 }) ∧
    (∀ (g : FlashGeometry) (r : MountResult), (r = .unformatted g ∨ (∃ m, r = .online g m) ∨ r = .failed 4 g ∨ r = .failed 5 g) →
      (populationOk g = false → ∃ t, exec (.mountEnd r) s = .next t ∧
        t.flash = { s.flash with state := .failed, failCause := 1, geom := g }) ∧
      (populationOk g = true → partQualified g = false → ∃ t, exec (.mountEnd r) s = .next t ∧
        t.flash = { s.flash with state := .failed, failCause := 2, geom := g }) ∧
      (populationOk g = true → partQualified g = true → s.flash.medium = .blank →
        ∃ t, exec (.mountEnd r) s = .next t ∧
          t.flash = { s.flash with state := .unformatted, failCause := 0, geom := g, extents := [] })) ∧
    (∀ g : FlashGeometry, populationOk g = true → partQualified g = true →
      (s.flash.medium ≠ .formatted → ∃ t, exec (.mountEnd (.unformatted g)) s = .next t ∧
        t.flash.state = .unformatted ∧ t.flash.geom = g ∧ t.flash.extents = []) ∧
      (∃ t, exec (.mountEnd (.failed 3 g)) s = .next t ∧
        t.flash = { s.flash with state := .failed, failCause := 3, geom := g }) ∧
      (s.flash.medium = .cut → exec (.mountEnd (.failed 5 g)) s = .next s) ∧
      (∀ c : Nat, (c = 4 ∨ c = 5 ∧ s.flash.medium ≠ .cut) → s.flash.medium ≠ .blank → ∃ t, exec (.mountEnd (.failed c g)) s = .next t ∧
        t.flash = { s.flash with state := .failed, failCause := c, geom := g }) ∧
      (∀ m : FlashMedium, channelsUp s = true →
        (s.flash.medium = .formatted ∧ g = s.flash.mediumGeom ∨ s.flash.medium = .unknown ∧ mediumOk g m = true) →
        ∃ t, exec (.mountEnd (.online g m)) s = .next t ∧ t.flash.state = .online ∧ t.flash.geom = g ∧
          t.flash.retries = 0 ∧ t.flash.rebuilds = 0 ∧ t.flash.relocations = 0 ∧
          (s.flash.medium = .unknown → t.flash.nextExtent = m.nextExtent ∧
            t.flash.extents.map (fun x => (x.id, x.length)) = m.extents.map (fun x => (x.id, x.length)))))

/-- How seals and formats end (R280, R279). Once every stripe of it is programmed the extent is sealed, and the EXTENT_SEAL that
stayed open for it completes with OK; before that nothing changes. With the port dies there to reach the channels (R497) the tier is ONLINE with every block unused, the factory's bad blocks and those already bad out of use, and the
FLASH_FORMAT that stayed open completes with OK. -/
def Obligations.SealsAndFormatsEnd : Prop :=
  ∀ (s : State) (o : OpenCmd), Canon s → RingBacked s → s.mb.opened = [o] →
    (∀ (x : Extent) (id : Nat), s.flash.state = .online → extentOf? s.flash id = some x → x.sealing = true →
      o.kind = .extentSeal id →
      ((s.flash.stages.any fun g => g.ext == id) = true ∨ (s.flash.stageQueue.any fun e => e.1 == id) = true →
        exec (.extentSealDone id) s = .next s) ∧
      ((s.flash.stages.any fun g => g.ext == id) = false → (s.flash.stageQueue.any fun e => e.1 == id) = false → ∃ t, exec (.extentSealDone id) s = .next t ∧ Keeps [.mb, .flash] s t ∧
        extentOf? t.flash id = some { x with sealedExt := true, sealing := false } ∧ t.mb.opened = [] ∧
        t.mb.cplTail = s.mb.cplTail + 1 ∧
        memRead t.mb.ram (0x4000 + 32 * (s.mb.cplTail.toNat % 256)) 32 =
          cplBytes o.op o.tag stOk o.index s.mb.cplTail.toNat [])) ∧
    (∀ bad : List Nat, s.flash.formatting = true → s.boot.stage = .ready → channelsUp s = true → o.kind = .flashFormat →
      ∃ t, exec (.flashFormatDone bad) s = .next t ∧ t.flash.formatting = false ∧ t.flash.state = .online ∧
        t.flash.medium = .formatted ∧ t.flash.extents = s.flash.extents ∧
        (∀ b : Nat, b ∈ bad → (blockOf t.flash b).bad = true) ∧
        (∀ b : Nat, (blockOf s.flash b).bad = true → (blockOf t.flash b).bad = true) ∧
        (∀ b : Nat, b ∉ bad → (blockOf t.flash b).used = false) ∧ t.mb.opened = [] ∧
        t.mb.cplTail = s.mb.cplTail + 1 ∧
        memRead t.mb.ram (0x4000 + 32 * (s.mb.cplTail.toNat % 256)) 32 =
          cplBytes o.op o.tag stOk o.index s.mb.cplTail.toNat [])
/-! ## Step control and tasks (R43 to R68, R237 to R241, R377) -/

/-- STEP_ARM takes the oldest granted step, and STEP_RUN and LAUNCH_STROBE enter RUNNING: the step becomes the run, with the
entry changes applied and the ones before kept for a rollback, dependence counters at their presets, and T_RUNNING on the
engine's copy of the Beat counter (how far it lags, within 16 ticks, is free: log 29), or on the Downbeat of a launch that did not
have to wait. While a report waits for the report ring neither enters RUNNING: the step stays ARMED and its stall is noted, and a
launch is not lost. That such a launch enters RUNNING later, after D + 16, is the model's reading of R64 against R377 (log 62). -/
def Obligations.StepsArmAndRun : Prop :=
  ∀ s : State,
    (∀ (g : GStep) (rest : List GStep), s.ctl.armed = none → s.errs.deviceFault = false →
      s.ctl.replay = [] → s.ctl.granted = g :: rest → s.ctl.gongPending = none →
      ∃ t, exec .stepArm s = .next t ∧ Keeps [.ctl, .time] s t ∧ t.ctl.armed = some g ∧ t.ctl.granted = rest ∧
        t.ctl.tArmed ≤ s.time.beat ∧ s.time.beat ≤ t.ctl.tArmed + 16) ∧
    (∀ (g : GStep) (im : Image), s.ctl.armed = some g → boundImage? s = some im → entryReady s g = true →
      entryFree s = true →
      (g.launch = false → ∃ t r, exec .stepRun s = .next t ∧ Entered g im s t r ∧ r.tRunning ≤ s.time.beat ∧
        s.time.beat ≤ r.tRunning + 16) ∧
      (∀ d : Nat, g.launch = true → s.launch.strobe = some (g.step, d) → d ≤ s.time.beat →
        ∃ t r, exec .launchStrobe s = .next t ∧ Entered g im s t r ∧ t.launch.strobe = none ∧
          (s.launch.strobeLate = false → d ≤ r.tRunning ∧ r.tRunning ≤ d + 16) ∧
          (s.launch.strobeLate = true → r.tRunning ≤ s.time.beat ∧ s.time.beat ≤ r.tRunning + 16))) ∧
    (∀ (g : GStep) (im : Image), s.ctl.armed = some g → boundImage? s = some im → entryReady s g = true →
      entryFree s = false → s.errs.testing = none →
      (g.launch = false → exec .stepRun s = .next { s with ctl := { s.ctl with waitedRing := true } }) ∧
      (∀ d : Nat, g.launch = true → s.launch.strobe = some (g.step, d) → d ≤ s.time.beat →
        exec .launchStrobe s = .next { s with
          ctl := { s.ctl with waitedRing := true }, launch := { s.launch with strobeLate := true } }))

/-- A run latches COMPLETED once it drains with nothing in flight, and ABORTED once it stops with every packet answered:
ABORTED rolls the lasting state back to what it was at RUNNING entry, and both leave a report (ABORTED at once where no cell is to be
tested first) and the run as the latest. A run that has been idle for the image's limit stops with STEP_HUNG. -/
def Obligations.StepsLatch : Prop :=
  ∀ (s : State) (r : Run), s.ctl.run = some r →
    (r.draining = true → r.fault = none → runFinished s = true → ∃ t, exec .stepComplete s = .next t ∧
      t.ctl.run = none ∧ t.ctl.past = ⟨r.g, true, 0, true⟩ :: s.ctl.past.take 1 ∧ t.job = s.job ∧ t.ctr = s.ctr ∧
      (s.errs.testing = none → s.ctl.reportsHeld = [] → ringRoom s = true →
        hostOk s ((s.mb.rptRing.map (·.1)).getD 0 + s.mb.rptTail.toNat % s.mb.rptEntries * s.mb.rptSize) s.mb.rptSize = true →
        t.mb.rptTail = s.mb.rptTail + 1)) ∧
    (∀ f : StepFault, r.fault = some f → allAnswered s = true → s.mb.opened.any isAbortJob = false →
      ∃ t, exec .stepAbort s = .next t ∧ t.ctl.run = none ∧ t.ctl.past = ⟨r.g, false, f.cause, true⟩ :: s.ctl.past.take 1 ∧
        t.job.lasting = r.saved ∧ t.ctl.aborted = true ∧ t.exch = Exch.init ∧ t.ctr.tally = [] ∧
        t.ctl.granted = s.ctl.granted ∧
        (s.errs.faultCell = none → s.errs.testing = none → s.ctl.reportsHeld = [] → ringRoom s = true →
          hostOk s ((s.mb.rptRing.map (·.1)).getD 0 + s.mb.rptTail.toNat % s.mb.rptEntries * s.mb.rptSize) s.mb.rptSize = true →
          t.mb.rptTail = s.mb.rptTail + 1)) ∧
    (∀ im : Image, r.fault = none → s.job.image = some im → 1250 * im.idleLimit ≤ r.idle →
      ∃ t, exec .stepHung s = .next t ∧ Keeps [.ctl, .rem, .launch] s t ∧
        t.ctl.run = some { r with fault := some ⟨0x05, true, selfId s⟩ })

/-- DESCRIPTOR_FETCH puts the next descriptors of a cell's list into its store, and a header that breaks R39 to R42 ends a
running step with BAD_DESCRIPTOR and is held for an armed one. -/
def Obligations.DescriptorsAreFetched : Prop :=
  ∀ (s : State) (cell : Nat) (im : Image), boundImage? s = some im → cellEnabled s cell = true →
    (cellOf s cell).window.length + 32 ≤ 4096 →
    (∀ g : GStep, s.ctl.run = none → s.ctl.armed = some g → s.ctl.heldBad = false →
      let x := cellOf s cell
      let n := min 32 (memListCount s im g.sched cell - x.fetchedNext)
      let ds := readDescs s im g cell x.fetchedNext n
      0 < n →
      ((∀ i : Nat, i < n → (ds[i]?).any (descHeadOk (x.fetchedNext + i)) = true) →
        exec (.descriptorFetch cell) s =
          .next (setCell cell { x with window := x.window ++ ds, fetchedNext := x.fetchedNext + n } s)) ∧
      ((∃ i : Nat, i < n ∧ (ds[i]?).any (descHeadOk (x.fetchedNext + i)) = false) →
        exec (.descriptorFetch cell) s = .next { s with ctl := { s.ctl with heldBad := true } })) ∧
    (∀ r : Run, s.ctl.run = some r → r.fault = none →
      let x := cellOf s cell
      let n := min 32 (memListCount s im r.g.sched cell - x.fetched)
      let ds := readDescs s im r.g cell x.fetched n
      0 < n →
      ((∀ i : Nat, i < n → (ds[i]?).any (descHeadOk (x.fetched + i)) = true) →
        ∃ t, exec (.descriptorFetch cell) s = .next t ∧ Keeps [.cells, .ctl, .time] s t ∧
          (cellOf t cell).fetched = x.fetched + n) ∧
      ((∃ i : Nat, i < n ∧ (ds[i]?).any (descHeadOk (x.fetched + i)) = false) →
        ∃ t, exec (.descriptorFetch cell) s = .next t ∧ Stopped 0x02 s t))

/-- TASK_COMPLETE: a task in flight whose work is done leaves flight, and its signal adds INCREMENT to its counter, which
holds at its largest value. -/
def Obligations.TasksCompleteAndSignal : Prop :=
  ∀ (s : State) (cell index : Nat) (f : Flight), flight? s cell index = some f → stepActive s = true →
    taskReady s cell f = true → s.dbg.capture = none →
    ∃ t, exec (.taskComplete cell index) s = .next t ∧ flight? t cell index = none ∧ t.mem = s.mem ∧ t.tiles = s.tiles ∧
      (sigIncrement f.desc = 0 → t.ctr = s.ctr) ∧
      (0 < sigIncrement f.desc → dSigArr f.desc = false →
        depGet t cell (sigCounter f.desc) = min (depGet s cell (sigCounter f.desc) + sigIncrement f.desc) 0xFFFFFFFF) ∧
      (0 < sigIncrement f.desc → dSigArr f.desc = true →
        arrGet t (clusterOf cell) (sigCounter f.desc) =
          min (arrGet s (clusterOf cell) (sigCounter f.desc) + sigIncrement f.desc) 0xFFFFFFFF)

/-- What keeps a task from its unit. R57: a voidable task whose count counter reads 1 issues without its unit: the run counts
it, its signal is applied, and no memory and no accumulator changes, for every class that may be voidable. R459 to R464:
a corrected word lets the task run and is counted; an uncorrectable word or a failed check ends the step with its cause,
and the unit writes nothing; and so it does where the task takes a word that an earlier read or the scrub left uncorrectable (R463). -/
def Obligations.VoidTasksAndReadErrors : Prop :=
  (∀ (s : State) (cell : Nat) (d : Desc) (r : Run), isVoid s cell d = true → s.dbg.capture = none → s.ctl.run = some r →
    0 < sigIncrement d → dSigArr d = false →
    ∀ i : Instr,
      (issuable? s cell 1 (fun _ => true) = some d ∧ i = .mx cell .clean) ∨
      (issuable? s cell 2 (fun x => bodyOp x == 0x01) = some d ∧ i = .add cell .clean) ∨
      (issuable? s cell 3 (fun _ => true) = some d ∧ i = .cp cell .clean) ∨
      (issuable? s cell 6 (fun x => bodyOp x == 0 && (isVoid s cell x || requestRoom s cell)) = some d ∧ i = .fmLoad cell .clean) ∨
      (issuable? s cell 8 (fun x => bodyOp x == 1) = some d ∧ i = .prefetch cell .clean) →
    ∃ t, exec i s = .next t ∧ t.mem = s.mem ∧ t.tiles = s.tiles ∧ t.tier = s.tier ∧
      t.ctl.run.map (·.voids) = some (r.voids + 1) ∧
      depGet t cell (sigCounter d) = min (depGet s cell (sigCounter d) + sigIncrement d) 0xFFFFFFFF) ∧
  (∀ (s : State) (cell : Nat) (d : Desc) (a : Nat), Issues 2 (fun x => bodyOp x == 0x01) cell d s →
    (∃ t, exec (.add cell (.hbmUncorrectable a)) s = .next t ∧ Stopped 0x14 s t ∧ t.mem = s.mem ∧
      tblGet t.errs.counts tcHbmUe = tblGet s.errs.counts tcHbmUe + 1 ∧ a / 64 * 64 ∈ t.errs.badBursts) ∧
    (∃ t, exec (.add cell (.sramUncorrectable none)) s = .next t ∧ Stopped 0x15 s t ∧ t.mem = s.mem ∧
      t.errs.faultCell = s.errs.faultCell) ∧
    (∃ t, exec (.add cell (.sramUncorrectable (some cell))) s = .next t ∧ Stopped 0x15 s t ∧ t.mem = s.mem ∧
      tblGet t.errs.counts tcSramUe = tblGet s.errs.counts tcSramUe + 1 ∧ t.errs.faultCell = some cell) ∧
    (∃ t, exec (.add cell .unitCheck) s = .next t ∧ Stopped 0x16 s t ∧ t.mem = s.mem ∧
      tblGet t.errs.counts tcUnitChecks = tblGet s.errs.counts tcUnitChecks + 1 ∧ t.errs.faultCell = some cell) ∧
    (∃ t, exec (.add cell .sramCorrected) s = .next t ∧ Taken cell d true t ∧
      (tblGet s.errs.sramCe (clusterOf cell) < 0xFFFFFFFF →
        tblGet t.errs.sramCe (clusterOf cell) = tblGet s.errs.sramCe (clusterOf cell) + 1))) ∧
  (∀ (s : State) (cell : Nat) (d : Desc) (w : BadWord), issuable? s cell 2 (fun x => bodyOp x == 0x01) = some d →
    isVoid s cell d = false → s.dbg.capture = none → badMet? (vxTakes (vxView s cell d) (auxDesc s)) s = some w →
    ∃ t, exec (.add cell .clean) s = .next t ∧ Stopped (match w with | .burst _ => 0x14 | .sram _ => 0x15) s t ∧
      t.mem = s.mem)
/-! ## The matrix unit, the copy port and the vector engine (R95 to R163) -/

/-- MX: after the k-steps every element of the tile blocks that the task names holds its result, every other accumulator
byte is unchanged, and memory changes only by the drain's rows, converted from those results. No word that it takes is known to be
uncorrectable. Where drain rows overlap, R109 leaves the result unspecified, and that the later row stands is the model's choice
(log 89). -/
def Obligations.MatrixTaskRuns : Prop :=
  ∀ (s : State) (cell : Nat) (d : Desc) (r : Run), Canon s → Issues 1 (fun _ => true) cell d s → s.ctl.run = some r →
    ∃ t, exec (.mx cell .clean) s = .next t ∧ Taken cell d true t ∧
      Keeps [.mem, .tiles, .cells, .ctl, .time, .errs, .dbg] s t ∧
      (∀ b p : Nat, b < (mxOf d).blocks → p < 1024 →
        memLe t.tiles (tileAddr cell ((mxOf d).tile + b) p) 4 =
          (elementResult s cell (mxOf d) (kSteps s cell (mxOf d)) b p).1 % 2 ^ 32) ∧
      (∀ a : Nat, (a < tileAddr cell (mxOf d).tile 0 ∨ tileAddr cell ((mxOf d).tile + (mxOf d).blocks) 0 ≤ a) →
        memGet t.tiles a = memGet s.tiles a) ∧
      t.mem = (if (mxOf d).drain then
          (drainRows (mxOf d)).foldl (fun m x => memWrite m ((mxOf d).drainAddr + x.1 * (mxOf d).drainStride)
            (packBits (eBits ((mxFmt? (mxOf d).outCode).getD (.flt .fp32)))
              ((drainRow t cell (mxOf d) r.g.step.toNat ((mxFmt? (mxOf d).outCode).getD (.flt .fp32)) x.1 x.2).map (·.1))))
            s.mem
        else s.mem)

/-- CP: each selected source row goes to its place, as bytes for LINEAR, as the units of an A-kind or B-kind plane for a
skewed layout, or converted into an A operand (where it would read what it also writes elsewhere, or two rows share a place, values
that the manual leaves open take the place of those read, log 44; that of LINEAR rows which overlap the later one stands is the
model's choice, log 89); rows that ZSEL leaves out are counted. A row outside the device's memory
ends the step with ADDRESS_RANGE, and nothing is written. After a LINEAR copy without ZSEL whose rows do not meet, every
destination row reads as its source row did, and every byte outside the destination rows is unchanged. No word that it takes is known
to be uncorrectable. -/
def Obligations.CopyTaskRuns : Prop :=
  ∀ (s : State) (cell : Nat) (d : Desc), Issues 3 (fun _ => true) cell d s →
    let x := cpOf d
    let rows := selectedRows s cell x
    let bytes := cpSource cell d x rows s
    (cpSelfOverlap cell x rows = false → bytes = rows.map (fun i => getBytes s (srcRowAddr x i) x.rowBytes) ∧
      cpCodes d x bytes = bytes.map (rowCodes x)) ∧
    (cpAccessOk s x rows = true → ∃ t, exec (.cp cell .clean) s = .next t ∧
      Taken cell d true t ∧ Keeps [.mem, .cells, .ctl, .time, .errs, .dbg] s t ∧
      (∀ r : Run, s.ctl.run = some r → t.ctl.run.map (fun q => tblGet q.counts ccZselRows) =
        some (tblGet r.counts ccZselRows + (x.rows - rows.length))) ∧
      (x.layout = 0 → t.mem = (putLinear x 0 bytes s).mem) ∧
      (x.layout ≠ 0 → cpConverts x = true → t.mem = (putConverted cell x (cpCodes d x bytes) s).mem) ∧
      (x.layout ≠ 0 → cpConverts x = false → cpIsA x = true →
        t.mem = (putAPlane cell (cpPlane cell x) (cpW x) (rowUnits x) (cpCodes d x bytes) s).mem) ∧
      (x.layout ≠ 0 → cpConverts x = false → cpIsA x = false →
        t.mem = (putBPlane cell (cpPlane cell x) (cpW x) (cpBlocks x) (cpCodes d x bytes) s).mem)) ∧
    (cpAccessOk s x rows = false → ∃ t, exec (.cp cell .clean) s = .next t ∧ Stopped 0x0E s t ∧ t.mem = s.mem) ∧
    (Canon s → (cpOf d).layout = 0 → (cpOf d).zsel = false → cpAccessOk s (cpOf d) (List.range (cpOf d).rows) = true →
      cpSelfOverlap cell (cpOf d) (List.range (cpOf d).rows) = false →
      (∀ i j : Nat, i < j → j < (cpOf d).rows →
        overlaps (dstRowAddr (cpOf d) i) (cpOf d).rowBytes (dstRowAddr (cpOf d) j) (cpOf d).rowBytes = false) →
      ∃ t, exec (.cp cell .clean) s = .next t ∧
        (∀ i : Nat, i < (cpOf d).rows → memRead t.mem (dstRowAddr (cpOf d) i) (cpOf d).rowBytes =
          memRead s.mem (srcRowAddr (cpOf d) i) (cpOf d).rowBytes) ∧
        (∀ a : Nat, (∀ i : Nat, i < (cpOf d).rows → a < dstRowAddr (cpOf d) i ∨ dstRowAddr (cpOf d) i + (cpOf d).rowBytes ≤ a) →
          memGet t.mem a = memGet s.mem a))

/-- Bit-packed memory (R73): a code stored at a bit position reads back modulo its width, and codes at positions that do
not meet it keep their values. -/
def Obligations.BitPackedMemoryReadsBack : Prop :=
  ∀ (m : Mem) (base pos width v : Nat), memWf m = true →
    memWf (putBitsAt m base pos width v) = true ∧
    bitsAt (putBitsAt m base pos width v) base pos width = v % 2 ^ width ∧
    ∀ q w : Nat, (q + w ≤ pos ∨ pos + width ≤ q) → bitsAt (putBitsAt m base pos width v) base q w = bitsAt m base q w

/-- Every vector operation runs to its end on a task that meets no index out of range (GATHER, SCATTER, SCATTER_ADD) and no
mask breach with FAULT (COMPRESS24), and takes no word known to be uncorrectable: the task's work is done, only memory and the counts
change, and memory is as the operation leaves it; what that is, the next two statements say operation by operation. -/
def Obligations.VectorTasksRun : Prop :=
  ∀ (s : State) (cell : Nat) (d : Desc) (e : Nat × Instr × (VxRun → TaskEnd × State)), e ∈ vectorOps cell →
    Issues 2 (fun x => bodyOp x == e.1) cell d s →
    (0x38 ≤ e.1 → badRow? (vxView s cell d) = none) →
    (e.1 = 0x32 → bitOf (vxView s cell d).v.func 2 = true → ∀ g ∈ allGroups (vxView s cell d),
      (groupPick (vxView s cell d) g.1 g.2).2.2 = false) →
    ∃ t, exec e.2.1 s = .next t ∧ Taken cell d true t ∧ Keeps [.mem, .cells, .ctl, .time, .errs, .dbg] s t ∧
      t.mem = (e.2.2 (vxView s cell d)).2.mem

/-- R146 and R147: the element operations. Each kept element of DST takes the operation's value of its operands, rounded
once on the FP32 path and exact on the integer path, in DST_FMT; a masked-off element is +0 or keeps its value. No word that the task
takes is known to be uncorrectable. Where DST overlaps an input otherwise than R147 allows, its result is unspecified, and that every
operand is read before DST is written is the model's choice (log 89). -/
def Obligations.ElementOperationResults : Prop :=
  ∀ (s : State) (cell : Nat) (d : Desc), s.dbg.capture = none → isVoid s cell d = false → wordsGood s = true →
    let x := vxView s cell d
    let i := allInts x true
    let a (ints : Bool) (r e : Nat) := pathIn x ints x.v.src0 r e
    let b (ints : Bool) (r e : Nat) := pathB x ints r e
    let c (ints : Bool) (r e : Nat) := pathIn x ints x.v.src2 r e
    let runs (op : Nat) (instr : Instr) (w : List (Nat × Nat × Nat)) : Prop :=
      issuable? s cell 2 (fun z => bodyOp z == op) = some d →
        ∃ t, exec instr s = .next t ∧ t.mem = storeCodes cell x.v.dst w s.mem
    let writes (ints : Bool) (f : Nat → Nat → FVal) := maskedWrites x (fun r e => pathRound ints (f r e))
    runs 0x01 (.add cell .clean) (writes i fun r e => fAdd (a i r e) (b i r e)) ∧
    runs 0x02 (.sub cell .clean) (writes i fun r e => fAdd (a i r e) (fNeg (b i r e))) ∧
    runs 0x03 (.mul cell .clean) (writes i fun r e => fMul (a i r e) (b i r e)) ∧
    runs 0x04 (.fma cell .clean) (writes i fun r e => fAdd (fMul (a i r e) (b i r e)) (c i r e)) ∧
    runs 0x05 (.div cell .clean) (writes false fun r e => fDiv (a false r e) (b false r e)) ∧
    runs 0x06 (.max cell .clean) (writes i fun r e => vMax (a i r e) (b i r e)) ∧
    runs 0x07 (.min cell .clean) (writes i fun r e => vMin (a i r e) (b i r e)) ∧
    runs 0x09 (.cmp cell .clean) (writes i fun r e => fOfBool (vCmp x.v.func (a i r e) (b i r e))) ∧
    runs 0x0A (.select cell .clean) (eachWrite x fun r e => vxCode x r e (if kept x r e then a i r e else b i r e)) ∧
    (x.v.func = 0 → runs 0x08 (.unary cell .clean)
      (writes (allInts x false) fun r e => fNeg (a (allInts x false) r e))) ∧
    (x.v.func = 1 → runs 0x08 (.unary cell .clean)
      (writes (allInts x false) fun r e => fAbs (a (allInts x false) r e))) ∧
    (x.v.func = 2 → runs 0x08 (.unary cell .clean) (writes false fun r e => fSqrt (a false r e))) ∧
    (x.v.func = 3 → runs 0x08 (.unary cell .clean) (writes false fun r e => fDiv (fOfInt 1) (a false r e))) ∧
    (x.v.func = 4 → runs 0x08 (.unary cell .clean)
      (writes (allInts x false) fun r e => vMax (a (allInts x false) r e) fZero))

/-- R148 to R158: the row operations. REDUCE stores one result a row, SCAN a running value, TABLE a table's
value, RMSNORM, LAYERNORM and SOFTMAX their row's values, and CONVERT each element converted once, or for a block format each
block of 32 quantised with its scale in AUX. COMPRESS stores the elements of its map and the map in AUX, EXPAND puts elements back at
the bits of a map of the row's length and writes nothing for another, and COMPRESS24 stores two values of each group of four, and
their positions where it derives them. GATHER writes to row r the SRC0 row that its index names, SCATTER the other way round,
SCATTER_ADD adds to it as it stands, and an index out of range
ends the step with INDEX_RANGE unless OOB says zero, which writes +0 or skips the row. No word that the task takes is known to be
uncorrectable. The model's choices: operands are read before DST is written where the two overlap (log 89), and GATHER and SCATTER
convert each element once, directly (log 36). -/
def Obligations.RowOperationResults : Prop :=
  ∀ (s : State) (cell : Nat) (d : Desc), s.dbg.capture = none → isVoid s cell d = false → wordsGood s = true →
    let x := vxView s cell d
    let i := allInts x false
    let runs (op : Nat) (instr : Instr) (w : List (Nat × Nat × Nat)) : Prop :=
      issuable? s cell 2 (fun z => bodyOp z == op) = some d →
        ∃ t, exec instr s = .next t ∧ t.mem = storeCodes cell x.v.dst w s.mem
    let E := tableEval s.job.functions x.v.func
    let a (r e : Nat) := pathIn x false x.v.src0 r e
    runs 0x10 (.reduce cell .clean)
      ((List.range x.v.rows).map fun r => (r, 0, vxCode x r 0 (reduceRow x.v.func (pathRound i) (rowElements x i r)))) ∧
    runs 0x11 (.scan cell .clean)
      ((List.range x.v.rows).flatMap fun r => scanWrites x i r (List.range x.v.rowLen) none) ∧
    runs 0x18 (.table cell .clean) (maskedWrites x fun r e =>
      rnd32 (if present x.v.src1 then rnd32 (fMul (E (a r e)) (pathIn x false x.v.src1 r e)) else E (a r e))) ∧
    runs 0x20 (.rmsnorm cell .clean) (maskedWrites x fun r e =>
      rnd32 (fMul (rnd32 (fMul (a r e)
        (normQ x (reduceRow 1 rnd32 (rowElements x false r)) (rowElements x false r).length))) (normG x r e))) ∧
    runs 0x21 (.layernorm cell .clean) (maskedWrites x (lnResult x)) ∧
    runs 0x22 (.softmax cell .clean) (maskedWrites x fun r e =>
      if (rowElements x false r).any (fun p => p.2 == .nan || p.2 == .inf false) then .nan
      else if (smRow E (rowElements x false r)).1 = .inf true then fZero
      else rnd32 (fMul (E (rnd32 (fAdd (a r e) (fNeg (smRow E (rowElements x false r)).1))))
        (rnd32 (fDiv (fOfInt 1) (smRow E (rowElements x false r)).2)))) ∧
    (sHasScale x.v.dst.fmt = false →
      runs 0x28 (.convert cell .clean) (maskedWrites x fun r e => rawIn x x.v.src0 r e)) ∧
    (∀ f : EFmt, x.v.dst.fmt = .elem f → hasScale f = true → issuable? s cell 2 (fun z => bodyOp z == 0x28) = some d →
      ∃ t, exec (.convert cell .clean) s = .next t ∧ t.mem = convertedBlocks x f s.mem) ∧
    (issuable? s cell 2 (fun z => bodyOp z == 0x30) = some d → ∃ t, exec (.compress cell .clean) s = .next t ∧
      t.mem = memWrite (storeCodes cell x.v.dst (compressWrites x) s.mem) (auxAddr x)
        (zmapBytes x.v.grouped ((List.range x.v.rowLen).map (mapBit x)))) ∧
    (zmapLength s.mem (auxAddr x) = x.v.rowLen → runs 0x31 (.expand cell .clean)
      ((List.range x.v.rows).flatMap fun r => expandedRow x r (List.range x.v.rowLen) 0)) ∧
    (zmapLength s.mem (auxAddr x) ≠ x.v.rowLen → runs 0x31 (.expand cell .clean) []) ∧
    (issuable? s cell 2 (fun z => bodyOp z == 0x32) = some d →
      (bitOf x.v.func 2 = true → ∀ g ∈ allGroups x, (groupPick x g.1 g.2).2.2 = false) →
      ∃ t, exec (.compress24 cell .clean) s = .next t ∧
        t.mem = (List.range x.v.rows).foldl (fun m r => positionsStored x r (pairsStored x r m)) s.mem) ∧
    (issuable? s cell 2 (fun z => bodyOp z == 0x38) = some d →
      (badRow? x = none → ∃ t, exec (.gather cell .clean) s = .next t ∧
        t.mem = storeCodes cell x.v.dst (maskedWrites x fun r e =>
          if rowIndex x r < x.v.imm0 then rawIn x x.v.src0 (rowIndex x r) e else fZero) s.mem) ∧
      (∀ k : Nat, badRow? x = some k → ∃ t, exec (.gather cell .clean) s = .next t ∧ Stopped 0x08 s t)) ∧
    (issuable? s cell 2 (fun z => bodyOp z == 0x39) = some d →
      (badRow? x = none → ∃ t, exec (.scatter cell .clean) s = .next t ∧
        t.mem = storeCodes cell x.v.dst ((List.range x.v.rows).flatMap fun r =>
          if rowIndex x r < x.v.imm0 then (List.range x.v.rowLen).filterMap fun e =>
            if kept x r e then some (rowIndex x r, e, vxCode x (rowIndex x r) e (rawIn x x.v.src0 r e))
            else if x.v.maskZero then some (rowIndex x r, e, 0) else none
          else []) s.mem) ∧
      (∀ k : Nat, badRow? x = some k → ∃ t, exec (.scatter cell .clean) s = .next t ∧ Stopped 0x08 s t)) ∧
    (issuable? s cell 2 (fun z => bodyOp z == 0x3A) = some d →
      (badRow? x = none → ∃ t, exec (.scatterAdd cell .clean) s = .next t ∧
        t.mem = (List.range x.v.rows).foldl (fun m r => rowAdded x r m) s.mem) ∧
      ∀ k : Nat, badRow? x = some k → ∃ t, exec (.scatterAdd cell .clean) s = .next t ∧ Stopped 0x08 s t)

/-! ## Routing, exchange and collective tasks (R164 to R193, R206 to R218, R383 to R387) -/

/-- ROUTE writes the selection record of every token and the bid list of every destination; ACCEPT admits to each slot the
best bids that its capacity allows; SPILL replaces the records that it read; a borrowed engine's part leaves a ROUTE. -/
def Obligations.RoutingTasksRun : Prop :=
  ∀ (s : State) (cell : Nat) (d : Desc),
    let f := rtOf d
    let l := layerOf s f.layer
    let x := xplanOf s f.plan
    let lists (bids : List (Nat × Bid)) :=
      (List.range x.destCount).map fun k => (x.listAddr + k * listPitch x, listBytes bids k)
    (Issues 4 (fun z => bodyOp z == 0) cell d s → parityAdmits x (runStep s) = true → rtAccess s (routeSpans s f) = true →
      (∀ bids : List (Nat × Bid), sortBids s f.layer l x false (sortBy propLt (routeProposals s f)) [] = (none, bids) →
        ∃ t, exec (.route cell .clean) s = .next t ∧ Taken cell d true t ∧
          t.mem = (writeAll (lists bids) (writeAll (routeRecords s f) s)).mem ∧
          (flight? t cell d.index).map (·.parts) = some (borrowed cell f)) ∧
      (∀ c : Nat, (sortBids s f.layer l x false (sortBy propLt (routeProposals s f)) []).1 = some c →
        ∃ t, exec (.route cell .clean) s = .next t ∧ Stopped c s t)) ∧
    (Issues 4 (fun z => bodyOp z == 1) cell d s → parityAdmits x (runStep s) = true →
      accessOk s f.out (f.slotCount * workBytes l) = true →
      let bids := (List.range x.fwdSenders).flatMap fun k => landedBids s f.layer f.plan f.round k
      (acceptFault? s f.layer l x bids = none → ∃ t, exec (.accept cell .clean) s = .next t ∧ Taken cell d true t ∧
        ∀ i : Nat, i < f.slotCount →
          let mine := sortBy bidLt (bids.filter fun b => b.slot == f.slotFirst + i)
          let before := workOf s f.layer (f.slotFirst + i)
          workOf t f.layer (f.slotFirst + i) = sortBy (fun (a b : Nat × Nat × Nat) => decide (a.1 < b.1))
            (before ++ (mine.take (l.capacity - before.length)).map fun b => (b.bid.token, srcEntry s x b.sender, b.place))) ∧
      (∀ c : Nat, acceptFault? s f.layer l x bids = some c →
        ∃ t, exec (.accept cell .clean) s = .next t ∧ Stopped c s t ∧ t.mem = s.mem)) ∧
    (Issues 4 (fun z => bodyOp z == 2) cell d s → parityAdmits x (runStep s) = true →
      accessOk s f.out (f.count * recordBytes l) = true →
      (f.round = l.spillRounds + 1 → ∃ t, exec (.spill cell .clean) s = .next t ∧ Taken cell d true t ∧
        t.mem = (writeAll (spillRecords s cell f) s).mem) ∧
      (f.round ≠ l.spillRounds + 1 → ∀ bids : List (Nat × Bid),
        sortBids s f.layer l x true (sortBy propLt (spillProposals s cell f)) [] = (none, bids) →
        ∃ t, exec (.spill cell .clean) s = .next t ∧ Taken cell d true t ∧
          t.mem = (writeAll (lists bids) (writeAll (spillRecords s cell f) s)).mem)) ∧
    (∀ (cl : Nat) (e : Nat × Cell) (g : Flight), s.cells.find? (fun y => y.2.flight.any (waitsPart cl)) = some e →
      e.2.flight.find? (waitsPart cl) = some g → ∃ t, exec (.routePart cl) s = .next t ∧ Keeps [.cells, .ctl] s t ∧
        ∀ h ∈ (cellOf t e.1).flight, h.index = g.index → cl ∉ h.parts)

/-- The XC tasks of an exchange send one message to every destination of the plan (BIDS, ROWS, EAGER) or to every sender
(ACCEPTS, ANSWERS): its body cut into packets, each behind the header of R200, and the task waits for their answers. -/
def Obligations.ExchangeTasksSend : Prop :=
  ∀ (s : State) (cell : Nat) (d : Desc),
    let f := xcOf d
    let l := layerOf s f.layer
    let x := xplanOf s f.plan
    let outs (u : State) (kind : Nat) (ms : List (Nat × Nat × List Byte)) := ms.flatMap fun m =>
      messageOuts 0x01 m.1 (exchangeHeader u f.layer kind f.round (clusterOf cell) m.2.1 m.2.2.length) m.2.2
    parityAdmits x (runStep s) = true →
    (∀ e ∈ [(0, Instr.sendBids cell .clean), (2, Instr.sendRows cell .clean), (3, Instr.sendEager cell .clean)],
      Issues 5 (fun z => bodyOp z == e.1) cell d s → beyondMask s f x = false →
      (e.1 ≠ 0 → accessOk s f.data ((f.count - 1) * f.stride + x.rowBytes) = true) →
      let u := if e.1 = 3 ∨ (e.1 = 0 ∧ f.round = 0) then clearPresence f l x s else s
      ∀ ms : List (Nat × List Sect), sections (sourceSection u cell e.1 f l x) x (List.range x.destCount) = some ms →
      ∃ t, exec e.2 s = .next t ∧ Taken cell d false t ∧ t.mem = u.mem ∧
        Sends cell d (outs u e.1 (ms.map fun m => (destId u x m.1, x.landMask, messageBody m.2))) s t) ∧
    (∀ e ∈ [(1, Instr.sendAccepts cell .clean), (4, Instr.sendAnswers cell .clean)],
      Issues 5 (fun z => bodyOp z == e.1) cell d s →
      (e.1 = 4 → accessOk s f.work (f.slotCount * workBytes l) = true ∧
        accessOk s f.data ((f.slotCount * x.rowRoom - 1) * f.stride + x.ansBytes) = true) →
      let answers := if e.1 = 4 then
        (List.range f.slotCount).flatMap fun i => slotAnswers s f l x (f.slotFirst + i) else []
      ∃ t, exec e.2 s = .next t ∧ Taken cell d false t ∧ t.mem = s.mem ∧
        Sends cell d (outs s e.1 ((List.range x.fwdSenders).map fun k =>
          (srcEntry s x k % 2 ^ 20, 2 ^ (srcEntry s x k / 2 ^ 20), homeMessage s e.1 f x answers k))) s t)

/-- ALL_REDUCE and REDUCE_SCATTER send every other rank its chunk; once every other rank's chunk has landed, the sum of the
own chunk is written, and ALL_REDUCE sends it to every other rank. -/
def Obligations.CollectiveTasksRun : Prop :=
  ∀ (s : State) (cell : Nat) (d : Desc),
    let c := cplanOf s (collPlan d)
    let others := (List.range c.members).filter fun q => q != c.rank
    let outs (u : State) (phase : Nat) (body : Nat → List Byte) := others.flatMap fun q =>
      messageOuts 0x02 (memberId u c q) (collHeader u (collPlan d) phase c (body q).length) (body q)
    (∀ e ∈ [(8, Instr.allReduce cell .clean), (9, Instr.reduceScatter cell .clean)],
      Issues 5 (fun z => bodyOp z == e.1) cell d s → ∃ t, exec e.2 s = .next t ∧ Taken cell d false t ∧ t.mem = s.mem ∧
        (flight? t cell d.index).map (·.parts) = some [0] ∧
        Sends cell d (outs s 0 fun q => memRead s.mem (c.src + 16 * chunkStart c q) (chunkLen c q)) s t) ∧
    (∀ g : Flight, flight? s cell d.index = some g → g.desc = d → g.parts = [0] → stepActive s = true → dClass d = 5 →
      c.members - 1 ≤ arrGet s (clusterOf cell) c.ctr → wordsGood s = true →
      (bodyOp d = 8 → ∃ t, exec (.collectiveSum cell d.index .clean) s = .next t ∧
        t.mem = memWrite s.mem (c.dst + 16 * chunkStart c c.rank) (collSums s c) ∧
        (flight? t cell d.index).map (·.parts) = some [1] ∧ Sends cell d (outs t 1 fun _ => collSums s c) s t) ∧
      (bodyOp d = 9 → ∃ t, exec (.collectiveSum cell d.index .clean) s = .next t ∧
        t.mem = memWrite s.mem c.dst (collSums s c) ∧ (flight? t cell d.index).map (·.parts) = some []))

/-! ## Remote memory, time and tier tasks (R255 to R263, R336 to R346, R368 to R370) -/

/-- The FM tasks send their request packets, numbered on from the pair's next PSN: LOAD, STORE, ATOMIC and FLAG_STORE one,
PUT and GET one for each part of their length; local memory that R246 forbids ends the step instead. -/
def Obligations.RemoteTasksSend : Prop :=
  ∀ (s : State) (cell : Nat) (d : Desc),
    let f := fmOf d
    let n := ((aopSizes f.aop).map (·.2)).getD 0
    let row (op : Nat) (instr : Instr) (len : Nat) (outs : List (Out × Answer)) : Prop :=
      Issues 6 (fun z => bodyOp z == op && (isVoid s cell z || requestRoom s cell)) cell d s →
      (accessOk s f.loc len = true → ∃ t, exec instr s = .next t ∧ Taken cell d false t ∧ t.mem = s.mem ∧
        Sends cell d outs s t ∧ (pairOf t f.dest).nextPsn = (pairOf s f.dest).nextPsn + BitVec.ofNat 32 outs.length ∧
        ∀ (i : Nat) (r : Request), i < outs.length → t.rem.requests[s.rem.requests.length + i]? = some r →
          r.packet.psn = (pairOf s f.dest).nextPsn + BitVec.ofNat 32 i) ∧
      (accessOk s f.loc len = false → ∃ t, exec instr s = .next t ∧ Stopped 0x0E s t ∧
        t.rem.requests = s.rem.requests)
    row 0 (.fmLoad cell .clean) f.length
      [(fmOut f 0x04 3 0 (natLe 2 f.length ++ natLe 6 0), ⟨some f.loc, none, false⟩)] ∧
    row 1 (.fmStore cell .clean) f.length [(fmOut f 0x06 3 0 (memRead s.mem f.loc f.length), noAnswer)] ∧
    row 2 (.fmAtomic cell .clean) n
      [(fmOut f 0x08 3 0 ((natLe 1 f.aop ++ natLe 1 (if aopIsEsf f.aop then f.esfW else 0) ++ natLe 14 0) ++
          memRead s.mem f.loc n), ⟨if f.result = noneAddr then none else some f.result, none, false⟩)] ∧
    row 3 (.fmPut cell .clean) f.length ((List.range (ceilDiv f.length 4096)).map fun i =>
      (fmOut f 0x0A (if f.bg then 5 else 4) (4096 * i)
        (memRead s.mem (f.loc + 4096 * i) (min 4096 (f.length - 4096 * i))), noAnswer)) ∧
    row 4 (.fmGet cell .clean) f.length ((List.range (ceilDiv f.length 4080)).map fun i =>
      (fmOut f 0x0B 3 (4080 * i) (natLe 2 (min 4080 (f.length - 4080 * i)) ++ natLe 6 0),
       ⟨some (f.loc + 4080 * i), if f.arrEn then some (f.arr / 4096, f.arr % 4096, f.unit) else none, f.bg⟩)) ∧
    row 5 (.fmFlagStore cell .clean) 8 [(fmOut f 0x07 2 0 (memRead s.mem f.loc 8), noAnswer)]

/-- WAIT_REL waits for T_RUNNING plus OFFSET; MARK writes the Beat count as the engine sees it, at most 16 ticks behind;
ENSURE and PREFETCH of an absent object whose frames are free, at its tier and in HBM, start its promotion; PREFETCH is
done once that has started, ENSURE waits for its end; and a slot with more than one bound expert ends the step with PLACEMENT_SKEW. -/
def Obligations.TimeAndTierTasksRun : Prop :=
  ∀ (s : State) (cell : Nat) (d : Desc),
    (∀ r : Run, Issues 7 (fun z => bodyOp z == 0) cell d s → s.ctl.run = some r →
      ∃ t, exec (.waitRel cell .clean) s = .next t ∧ Taken cell d false t ∧ t.mem = s.mem ∧
        (flight? t cell d.index).map (·.until?) = some (some (r.tRunning + bodyField d 24 8))) ∧
    (Issues 7 (fun z => bodyOp z == 1) cell d s →
      (accessOk s (bodyField d 32 8) 8 = true → ∃ (t : State) (lag : Nat), exec (.mark cell .clean) s = .next t ∧
        Taken cell d true t ∧ lag ≤ 16 ∧ t.mem = memWrite s.mem (bodyField d 32 8) (natLe 8 (s.time.beat - lag))) ∧
      (accessOk s (bodyField d 32 8) 8 = false → ∃ t, exec (.mark cell .clean) s = .next t ∧ Stopped 0x0E s t ∧
        t.mem = s.mem)) ∧
    (∀ e ∈ [(0, Instr.ensure cell .clean), (1, Instr.prefetch cell .clean)],
      Issues 8 (fun z => bodyOp z == e.1) cell d s →
      (tqObjects s (tqOf d) = [] → ∃ t, exec e.2 s = .next t ∧ Taken cell d true t ∧ t.tier = s.tier) ∧
      (∀ (id : Nat) (o : Obj), tqObjects s (tqOf d) = [id] → objOf? s id = some o →
        ∃ t, exec e.2 s = .next t ∧
          (stepActive t = true → Taken cell d (e.1 == 1 && (isThere (residency t o (tqOf d).tier) ||
            residency t o (tqOf d).tier == .promoting)) t) ∧
          (flight? t cell d.index).map (·.needs) = some (some (id, (tqOf d).tier)) ∧
          (residency s o (tqOf d).tier = .absent → hasFrame o (tqOf d).tier = true → o.writable = false →
            occupant? s o (tqOf d).tier = none → occupant? s o 2 = none → (copyOf? t id (tqOf d).tier).map (·.state) = some .promoting) ∧
          (isThere (residency s o (tqOf d).tier) = true → t.tier = s.tier)) ∧
      (2 ≤ (tqObjects s (tqOf d)).length → ∃ t, exec e.2 s = .next t ∧ Stopped 0x09 s t ∧ t.tier = s.tier))

/-- A promotion starts for a deferred PROMOTE whose frames are free, and ends: complete, with the object's bytes in its frame,
or failed, as it also is where the device may not access its home or its frame (R246); a copy found bad gives way to the next slower
tier, and a source known to hold an uncorrectable word, which is counted, is such a copy, or fails the promotion where it is the home
(R463, R472); an eviction ends with the copy ABSENT. With no task to try again. -/
def Obligations.PromotionsStartAndEnd : Prop :=
  ∀ (s : State) (obj tier : Nat), stepActive s = false →
    (∀ (d : Deferred) (o : Obj),
      s.tier.deferred.find? (fun z => z.obj == obj && (z.tier == tier && deferredReady s z)) = some d → d.evict = false →
      objOf? s obj = some o → residency s o tier = .absent → occupant? s o 2 = none →
      ∃ t, exec (.promotionStart obj tier) s = .next t ∧
        (copyOf? t obj tier).map (fun c => (c.state, c.hostTags)) = some (.promoting, [d.tag])) ∧
    (∀ (o : Obj) (c : Copy), objOf? s obj = some o → copyOf? s obj tier = some c → c.state = .promoting →
      promotionWaits s o c = false →
      (∀ w : BadWord, sourceWord? s o c = some w →
        exec (.promotionEnd obj tier .done) s =
          exec (.promotionEnd obj tier (if c.source = o.homeTier then .homeBad else .copyBad)) s ∧
        ∀ a : Nat, w = .burst a → ∃ t, exec (.promotionEnd obj tier .done) s = .next t ∧
          tblGet t.errs.counts tcHbmUe = tblGet s.errs.counts tcHbmUe + 1) ∧
      (promotionBarred s o c = true → sourceWord? s o c = none →
        ∃ t, exec (.promotionEnd obj tier .done) s = .next t ∧ copyOf? t obj tier = none) ∧
      (∀ a : Nat, promotionBarred s o c = false → sourceReadable s o c.source = true → sourceWord? s o c = none →
        copyAddr? s o c = some a → c.doomed = false →
        ∃ t, exec (.promotionEnd obj tier .done) s = .next t ∧
          (copyOf? t obj tier).map (·.state) = some (if c.pinTags.isEmpty then .resident else .pinned) ∧
          (c.hostTags = [] → c.pinTags = [] → t.mem = memCopy s.mem a o.length (objectBytes s o c.source))) ∧
      (c.source = o.homeTier → ∃ t, exec (.promotionEnd obj tier .homeBad) s = .next t ∧ copyOf? t obj tier = none) ∧
      (c.source ≠ o.homeTier → c.source ≠ tier → ∃ t, exec (.promotionEnd obj tier .copyBad) s = .next t ∧
        copyOf? t obj c.source = none ∧ (copyOf? t obj tier).map (·.state) = some .promoting)) ∧
    (∀ c : Copy, copyOf? s obj tier = some c → c.state = .evicting → isRead s obj tier = false →
      ∃ t, exec (.evictionEnd obj tier) s = .next t ∧ copyOf? t obj tier = none)

/-! ## Remote requests, answers and bulk traffic as they arrive (R51, R202 to R221, R340 to R357, R386) -/

/-- Requests, with no other request waiting in its lane. One that passes the checks of R344: LOAD is answered with the
window's bytes, STORE, PUT and FLAG_STORE write their payload and are acknowledged, ATOMIC returns the old value and works in
its combining line, or at once in memory where its target lies in two lines (the model's choice, log 93), GET enters the GET
table. One that fails a check is answered with a REFUSE of that check's reason and is counted under it, and a duplicate STORE,
PUT or FLAG_STORE is acknowledged again; neither writes its payload, and a FLAG_STORE has every held line written back
whatever becomes of it. One whose answer finds no entry of the answer queue waits in its lane, and memory stays as it is. A LOAD
of a word known to be uncorrectable sends none of it, and the step ends (R462). -/
def Obligations.RequestsAreServedRefusedOrRepeated : Prop :=
  ∀ (s : State) (f : Option Nat) (p : Packet),
    let a := requestAddr s p
    let n := requestLen p
    let flushed (op : Nat) : Mem := if op = 0x07 then (flushLines s).mem else s.mem
    s.rem.lanes = [] →
    (Served p s → answerRoom s f = true →
      (Arrives 0x04 false f p s → ∃ t, exec (.load f p) s = .next t ∧ t.mem = (touchLines a n s).mem ∧
        Answers (srcOf p) 0x05 p.psn 0 (memRead (touchLines a n s).mem a n) t ∧ p.psn ∈ (pairOf t (srcOf p)).seen) ∧
      (∀ e ∈ [(0x06, Instr.store f p), (0x0A, Instr.put f p)], Arrives e.1 false f p s → discarding s p = false →
        ∃ t, exec e.2 s = .next t ∧ t.mem = memWrite (touchLines a p.payload.length s).mem a p.payload ∧
          Answers (srcOf p) 0x0D p.psn 0 [] t ∧ p.psn ∈ (pairOf t (srcOf p)).seen) ∧
      (Arrives 0x07 false f p s → discarding s p = false → ∃ t, exec (.flagStore f p) s = .next t ∧
        t.mem = memWrite (flushLines s).mem a p.payload ∧ Answers (srcOf p) 0x0D p.psn 0 [] t) ∧
      (Arrives 0x08 false f p s → discarding s p = false → keptCount s < 262144 → oneLine a n = true → lineRoom s (a / 64) = true →
        let l : Line := (s.rem.lines.find? fun z => z.line == a / 64).getD ⟨a / 64, memRead s.mem (64 * (a / 64)) 64, 0, []⟩
        let old := (l.data.drop (a % 64)).take n
        let data := l.data.take (a % 64) ++ natLe n (atomicNew (fieldOf p.payload 0 1) (leNat old) (p.payload.drop 16)) ++
          l.data.drop (a % 64 + n)
        ∃ t, exec (.atomic f p) s = .next t ∧ Answers (srcOf p) 0x09 p.psn 0 old t ∧
          (p.psn, old) ∈ (pairOf t (srcOf p)).kept ∧
          (l.ops + 1 < 256 → t.mem = s.mem ∧
            (t.rem.lines.find? fun z => z.line == a / 64).map (fun z => (z.data, z.ops)) = some (data, l.ops + 1)) ∧
          (256 ≤ l.ops + 1 → t.mem = memWrite s.mem (64 * (a / 64)) data ∧
            (t.rem.lines.find? fun z => z.line == a / 64) = none)) ∧
      (Arrives 0x08 false f p s → discarding s p = false → keptCount s < 262144 → oneLine a n = false →
        let old := memRead (touchLines a n s).mem a n
        ∃ t, exec (.atomic f p) s = .next t ∧ Answers (srcOf p) 0x09 p.psn 0 old t ∧
          (p.psn, old) ∈ (pairOf t (srcOf p)).kept ∧ t.mem = memWrite (touchLines a n s).mem a
            (natLe n (atomicNew (fieldOf p.payload 0 1) (leNat old) (p.payload.drop 16))))) ∧
    (Served p s → Arrives 0x0B false f p s → ∃ t, exec (.get f p) s = .next t ∧
      t.rem.getTable = s.rem.getTable ++ [⟨p, a, n⟩] ∧ t.mem = (touchLines a n s).mem) ∧
    (refusal? s p = none → isSeen s p = false → accessOk s a n = true → answerRoom s f = true → s.rem.lines = [] →
      Arrives 0x04 false f p s → stepActive s = true → ∀ w : BadWord, badRead? a n s = some w →
      ∃ t, exec (.load f p) s = .next t ∧ t.mem = s.mem ∧ Stopped (match w with | .burst _ => 0x14 | .sram _ => 0x15) s t ∧
        (∀ x ∈ t.rem.tx, opOf x.packet = 0x05 → x ∈ s.rem.tx) ∧ ∀ x ∈ t.rem.loop, opOf x = 0x05 → x ∈ s.rem.loop) ∧
    (∀ e ∈ [(0x04, Instr.load f p), (0x06, .store f p), (0x07, .flagStore f p), (0x08, .atomic f p), (0x0A, .put f p),
        (0x0B, .get f p)],
      ∀ reason status : Nat, Arrives e.1 false f p s → answerRoom s f = true → refusal? s p = some (reason, status) →
        ∃ t, exec e.2 s = .next t ∧ Answers (srcOf p) 0x0E p.psn 0 [] t ∧ t.mem = flushed e.1 ∧
          tblGet t.errs.counts (tcRefusedFirst + reason - 1) =
            tblGet s.errs.counts (tcRefusedFirst + reason - 1) + 1) ∧
    (∀ e ∈ [(0x06, Instr.store f p), (0x07, .flagStore f p), (0x0A, .put f p)], Arrives e.1 false f p s → answerRoom s f = true →
      refusal? s p = none → isSeen s p = true → ∃ t, exec e.2 s = .next t ∧ t.mem = flushed e.1 ∧
        Answers (srcOf p) 0x0D p.psn 0 [] t ∧
        tblGet t.errs.counts tcDuplicates = tblGet s.errs.counts tcDuplicates + 1) ∧
    (∀ e ∈ [(0x04, Instr.load f p), (0x06, .store f p), (0x07, .flagStore f p), (0x08, .atomic f p), (0x0A, .put f p)],
      Arrives e.1 false f p s → answerRoom s f = false → ∃ t, exec e.2 s = .next t ∧
        t.rem.lanes.map (fun w => (w.port, w.packet, w.held)) = [(f, p, true)] ∧ t.mem = s.mem ∧ t.rem.tx = s.rem.tx)

/-- An answer ends the request that it answers: read data and old values are written where the request said, REFUSE stops
the run, and an ACK of kind CUM moves what the peer holds; one of 0 removes nothing (the model's choice, log 92). No request
waits in its lane. -/
def Obligations.AnswersEndTheirRequests : Prop :=
  ∀ (s : State) (f : Option Nat) (p : Packet), s.rem.lanes = [] →
    let gone (r : Request) (t : State) : Prop :=
      ∀ x ∈ t.rem.requests, ¬ (x.dst = r.dst ∧ x.packet.psn = r.packet.psn)
    (∀ e ∈ [(0x05, 0x04, Instr.loadResp f p), (0x09, 0x08, .atomicResp f p), (0x0C, 0x0B, .getData f p)],
      Arrives e.1 false f p s →
      (∀ r : Request, answered? s p [e.2.1] = some r →
        (∀ a : Nat, r.answerAt = some a → accessOk s a (p.payload.length - 16) = true →
          ∃ t, exec e.2.2 s = .next t ∧ gone r t ∧ t.mem = memWrite s.mem a (p.payload.drop 16)) ∧
        (r.answerAt = none → ∃ t, exec e.2.2 s = .next t ∧ gone r t ∧ t.mem = s.mem))) ∧
    (Arrives 0x0D false f p s →
      (∀ r : Request, fieldOf p.payload 7 1 ≠ 1 → answered? s p [0x01, 0x02, 0x06, 0x07, 0x0A] = some r →
        ∃ t, exec (.ack f p) s = .next t ∧ gone r t ∧ t.mem = s.mem) ∧
      (fieldOf p.payload 7 1 = 1 → p.job = s.job.id → s.job.opened = true →
        let q := pairOf s (srcOf p)
        (headCum p ≠ 0 → (headCum p + 1 - q.peerCum).toNat < 2 ^ 31 →
          ∃ t, exec (.ack f p) s = .next t ∧ (pairOf t (srcOf p)).peerCum = headCum p + 1 ∧
            (f.isSome = true → t.rem.requests = s.rem.requests)) ∧
        (headCum p = 0 → ∃ t, exec (.ack f p) s = .next t ∧ (pairOf t (srcOf p)).peerCum = q.peerCum ∧
          (pairOf t (srcOf p)).seen = q.seen ∧ (pairOf t (srcOf p)).kept = q.kept))) ∧
    (∀ r : Request, Arrives 0x0E false f p s → stepActive s = true →
      answered? s p [0x04, 0x06, 0x07, 0x08, 0x0A, 0x0B] = some r →
      ∃ t, exec (.refuse f p) s = .next t ∧ gone r t ∧ Stopped 0x12 s t ∧
        (s.rem.firstRefuse = none → t.rem.firstRefuse = some (fieldOf p.payload 6 1, fieldOf p.payload 4 2)))

/-- R353: a response whose REQ_PSN has no request awaiting an answer on that pair, or whose JOB is not the open job's id, is
discarded and counted under STRAY_RESPONSE; nothing else changes but what its arrival counts and the buffer that it leaves. -/
def Obligations.StrayResponsesAreDiscarded : Prop :=
  ∀ (s : State) (f : Option Nat) (p : Packet),
    ∀ e ∈ [(0x05, [0x04], Instr.loadResp f p), (0x09, [0x08], .atomicResp f p), (0x0C, [0x0B], .getData f p),
        (0x0D, [0x01, 0x02, 0x06, 0x07, 0x0A], .ack f p), (0x0E, [0x04, 0x06, 0x07, 0x08, 0x0A, 0x0B], .refuse f p)],
    Arrives e.1 false f p s →
    (p.job ≠ s.job.id ∨ s.job.opened = false ∨ ((e.1 = 0x0D → fieldOf p.payload 7 1 ≠ 1) ∧
      ∀ r ∈ s.rem.requests, r.dst = srcOf p → r.packet.psn = reqPsn p → opOf r.packet ∈ e.2.1 → r.sent = 0)) →
    ∃ u, arrive? f p s = some u ∧ exec e.2.2 s = .next (addCount tcStrayResponse 1 (leaveBuffer f p u))

/-- Bulk packets that pass the checks of R204 and R386 keep their bytes by OFFSET and are acknowledged; a message whose every
byte has landed is closed, a collective one counts once on its phase's counter, and one that had landed before changes
nothing more, but for ANSWERS, which land again. That an exchange's bytes are kept beside the memory that they are for and placed
there when the whole message has landed, and that ANSWERS land again, are the model's readings (log 72). -/
def Obligations.BulkTrafficLands : Prop :=
  ∀ (s : State) (f : Option Nat) (p : Packet),
    let data := p.payload.drop 32
    (Arrives 0x01 false f p s → discarding s p = false → isSeen s p = false → 32 ≤ p.payload.length →
      let h := xheadOf p.payload
      stepSkewed s h.step = false → imageMatches s h.imageId = true → (biasCheck h.step h.digest s).1 = false →
      ∀ ts : List Target, messageTargets? s (srcOf p) h = some ts → h.ofs + data.length ≤ h.bodyLen →
      let m := msgOf s (keyOf (srcOf p) h) h.bodyLen
      roomOk s h ts { m with got := (h.ofs, data.length) :: m.got, body := memWrite m.body h.ofs data } = true →
      ∃ t, exec (.exchange f p) s = .next t ∧ t.mem = s.mem ∧ Answers (srcOf p) 0x0D p.psn 0 [] t ∧
        (t.exch.msgs.find? fun z => z.key == m.key).map (fun z => (z.got, z.body)) =
          some ((h.ofs, data.length) :: m.got, memWrite m.body h.ofs data)) ∧
    (Arrives 0x02 false f p s → discarding s p = false → isSeen s p = false → 32 ≤ p.payload.length →
      let h := cheadOf p.payload
      let c := cplanOf s h.plan
      stepSkewed s h.step = false → imageMatches s h.imageId = true → collSenderOk s (srcOf p) h = true →
      h.ofs + data.length ≤ h.bodyLen → h.bodyLen ≤ chunkPitch c → h.window = c.window →
      ∃ t, exec (.collective f p) s = .next t ∧ t.mem = memWrite s.mem (collPlace c h + h.ofs) data ∧
        Answers (srcOf p) 0x0D p.psn 0 [] t) ∧
    (∀ m : Msg, (s.exch.msgs.find? fun z => z.key == m.key) = some m → hasBytes m m.bodyLen = true →
      (m.key ∈ s.exch.landed → ∃ t, exec (.messageLanded m.key) s = .next t ∧
        (m.key.collective = true ∨ m.key.kind / 16 ≠ 4 → Keeps [.exch] s t) ∧ ∀ z ∈ t.exch.msgs, z.key ≠ m.key) ∧
      (m.key ∉ s.exch.landed → ∃ t, exec (.messageLanded m.key) s = .next t ∧ m.key ∈ t.exch.landed ∧
        (∀ z ∈ t.exch.msgs, z.key ≠ m.key) ∧
        (∀ cl : Nat, m.key.collective = true → collCluster? s m.key.layer = some cl →
          landRule s m.key.step.toNat = .counter → t.mem = s.mem ∧
          arrGet t cl ((cplanOf s m.key.layer).ctr + m.key.kind) =
            min (arrGet s cl ((cplanOf s m.key.layer).ctr + m.key.kind) + 1) ctrMax)))

/-! ## The fabric's packets and ports (R307 to R333, R348 to R357, R401 to R403) -/

/-- A waiting packet that its output serves next leaves on that port with HOPS one higher and its flits to be acknowledged,
and a request's timer starts; one sent again is counted (R359). R329: none of another channel leaves while one of channel 0 is ready;
one of channel 5 leaves beside others only within its share, and the others go in turn by bytes, as do the sources of one channel.
How those turns are kept is the model's choice (log 84): of channels 1 to 4 the one served least goes first, and of one channel
the source that waited longest. A packet without a route ends the step or is counted, a served GET sends its data, behind BG on the
channel that R337 gives it; a packet for another device waits to leave again, and holds its receive buffer; and one that lands here
while transit crosses its port die waits in its buffer (R330). -/
def Obligations.PacketsLeaveAndPass : Prop :=
  ∀ (s : State) (i : Nat) (views : List LinkView),
    let u := takeViews views s
    s.rem.lanes = [] →
    (∀ (x : TxItem) (q : Nat), s.rem.tx[i]? = some x →
      (x.port = some q ∨ (x.port = none ∧ stoppedRequest s x = false ∧ mayLeave s x.packet = true ∧
        ∃ alt, choosePort u x.packet = .port q alt)) →
      servedNext u q i = true →
      ∃ t, exec (.packetSend i views) s = .next t ∧ t.rem.tx = dropAt i s.rem.tx ∧
        (t.rem.requests = s.rem.requests.map fun r =>
          if carries x.packet r then { r with sent := r.sent + 1, timer := 0, port := some q } else r) ∧
        t.fab.sent = (q, stampTime s.time.beat { x.packet with flags := x.packet.flags + 0x40 }) :: s.fab.sent ∧
        tblGet t.errs.counts tcE2eRetries = tblGet s.errs.counts tcE2eRetries +
          (if s.rem.requests.any (fun r => carries x.packet r && decide (0 < r.sent)) then 1 else 0) ∧
        (portOf t q).flitsTx = (portOf u q).flitsTx + packetUnits (stampTime s.time.beat x.packet)) ∧
    (∀ (x y : TxItem) (q : Nat), s.rem.tx[i]? = some x → servedNext u q i = true → y ∈ (readyList u q).map (·.2) →
      let v := vcOf x.packet
      let w := vcOf y.packet
      (v ≠ 0 → w ≠ 0) ∧
      (v = 5 → w ≠ 5 → withinShare u (portOf u q) (packetUnits x.packet) = true) ∧
      (1 ≤ v → v ≤ 4 → 1 ≤ w → w ≤ 4 → channelStart (portOf u q) v ≤ channelStart (portOf u q) w) ∧
      (v = w → turnRank (portOf u q) x ≤ turnRank (portOf u q) y)) ∧
    (∀ x : TxItem, s.rem.tx[i]? = some x → x.port = none → stoppedRequest s x = false → mayLeave s x.packet = true →
      choosePort u x.packet = .unroutable → ∃ t, exec (.packetSend i views) s = .next t ∧
        (x.transit = true → t.rem.tx = dropAt i s.rem.tx ∧
          tblGet t.errs.counts tcDiscardUnroutable = tblGet s.errs.counts tcDiscardUnroutable + 1) ∧
        (x.transit = false → stepActive s = true → Stopped 0x11 s t)) ∧
    (∀ g : GetEntry, s.rem.tx[i]? = none → s.rem.getTable[i - s.rem.tx.length]? = some g →
      accessOk s g.addr g.length = true → wordsGood s = true → ∃ t, exec (.packetSend i views) s = .next t ∧
        t.rem.getTable = dropAt (i - s.rem.tx.length) s.rem.getTable ∧
        Answers (srcOf g.request) 0x0C g.request.psn 0 (memRead (touchLines g.addr g.length s).mem g.addr g.length) t ∧
        ∀ r : Request, srcOf g.request = selfId s → s.rem.requests.find? (carries g.request) = some r →
          ∃ q ∈ t.rem.loop ++ t.rem.tx.map (·.packet), opOf q = 0x0C ∧ vcOf q = if r.bg then 5 else 4) ∧
    (∀ (port : Nat) (p : Packet) (v : State), arrive? (some port) p s = some v → forMe s p = true → headerOk p = true →
      landingHeld v (some port) p = true →
      ∀ e ∈ [(0x01, Instr.exchange (some port) p), (0x02, .collective (some port) p), (0x05, .loadResp (some port) p),
        (0x09, .atomicResp (some port) p), (0x0C, .getData (some port) p), (0x0D, .ack (some port) p),
        (0x0E, .refuse (some port) p), (0x13, .probe (some port) p)],
      opOf p = e.1 → (p.dst.toNat % 2 ^ 20 == 0xFFFFF) = false → exec e.2 s = .next (park (some port) p v)) ∧
    (∀ (port : Nat) (p : Packet), portUp s port = true → dieAlive s port = true → forMe s p = false → p.hcrc = hcrcOf p →
      (hopsOf p = 3 → ∃ t, exec (.forward port p) s = .next t ∧ t.rem = s.rem ∧
        tblGet t.errs.counts tcDiscardHops = tblGet s.errs.counts tcDiscardHops + 1) ∧
      (∀ (q : Nat) (alt : Bool), hopsOf p ≠ 3 → choosePort s p = .port q alt →
        ∃ t, exec (.forward port p) s = .next t ∧ t.rem.tx = s.rem.tx ++
          [⟨p, false, none, true, port, some (port, arrivalLane p, packetUnits p)⟩]))

/-- The timers and write-backs of remote memory: a held line goes back to memory, with no request waiting in its lane, and stays
while an atomic for it waits (R357); a request whose timer has run out is sent again (counted when it leaves), ends the step after its eighth sending, or is abandoned with its run; a CUM
that has advanced is sent. A PROBE is consumed into telemetry, with the time since the Beat count that it carries. -/
def Obligations.RemoteTimersAndProbes : Prop :=
  ∀ s : State,
    (∀ l : Line, s.rem.lanes = [] → (s.rem.lines.find? fun z => z.line == l.line) = some l → ∃ t, exec (.lineWriteBack l.line) s = .next t ∧
      t.mem = memWrite s.mem (64 * l.line) l.data ∧ ∀ z ∈ t.rem.lines, z.line ≠ l.line) ∧
    (∀ line : Nat, lineAwaited s line = true → exec (.lineWriteBack line) s = .next (settleLanes s)) ∧
    (∀ r : Request, (s.rem.requests.find? fun z => z.dst == r.dst && z.packet.psn == r.packet.psn) = some r →
      62500 ≤ r.timer →
      (ofRun s r = true → r.sent < 8 → ∃ t, exec (.e2eRetry r.dst r.packet.psn) s = .next t ∧
        tblGet t.errs.counts tcE2eRetries = tblGet s.errs.counts tcE2eRetries ∧
        (r.packet ∈ t.rem.loop ∨ ∃ x ∈ t.rem.tx, x.packet = r.packet) ∧
        t.rem.requests.length = s.rem.requests.length) ∧
      (ofRun s r = true → 8 ≤ r.sent → ∃ t, exec (.e2eRetry r.dst r.packet.psn) s = .next t ∧ Stopped 0x13 s t) ∧
      (ofRun s r = false → ∃ t, exec (.e2eRetry r.dst r.packet.psn) s = .next t ∧ Keeps [.rem] s t ∧
        ∀ z ∈ t.rem.requests, ¬ (z.dst = r.dst ∧ z.packet.psn = r.packet.psn))) ∧
    (∀ dst : Nat, (pairOf s dst).doneTo ≠ (pairOf s dst).sentCum → ∃ t, exec (.cumAck dst) s = .next t ∧
      Keeps [.rem] s t ∧ Answers dst 0x0D 0 1 [] t) ∧
    (∀ (f : Option Nat) (p : Packet), Arrives 0x13 false f p s → ∃ t, exec (.probe f p) s = .next t ∧
      t.fab.probes = (srcOf p, s.time.beat - fieldOf p.payload Config.probeStampAt 8) :: s.fab.probes)

/-- Port states: an up port meets a bad flit, which it answers with a NAK, a NAK, which replays its DATA flits, or a lane
failure, a training ends up, down or miscabled, a DOWN or UP_HALF port
trains again, and a port out of service for 20 ms discards the flits it kept, and its credits restart (the model's choice, log 84).
That the NAK carries the next FSEQ, without taking it, is the model's reading (log 67). -/
def Obligations.PortsChangeState : Prop :=
  ∀ (s : State) (port : Nat),
    let q := portOf s port
    let nak : Option Trailer := some ⟨q.fseq, q.rxAck, 2, 0, 0, 0, 0⟩
    (portUp s port = true →
      (∃ t, exec (.linkReplay port .badCrc) s = .next t ∧ portOf t port = { q with replays := q.replays + 1, nak := nak }) ∧
      (∃ t, exec (.linkReplay port .badFec) s = .next t ∧ portOf t port =
        { q with replays := q.replays + 1, fecUncorrected := q.fecUncorrected + 1, nak := nak }) ∧
      (∀ a : BitVec 12, ∃ t, exec (.linkReplay port (.nak a)) s = .next t ∧
        (portOf t port).flitsTx = q.flitsTx + unackedData (takeAck a q).1 ∧
        ((takeAck a q).2 ≠ 0 → (portOf t port).naks = 0 ∧ (portOf t port).state = q.state) ∧
        ((takeAck a q).2 = 0 → q.naks + 1 < 32 → (portOf t port).naks = q.naks + 1) ∧
        ((takeAck a q).2 = 0 → 32 ≤ q.naks + 1 → (portOf t port).state = .training)) ∧
      (∀ part : Bool, ∃ t, exec (.laneFail port part) s = .next t ∧ (portOf t port).state = .training ∧
        tblGet t.errs.counts tcDiscardPartial = tblGet s.errs.counts tcDiscardPartial + if part then 1 else 0)) ∧
    (portUp s port = false → ∃ t, exec (.replayWindowExpiry port) s = .next t ∧ 
      portOf t port = { q with unacked := [], used := [], due := [] }) ∧
    (q.state = .training → ∀ (phys : BitVec 24) (logical : BitVec 20),
      let want := tableNeighbour s.fab.active port
      let state (good : PortState) : PortState := if want = 0xFFFFFF ∨ want = phys.toNat then good else .miscabled
      (∃ t, exec (.portTrained port (.upFull phys logical)) s = .next t ∧ (portOf t port).state = state .upFull ∧
        (portOf t port).phys = phys ∧ (portOf t port).logical = logical) ∧
      (∃ t, exec (.portTrained port (.upHalf phys logical)) s = .next t ∧ (portOf t port).state = state .upHalf) ∧
      (∃ t, exec (.portTrained port .down) s = .next t ∧ (portOf t port).state = .down)) ∧
    (q.state = .down → ∃ t, exec (.portRetry port) s = .next t ∧ (portOf t port).state = .training) ∧
    (q.state = .upHalf → ∃ t, exec (.halfRetrain port) s = .next t ∧ (portOf t port).state = .training)

/-! ## Time, launches and the Gong (R362 to R382) -/

/-- Time messages: a SYNC goes out on every port that is up and is answered with a FOLLOW that copies its SEQ and T1; the
parent's FOLLOW gives the first lock its value, and a counter that runs already its offset; with the reference stopped it changes
neither (R495). The model's readings (log 40): the parent is the one chosen with what the message itself says, the first lock takes
T3 plus the delay, and halves are exact to half a tick. -/
def Obligations.TimeMessagesKeepTheBeat : Prop :=
  ∀ s : State,
    (s.boot.stage = .ready → s.time.stopped = false → s.time.missed < 3 → ∃ t, exec .syncSend s = .next t ∧
      t.time.seq = s.time.seq + 1 ∧ t.time.beat = s.time.beat ∧
      ∀ port : Nat, portUp s port = true → port < 128 → outQueueLen s port < 32 →
        Queued port 0x12 (timePayload 0 s.time.seq.toNat 0 0 s) t) ∧
    (∀ (port : Nat) (p : Packet), Arrives 0x12 true (some port) p s →
      let u := noteNeighbour port p s
      (fieldOf p.payload 0 1 = 0 → ∃ t, exec (.sync port p) s = .next t ∧ t.time.beat = s.time.beat ∧
        kvGet? t.time.neighbours port =
          some ⟨fieldOf p.payload 1 1, fieldOf p.payload 2 1, fieldOf p.payload 4 8 % 2 ^ 44⟩ ∧
        (outQueueLen s port < 32 → Queued port 0x12 (timePayload 1 (fieldOf p.payload 12 4) (fieldOf p.payload 16 8)
          s.time.beat u) t)) ∧
      (fieldOf p.payload 0 1 = 1 → s.time.stopped = true → ∃ t, exec (.follow port p) s = .next t ∧
        t.time.beat = s.time.beat ∧ t.time.state = u.time.state) ∧
      (fieldOf p.payload 0 1 = 1 → u.time.parent = some port → s.time.stopped = false →
        let t1 : Int := (fieldOf p.payload 16 8 : Nat)
        let t2 : Int := (fieldOf p.payload 24 8 : Nat)
        let t3 : Int := (fieldOf p.payload 32 8 : Nat)
        let t4 : Int := (s.time.beat : Nat)
        let near (d x : Int) : Prop := 2 * d = x ∨ 2 * d = x + 1 ∨ 2 * d = x - 1
        (u.time.state = .unlocked → ∃ t d, exec (.follow port p) s = .next t ∧ near d ((t2 - t1) + (t4 - t3)) ∧
          t.time.state = .locked ∧ t.time.beat = (t3 + d).toNat ∧ t.time.missed = 0) ∧
        (u.time.state ≠ .unlocked → ∃ t o, exec (.follow port p) s = .next t ∧ near o ((t2 - t1) - (t4 - t3)) ∧
          t.time.offset = o ∧ t.time.beat = s.time.beat ∧ t.time.catchingUp = decide (1250 < o) ∧
          t.time.state = if o < -1250 then .diverged else .locked)))

/-- Peal: an ARM before the decision point arms the device, also where the launch that pends is armed no more (R375), while one of
another id only counts beside an armed launch; a DISARM disarms it, an ACK is relayed up its tree or collected
by the root, the armed device acknowledges, and the root that lacks an index at the deadline disarms. -/
def Obligations.LaunchMessagesTakeEffect : Prop :=
  ∀ (s : State) (tr : Tree), s.launch.tree = some tr →
    (∀ (port : Nat) (p : Packet), Arrives 0x10 true (some port) p s → s.job.opened = true → p.job = s.job.id →
      pealTree p ≤ 1 →
      (pealKind p = 0 → s.launch.pend = none → pastDecision s (pealD p) = false → ∃ t, exec (.pealArm port p) s = .next t ∧
        t.launch.pend = some (Pending.start (pealId p) (pealD p) (pealStep p) true) ∧ t.launch.downbeat = pealD p ∧
        (pealKey p ∉ s.launch.fwd →
          ∀ c ∈ treeChildren tr (pealTree p), Queued c 0x10 p.payload t)) ∧
      (∀ w : Pending, pealKind p = 0 → s.launch.pend = some w → w.id ≠ pealId p →
        (w.armed = true → ∃ t, exec (.pealArm port p) s = .next t ∧ t.launch.pend = some w ∧
          tblGet t.errs.counts tcStrayPeal = tblGet s.errs.counts tcStrayPeal + 1) ∧
        (w.armed = false → pastDecision s (pealD p) = false → ∃ t, exec (.pealArm port p) s = .next t ∧
          t.launch.pend = some (Pending.start (pealId p) (pealD p) (pealStep p) true) ∧ t.launch.downbeat = pealD p)) ∧
      (∀ w : Pending, s.launch.pend = some w → w.id = pealId p →
        (pealKind p = 2 → pastDecision s (pealD p) = false → w.abandoned = false →
          ∃ t, exec (.pealDisarm port p) s = .next t ∧
            t.launch.pend = some { w with armed := false, disarmed := true }) ∧
        (pealKind p = 1 → port ∈ treeChildren tr (pealTree p) → treeParent tr (pealTree p) = none →
          s.time.beat + guardTicks + 1250 * tr.depth < w.downbeat → ∃ t, exec (.pealAck port p) s = .next t ∧
            t.launch.pend = some { w with acks := mergeIndices tr.members (pealIndices p) w.acks })) ∧
      (∀ up : Nat, pealKind p = 1 → port ∈ treeChildren tr (pealTree p) → treeParent tr (pealTree p) = some up →
        ∃ t, exec (.pealAck port p) s = .next t ∧ Queued up 0x10 p.payload t ∧ t.launch = s.launch)) ∧
    (∀ w : Pending, s.launch.pend = some w →
      (mayAcknowledge w s = true →
        (∀ up : Nat, isRoot tr = false → (tr.pParent = some up ∨ tr.sParent = some up) →
          ∃ t tree, exec .armAcknowledge s = .next t ∧ t.launch.pend = some { w with acked := true } ∧
            Queued up 0x10 (pealPayload 1 tree w [tr.index]) t) ∧
        (isRoot tr = true → s.time.beat + guardTicks + 1250 * tr.depth < w.downbeat →
          ∃ t, exec .armAcknowledge s = .next t ∧
            t.launch.pend = some { w with acked := true, acks := mergeIndices tr.members [tr.index] w.acks })) ∧
      (isRoot tr = true → w.disarmSent = false → w.abandoned = false →
        w.downbeat ≤ s.time.beat + guardTicks + 1250 * tr.depth → w.acks.length < tr.members →
        ∃ t, exec .ackDeadline s = .next t ∧
          t.launch.pend = some { w with disarmSent := true, armed := false, disarmed := true }))

/-- At the decision point a launch that was neither disarmed nor abandoned is LAUNCHED: its strobe is set for its step and
Downbeat, and no launch is pending. A Gong of the open job stops the run, or ends the armed step, or waits for the next one,
and a known Gong only counts. -/
def Obligations.DecisionPointAndGong : Prop :=
  ∀ s : State,
    (let u := ackDeadlineEffect s
     ∀ w : Pending, u.launch.pend = some w → pastDecision s w.downbeat = true → s.mb.opened.any isAbortJob = false →
      ∃ t, exec .decisionPoint s = .next t ∧ t.launch.pend = none ∧
        t.launch.strobe = if w.abandoned || w.disarmed then s.launch.strobe else some (w.step, w.downbeat)) ∧
    (∀ (port : Nat) (p : Packet), Arrives 0x11 true (some port) p s →
      let origin := fieldOf p.payload 0 4 % 2 ^ 20
      let known := (liveGongs s).any fun k => k.origin == origin &&
        (k.step == BitVec.ofNat 32 (fieldOf p.payload 4 4) && k.attempt == BitVec.ofNat 32 (fieldOf p.payload 8 4))
      let cause : StepFault := ⟨fieldOf p.payload 12 2, false, origin⟩
      (known = true → ∃ t, exec (.gong port p) s = .next t ∧ t.ctl = s.ctl ∧ t.rem.tx = s.rem.tx ∧
        tblGet t.errs.counts tcGongDuplicate = tblGet s.errs.counts tcGongDuplicate + 1) ∧
      (known = false → ∃ t, exec (.gong port p) s = .next t ∧
        (∀ q : Nat, portUp s q = true → q < 128 → q ≠ port → ∃ x ∈ t.rem.tx, x.port = some q ∧ opOf x.packet = 0x11 ∧
          x.packet.job = p.job) ∧
        (s.job.opened = true → p.job = s.job.id →
          (∀ r : Run, s.ctl.run = some r → r.fault = none → t.ctl.run = some { r with fault := some cause }) ∧
          (s.ctl.run = none → s.errs.testing = none → s.ctl.armed.isSome = true → t.ctl.armed = none) ∧
          (s.ctl.run = none → (s.errs.testing ≠ none ∨ s.ctl.armed = none) → waitingGong? s = none →
            t.ctl.gongPending = some cause ∧ t.ctl.gongSpent = false))))

/-! ## Flash in the background (R275 to R287) -/

/-- The flash tier's background on an ONLINE tier, for channels whose port die is there (R497). Reads: each outcome that the read
ladder allows counts where R275 and R290 say, with a page read where its page is sensed (R276), a read with three members of its stripe
lost fails, a failure fails the promotions that read the codeword, a checkpoint keeps the read counts with a metadata update, and a
patrol notes the block whose turn it is (R278). Blocks and dies: a page programmed is its member of the
stripes in flight, a relocation ends and the old block leaves its extent, wear levelling moves the least erased block of a die, a
retired die stays out of service, a failed program or erase makes a grown bad block, and a good erase is counted. Not the manual's:
that an erase restarts a block's read count (PRESUMED, log 79), and which stripes the end of a page program covers (log 91). -/
def Obligations.FlashBackgroundWork : Prop :=
  ∀ (s : State) (b : Nat), s.flash.state = .online →
    (∀ (x : Extent) (w : CodewordAt), w.block = b → extentOfBlock? s.flash b = some x → hasCodeword s.flash x w = true →
      (absent s b = false → ∃ t, exec (.codewordRead w .hard) s = .next t ∧
        (blockOf t.flash b).reads = (blockOf s.flash b).reads + (if w.sensed then 1 else 0) ∧
        t.flash.retries = s.flash.retries ∧ t.flash.rebuilds = s.flash.rebuilds) ∧
      (∀ n : Nat, absent s b = false → 0 < n → n ≤ s.flash.geom.retryEntries →
        ∃ t, exec (.codewordRead w (.retry n)) s = .next t ∧ t.flash.retries = s.flash.retries + 1 ∧
          t.flash.rebuilds = s.flash.rebuilds) ∧
      (absent s b = false → ∃ t, exec (.codewordRead w .soft) s = .next t ∧ t.flash.retries = s.flash.retries + 1) ∧
      (∀ second : Option Nat,
        (lostOthers s b second ≤ 1 → ∃ t, exec (.codewordRead w (.rebuild second)) s = .next t ∧
          t.flash.rebuilds = s.flash.rebuilds + 1 ∧ t.flash.retries = s.flash.retries) ∧
        (1 < lostOthers s b second →
          exec (.codewordRead w (.rebuild second)) s = exec (.codewordRead w .failure) s)) ∧
      (neededCopies s = [] → ∃ t, exec (.codewordRead w .failure) s = .next t ∧
        ∀ c ∈ flashReaders s x w, copyOf? t c.obj c.tier = none)) ∧
    (exec .readCountCheckpoint s = .next { s with flash := { s.flash with
      checkpoint := s.flash.blocks.map fun e => (e.1, e.2.reads), checkDefault := s.flash.readDefault
      patrolCheck := s.flash.patrolTurns
      superSeq := s.flash.superSeq + 1, superCopy := 1 - s.flash.superCopy, journal := 0 } }) ∧
    (∀ p : PatrolFinding, isBlock s.flash p.block = true → blockUp s p.block = true → patrolDue s.flash p.block = true →
      (ladderResult? s p.block p.ladder).isSome = true → ∃ t, exec (.retentionPatrol p) s = .next t ∧
      kvGet? t.flash.patrolled p.block = some s.time.uptime) ∧
    (∀ k : Nat, (blockOf s.flash b).moving = some k → blockUp s b = true → ∃ t, exec (.relocationEnd b) s = .next t ∧
      t.flash.relocations = s.flash.relocations + 1 ∧ (blockOf t.flash b).used = false ∧
      (blockOf t.flash b).moving = none ∧ t.flash.extents = remap b k s.flash.extents) ∧
    (∀ die k : Nat, die < 48 * diesPerChannel s.flash.geom → channelUp s (dieChannel s.flash.geom die) = true →
      s.flash.worn = false →
      leastErased s.flash ((dieBlocks s.flash.geom die).filter fun z => !(blockOf s.flash z).bad) = some b →
      s.flash.geom.endurance < 10 * (maxErases s.flash ((dieBlocks s.flash.geom die).filter fun z =>
        !(blockOf s.flash z).bad) - (blockOf s.flash b).erases) →
      (blockOf s.flash b).used = true → (blockOf s.flash b).moving = none →
      drawBlock? s.flash (channelOf s.flash.geom b) none = some k →
      ∃ t, exec (.wearLevel die) s = .next t ∧ (blockOf t.flash b).moving = some k) ∧
    (∀ die : Nat, die < 48 * diesPerChannel s.flash.geom → channelUp s (dieChannel s.flash.geom die) = true →
      ∃ t, exec (.dieRetire die) s = .next t ∧
      die ∈ t.flash.retiredDies ∧ ∀ x ∈ s.flash.retiredDies, x ∈ t.flash.retiredDies) ∧
    ((blockOf s.flash b).used = true → blockUp s b = true →
      ((∀ x ∈ s.flash.extents, x.sealedExt = true ∨ b ∉ x.blocks) → exec (.nandProgramEnd b true) s = .next s) ∧
      (∀ (x : Extent) (g : Staged), s.flash.extents.find? (fun x => !x.sealedExt && x.blocks.contains b) = some x →
        s.flash.stages.find? (awaitsProgram s.flash x b) = some g → s.flash.stageQueue = [] →
        (∀ k ∈ s.flash.stages, k.programmed.length < 47) → ∃ t, exec (.nandProgramEnd b true) s = .next t ∧
          t.flash.extents = s.flash.extents ∧ t.flash.stages = s.flash.stages.map fun k =>
            if awaitsProgram s.flash x b k && k.stripe / 4 == g.stripe / 4 then
              { k with programmed := x.blocks.findIdx (fun c => c == b) % 48 :: k.programmed } else k) ∧
      ((blockOf s.flash b).bad = false → ∃ t, exec (.nandProgramEnd b false) s = .next t ∧ (blockOf t.flash b).bad = true)) ∧
    ((blockOf s.flash b).erasing = true → blockUp s b = true →
      (∃ t, exec (.nandEraseEnd b true) s = .next t ∧ (blockOf t.flash b).erasing = false ∧
        (blockOf t.flash b).erases = (blockOf s.flash b).erases + 1 ∧ (blockOf t.flash b).reads = 0) ∧
      (∃ t, exec (.nandEraseEnd b false) s = .next t ∧ (blockOf t.flash b).bad = true))

/-! ## Errors, scrubs and device faults (R459 to R473, R495) -/

/-- Patrol scrubs count what they correct; an uncorrectable burst of HBM is known from then on, makes the complete copy that
holds it ABSENT, and in the firmware reserve is a device fault (the model's reading, log 78); an uncorrectable SRAM word is counted,
ends no step, is known from then on where it is one of a store or a scratchpad, is a
device fault in mailbox RAM or a conductor memory, and discards the packet that a port die's buffer holds with
it (which packets those buffers hold is the model's choice, log 98); the cell test of a failed cell takes its physical cell
out of use, and that of a second cell of its cluster that failed meanwhile, in physical order (R473). -/
def Obligations.ScrubsAndCellTests : Prop :=
  ∀ s : State,
    (∀ a : Nat, firmwareRuns s = true → a < hbmBytes →
      exec (.hbmScrub a .clean) s = .next s ∧
      (∃ t, exec (.hbmScrub a .corrected) s = .next t ∧ Keeps [.errs] s t ∧
        tblGet t.errs.counts tcHbmCe = tblGet s.errs.counts tcHbmCe + 1) ∧
      (∃ t, exec (.hbmScrub a .uncorrectable) s = .next t ∧
        tblGet t.errs.counts tcHbmUe = tblGet s.errs.counts tcHbmUe + 1 ∧ a / 64 * 64 ∈ t.errs.badBursts ∧
        (reserveBase ≤ a / 64 * 64 → Raised 3 s t) ∧
        (∀ c : Copy, a / 64 * 64 < reserveBase → stepActive s = false → copyAt? s (a / 64 * 64) = some c →
          isThere c.state = true → c.tier = 2 → (∀ x ∈ s.tier.copies, ¬ (x.obj = c.obj ∧ x.state = .promoting)) →
          copyOf? t c.obj 2 = none))) ∧
    (∀ cl : Nat, firmwareRuns s = true → cl < 16 → s.boot.scrubHold.getLsbD cl = false →
      ∀ w : Option Nat, (∃ t, exec (.sramScrub ⟨.cluster cl w, .corrected⟩) s = .next t ∧ Keeps [.errs] s t ∧
        tblGet t.errs.sramCe cl = min (tblGet s.errs.sramCe cl + 1) 0xFFFFFFFF) ∧
      ∃ t, exec (.sramScrub ⟨.cluster cl w, .uncorrectable⟩) s = .next t ∧ Keeps [.errs] s t ∧
        (∀ a : Nat, w = some a → inCluster cl (a / 8 * 8) = true → a / 8 * 8 ∈ t.errs.badWords) ∧
        t.errs.sramCe = s.errs.sramCe ∧ tblGet t.errs.counts tcSramUe = tblGet s.errs.counts tcSramUe + 1) ∧
    (firmwareRuns s = true →
      (∃ t, exec (.sramScrub ⟨.conductor, .uncorrectable⟩) s = .next t ∧ Raised 3 s t) ∧
      ∀ (n : Nat) (x : TxItem), s.rem.tx[n]? = some x →
        ∃ t, exec (.sramScrub ⟨.portDie n, .uncorrectable⟩) s = .next t ∧ Keeps [.rem, .fab, .errs] s t ∧
          tblGet t.errs.counts tcSramUe = tblGet s.errs.counts tcSramUe + 1 ∧
          t.rem.tx = (if x.transit then s.rem.tx.eraseIdx n else s.rem.tx)) ∧
    (∀ cell : Nat, s.errs.testing = some cell →
      (recentFaults s (physOf s cell) < 3 → ∃ t, exec (.cellTest ⟨false, none⟩) s = .next t ∧ t.errs.testing = none ∧
        t.errs.bad = s.errs.bad ∧ t.errs.unit = s.errs.unit) ∧
      (cellEnabled s cell = true → s.errs.unit.Pairwise (fun a b => a.1 < b.1 ∧ a.2 ≠ b.2) →
        (∃ t, exec (.cellTest ⟨true, none⟩) s = .next t ∧ t.errs.testing = none ∧
          t.errs.bad = physOf s cell :: s.errs.bad) ∧
        ∀ other : Nat, other ≠ cell → clusterOf other = clusterOf cell → cellEnabled s other = true →
          ∃ t, exec (.cellTest ⟨true, some (other, true)⟩) s = .next t ∧ t.errs.testing = none ∧
            t.errs.bad = (if physOf s other < physOf s cell then [physOf s cell, physOf s other]
              else [physOf s other, physOf s cell]) ++ s.errs.bad))

/-- Device faults: the watchdog, a lost HBM stack, a failed retraining and a lost port die raise
their cause of R468 while the firmware runs, and a stopped reference clock at every stage (R495); the ports of a stopped SerDes
reference go DOWN; a module failure leaves a port die on the modules that remain, and with the last one it is lost. -/
def Obligations.DeviceFaultsAreRaised : Prop :=
  ∀ s : State,
    (firmwareRuns s = true →
      (∃ t, exec .firmwareWatchdog s = .next t ∧ Raised 4 s t) ∧
      (∀ k : Nat, ∃ t, exec (.hbmStackLost k) s = .next t ∧ Raised 5 s t) ∧
      (∀ k : Nat, exec (.hbmRetrain k true) s = .next s ∧ ∃ t, exec (.hbmRetrain k false) s = .next t ∧ Raised 5 s t) ∧
      (∀ b : Bool, s.pins.pwrgd = true → ∃ t, exec (.portDieLost b) s = .next t ∧ Raised 6 s t ∧
        (if b then t.errs.dieModulesB = 0 else t.errs.dieModulesA = 0)) ∧
      (s.errs.dieModulesA = 1 → ∃ t, exec (.portDieModuleFail false) s = .next t ∧ Raised 6 s t ∧ t.errs.dieModulesA = 0) ∧
      (s.errs.dieModulesB = 1 → ∃ t, exec (.portDieModuleFail true) s = .next t ∧ Raised 6 s t ∧ t.errs.dieModulesB = 0)) ∧
    (engineRuns s = true →
      (∃ t, exec (.refclkLoss (.core false)) s = .next t ∧ Raised 6 s t ∧ t.time.stopped = true) ∧
      (∃ t, exec (.refclkLoss (.core true)) s = .next t ∧ Raised 6 s t ∧ t.time.stopped = s.time.stopped) ∧
      (∀ i : Nat, ∃ t, exec (.refclkLoss (.hbm i)) s = .next t ∧ Raised 5 s t)) ∧
    (∀ (b : Bool) (quad port : Nat), s.pins.pwrgd = true → quad < 4 → (portOf s port).state ≠ .disabled →
      (if b then 64 else 0) + 16 * quad ≤ port → port < (if b then 64 else 0) + 16 * quad + 16 →
      ∃ t, exec (.refclkLoss (.ser b quad)) s = .next t ∧ (portOf t port).state = .down) ∧
    (s.pins.pwrgd = true → 1 < s.errs.dieModulesA → exec (.portDieModuleFail false) s =
      .next { s with errs := { s.errs with dieModulesA := s.errs.dieModulesA - 1 } }) ∧
    (s.pins.pwrgd = true → 1 < s.errs.dieModulesB → exec (.portDieModuleFail true) s =
      .next { s with errs := { s.errs with dieModulesB := s.errs.dieModulesB - 1 } })

/-! ## Management, power and telemetry (R439 to R441, R474 to R487) -/

/-- Management requests, each answered to its sender with the status and the result of R477: those that read and set the
device take their effect; a snapshot and an attestation report are read in parts, RESET with its key is a full reset,
but adds none while one is under way (R442), PORT_CONFIG sets or answers a port's medium and lanes, a reserved code is BAD_ARG, and
MCTP control and PLDM requests of both types are answered (the bytes of a sensor answer, the id and a 4-byte value, are the model's
choice, log 54). Over Ethernet, a frame with a bad FCS is only counted, and one of another EtherType or for another device is
ignored. -/
def Obligations.ManagementRequestsAreAnswered : Prop :=
  ∀ (s : State) (q : MgmtReq),
    (Asks q 0x01 0 s → exec (.getState q) s = .next { s with mgmt := { s.mgmt with out := ⟨q.endpoint, mgmtBytes q stOk
      (natLe 1 (stageCode s.boot.stage) ++ natLe 1 (if s.mb.ready then 1 else 0) ++ natLe 2 0 ++
        natLe 4 s.mgmt.physId.toNat ++ natLe 4 (selfId s) ++ natLe 2 s.mb.evtFault.toNat), replyMac q.via⟩ ::
        s.mgmt.out } }) ∧
    (Asks q 0x02 4 s → arg q 0 4 < 2 ^ 24 → ∃ t, exec (.setPhysId q) s = .next t ∧ Responds q stOk [] s t ∧
      t.mgmt.physId = BitVec.ofNat 24 (arg q 0 4)) ∧
    (Asks q 0x03 8 s → 4 ≤ arg q 4 2 → arg q 4 2 ≤ 1024 → arg q 4 2 % 4 = 0 → arg q 0 4 + arg q 4 2 ≤ 140288 →
      arg q 6 2 = 0 → 8 + arg q 4 2 ≤ q.args.length → ∃ t, exec (.tableWrite q) s = .next t ∧ Keeps [.fab, .mgmt] s t ∧
        Responds q stOk [] s t ∧ t.fab.shadow = memWrite s.fab.shadow (arg q 0 4) ((q.args.drop 8).take (arg q 4 2)) ∧
        t.fab.shadowReady = false ∧ t.fab.active = s.fab.active) ∧
    (Asks q 0x04 0 s →
      (tableRefused s.fab.shadow = true → ∃ t, exec (.tableReady q) s = .next t ∧ Responds q stBadArg [] s t ∧
        t.fab.shadowReady = false ∧ t.fab.active = s.fab.active) ∧
      (tableRefused s.fab.shadow = false → s.ctl.run.isSome = true → ∃ t, exec (.tableReady q) s = .next t ∧
        Responds q stOk [] s t ∧ t.fab.shadowReady = true ∧ t.fab.active = s.fab.active) ∧
      (tableRefused s.fab.shadow = false → s.ctl.run = none → ∃ t, exec (.tableReady q) s = .next t ∧
        Responds q stOk [] s t ∧ t.fab.shadowReady = false ∧ t.fab.active = s.fab.shadow ∧ t.fab.hasActive = true)) ∧
    (Asks q 0x05 10 s → arg q 0 1 ≤ 1 → arg q 1 3 = 0 → 4 ≤ arg q 8 2 → arg q 8 2 ≤ 1024 →
      arg q 4 4 + arg q 8 2 ≤ 140288 → ∃ t, exec (.tableRead q) s = .next t ∧ Keeps [.mgmt] s t ∧
        Responds q stOk (memRead (if arg q 0 1 = 0 then s.fab.active else s.fab.shadow) (arg q 4 4) (arg q 8 2)) s t) ∧
    (Asks q 0x06 4 s → 600 ≤ arg q 0 2 → arg q 0 2 ≤ arg q 2 2 → arg q 2 2 ≤ 2400 →
      ∃ t, exec (.setPower q) s = .next t ∧ Keeps [.mgmt] s t ∧ Responds q stOk [] s t ∧
        (s.boot.stage = .ready → t.mgmt.sustainedW = arg q 0 2 ∧ t.mgmt.burstW = arg q 2 2) ∧
        (s.boot.stage ≠ .ready → t.mgmt.powerNext = some (arg q 0 2, arg q 2 2))) ∧
    (Asks q 0x07 4 s → 700 ≤ arg q 0 2 → arg q 0 2 ≤ 1020 → arg q 0 2 + 50 ≤ arg q 2 2 → arg q 2 2 ≤ 1100 →
      ∃ t, exec (.setThermal q) s = .next t ∧ Keeps [.mgmt] s t ∧ Responds q stOk [] s t ∧
        (s.boot.stage = .ready → t.mgmt.throttle = arg q 0 2 ∧ t.mgmt.trip = arg q 2 2)) ∧
    (Asks q 0x08 12 s → s.boot.stage = .ready → 1000 ≤ arg q 0 4 → arg q 0 4 ≤ 100000 → 10000 ≤ arg q 4 4 →
      arg q 4 4 ≤ 250000 → 1000 ≤ arg q 8 4 → arg q 8 4 ≤ 50000 → ∃ t, exec (.setShares q) s = .next t ∧
        Keeps [.mgmt] s t ∧ Responds q stOk [] s t ∧ t.mgmt.shareHbm = arg q 0 4 ∧ t.mgmt.shareNand = arg q 4 4 ∧
        t.mgmt.shareFabric = arg q 8 4) ∧
    (Asks q 0x09 6 s → s.boot.stage = .ready → 4 ≤ arg q 4 2 → arg q 4 2 ≤ 1024 → arg q 0 4 + arg q 4 2 ≤ 9216 →
      ∃ t, exec (.getSnapshot q) s = .next t ∧ Keeps [.mgmt] s t ∧
        Responds q stOk (natLe 4 (telSeqShown s).toNat ++ telRead s (arg q 0 4) (arg q 4 2)) s t ∧
        (s.dbg.telWriting = false →
          Responds q stOk (natLe 4 s.dbg.telSeq.toNat ++ memRead s.dbg.tel (arg q 0 4) (arg q 4 2)) s t)) ∧
    (Asks q 0x0A 32 s → s.boot.stage = .ready → ∃ t, exec (.mgmtAttest q) s = .next t ∧ Keeps [.mgmt] s t ∧
      Responds q stOk (natLe 4 (reportBytes s)) s t ∧ t.mgmt.report = some (attestReport (q.args.take 32) s)) ∧
    (∀ m : Mem, Asks q 0x0B 6 s → s.boot.stage = .ready → s.mgmt.report = some m → 4 ≤ arg q 4 2 → arg q 4 2 ≤ 1024 →
      arg q 0 4 + arg q 4 2 ≤ s.mgmt.reportLen → ∃ t, exec (.attestRead q) s = .next t ∧ Keeps [.mgmt] s t ∧
        Responds q stOk (memRead m (arg q 0 4) (arg q 4 2)) s t) ∧
    (Asks q 0x0C 2 s →
      (arg q 0 2 = 0xA5C3 → s.boot.resetting = true → ∃ t, exec (.reset q) s = .next t ∧ Keeps [.mgmt] s t ∧
        Responds q stOk [] s t) ∧
      (arg q 0 2 = 0xA5C3 → s.boot.resetting = false → ∃ t, exec (.reset q) s = .next t ∧ Responds q stOk [] s t ∧ t.boot.stage = .romWait ∧
        t.boot.resetCause = 2 ∧ t.mgmt.physId = s.mgmt.physId ∧ t.mgmt.sustainedW = s.mgmt.sustainedW ∧
        t.job.opened = false) ∧
      (arg q 0 2 ≠ 0xA5C3 → ∃ t, exec (.reset q) s = .next t ∧ Keeps [.mgmt] s t ∧ Responds q stBadArg [] s t)) ∧
    (Asks q 0x0D 24 s → portConfigOk q = true →
      (arg q 2 1 = 1 → ∃ t, exec (.portConfig q) s = .next t ∧ Keeps [.mgmt] s t ∧ Responds q stOk
        (natLe 1 (arg q 0 1) ++ natLe 1 (portOf s (arg q 0 1)).medium ++ natLe 2 1 ++
          padTo 16 (portOf s (arg q 0 1)).lanes ++ natLe 4 0) s t) ∧
      (arg q 2 1 = 0 → ∃ t, exec (.portConfig q) s = .next t ∧ Responds q stOk [] s t ∧
        (portOf t (arg q 0 1)).medium = arg q 1 1 ∧ (portUp s (arg q 0 1) = true →
          (portOf t (arg q 0 1)).state = .training))) ∧
    (∀ code : Nat, (code = 0 ∨ 0x0D < code) → Asks q code 0 s → ∃ t, exec (.mgmtReservedCommand q) s = .next t ∧
      Keeps [.mgmt] s t ∧ Responds q stBadArg [] s t) ∧
    (∀ (via : MgmtVia) (endpoint : Nat), Heard via → s.pins.pwrgd = true →
      (∀ code : Nat, ∃ t b, exec (.mctpControl ⟨endpoint, via⟩ code) s = .next t ∧
        t.mgmt.out = ⟨endpoint, b, replyMac via⟩ :: s.mgmt.out) ∧
      (∀ id v : Nat, sensorValue? s id = some v → ∃ t, exec (.pldmRequest ⟨endpoint, via⟩ (.sensorReading id)) s = .next t ∧
        t.mgmt.out = ⟨endpoint, natLe 2 id ++ natLe 4 v, replyMac via⟩ :: s.mgmt.out) ∧
      (∀ r : Nat, ∃ t b, exec (.pldmRequest ⟨endpoint, via⟩ (.setEventReceiver r)) s = .next t ∧ t.mgmt.receiver = some r ∧
        t.mgmt.receiverMac = replyMac via ∧ t.mgmt.out = ⟨endpoint, b, replyMac via⟩ :: s.mgmt.out) ∧
      (∀ code : Nat, ∀ r ∈ [PldmReq.base code, .monitoring code], ∃ t b,
        exec (.pldmRequest ⟨endpoint, via⟩ r) s = .next t ∧ t.mgmt.out = ⟨endpoint, b, replyMac via⟩ :: s.mgmt.out)) ∧
    (∀ (dst src : BitVec 48) (etherType : BitVec 16) (good : Bool), s.pins.pwrgd = true →
      q.via = .ethernet dst src etherType good →
      ∀ e ∈ [(0x01, Instr.getState q), (0x02, .setPhysId q), (0x03, .tableWrite q), (0x04, .tableReady q),
        (0x05, .tableRead q), (0x06, .setPower q), (0x07, .setThermal q), (0x08, .setShares q), (0x09, .getSnapshot q),
        (0x0A, .mgmtAttest q), (0x0B, .attestRead q), (0x0C, .reset q), (0x0D, .portConfig q)], q.command.toNat = e.1 →
        (good = false → exec e.2 s = .next { s with mgmt := { s.mgmt with badFcs := s.mgmt.badFcs + 1 } }) ∧
        (good = true → (etherType ≠ 0x88B5 ∨ (dst ≠ Config.macAddress ∧ dst ≠ broadcastMac)) → exec e.2 s = .next s))

/-- The governor: a sample is kept, with the package power of its rails, and one whose hottest junction is at TRIP asserts THERMTRIP and stops the engine; a step lowers VCORE by 5 mV while
a figure exceeds its limit and raises it after 100 samples inside every limit, with VSRAM 50 mV above; where VCORE does not
acknowledge, both keep their setpoints, and the third miss raises LIMIT_UNMET; TEL_UPDATE makes a
new snapshot with SEQ 2 higher. -/
def Obligations.GovernorAndTelemetry : Prop :=
  ∀ s : State, s.pins.pwrgd = true →
    (∀ x : Sample, ∃ t, exec (.sensorSample x) s = .next t ∧ t.mgmt.sample = x ∧
      t.mgmt.powerHist = packageMw x :: s.mgmt.powerHist.take 99999 ∧
      (∀ j ∈ x.junctions, (s.mgmt.trip : Int) ≤ j → s.pins.thermtrip = false → t.pins.thermtrip = true ∧ Raised 7 s t)) ∧
    (s.mgmt.vsramMisses < 3 → s.mgmt.vcoreMisses < 3 →
      (figureAbove 100 s = true → 600 < s.mgmt.vcoreSet → ∃ t, exec (.governorStep ⟨true, true⟩) s = .next t ∧
        Keeps [.mgmt] s t ∧ t.mgmt.vcoreSet = s.mgmt.vcoreSet - 5 ∧ t.mgmt.vsramSet = s.mgmt.vcoreSet - 5 + 50) ∧
      (figureAbove 100 s = true → 600 < s.mgmt.vcoreSet → ∃ t, exec (.governorStep ⟨true, false⟩) s = .next t ∧
        t.mgmt.vcoreSet = s.mgmt.vcoreSet ∧ t.mgmt.vsramSet = s.mgmt.vsramSet ∧
        t.mgmt.vcoreMisses = s.mgmt.vcoreMisses + 1 ∧ (s.mgmt.vcoreMisses = 2 → t.mgmt.limitUnmet = true)) ∧
      (figureAbove 100 s = false → 100 ≤ s.mgmt.insideRun → s.mgmt.vcoreSet < 900 →
        ∃ t, exec (.governorStep ⟨true, true⟩) s = .next t ∧ Keeps [.mgmt] s t ∧ t.mgmt.vcoreSet = s.mgmt.vcoreSet + 5 ∧
          t.mgmt.vsramSet = s.mgmt.vcoreSet + 5 + 50)) ∧
    (s.boot.stage = .ready → ∃ t, exec .telUpdate s = .next t ∧ Keeps [.tier, .time, .dbg, .fab] s t ∧
      t.dbg.telSeq = s.dbg.telSeq + 2 ∧ t.dbg.telWriting = false ∧ t.dbg.tel = telMem { s with tier := t.tier, fab := t.fab } t.dbg.telSeq.toNat)

/-! ## The test port (R505 to R507) -/

/-- Test access. The test port: each instruction is loaded while the device has power, EXTEST and SAMPLE_PRELOAD capture the pins
(levels that are free) and load the
boundary cells, EXTEST only where it may drive the pins, and the pins are the device's own in every stage but ROM_WAIT and
FAILED. IDCODE selects the identification register, BYPASS one bit, and IJTAG one bit that reads 0 while JTAG_LOCK is set, with the
second selector out of reach (R507). Test registers: with firmware up and the locks clear, a write of TMX_SEL, TMX_CTL and CL_PERF_SEL takes effect;
with TMX_LOCK or TEST_LOCK set the guarded fields keep their values. Probes (R503): a TMX_OUT pin that is not driven is
high-impedance; a driven one shows, for its own TMX_SEL or for TMX_SEL0 under PIN_LOOP (R508), BEAT_DIV, the Gong that no ABORTED latch has followed, or 0 for a reserved value. -/
def Obligations.TestAccess : Prop :=
  (∀ s : State, s.pins.pwrgd = true →
    let loads (i : JtagIr) : State := { s with dbg := { s.dbg with ir := i } }
    let scans (i : JtagIr) (v : List Bool) : State := { s with
      dbg := { s.dbg with
        ir := i, boundary := chainCells v
        captured := (List.range Config.chainLength).map fun k => Config.pinLevel k s.time.freeUses }
      time := { s.time with freeUses := s.time.freeUses + 1 } }
    exec .idcode s = .next (loads .idcode) ∧ exec .testLogicReset s = .next (loads .idcode) ∧
    exec .clamp s = .next (loads .clamp) ∧ exec .highz s = .next (loads .highz) ∧ exec .ijtag s = .next (loads .ijtag) ∧
    (∀ code : BitVec 8, namedIr code.toNat = false → exec (.bypass code) s = .next (loads .bypass)) ∧
    (∀ v : List Bool,
      exec (.samplePreload v) s = .next (scans .samplePreload v) ∧
      exec (.extest v) s = .next (if scanMayDrive s then scans .extest v else loads .extest)) ∧
    (s.dbg.ir = .idcode → dataShown? s = some ((List.range 32).map (0x158085AF : Word).getLsbD)) ∧
    (s.dbg.ir = .bypass → dataShown? s = some [false]) ∧
    (s.dbg.ir = .ijtag → ∀ v : Nat,
      (s.boot.locks.getLsbD 2 = true → dataShown? s = some [false] ∧ networkProbe s v = none) ∧
      (s.boot.locks.getLsbD 2 = false → dataRegister s = .network ∧ networkProbe s v = some (probeLevel s v))) ∧
    (s.boot.stage ≠ .romWait → s.boot.stage ≠ .failed → s.pins.floated = false → pinSource s = .device)) ∧
  (∀ (s : State) (v : Word) (i : Nat), s.boot.stage = .ready → hostLink s = true →
    (i < 16 → exec (.tmxSel i v) s = .next (if s.boot.locks.getLsbD 0 then s
      else { s with dbg := { s.dbg with tmxSel := tblPut s.dbg.tmxSel i (v.toNat % 4096) } })) ∧
    (∃ t, exec (.tmxCtl v) s = .next t ∧ Keeps [.dbg, .boot] s t ∧
      t.dbg.tmxDrive = (if s.boot.locks.getLsbD 0 then s.dbg.tmxDrive else v.getLsbD 0) ∧
      t.boot.pinLoop = (if s.boot.locks.getLsbD 1 then s.boot.pinLoop else v.getLsbD 8)) ∧
    (i < 16 → ∃ t, exec (.clPerfSel i v) s = .next t ∧ Keeps [.dbg, .boot] s t ∧
      t.dbg.perfSel = tblPut s.dbg.perfSel i (v.toNat % 256) ∧ t.dbg.perf = tblPut s.dbg.perf i 0 ∧
      (∀ j : Nat, j < 16 → t.boot.perfFreeze.getLsbD j =
        if j = i ∧ s.boot.locks.getLsbD 1 = false then v.getLsbD 15 else s.boot.perfFreeze.getLsbD j))) ∧
  (∀ (s : State) (i : Nat),
    (s.dbg.tmxDrive = false ∨ pinSource s ≠ .device → tmxOut s i = none) ∧
    (s.dbg.tmxDrive = true → pinSource s = .device →
      let v := tblGet s.dbg.tmxSel (if s.boot.pinLoop then 0 else i)
      (v = 0xA00 → tmxOut s i = some (decide ((engineBeat s).1 / 1024 % 2 = 1))) ∧
      (∀ r : Run, v = 0xA02 → s.ctl.run = some r → r.fault.isSome = true → tmxOut s i = some true) ∧
      (v = 0xA02 → s.ctl.run = none → tmxOut s i = some (waitingGong? s).isSome) ∧
      (0xA03 < v → tmxOut s i = some false)))
/-! ## The frame of every command -/

namespace Sys2Proof.Claims

open Sys2Proof.Machine

/-- The parts of the device that a command can change: its own effect, the faults and events that it can raise, and
what those end in turn (a stopped run withdraws its requests and sounds the Gong; a device fault clears the mailbox). -/
def touched : Instr → List Part
  | .identify | .debugTraceStatus | .reservedOpcode | .cplHead _ | .rptHead _ | .evtClear _ | .evtEnable _ =>
    [.mb]
  | .getCaps | .poolStatus | .winRead | .flashStatus | .telSnapshot | .attest | .debugMemread _ =>
    [.mb, .mem, .time, .errs]
  | .setConfig | .evtHead _ | .decisionPoint | .hbmRetrain _ _ | .firmwareWatchdog | .hbmStackLost _ |
    .portDieLost _ | .portDieModuleFail _ =>
    [.mb, .mem, .ctl, .rem, .launch, .mgmt, .errs]
  | .jobOpen =>
    [.mb, .job, .pools, .rem]
  | .jobClose =>
    [.mb, .mem, .cells, .ctr, .job, .ctl, .exch, .tier, .flash, .pools, .rem, .launch, .mgmt, .errs]
  | .loadImage =>
    [.mb, .mem, .job, .ctl, .tier, .flash, .pools, .rem, .launch, .mgmt, .errs]
  | .bind =>
    [.mb, .ctr, .job, .ctl]
  | .grant =>
    [.mb, .cells, .ctl, .time]
  | .abortStep =>
    [.mb, .ctl, .rem, .launch]
  | .abortJob =>
    [.mb, .mem, .cells, .ctr, .ctl, .exch, .tier, .pools, .rem, .launch, .mgmt, .errs]
  | .treeSet =>
    [.mb, .launch]
  | .peal =>
    [.mb, .rem, .launch]
  | .objDefine | .evict =>
    [.mb, .tier]
  | .promote =>
    [.mb, .tier, .pools, .time, .errs]
  | .pin | .unpin =>
    [.mb, .mem, .ctl, .tier, .rem, .launch, .mgmt, .errs]
  | .poolConfig | .poolAlloc | .poolShare =>
    [.mb, .pools]
  | .poolRelease | .poolFree | .extentSealDone _ | .extentDelete | .nandProgramEnd _ _ =>
    [.mb, .mem, .ctl, .tier, .flash, .pools, .rem, .launch, .mgmt, .errs]
  | .winSet | .winClear =>
    [.mb, .rem]
  | .flashFormat | .flashFormatDone _ | .extentCreate | .relocationEnd _ | .retentionPatrol _ | .wearLevel _ |
    .dieRetire _ | .nandEraseEnd _ _ =>
    [.mb, .mem, .ctl, .flash, .rem, .launch, .mgmt, .errs]
  | .extentWrite | .extentSeal =>
    [.mb, .flash, .pools]
  | .debugTraceStart | .debugTraceStop =>
    [.mb, .dbg]
  | .cmdDoorbell _ =>
    [.mb, .boot, .mgmt]
  | .loadRecord _ | .romVerify | .firmwareInitFail _ =>
    [.boot, .mgmt]
  | .resetCtl _ | .ecsWrite _ _ | .pwrgdRise | .pwrgdFall | .reset _ =>
    [.mb, .boot, .mem, .unbacked, .tiles, .cells, .ctr, .job, .ctl, .exch, .tier, .flash, .pools, .rem, .fab, .time, .launch, .mgmt, .errs, .dbg, .pins]
  | .bootSramWrite _ _ | .bootDoorbell _ | .romWait =>
    [.boot]
  | .tmxSel _ _ | .idcode | .clamp | .highz | .ijtag | .bypass _ | .testLogicReset =>
    [.dbg]
  | .extest _ | .samplePreload _ =>
    [.time, .dbg]
  | .tmxCtl _ | .clPerfSel _ _ =>
    [.boot, .dbg]
  | .memCpl _ _ _ =>
    [.mb, .boot, .mem, .unbacked, .ctl, .rem, .launch, .mgmt, .errs]
  | .hostModuleFail | .adapterRetry =>
    [.errs]
  | .firmwareVerify =>
    [.mb, .boot, .fab, .time, .mgmt, .errs]
  | .ready _ =>
    [.mb, .boot, .mem, .tiles, .cells, .mgmt, .errs]
  | .mountEnd _ | .evictionEnd _ _ | .codewordRead _ _ | .hbmScrub _ _ =>
    [.mb, .mem, .cells, .ctl, .tier, .flash, .pools, .rem, .time, .launch, .mgmt, .errs]
  | .stepArm | .gong _ _ =>
    [.mb, .mem, .cells, .ctr, .ctl, .exch, .tier, .rem, .fab, .time, .launch, .mgmt, .errs]
  | .stepRun | .launchStrobe =>
    [.mem, .cells, .ctr, .job, .ctl, .exch, .rem, .time, .launch, .errs]
  | .stepComplete =>
    [.mb, .mem, .cells, .ctl, .tier, .flash, .pools, .rem, .fab, .time, .launch, .mgmt, .errs]
  | .stepAbort =>
    [.mb, .mem, .cells, .ctr, .job, .ctl, .exch, .tier, .pools, .rem, .fab, .time, .launch, .mgmt, .errs]
  | .stepHung =>
    [.ctl, .rem, .launch]
  | .descriptorFetch _ =>
    [.cells, .ctl, .rem, .time, .launch]
  | .taskComplete _ _ =>
    [.mem, .cells, .ctr, .ctl, .tier, .rem, .time, .launch, .errs, .dbg]
  | .mx _ _ =>
    [.mb, .mem, .tiles, .cells, .ctr, .ctl, .rem, .time, .launch, .mgmt, .errs, .dbg]
  | .cp _ _ | .add _ _ | .sub _ _ | .mul _ _ | .fma _ _ | .div _ _ | .max _ _ | .min _ _ | .unary _ _ | .cmp _ _ |
    .select _ _ | .reduce _ _ | .scan _ _ | .table _ _ | .rmsnorm _ _ | .layernorm _ _ | .softmax _ _ |
    .convert _ _ | .compress _ _ | .expand _ _ | .compress24 _ _ | .gather _ _ | .scatter _ _ | .scatterAdd _ _ |
    .spill _ _ | .sendBids _ _ | .sendAccepts _ _ | .sendRows _ _ | .sendEager _ _ | .sendAnswers _ _ |
    .allReduce _ _ | .reduceScatter _ _ | .fmLoad _ _ | .fmStore _ _ | .fmAtomic _ _ | .fmPut _ _ | .fmGet _ _ |
    .fmFlagStore _ _ | .waitRel _ _ | .mark _ _ =>
    [.mb, .mem, .cells, .ctr, .ctl, .rem, .time, .launch, .mgmt, .errs, .dbg]
  | .route _ _ | .accept _ _ =>
    [.mb, .mem, .cells, .ctr, .ctl, .exch, .rem, .time, .launch, .mgmt, .errs, .dbg]
  | .routePart _ =>
    [.cells]
  | .collectiveSum _ _ _ =>
    [.mb, .mem, .cells, .ctl, .rem, .launch, .mgmt, .errs, .dbg]
  | .ensure _ _ | .prefetch _ _ =>
    [.mb, .mem, .cells, .ctr, .ctl, .tier, .pools, .rem, .time, .launch, .mgmt, .errs, .dbg]
  | .promotionStart _ _ =>
    [.mb, .mem, .ctl, .tier, .pools, .rem, .time, .launch, .mgmt, .errs]
  | .promotionEnd _ _ _ =>
    [.mb, .mem, .cells, .ctl, .tier, .flash, .pools, .rem, .time, .launch, .mgmt, .errs, .dbg]
  | .exchange _ _ =>
    [.ctl, .exch, .rem, .fab, .launch, .errs]
  | .messageLanded _ =>
    [.mem, .ctr, .ctl, .exch, .rem, .launch, .errs, .dbg]
  | .collective _ _ =>
    [.mem, .ctl, .exch, .rem, .fab, .launch, .errs]
  | .load _ _ | .store _ _ | .flagStore _ _ | .atomic _ _ | .put _ _ | .get _ _ | .loadResp _ _ | .atomicResp _ _ |
    .getData _ _ | .ack _ _ | .refuse _ _ | .lineWriteBack _ =>
    [.mem, .ctr, .ctl, .rem, .fab, .launch, .errs, .dbg]
  | .e2eRetry _ _ =>
    [.ctl, .rem, .launch, .errs]
  | .cumAck _ =>
    [.rem]
  | .packetSend _ _ =>
    [.mem, .ctr, .ctl, .rem, .fab, .time, .launch, .errs, .dbg]
  | .forward _ _ | .probe _ _ =>
    [.rem, .fab, .errs]
  | .linkReplay _ _ | .portRetry _ | .halfRetrain _ =>
    [.fab, .time, .errs]
  | .replayWindowExpiry _ =>
    [.rem, .fab]
  | .laneFail _ _ =>
    [.fab, .errs]
  | .portTrained _ _ =>
    [.fab]
  | .pealArm _ _ | .sramScrub _ =>
    [.mb, .mem, .ctl, .rem, .fab, .launch, .mgmt, .errs]
  | .pealAck _ _ | .pealDisarm _ _ =>
    [.rem, .fab, .launch, .errs]
  | .armAcknowledge | .ackDeadline =>
    [.rem, .launch]
  | .syncSend =>
    [.rem, .time, .errs]
  | .sync _ _ | .follow _ _ =>
    [.rem, .fab, .time, .errs]
  | .readCountCheckpoint =>
    [.flash]
  | .cellTest _ =>
    [.mb, .boot, .mem, .tiles, .cells, .ctr, .job, .ctl, .exch, .tier, .flash, .pools, .rem, .launch, .mgmt, .errs]
  | .refclkLoss _ =>
    [.mb, .mem, .ctl, .rem, .fab, .time, .launch, .mgmt, .errs]
  | .sensorSample _ =>
    [.mb, .mem, .ctl, .rem, .launch, .mgmt, .errs, .dbg, .pins]
  | .governorStep _ | .getState _ | .tableRead _ | .setPower _ | .setThermal _ | .setShares _ | .getSnapshot _ |
    .mgmtAttest _ | .attestRead _ | .mgmtReservedCommand _ =>
    [.mgmt]
  | .telUpdate =>
    [.tier, .fab, .time, .dbg]
  | .setPhysId _ | .tableReady _ | .portConfig _ =>
    [.fab, .time, .mgmt, .errs]
  | .tableWrite _ =>
    [.fab, .mgmt]
  | .mctpControl _ _ | .pldmRequest _ _ =>
    [.time, .mgmt]
  | .vccqNandLoss =>
    [.pins]

end Sys2Proof.Claims

/-- Frames. Whatever a command does, it changes nothing outside the parts that it touches: every register, counter, queue
and byte of memory of every other part is as it was. The statements of single commands narrow this further. -/
def Obligations.EveryCommandKeepsWhatItDoesNotTouch : Prop :=
  ∀ (c : Instr) (s t : State), exec c s = .next t → Keeps (touched c) s t

end
end

