-- ==== Sys2Proof/Laws/Keeps.lean ====
section
/-! SUPPORT. The calculus of Keeps: reflexivity, composition, record updates and folds. -/

namespace Sys2Proof.Machine

/-- Every part of the first list is in the second. -/
def within (a b : List Part) : Bool := a.all fun c => b.contains c

theorem within_mem {a b : List Part} (h : within a b = true) {c : Part} (hc : c ∈ a) : c ∈ b := by
  have := List.all_eq_true.1 h c hc
  simpa using this

@[simp] theorem Keeps.refl (k : List Part) (s : State) : Keeps k s s := by
  intro c _; cases c <;> rfl

theorem Keeps.trans {k : List Part} {s t u : State} (h : Keeps k s t) (g : Keeps k t u) : Keeps k s u := by
  intro c hc
  have a := h c hc
  have b := g c hc
  cases c <;> exact b.trans a

theorem Keeps.mono {k l : List Part} {s t : State} (h : Keeps k s t) (w : within k l = true) : Keeps l s t :=
  fun c hc => h c fun hk => hc (within_mem w hk)

theorem Keeps.symm {k : List Part} {s t : State} (h : Keeps k s t) : Keeps k t s := by
  intro c hc
  have a := h c hc
  cases c <;> exact a.symm

/-- A step that keeps all but k may be dropped from the end of a chain that keeps all but a larger list. -/
theorem Keeps.iff_of {k l : List Part} {s t u : State} (h : Keeps k t u) (w : within k l = true) :
    Keeps l s u ↔ Keeps l s t :=
  ⟨fun g => g.trans (h.mono w).symm, fun g => g.trans (h.mono w)⟩

theorem Keeps.foldl {α : Type} {k : List Part} (f : State → α → State) (h : ∀ t a, Keeps k t (f t a)) (l : List α)
    (s : State) : Keeps k s (l.foldl f s) := by
  induction l generalizing s with
  | nil => exact Keeps.refl k s
  | cons a r ih => exact (h s a).trans (ih (f s a))

theorem Keeps.foldr {α : Type} {k : List Part} (f : α → State → State) (h : ∀ t a, Keeps k t (f a t)) (l : List α)
    (s : State) : Keeps k s (l.foldr f s) := by
  induction l with
  | nil => exact Keeps.refl k s
  | cons a r ih => exact ih.trans (h _ a)

@[simp] theorem keeps_set_pending {k : List Part} {s t : State} {x : List Instr} (w : within [.pending] k = true) :
    Keeps k s { t with pending := x } ↔ Keeps k s t :=
  Keeps.iff_of (k := [.pending]) (by intro c hc; cases c <;> first | rfl | simp at hc) w

theorem Keeps.pending_eq {k : List Part} {s t : State} (h : Keeps k s t) (w : k.contains .pending = false) : t.pending = s.pending :=
  h .pending (by simpa using w)

@[simp] theorem keeps_set_mb {k : List Part} {s t : State} {x : Mailbox} (w : within [.mb] k = true) :
    Keeps k s { t with mb := x } ↔ Keeps k s t :=
  Keeps.iff_of (k := [.mb]) (by intro c hc; cases c <;> first | rfl | simp at hc) w

theorem Keeps.mb_eq {k : List Part} {s t : State} (h : Keeps k s t) (w : k.contains .mb = false) : t.mb = s.mb :=
  h .mb (by simpa using w)

@[simp] theorem keeps_set_boot {k : List Part} {s t : State} {x : Boot} (w : within [.boot] k = true) :
    Keeps k s { t with boot := x } ↔ Keeps k s t :=
  Keeps.iff_of (k := [.boot]) (by intro c hc; cases c <;> first | rfl | simp at hc) w

theorem Keeps.boot_eq {k : List Part} {s t : State} (h : Keeps k s t) (w : k.contains .boot = false) : t.boot = s.boot :=
  h .boot (by simpa using w)

@[simp] theorem keeps_set_mem {k : List Part} {s t : State} {x : Mem} (w : within [.mem] k = true) :
    Keeps k s { t with mem := x } ↔ Keeps k s t :=
  Keeps.iff_of (k := [.mem]) (by intro c hc; cases c <;> first | rfl | simp at hc) w

theorem Keeps.mem_eq {k : List Part} {s t : State} (h : Keeps k s t) (w : k.contains .mem = false) : t.mem = s.mem :=
  h .mem (by simpa using w)

@[simp] theorem keeps_set_unbacked {k : List Part} {s t : State} {x : List (Nat × Nat)} (w : within [.unbacked] k = true) :
    Keeps k s { t with unbacked := x } ↔ Keeps k s t :=
  Keeps.iff_of (k := [.unbacked]) (by intro c hc; cases c <;> first | rfl | simp at hc) w

theorem Keeps.unbacked_eq {k : List Part} {s t : State} (h : Keeps k s t) (w : k.contains .unbacked = false) : t.unbacked = s.unbacked :=
  h .unbacked (by simpa using w)

@[simp] theorem keeps_set_tiles {k : List Part} {s t : State} {x : Mem} (w : within [.tiles] k = true) :
    Keeps k s { t with tiles := x } ↔ Keeps k s t :=
  Keeps.iff_of (k := [.tiles]) (by intro c hc; cases c <;> first | rfl | simp at hc) w

theorem Keeps.tiles_eq {k : List Part} {s t : State} (h : Keeps k s t) (w : k.contains .tiles = false) : t.tiles = s.tiles :=
  h .tiles (by simpa using w)

@[simp] theorem keeps_set_cells {k : List Part} {s t : State} {x : KV Cell} (w : within [.cells] k = true) :
    Keeps k s { t with cells := x } ↔ Keeps k s t :=
  Keeps.iff_of (k := [.cells]) (by intro c hc; cases c <;> first | rfl | simp at hc) w

theorem Keeps.cells_eq {k : List Part} {s t : State} (h : Keeps k s t) (w : k.contains .cells = false) : t.cells = s.cells :=
  h .cells (by simpa using w)

@[simp] theorem keeps_set_ctr {k : List Part} {s t : State} {x : Counters} (w : within [.ctr] k = true) :
    Keeps k s { t with ctr := x } ↔ Keeps k s t :=
  Keeps.iff_of (k := [.ctr]) (by intro c hc; cases c <;> first | rfl | simp at hc) w

theorem Keeps.ctr_eq {k : List Part} {s t : State} (h : Keeps k s t) (w : k.contains .ctr = false) : t.ctr = s.ctr :=
  h .ctr (by simpa using w)

@[simp] theorem keeps_set_job {k : List Part} {s t : State} {x : Job} (w : within [.job] k = true) :
    Keeps k s { t with job := x } ↔ Keeps k s t :=
  Keeps.iff_of (k := [.job]) (by intro c hc; cases c <;> first | rfl | simp at hc) w

theorem Keeps.job_eq {k : List Part} {s t : State} (h : Keeps k s t) (w : k.contains .job = false) : t.job = s.job :=
  h .job (by simpa using w)

@[simp] theorem keeps_set_ctl {k : List Part} {s t : State} {x : Ctl} (w : within [.ctl] k = true) :
    Keeps k s { t with ctl := x } ↔ Keeps k s t :=
  Keeps.iff_of (k := [.ctl]) (by intro c hc; cases c <;> first | rfl | simp at hc) w

theorem Keeps.ctl_eq {k : List Part} {s t : State} (h : Keeps k s t) (w : k.contains .ctl = false) : t.ctl = s.ctl :=
  h .ctl (by simpa using w)

@[simp] theorem keeps_set_exch {k : List Part} {s t : State} {x : Exch} (w : within [.exch] k = true) :
    Keeps k s { t with exch := x } ↔ Keeps k s t :=
  Keeps.iff_of (k := [.exch]) (by intro c hc; cases c <;> first | rfl | simp at hc) w

theorem Keeps.exch_eq {k : List Part} {s t : State} (h : Keeps k s t) (w : k.contains .exch = false) : t.exch = s.exch :=
  h .exch (by simpa using w)

@[simp] theorem keeps_set_tier {k : List Part} {s t : State} {x : Tiers} (w : within [.tier] k = true) :
    Keeps k s { t with tier := x } ↔ Keeps k s t :=
  Keeps.iff_of (k := [.tier]) (by intro c hc; cases c <;> first | rfl | simp at hc) w

theorem Keeps.tier_eq {k : List Part} {s t : State} (h : Keeps k s t) (w : k.contains .tier = false) : t.tier = s.tier :=
  h .tier (by simpa using w)

@[simp] theorem keeps_set_flash {k : List Part} {s t : State} {x : Flash} (w : within [.flash] k = true) :
    Keeps k s { t with flash := x } ↔ Keeps k s t :=
  Keeps.iff_of (k := [.flash]) (by intro c hc; cases c <;> first | rfl | simp at hc) w

theorem Keeps.flash_eq {k : List Part} {s t : State} (h : Keeps k s t) (w : k.contains .flash = false) : t.flash = s.flash :=
  h .flash (by simpa using w)

@[simp] theorem keeps_set_pools {k : List Part} {s t : State} {x : Pools} (w : within [.pools] k = true) :
    Keeps k s { t with pools := x } ↔ Keeps k s t :=
  Keeps.iff_of (k := [.pools]) (by intro c hc; cases c <;> first | rfl | simp at hc) w

theorem Keeps.pools_eq {k : List Part} {s t : State} (h : Keeps k s t) (w : k.contains .pools = false) : t.pools = s.pools :=
  h .pools (by simpa using w)

@[simp] theorem keeps_set_rem {k : List Part} {s t : State} {x : Remote} (w : within [.rem] k = true) :
    Keeps k s { t with rem := x } ↔ Keeps k s t :=
  Keeps.iff_of (k := [.rem]) (by intro c hc; cases c <;> first | rfl | simp at hc) w

theorem Keeps.rem_eq {k : List Part} {s t : State} (h : Keeps k s t) (w : k.contains .rem = false) : t.rem = s.rem :=
  h .rem (by simpa using w)

@[simp] theorem keeps_set_fab {k : List Part} {s t : State} {x : Fabric} (w : within [.fab] k = true) :
    Keeps k s { t with fab := x } ↔ Keeps k s t :=
  Keeps.iff_of (k := [.fab]) (by intro c hc; cases c <;> first | rfl | simp at hc) w

theorem Keeps.fab_eq {k : List Part} {s t : State} (h : Keeps k s t) (w : k.contains .fab = false) : t.fab = s.fab :=
  h .fab (by simpa using w)

@[simp] theorem keeps_set_time {k : List Part} {s t : State} {x : Time} (w : within [.time] k = true) :
    Keeps k s { t with time := x } ↔ Keeps k s t :=
  Keeps.iff_of (k := [.time]) (by intro c hc; cases c <;> first | rfl | simp at hc) w

theorem Keeps.time_eq {k : List Part} {s t : State} (h : Keeps k s t) (w : k.contains .time = false) : t.time = s.time :=
  h .time (by simpa using w)

@[simp] theorem keeps_set_launch {k : List Part} {s t : State} {x : Launch} (w : within [.launch] k = true) :
    Keeps k s { t with launch := x } ↔ Keeps k s t :=
  Keeps.iff_of (k := [.launch]) (by intro c hc; cases c <;> first | rfl | simp at hc) w

theorem Keeps.launch_eq {k : List Part} {s t : State} (h : Keeps k s t) (w : k.contains .launch = false) : t.launch = s.launch :=
  h .launch (by simpa using w)

@[simp] theorem keeps_set_mgmt {k : List Part} {s t : State} {x : Mgmt} (w : within [.mgmt] k = true) :
    Keeps k s { t with mgmt := x } ↔ Keeps k s t :=
  Keeps.iff_of (k := [.mgmt]) (by intro c hc; cases c <;> first | rfl | simp at hc) w

theorem Keeps.mgmt_eq {k : List Part} {s t : State} (h : Keeps k s t) (w : k.contains .mgmt = false) : t.mgmt = s.mgmt :=
  h .mgmt (by simpa using w)

@[simp] theorem keeps_set_errs {k : List Part} {s t : State} {x : Errs} (w : within [.errs] k = true) :
    Keeps k s { t with errs := x } ↔ Keeps k s t :=
  Keeps.iff_of (k := [.errs]) (by intro c hc; cases c <;> first | rfl | simp at hc) w

theorem Keeps.errs_eq {k : List Part} {s t : State} (h : Keeps k s t) (w : k.contains .errs = false) : t.errs = s.errs :=
  h .errs (by simpa using w)

@[simp] theorem keeps_set_dbg {k : List Part} {s t : State} {x : Debug} (w : within [.dbg] k = true) :
    Keeps k s { t with dbg := x } ↔ Keeps k s t :=
  Keeps.iff_of (k := [.dbg]) (by intro c hc; cases c <;> first | rfl | simp at hc) w

theorem Keeps.dbg_eq {k : List Part} {s t : State} (h : Keeps k s t) (w : k.contains .dbg = false) : t.dbg = s.dbg :=
  h .dbg (by simpa using w)

@[simp] theorem keeps_set_pins {k : List Part} {s t : State} {x : Pins} (w : within [.pins] k = true) :
    Keeps k s { t with pins := x } ↔ Keeps k s t :=
  Keeps.iff_of (k := [.pins]) (by intro c hc; cases c <;> first | rfl | simp at hc) w

theorem Keeps.pins_eq {k : List Part} {s t : State} (h : Keeps k s t) (w : k.contains .pins = false) : t.pins = s.pins :=
  h .pins (by simpa using w)

/-! ## Updates of several parts at once -/

@[simp] theorem keeps_set_boot_dbg {k : List Part} {s t : State} {x0 : Boot} {x1 : Debug}
    (w : within [.boot, .dbg] k = true) :
    Keeps k s { t with boot := x0, dbg := x1 } ↔ Keeps k s t :=
  Keeps.iff_of (k := [.boot, .dbg]) (by intro c hc; cases c <;> first | rfl | simp at hc) w

@[simp] theorem keeps_set_boot_time {k : List Part} {s t : State} {x0 : Boot} {x1 : Time}
    (w : within [.boot, .time] k = true) :
    Keeps k s { t with boot := x0, time := x1 } ↔ Keeps k s t :=
  Keeps.iff_of (k := [.boot, .time]) (by intro c hc; cases c <;> first | rfl | simp at hc) w

@[simp] theorem keeps_set_ctl_launch {k : List Part} {s t : State} {x0 : Ctl} {x1 : Launch}
    (w : within [.ctl, .launch] k = true) :
    Keeps k s { t with ctl := x0, launch := x1 } ↔ Keeps k s t :=
  Keeps.iff_of (k := [.ctl, .launch]) (by intro c hc; cases c <;> first | rfl | simp at hc) w

@[simp] theorem keeps_set_flash_pools {k : List Part} {s t : State} {x0 : Flash} {x1 : Pools}
    (w : within [.flash, .pools] k = true) :
    Keeps k s { t with flash := x0, pools := x1 } ↔ Keeps k s t :=
  Keeps.iff_of (k := [.flash, .pools]) (by intro c hc; cases c <;> first | rfl | simp at hc) w

@[simp] theorem keeps_set_job_tier {k : List Part} {s t : State} {x0 : Job} {x1 : Tiers}
    (w : within [.job, .tier] k = true) :
    Keeps k s { t with job := x0, tier := x1 } ↔ Keeps k s t :=
  Keeps.iff_of (k := [.job, .tier]) (by intro c hc; cases c <;> first | rfl | simp at hc) w

@[simp] theorem keeps_set_mb_boot {k : List Part} {s t : State} {x0 : Mailbox} {x1 : Boot}
    (w : within [.mb, .boot] k = true) :
    Keeps k s { t with mb := x0, boot := x1 } ↔ Keeps k s t :=
  Keeps.iff_of (k := [.mb, .boot]) (by intro c hc; cases c <;> first | rfl | simp at hc) w

@[simp] theorem keeps_set_mb_errs {k : List Part} {s t : State} {x0 : Mailbox} {x1 : Errs}
    (w : within [.mb, .errs] k = true) :
    Keeps k s { t with mb := x0, errs := x1 } ↔ Keeps k s t :=
  Keeps.iff_of (k := [.mb, .errs]) (by intro c hc; cases c <;> first | rfl | simp at hc) w

@[simp] theorem keeps_set_mb_mem {k : List Part} {s t : State} {x0 : Mailbox} {x1 : Mem}
    (w : within [.mb, .mem] k = true) :
    Keeps k s { t with mb := x0, mem := x1 } ↔ Keeps k s t :=
  Keeps.iff_of (k := [.mb, .mem]) (by intro c hc; cases c <;> first | rfl | simp at hc) w

@[simp] theorem keeps_set_mem_exch {k : List Part} {s t : State} {x0 : Mem} {x1 : Exch}
    (w : within [.mem, .exch] k = true) :
    Keeps k s { t with mem := x0, exch := x1 } ↔ Keeps k s t :=
  Keeps.iff_of (k := [.mem, .exch]) (by intro c hc; cases c <;> first | rfl | simp at hc) w

@[simp] theorem keeps_set_mem_job {k : List Part} {s t : State} {x0 : Mem} {x1 : Job}
    (w : within [.mem, .job] k = true) :
    Keeps k s { t with mem := x0, job := x1 } ↔ Keeps k s t :=
  Keeps.iff_of (k := [.mem, .job]) (by intro c hc; cases c <;> first | rfl | simp at hc) w

@[simp] theorem keeps_set_mem_tiles {k : List Part} {s t : State} {x0 : Mem} {x1 : Mem}
    (w : within [.mem, .tiles] k = true) :
    Keeps k s { t with mem := x0, tiles := x1 } ↔ Keeps k s t :=
  Keeps.iff_of (k := [.mem, .tiles]) (by intro c hc; cases c <;> first | rfl | simp at hc) w

@[simp] theorem keeps_set_mem_unbacked {k : List Part} {s t : State} {x0 : Mem} {x1 : List (Nat × Nat)}
    (w : within [.mem, .unbacked] k = true) :
    Keeps k s { t with mem := x0, unbacked := x1 } ↔ Keeps k s t :=
  Keeps.iff_of (k := [.mem, .unbacked]) (by intro c hc; cases c <;> first | rfl | simp at hc) w

@[simp] theorem keeps_set_mgmt_dbg {k : List Part} {s t : State} {x0 : Mgmt} {x1 : Debug}
    (w : within [.mgmt, .dbg] k = true) :
    Keeps k s { t with mgmt := x0, dbg := x1 } ↔ Keeps k s t :=
  Keeps.iff_of (k := [.mgmt, .dbg]) (by intro c hc; cases c <;> first | rfl | simp at hc) w

@[simp] theorem keeps_set_rem_fab {k : List Part} {s t : State} {x0 : Remote} {x1 : Fabric}
    (w : within [.rem, .fab] k = true) :
    Keeps k s { t with rem := x0, fab := x1 } ↔ Keeps k s t :=
  Keeps.iff_of (k := [.rem, .fab]) (by intro c hc; cases c <;> first | rfl | simp at hc) w

@[simp] theorem keeps_set_time_dbg {k : List Part} {s t : State} {x0 : Time} {x1 : Debug}
    (w : within [.time, .dbg] k = true) :
    Keeps k s { t with time := x0, dbg := x1 } ↔ Keeps k s t :=
  Keeps.iff_of (k := [.time, .dbg]) (by intro c hc; cases c <;> first | rfl | simp at hc) w

@[simp] theorem keeps_set_tier_pools {k : List Part} {s t : State} {x0 : Tiers} {x1 : Pools}
    (w : within [.tier, .pools] k = true) :
    Keeps k s { t with tier := x0, pools := x1 } ↔ Keeps k s t :=
  Keeps.iff_of (k := [.tier, .pools]) (by intro c hc; cases c <;> first | rfl | simp at hc) w

@[simp] theorem keeps_set_tier_time {k : List Part} {s t : State} {x0 : Tiers} {x1 : Time}
    (w : within [.tier, .time] k = true) :
    Keeps k s { t with tier := x0, time := x1 } ↔ Keeps k s t :=
  Keeps.iff_of (k := [.tier, .time]) (by intro c hc; cases c <;> first | rfl | simp at hc) w

@[simp] theorem keeps_set_ctr_ctl_exch {k : List Part} {s t : State} {x0 : Counters} {x1 : Ctl} {x2 : Exch}
    (w : within [.ctr, .ctl, .exch] k = true) :
    Keeps k s { t with ctr := x0, ctl := x1, exch := x2 } ↔ Keeps k s t :=
  Keeps.iff_of (k := [.ctr, .ctl, .exch]) (by intro c hc; cases c <;> first | rfl | simp at hc) w

@[simp] theorem keeps_set_mb_boot_errs {k : List Part} {s t : State} {x0 : Mailbox} {x1 : Boot} {x2 : Errs}
    (w : within [.mb, .boot, .errs] k = true) :
    Keeps k s { t with mb := x0, boot := x1, errs := x2 } ↔ Keeps k s t :=
  Keeps.iff_of (k := [.mb, .boot, .errs]) (by intro c hc; cases c <;> first | rfl | simp at hc) w

@[simp] theorem keeps_set_job_ctl_errs {k : List Part} {s t : State} {x0 : Job} {x1 : Ctl} {x2 : Errs}
    (w : within [.job, .ctl, .errs] k = true) :
    Keeps k s { t with job := x0, ctl := x1, errs := x2 } ↔ Keeps k s t :=
  Keeps.iff_of (k := [.job, .ctl, .errs]) (by intro c hc; cases c <;> first | rfl | simp at hc) w

@[simp] theorem keeps_set_job_ctl_exch {k : List Part} {s t : State} {x0 : Job} {x1 : Ctl} {x2 : Exch}
    (w : within [.job, .ctl, .exch] k = true) :
    Keeps k s { t with job := x0, ctl := x1, exch := x2 } ↔ Keeps k s t :=
  Keeps.iff_of (k := [.job, .ctl, .exch]) (by intro c hc; cases c <;> first | rfl | simp at hc) w

@[simp] theorem keeps_set_job_pools_rem {k : List Part} {s t : State} {x0 : Job} {x1 : Pools} {x2 : Remote}
    (w : within [.job, .pools, .rem] k = true) :
    Keeps k s { t with job := x0, pools := x1, rem := x2 } ↔ Keeps k s t :=
  Keeps.iff_of (k := [.job, .pools, .rem]) (by intro c hc; cases c <;> first | rfl | simp at hc) w

@[simp] theorem keeps_set_cells_ctr_ctl_exch {k : List Part} {s t : State} {x0 : KV Cell} {x1 : Counters} {x2 : Ctl} {x3 : Exch}
    (w : within [.cells, .ctr, .ctl, .exch] k = true) :
    Keeps k s { t with cells := x0, ctr := x1, ctl := x2, exch := x3 } ↔ Keeps k s t :=
  Keeps.iff_of (k := [.cells, .ctr, .ctl, .exch]) (by intro c hc; cases c <;> first | rfl | simp at hc) w

@[simp] theorem keeps_set_mb_ctr_job_ctl {k : List Part} {s t : State} {x0 : Mailbox} {x1 : Counters} {x2 : Job} {x3 : Ctl}
    (w : within [.mb, .ctr, .job, .ctl] k = true) :
    Keeps k s { t with mb := x0, ctr := x1, job := x2, ctl := x3 } ↔ Keeps k s t :=
  Keeps.iff_of (k := [.mb, .ctr, .job, .ctl]) (by intro c hc; cases c <;> first | rfl | simp at hc) w

@[simp] theorem keeps_set_mb_boot_mem_tiles_cells_mgmt_errs {k : List Part} {s t : State} {x0 : Mailbox} {x1 : Boot} {x2 : Mem} {x3 : Mem} {x4 : KV Cell} {x5 : Mgmt} {x6 : Errs}
    (w : within [.mb, .boot, .mem, .tiles, .cells, .mgmt, .errs] k = true) :
    Keeps k s { t with mb := x0, boot := x1, mem := x2, tiles := x3, cells := x4, mgmt := x5, errs := x6 } ↔ Keeps k s t :=
  Keeps.iff_of (k := [.mb, .boot, .mem, .tiles, .cells, .mgmt, .errs]) (by intro c hc; cases c <;> first | rfl | simp at hc) w

@[simp] theorem keeps_set_mb_boot_flash_fab_time_mgmt_errs_pins {k : List Part} {s t : State} {x0 : Mailbox} {x1 : Boot} {x2 : Flash} {x3 : Fabric} {x4 : Time} {x5 : Mgmt} {x6 : Errs} {x7 : Pins}
    (w : within [.mb, .boot, .flash, .fab, .time, .mgmt, .errs, .pins] k = true) :
    Keeps k s { t with mb := x0, boot := x1, flash := x2, fab := x3, time := x4, mgmt := x5, errs := x6, pins := x7 } ↔ Keeps k s t :=
  Keeps.iff_of (k := [.mb, .boot, .flash, .fab, .time, .mgmt, .errs, .pins]) (by intro c hc; cases c <;> first | rfl | simp at hc) w

@[simp] theorem keeps_set_cells_ctr_job_ctl_exch_tier_pools_rem_launch {k : List Part} {s t : State} {x0 : KV Cell} {x1 : Counters} {x2 : Job} {x3 : Ctl} {x4 : Exch} {x5 : Tiers} {x6 : Pools} {x7 : Remote} {x8 : Launch}
    (w : within [.cells, .ctr, .job, .ctl, .exch, .tier, .pools, .rem, .launch] k = true) :
    Keeps k s { t with cells := x0, ctr := x1, job := x2, ctl := x3, exch := x4, tier := x5, pools := x6, rem := x7, launch := x8 } ↔ Keeps k s t :=
  Keeps.iff_of (k := [.cells, .ctr, .job, .ctl, .exch, .tier, .pools, .rem, .launch]) (by intro c hc; cases c <;> first | rfl | simp at hc) w

@[simp] theorem keeps_set_mb_boot_mem_flash_fab_time_mgmt_errs_dbg_pins {k : List Part} {s t : State} {x0 : Mailbox} {x1 : Boot} {x2 : Mem} {x3 : Flash} {x4 : Fabric} {x5 : Time} {x6 : Mgmt} {x7 : Errs} {x8 : Debug} {x9 : Pins}
    (w : within [.mb, .boot, .mem, .flash, .fab, .time, .mgmt, .errs, .dbg, .pins] k = true) :
    Keeps k s { t with mb := x0, boot := x1, mem := x2, flash := x3, fab := x4, time := x5, mgmt := x6, errs := x7, dbg := x8, pins := x9 } ↔ Keeps k s t :=
  Keeps.iff_of (k := [.mb, .boot, .mem, .flash, .fab, .time, .mgmt, .errs, .dbg, .pins]) (by intro c hc; cases c <;> first | rfl | simp at hc) w

/-! ## How a command ends -/

/-- The state that a command's body leaves. -/
def CmdEnd.endState : CmdEnd → State
  | .done _ _ t => t
  | .opened _ t => t

@[simp] theorem endState_done (a : Nat) (b : List Byte) (t : State) : (CmdEnd.done a b t).endState = t := rfl
@[simp] theorem endState_opened (a : OpenKind) (t : State) : (CmdEnd.opened a t).endState = t := rfl
@[simp] theorem endState_ite {c : Prop} [Decidable c] (a b : CmdEnd) :
    (if c then a else b).endState = if c then a.endState else b.endState := by split <;> rfl

/-! ## Choices and folds -/

theorem within_of {a b c : List Part} (h : within b c = true) (g : within a b = true) : within a c = true :=
  List.all_eq_true.2 fun x hx => by simpa using within_mem h (within_mem g hx)

@[simp] theorem keeps_ite {k : List Part} {s : State} {c : Prop} [Decidable c] {a b : State} :
    Keeps k s (if c then a else b) ↔ if c then Keeps k s a else Keeps k s b := by
  split <;> rfl

@[simp] theorem keeps_foldl {α : Type} {k : List Part} {s t : State} {f : State → α → State} {l : List α}
    (h : ∀ t a, Keeps k t (f t a)) : Keeps k s (l.foldl f t) ↔ Keeps k s t :=
  Keeps.iff_of (Keeps.foldl f h l t) (by simp [within])

end Sys2Proof.Machine
end

