-- ==== Sys2Proof/Laws/Frames.lean ====
section
/-! SUPPORT. What each operation of the model can change: one lemma per operation, each an instance of Keeps. The lemma
f_keeps says that f changes no part outside the list in its premise, in the form that simp uses to drop f from a chain. -/

namespace Sys2Proof.Machine
@[simp] theorem setPending_keeps {k : List Part} {s : State} (a0) (t : State) (w : within [.launch] k = true) :
    Keeps k s (setPending a0 t) ↔ Keeps k s t :=
  Keeps.iff_of (k := [.launch]) (by
    unfold setPending; simp +decide) w

@[simp] theorem abandonLaunch_keeps {k : List Part} {s : State}  (t : State) (w : within [.launch] k = true) :
    Keeps k s (abandonLaunch t) ↔ Keeps k s t :=
  Keeps.iff_of (k := [.launch]) (by
    unfold abandonLaunch; (repeat' split) <;> simp +decide) w

@[simp] theorem enqueueEvent_keeps {k : List Part} {s : State} (a0) (a1) (a2) (a3) (t : State) (w : within [.mb] k = true) :
    Keeps k s (enqueueEvent a0 a1 a2 a3 t) ↔ Keeps k s t :=
  Keeps.iff_of (k := [.mb]) (by
    unfold enqueueEvent; simp +decide) w

@[simp] theorem setCause_keeps {k : List Part} {s : State} (a0) (t : State) (w : within [.mb] k = true) :
    Keeps k s (setCause a0 t) ↔ Keeps k s t :=
  Keeps.iff_of (k := [.mb]) (by
    unfold setCause; simp +decide) w

@[simp] theorem postCpl_keeps {k : List Part} {s : State} (a0) (a1) (a2) (a3) (a4) (t : State) (w : within [.mb] k = true) :
    Keeps k s (postCpl a0 a1 a2 a3 a4 t) ↔ Keeps k s t :=
  Keeps.iff_of (k := [.mb]) (by
    unfold postCpl; simp +decide) w

@[simp] theorem abortCommands_keeps {k : List Part} {s : State} (a0) (t : State) (w : within [.mb] k = true) :
    Keeps k s (abortCommands a0 t) ↔ Keeps k s t :=
  Keeps.iff_of (k := [.mb]) (by
    fun_induction abortCommands a0 t <;> first
      | (simp +decide; done)
      | (rename_i ih; exact Keeps.trans (by simp +decide) ih)) w

@[simp] theorem mapRun_keeps {k : List Part} {s : State} (a0) (t : State) (w : within [.ctl] k = true) :
    Keeps k s (mapRun a0 t) ↔ Keeps k s t :=
  Keeps.iff_of (k := [.ctl]) (by
    unfold mapRun; (repeat' split) <;> simp +decide) w

@[simp] theorem pldmEvent_keeps {k : List Part} {s : State} (a0) (a1) (t : State) (w : within [.mgmt] k = true) :
    Keeps k s (pldmEvent a0 a1 t) ↔ Keeps k s t :=
  Keeps.iff_of (k := [.mgmt]) (by
    unfold pldmEvent; (repeat' split) <;> simp +decide) w

@[simp] theorem queueControl_keeps {k : List Part} {s : State} (a0) (a1) (t : State) (w : within [.rem] k = true) :
    Keeps k s (queueControl a0 a1 t) ↔ Keeps k s t :=
  Keeps.iff_of (k := [.rem]) (by
    unfold queueControl; simp +decide) w

@[simp] theorem queueControls_keeps {k : List Part} {s : State} (a0) (a1) (t : State) (w : within [.rem] k = true) :
    Keeps k s (queueControls a0 a1 t) ↔ Keeps k s t :=
  Keeps.iff_of (k := [.rem]) (by
    fun_induction queueControls a0 a1 t <;> first
      | (simp +decide; done)
      | (rename_i ih; exact Keeps.trans (by simp +decide) ih)) w

@[simp] theorem rememberGong_keeps {k : List Part} {s : State} (a0) (a1) (a2) (t : State) (w : within [.launch] k = true) :
    Keeps k s (rememberGong a0 a1 a2 t) ↔ Keeps k s t :=
  Keeps.iff_of (k := [.launch]) (by
    unfold rememberGong; simp +decide) w

@[simp] theorem soundGongOn_keeps {k : List Part} {s : State} (a0) (a1) (a2) (a3) (t : State) (w : within [.rem, .launch] k = true) :
    Keeps k s (soundGongOn a0 a1 a2 a3 t) ↔ Keeps k s t :=
  Keeps.iff_of (k := [.rem, .launch]) (by
    unfold soundGongOn; simp +decide) w

@[simp] theorem deviceFaultCore_keeps {k : List Part} {s : State} (a0) (t : State) (w : within [.mb, .ctl, .rem, .launch, .mgmt, .errs] k = true) :
    Keeps k s (deviceFaultCore a0 t) ↔ Keeps k s t :=
  Keeps.iff_of (k := [.mb, .ctl, .rem, .launch, .mgmt, .errs]) (by
    unfold deviceFaultCore; simp +decide) w

@[simp] theorem pushEvents_keeps {k : List Part} {s : State} (l : List Event) (t : State)
    (w : within [.mb, .mem, .ctl, .rem, .launch, .mgmt, .errs] k = true) : Keeps k s (pushEvents l t) ↔ Keeps k s t := by
  refine Keeps.iff_of (k := [.mb, .mem, .ctl, .rem, .launch, .mgmt, .errs]) ?_ w
  induction l generalizing t with
  | nil => unfold pushEvents; simp +decide
  | cons e r ih =>
    unfold pushEvents
    dsimp only
    (repeat' split) <;> first
      | (simp +decide; done)
      | (refine Keeps.trans ?_ (ih _); simp +decide; done)

@[simp] theorem postEvent_keeps {k : List Part} {s : State} (a0) (a1) (a2) (a3) (t : State) (w : within [.mb, .mem, .ctl, .rem, .launch, .mgmt, .errs] k = true) :
    Keeps k s (postEvent a0 a1 a2 a3 t) ↔ Keeps k s t :=
  Keeps.iff_of (k := [.mb, .mem, .ctl, .rem, .launch, .mgmt, .errs]) (by
    unfold postEvent; simp +decide) w

@[simp] theorem abortBound_keeps {k : List Part} {s : State}  (t : State) (w : within [.mb, .mem, .ctl, .pools, .rem, .launch, .mgmt, .errs] k = true) :
    Keeps k s (abortBound t) ↔ Keeps k s t :=
  Keeps.iff_of (k := [.mb, .mem, .ctl, .pools, .rem, .launch, .mgmt, .errs]) (by
    unfold abortBound; simp +decide) w

@[simp] theorem residencyEvent_keeps {k : List Part} {s : State} (a0) (a1) (a2) (a3) (a4) (t : State) (w : within [.mb, .mem, .ctl, .rem, .launch, .mgmt, .errs] k = true) :
    Keeps k s (residencyEvent a0 a1 a2 a3 a4 t) ↔ Keeps k s t :=
  Keeps.iff_of (k := [.mb, .mem, .ctl, .rem, .launch, .mgmt, .errs]) (by
    unfold residencyEvent; simp +decide) w

@[simp] theorem residencyEvents_keeps {k : List Part} {s : State} (a0) (a1) (a2) (a3) (a4) (t : State) (w : within [.mb, .mem, .ctl, .rem, .launch, .mgmt, .errs] k = true) :
    Keeps k s (residencyEvents a0 a1 a2 a3 a4 t) ↔ Keeps k s t :=
  Keeps.iff_of (k := [.mb, .mem, .ctl, .rem, .launch, .mgmt, .errs]) (by
    unfold residencyEvents; simp +decide) w

@[simp] theorem abortDeferred_keeps {k : List Part} {s : State}  (t : State) (w : within [.mb, .mem, .ctl, .tier, .rem, .launch, .mgmt, .errs] k = true) :
    Keeps k s (abortDeferred t) ↔ Keeps k s t :=
  Keeps.iff_of (k := [.mb, .mem, .ctl, .tier, .rem, .launch, .mgmt, .errs]) (by
    unfold abortDeferred; simp +decide) w

@[simp] theorem resetPairs_keeps {k : List Part} {s : State}  (t : State) (w : within [.rem] k = true) :
    Keeps k s (resetPairs t) ↔ Keeps k s t :=
  Keeps.iff_of (k := [.rem]) (by
    unfold resetPairs; simp +decide) w

@[simp] theorem readersLatched_keeps {k : List Part} {s : State} (a0) (t : State) (w : within [.tier] k = true) :
    Keeps k s (readersLatched a0 t) ↔ Keeps k s t :=
  Keeps.iff_of (k := [.tier]) (by
    unfold readersLatched; simp +decide) w

@[simp] theorem withdrawSteps_keeps {k : List Part} {s : State}  (t : State) (w : within [.cells, .ctr, .ctl, .exch, .tier] k = true) :
    Keeps k s (withdrawSteps t) ↔ Keeps k s t :=
  Keeps.iff_of (k := [.cells, .ctr, .ctl, .exch, .tier]) (by
    unfold withdrawSteps; simp +decide) w

@[simp] theorem abortJobStage_keeps {k : List Part} {s : State}  (t : State) (w : within [.mb, .mem, .cells, .ctr, .ctl, .exch, .tier, .pools, .rem, .launch, .mgmt, .errs] k = true) :
    Keeps k s (abortJobStage t) ↔ Keeps k s t :=
  Keeps.iff_of (k := [.mb, .mem, .cells, .ctr, .ctl, .exch, .tier, .pools, .rem, .launch, .mgmt, .errs]) (by
    unfold abortJobStage; simp +decide) w

@[simp] theorem pealDown_keeps {k : List Part} {s : State} (a0) (a1) (a2) (a3) (t : State) (w : within [.rem] k = true) :
    Keeps k s (pealDown a0 a1 a2 a3 t) ↔ Keeps k s t :=
  Keeps.iff_of (k := [.rem]) (by
    unfold pealDown; simp +decide) w

@[simp] theorem sendDisarm_keeps {k : List Part} {s : State} (a0) (a1) (t : State) (w : within [.rem, .launch] k = true) :
    Keeps k s (sendDisarm a0 a1 t) ↔ Keeps k s t :=
  Keeps.iff_of (k := [.rem, .launch]) (by
    unfold sendDisarm; simp +decide) w

@[simp] theorem abortLaunch_keeps {k : List Part} {s : State}  (t : State) (w : within [.rem, .launch] k = true) :
    Keeps k s (abortLaunch t) ↔ Keeps k s t :=
  Keeps.iff_of (k := [.rem, .launch]) (by
    unfold abortLaunch; (repeat' split) <;> simp +decide) w

@[simp] theorem abortWaits_keeps {k : List Part} {s : State}  (t : State) (w : within [.mb, .mem, .ctl, .pools, .rem, .launch, .mgmt, .errs] k = true) :
    Keeps k s (abortWaits t) ↔ Keeps k s t :=
  Keeps.iff_of (k := [.mb, .mem, .ctl, .pools, .rem, .launch, .mgmt, .errs]) (by
    unfold abortWaits; simp +decide) w

@[simp] theorem abortedLatch_keeps {k : List Part} {s : State}  (t : State) (w : within [.ctr, .ctl, .exch] k = true) :
    Keeps k s (abortedLatch t) ↔ Keeps k s t :=
  Keeps.iff_of (k := [.ctr, .ctl, .exch]) (by
    unfold abortedLatch; simp +decide) w

@[simp] theorem engineBeat_keeps {k : List Part} {s : State}  (t : State) (w : within [.time] k = true) :
    Keeps k s (engineBeat t).2 ↔ Keeps k s t :=
  Keeps.iff_of (k := [.time]) (by
    unfold engineBeat; simp +decide) w

@[simp] theorem acceptGrant_keeps {k : List Part} {s : State} (a0) (a1) (t : State) (w : within [.ctl, .time] k = true) :
    Keeps k s (acceptGrant a0 a1 t) ↔ Keeps k s t :=
  Keeps.iff_of (k := [.ctl, .time]) (by
    unfold acceptGrant; simp +decide) w

@[simp] theorem dropArmedWindow_keeps {k : List Part} {s : State}  (t : State) (w : within [.cells] k = true) :
    Keeps k s (dropArmedWindow t) ↔ Keeps k s t :=
  Keeps.iff_of (k := [.cells]) (by
    unfold dropArmedWindow; (repeat' split) <;> simp +decide) w

@[simp] theorem acceptReplay_keeps {k : List Part} {s : State} (a0) (t : State) (w : within [.cells, .ctl, .time] k = true) :
    Keeps k s (acceptReplay a0 t) ↔ Keeps k s t :=
  Keeps.iff_of (k := [.cells, .ctl, .time]) (by
    unfold acceptReplay; simp +decide) w

@[simp] theorem addStepCount_keeps {k : List Part} {s : State} (a0) (a1) (t : State) (w : within [.ctl] k = true) :
    Keeps k s (addStepCount a0 a1 t) ↔ Keeps k s t :=
  Keeps.iff_of (k := [.ctl]) (by
    unfold addStepCount; simp +decide) w

@[simp] theorem depSet_keeps {k : List Part} {s : State} (a0) (a1) (a2) (t : State) (w : within [.ctr] k = true) :
    Keeps k s (depSet a0 a1 a2 t) ↔ Keeps k s t :=
  Keeps.iff_of (k := [.ctr]) (by
    unfold depSet; simp +decide) w

@[simp] theorem putAcceptBit_keeps {k : List Part} {s : State} (a0) (a1) (a2) (t : State) (w : within [.mem] k = true) :
    Keeps k s (putAcceptBit a0 a1 a2 t) ↔ Keeps k s t :=
  Keeps.iff_of (k := [.mem]) (by
    unfold putAcceptBit; simp +decide) w

@[simp] theorem replaceBursts_keeps {k : List Part} {s : State} (a0) (a1) (t : State) (w : within [.errs] k = true) :
    Keeps k s (replaceBursts a0 a1 t) ↔ Keeps k s t :=
  Keeps.iff_of (k := [.errs]) (by
    unfold replaceBursts; simp +decide) w

@[simp] theorem putBytes_keeps {k : List Part} {s : State} (a0) (a1) (t : State) (w : within [.mem, .errs] k = true) :
    Keeps k s (putBytes a0 a1 t) ↔ Keeps k s t :=
  Keeps.iff_of (k := [.mem, .errs]) (by
    unfold putBytes; simp +decide) w

@[simp] theorem acceptSlot_keeps {k : List Part} {s : State} (a0) (a1) (a2) (a3) (a4) (a5) (t : State) (w : within [.mem, .ctr, .ctl, .exch, .errs] k = true) :
    Keeps k s (acceptSlot a0 a1 a2 a3 a4 a5 t) ↔ Keeps k s t :=
  Keeps.iff_of (k := [.mem, .ctr, .ctl, .exch, .errs]) (by
    unfold acceptSlot; simp +decide) w

@[simp] theorem ackDeadlineEffect_keeps {k : List Part} {s : State}  (t : State) (w : within [.rem, .launch] k = true) :
    Keeps k s (ackDeadlineEffect t) ↔ Keeps k s t :=
  Keeps.iff_of (k := [.rem, .launch]) (by
    unfold ackDeadlineEffect; (repeat' split) <;> simp +decide) w

@[simp] theorem addCount_keeps {k : List Part} {s : State} (a0) (a1) (t : State) (w : within [.errs] k = true) :
    Keeps k s (addCount a0 a1 t) ↔ Keeps k s t :=
  Keeps.iff_of (k := [.errs]) (by
    unfold addCount; simp +decide) w

@[simp] theorem setPort_keeps {k : List Part} {s : State} (a0) (a1) (t : State) (w : within [.fab] k = true) :
    Keeps k s (setPort a0 a1 t) ↔ Keeps k s t :=
  Keeps.iff_of (k := [.fab]) (by
    unfold setPort; simp +decide) w

@[simp] theorem mapPort_keeps {k : List Part} {s : State} (a0) (a1) (t : State) (w : within [.fab] k = true) :
    Keeps k s (mapPort a0 a1 t) ↔ Keeps k s t :=
  Keeps.iff_of (k := [.fab]) (by
    unfold mapPort; simp +decide) w

@[simp] theorem giveUnits_keeps {k : List Part} {s : State} (a0) (a1) (a2) (t : State) (w : within [.fab] k = true) :
    Keeps k s (giveUnits a0 a1 a2 t) ↔ Keeps k s t :=
  Keeps.iff_of (k := [.fab]) (by
    unfold giveUnits; simp +decide) w

@[simp] theorem leaveBuffer_keeps {k : List Part} {s : State} (a0) (a1) (t : State) (w : within [.fab] k = true) :
    Keeps k s (leaveBuffer a0 a1 t) ↔ Keeps k s t :=
  Keeps.iff_of (k := [.fab]) (by
    unfold leaveBuffer; (repeat' split) <;> simp +decide) w

@[simp] theorem dispatchPacket_keeps {k : List Part} {s : State} (a0) (a1) (a2) (t : State) (w : within [.rem] k = true) :
    Keeps k s (dispatchPacket a0 a1 a2 t) ↔ Keeps k s t :=
  Keeps.iff_of (k := [.rem]) (by
    unfold dispatchPacket; simp +decide) w

@[simp] theorem sendAnswer_keeps {k : List Part} {s : State} (a0) (a1) (a2) (a3) (a4) (a5) (a6) (a7) (a8) (t : State) (w : within [.rem] k = true) :
    Keeps k s (sendAnswer a0 a1 a2 a3 a4 a5 a6 a7 a8 t) ↔ Keeps k s t :=
  Keeps.iff_of (k := [.rem]) (by
    unfold sendAnswer; simp +decide) w

@[simp] theorem sendReply_keeps {k : List Part} {s : State} (a0) (a1) (a2) (a3) (a4) (a5) (t : State) (w : within [.rem] k = true) :
    Keeps k s (sendReply a0 a1 a2 a3 a4 a5 t) ↔ Keeps k s t :=
  Keeps.iff_of (k := [.rem]) (by
    unfold sendReply; simp +decide) w

@[simp] theorem ackLanded_keeps {k : List Part} {s : State} (a0) (t : State) (w : within [.rem] k = true) :
    Keeps k s (ackLanded a0 t) ↔ Keeps k s t :=
  Keeps.iff_of (k := [.rem]) (by
    unfold ackLanded; simp +decide) w

@[simp] theorem setPair_keeps {k : List Part} {s : State} (a0) (a1) (t : State) (w : within [.rem] k = true) :
    Keeps k s (setPair a0 a1 t) ↔ Keeps k s t :=
  Keeps.iff_of (k := [.rem]) (by
    unfold setPair; simp +decide) w

@[simp] theorem addSeen_keeps {k : List Part} {s : State} (a0) (t : State) (w : within [.rem] k = true) :
    Keeps k s (addSeen a0 t) ↔ Keeps k s t :=
  Keeps.iff_of (k := [.rem]) (by
    unfold addSeen; simp +decide) w

@[simp] theorem answerKept_keeps {k : List Part} {s : State} (a0) (t : State) (w : within [.rem] k = true) :
    Keeps k s (answerKept a0 t) ↔ Keeps k s t :=
  Keeps.iff_of (k := [.rem]) (by
    unfold answerKept; (repeat' split) <;> simp +decide) w

@[simp] theorem stepFault_keeps {k : List Part} {s : State} (a0) (t : State) (w : within [.ctl, .rem, .launch] k = true) :
    Keeps k s (stepFault a0 t) ↔ Keeps k s t :=
  Keeps.iff_of (k := [.ctl, .rem, .launch]) (by
    unfold stepFault; (repeat' split) <;> simp +decide) w

@[simp] theorem faultIf_keeps {k : List Part} {s : State} (a0) (a1) (t : State) (w : within [.ctl, .rem, .launch] k = true) :
    Keeps k s (faultIf a0 a1 t) ↔ Keeps k s t :=
  Keeps.iff_of (k := [.ctl, .rem, .launch]) (by
    unfold faultIf; simp +decide) w

@[simp] theorem arrAdd_keeps {k : List Part} {s : State} (a0) (a1) (a2) (t : State) (w : within [.ctr, .ctl, .rem, .launch] k = true) :
    Keeps k s (arrAdd a0 a1 a2 t) ↔ Keeps k s t :=
  Keeps.iff_of (k := [.ctr, .ctl, .rem, .launch]) (by
    unfold arrAdd; simp +decide) w

@[simp] theorem perfAdd_keeps {k : List Part} {s : State} (a0) (a1) (a2) (t : State) (w : within [.dbg] k = true) :
    Keeps k s (perfAdd a0 a1 a2 t) ↔ Keeps k s t :=
  Keeps.iff_of (k := [.dbg]) (by
    unfold perfAdd; simp +decide) w

@[simp] theorem progress_keeps {k : List Part} {s : State}  (t : State) (w : within [.ctl] k = true) :
    Keeps k s (progress t) ↔ Keeps k s t :=
  Keeps.iff_of (k := [.ctl]) (by
    unfold progress; (repeat' split) <;> simp +decide) w

@[simp] theorem strobe_keeps {k : List Part} {s : State} (a0) (t : State) (w : within [.dbg] k = true) :
    Keeps k s (strobe a0 t) ↔ Keeps k s t :=
  Keeps.iff_of (k := [.dbg]) (by
    unfold strobe; simp +decide) w

@[simp] theorem tallyAdd_keeps {k : List Part} {s : State} (a0) (a1) (a2) (t : State) (w : within [.ctr] k = true) :
    Keeps k s (tallyAdd a0 a1 a2 t) ↔ Keeps k s t :=
  Keeps.iff_of (k := [.ctr]) (by
    unfold tallyAdd; simp +decide) w

@[simp] theorem noteLanding_keeps {k : List Part} {s : State} (a0) (t : State) (w : within [.ctl, .dbg] k = true) :
    Keeps k s (noteLanding a0 t) ↔ Keeps k s t :=
  Keeps.iff_of (k := [.ctl, .dbg]) (by
    unfold noteLanding; simp +decide) w

@[simp] theorem landCount_keeps {k : List Part} {s : State} (a0) (a1) (a2) (a3) (t : State) (w : within [.ctr, .ctl, .rem, .launch, .dbg] k = true) :
    Keeps k s (landCount a0 a1 a2 a3 t) ↔ Keeps k s t :=
  Keeps.iff_of (k := [.ctr, .ctl, .rem, .launch, .dbg]) (by
    unfold landCount; (repeat' split) <;> simp +decide) w

@[simp] theorem writeLine_keeps {k : List Part} {s : State} (a0) (t : State) (w : within [.mem, .ctr, .ctl, .rem, .launch, .errs, .dbg] k = true) :
    Keeps k s (writeLine a0 t) ↔ Keeps k s t :=
  Keeps.iff_of (k := [.mem, .ctr, .ctl, .rem, .launch, .errs, .dbg]) (by
    unfold writeLine; simp +decide) w

@[simp] theorem touchLines_keeps {k : List Part} {s : State} (a0) (a1) (t : State) (w : within [.mem, .ctr, .ctl, .rem, .launch, .errs, .dbg] k = true) :
    Keeps k s (touchLines a0 a1 t) ↔ Keeps k s t :=
  Keeps.iff_of (k := [.mem, .ctr, .ctl, .rem, .launch, .errs, .dbg]) (by
    unfold touchLines; simp +decide) w

@[simp] theorem deviceFault_keeps {k : List Part} {s : State} (a0) (t : State) (w : within [.mb, .mem, .ctl, .rem, .launch, .mgmt, .errs] k = true) :
    Keeps k s (deviceFault a0 t) ↔ Keeps k s t :=
  Keeps.iff_of (k := [.mb, .mem, .ctl, .rem, .launch, .mgmt, .errs]) (by
    unfold deviceFault; simp +decide) w

@[simp] theorem sramCorrected_keeps {k : List Part} {s : State} (a0) (t : State) (w : within [.errs] k = true) :
    Keeps k s (sramCorrected a0 t) ↔ Keeps k s t :=
  Keeps.iff_of (k := [.errs]) (by
    unfold sramCorrected; simp +decide) w

@[simp] theorem hbmCorrected_keeps {k : List Part} {s : State} (a0) (t : State) (w : within [.errs] k = true) :
    Keeps k s (hbmCorrected a0 t) ↔ Keeps k s t :=
  Keeps.iff_of (k := [.errs]) (by
    unfold hbmCorrected; simp +decide) w

@[simp] theorem hbmUncorrectable_keeps {k : List Part} {s : State} (a0) (t : State) (w : within [.errs] k = true) :
    Keeps k s (hbmUncorrectable a0 t) ↔ Keeps k s t :=
  Keeps.iff_of (k := [.errs]) (by
    unfold hbmUncorrectable; simp +decide) w

@[simp] theorem cellFault_keeps {k : List Part} {s : State} (a0) (a1) (t : State) (w : within [.ctl, .rem, .launch, .errs] k = true) :
    Keeps k s (cellFault a0 a1 t) ↔ Keeps k s t :=
  Keeps.iff_of (k := [.ctl, .rem, .launch, .errs]) (by
    unfold cellFault; simp +decide) w

@[simp] theorem faultIn_keeps {k : List Part} {s : State} (a0) (a1) (t : State) (w : within [.ctl, .rem, .launch, .errs] k = true) :
    Keeps k s (faultIn a0 a1 t) ↔ Keeps k s t :=
  Keeps.iff_of (k := [.ctl, .rem, .launch, .errs]) (by
    unfold faultIn; (repeat' split) <;> simp +decide) w

@[simp] theorem unitFault_keeps {k : List Part} {s : State} (a0) (a1) (a2) (t : State) (w : within [.ctl, .rem, .launch, .errs] k = true) :
    Keeps k s (unitFault a0 a1 a2 t) ↔ Keeps k s t :=
  Keeps.iff_of (k := [.ctl, .rem, .launch, .errs]) (by
    unfold unitFault; simp +decide) w

@[simp] theorem readHealth_keeps {k : List Part} {s : State} (a0) (a1) (a2) (t : State) (w : within [.mb, .mem, .ctl, .rem, .launch, .mgmt, .errs] k = true) :
    Keeps k s (readHealth a0 a1 a2 t).2 ↔ Keeps k s t :=
  Keeps.iff_of (k := [.mb, .mem, .ctl, .rem, .launch, .mgmt, .errs]) (by
    unfold readHealth; (repeat' split) <;> simp +decide) w

/-- What a read finds of words marked bad raises a step fault and counts; it posts no event. -/
theorem metHealth_keeps {k : List Part} {s : State} (cls cell : Nat) (hits : Nat → Nat → Bool) (t : State)
    (w : within [.ctl, .rem, .launch, .errs] k = true) :
    Keeps k s (readHealth cls cell (metHealth hits t) t).2 ↔ Keeps k s t :=
  Keeps.iff_of (k := [.ctl, .rem, .launch, .errs]) (by
    unfold metHealth; (repeat' split) <;> simp +decide [readHealth]) w

@[simp] theorem windowRead_keeps {k : List Part} {s : State} (a n : Nat) (f : State → State) (t : State)
    (w : within [.ctl, .rem, .launch, .errs] k = true) (h : ∀ u, Keeps k u (f u)) :
    Keeps k s (windowRead a n f t) ↔ Keeps k s t := by
  refine Keeps.iff_of (k := k) ?_ (by simp [within])
  unfold windowRead
  split
  · split
    · exact h t
    · exact Keeps.mono (k := [.ctl, .rem, .launch, .errs]) ((metHealth_keeps _ _ _ _ (by decide)).2 (Keeps.refl _ _)) w
  · exact Keeps.mono (k := [.ctl, .rem, .launch, .errs]) (by simp +decide) w

@[simp] theorem answerLoad_keeps {k : List Part} {s : State} (f : State → State) (a : Nat) (p : Packet) (t : State)
    (w : within [.mem, .ctr, .ctl, .rem, .launch, .errs, .dbg] k = true) (h : ∀ u, Keeps k u (f u)) :
    Keeps k s (answerLoad f a p t) ↔ Keeps k s t := by
  unfold answerLoad
  have w1 := within_of w (a := [.ctl, .rem, .launch, .errs]) (by decide)
  have w2 := within_of w (a := [.rem]) (by decide)
  exact (windowRead_keeps _ _ _ _ w1 fun u => (sendReply_keeps _ _ _ _ _ _ _ w2).2 (h u)).trans
    (touchLines_keeps _ _ _ w)

@[simp] theorem answerAtomic_keeps {k : List Part} {s : State} (a0) (a1) (a2) (t : State) (w : within [.ctl, .rem] k = true) :
    Keeps k s (answerAtomic a0 a1 a2 t) ↔ Keeps k s t :=
  Keeps.iff_of (k := [.ctl, .rem]) (by
    unfold answerAtomic; simp +decide) w

@[simp] theorem applyAcross_keeps {k : List Part} {s : State} (a0) (a1) (t : State) (w : within [.mem, .ctr, .ctl, .rem, .launch, .errs, .dbg] k = true) :
    Keeps k s (applyAcross a0 a1 t) ↔ Keeps k s t :=
  Keeps.iff_of (k := [.mem, .ctr, .ctl, .rem, .launch, .errs, .dbg]) (by
    unfold applyAcross; simp +decide) w

@[simp] theorem applyInLine_keeps {k : List Part} {s : State} (a0) (a1) (t : State) (w : within [.mem, .ctr, .ctl, .rem, .launch, .errs, .dbg] k = true) :
    Keeps k s (applyInLine a0 a1 t) ↔ Keeps k s t :=
  Keeps.iff_of (k := [.mem, .ctr, .ctl, .rem, .launch, .errs, .dbg]) (by
    unfold applyInLine; simp +decide) w

@[simp] theorem applyAtomic_keeps {k : List Part} {s : State} (a0) (a1) (t : State) (w : within [.mem, .ctr, .ctl, .rem, .launch, .errs, .dbg] k = true) :
    Keeps k s (applyAtomic a0 a1 t) ↔ Keeps k s t :=
  Keeps.iff_of (k := [.mem, .ctr, .ctl, .rem, .launch, .errs, .dbg]) (by
    unfold applyAtomic; (repeat' split) <;> simp +decide) w

@[simp] theorem countLanding_keeps {k : List Part} {s : State} (a0) (t : State) (w : within [.ctr, .ctl, .rem, .launch, .dbg] k = true) :
    Keeps k s (countLanding a0 t) ↔ Keeps k s t :=
  Keeps.iff_of (k := [.ctr, .ctl, .rem, .launch, .dbg]) (by
    unfold countLanding; simp +decide) w

@[simp] theorem applyStore_keeps {k : List Part} {s : State} (a0) (a1) (t : State) (w : within [.mem, .ctr, .ctl, .rem, .launch, .errs, .dbg] k = true) :
    Keeps k s (applyStore a0 a1 t) ↔ Keeps k s t :=
  Keeps.iff_of (k := [.mem, .ctr, .ctl, .rem, .launch, .errs, .dbg]) (by
    unfold applyStore; simp +decide) w

@[simp] theorem flushLines_keeps {k : List Part} {s : State}  (t : State) (w : within [.mem, .ctr, .ctl, .rem, .launch, .errs, .dbg] k = true) :
    Keeps k s (flushLines t) ↔ Keeps k s t :=
  Keeps.iff_of (k := [.mem, .ctr, .ctl, .rem, .launch, .errs, .dbg]) (by
    unfold flushLines; simp +decide) w

@[simp] theorem refuseRequest_keeps {k : List Part} {s : State} (a0) (a1) (a2) (t : State) (w : within [.ctl, .rem, .launch, .errs] k = true) :
    Keeps k s (refuseRequest a0 a1 a2 t) ↔ Keeps k s t :=
  Keeps.iff_of (k := [.ctl, .rem, .launch, .errs]) (by
    unfold refuseRequest; simp +decide) w

@[simp] theorem serveRequest_keeps {k : List Part} {s : State} (again apply : Nat → Packet → State → State) (p : Packet)
    (t : State) (w : within [.ctl, .rem, .launch, .errs] k = true) (h : ∀ a q u, Keeps k u (again a q u))
    (g : ∀ a q u, Keeps k u (apply a q u)) :
    Keeps k s (serveRequest again apply p t) ↔ Keeps k s t := by
  refine Keeps.iff_of (k := k) ?_ (by simp [within])
  unfold serveRequest
  split
  · exact (Keeps.mono (k := [.ctl, .rem, .launch, .errs]) (by simp +decide) w)
  · split
    · exact Keeps.trans (Keeps.mono (k := [.ctl, .rem, .launch, .errs]) (by simp +decide) w) (h _ _ _)
    · split
      · exact g _ _ _
      · exact (Keeps.mono (k := [.ctl, .rem, .launch, .errs]) (by simp +decide) w)

@[simp] theorem tableGet_keeps {k : List Part} {s : State} (a0) (a1) (t : State) (w : within [.mem, .ctr, .ctl, .rem, .launch, .errs, .dbg] k = true) :
    Keeps k s (tableGet a0 a1 t) ↔ Keeps k s t :=
  Keeps.iff_of (k := [.mem, .ctr, .ctl, .rem, .launch, .errs, .dbg]) (by
    unfold tableGet; simp +decide) w

@[simp] theorem serveOp_keeps {k : List Part} {s : State} (a0) (t : State) (w : within [.mem, .ctr, .ctl, .rem, .launch, .errs, .dbg] k = true) :
    Keeps k s (serveOp a0 t) ↔ Keeps k s t :=
  Keeps.iff_of (k := [.mem, .ctr, .ctl, .rem, .launch, .errs, .dbg]) (by
    unfold serveOp
    dsimp only
    (repeat' split) <;> first
      | (simp +decide; done)
      | exact (serveRequest_keeps _ _ _ _ (by decide)
          (fun a q u => (answerLoad_keeps id a q u (by decide) fun v => Keeps.refl _ v).2 (Keeps.refl _ u))
          fun a q u => (answerLoad_keeps _ a q u (by decide) fun v => by simp +decide).2 (Keeps.refl _ u)).2
          (Keeps.refl _ _)) w

@[simp] theorem takeWaiting_keeps {k : List Part} {s : State} (a0) (a1) (t : State) (w : within [.mem, .ctr, .ctl, .rem, .fab, .launch, .errs, .dbg] k = true) :
    Keeps k s (takeWaiting a0 a1 t) ↔ Keeps k s t :=
  Keeps.iff_of (k := [.mem, .ctr, .ctl, .rem, .fab, .launch, .errs, .dbg]) (by
    unfold takeWaiting; simp +decide) w

@[simp] theorem takeLanes_keeps {k : List Part} {s : State} (a0) (t : State) (w : within [.mem, .ctr, .ctl, .rem, .fab, .launch, .errs, .dbg] k = true) :
    Keeps k s (takeLanes a0 t) ↔ Keeps k s t :=
  Keeps.iff_of (k := [.mem, .ctr, .ctl, .rem, .fab, .launch, .errs, .dbg]) (by
    fun_induction takeLanes a0 t <;> first
      | (simp +decide; done)
      | (rename_i ih; exact Keeps.trans (by simp +decide) ih)) w

@[simp] theorem noteKeptFull_keeps {k : List Part} {s : State} (t : State) (w : within [.rem, .errs] k = true) :
    Keeps k s (noteKeptFull t) ↔ Keeps k s t :=
  Keeps.iff_of (k := [.rem, .errs]) (by
    unfold noteKeptFull; simp only []; (repeat' split) <;> simp +decide) w

@[simp] theorem settleLanes_keeps {k : List Part} {s : State}  (t : State) (w : within [.mem, .ctr, .ctl, .rem, .fab, .launch, .errs, .dbg] k = true) :
    Keeps k s (settleLanes t) ↔ Keeps k s t :=
  Keeps.iff_of (k := [.mem, .ctr, .ctl, .rem, .fab, .launch, .errs, .dbg]) (by
    unfold settleLanes; simp +decide) w

@[simp] theorem dropRequest_keeps {k : List Part} {s : State} (a0) (t : State) (w : within [.rem] k = true) :
    Keeps k s (dropRequest a0 t) ↔ Keeps k s t :=
  Keeps.iff_of (k := [.rem]) (by
    unfold dropRequest; simp +decide) w

@[simp] theorem markDone_keeps {k : List Part} {s : State} (a0) (a1) (t : State) (w : within [.rem] k = true) :
    Keeps k s (markDone a0 a1 t) ↔ Keeps k s t :=
  Keeps.iff_of (k := [.rem]) (by
    unfold markDone; simp +decide) w

@[simp] theorem endRequest_keeps {k : List Part} {s : State} (a0) (t : State) (w : within [.rem] k = true) :
    Keeps k s (endRequest a0 t) ↔ Keeps k s t :=
  Keeps.iff_of (k := [.rem]) (by
    unfold endRequest; simp +decide) w

@[simp] theorem takeCum_keeps {k : List Part} {s : State} (a0) (a1) (t : State) (w : within [.rem] k = true) :
    Keeps k s (takeCum a0 a1 t) ↔ Keeps k s t :=
  Keeps.iff_of (k := [.rem]) (by
    unfold takeCum; simp +decide) w

@[simp] theorem takeAnswer_keeps {k : List Part} {s : State} (ops : List Nat) (f : Request → State → State) (p : Packet)
    (t : State) (w : within [.mem, .ctr, .ctl, .rem, .fab, .launch, .errs, .dbg] k = true) (h : ∀ r u, Keeps k u (f r u)) :
    Keeps k s (takeAnswer ops f p t) ↔ Keeps k s t := by
  refine Keeps.iff_of (k := k) ?_ (by simp [within])
  have w1 : within [.errs] k = true := within_of w (by decide)
  have w2 : within [.rem] k = true := within_of w (by decide)
  unfold takeAnswer
  split
  · simp [w1]
  · exact (settleLanes_keeps _ (within_of w (by decide))).2 (Keeps.trans (by simp [w2]) (h _ _))

@[simp] theorem ackEffect_keeps {k : List Part} {s : State} (a0) (t : State) (w : within [.mem, .ctr, .ctl, .rem, .fab, .launch, .errs, .dbg] k = true) :
    Keeps k s (ackEffect a0 t) ↔ Keeps k s t :=
  Keeps.iff_of (k := [.mem, .ctr, .ctl, .rem, .fab, .launch, .errs, .dbg]) (by
    unfold ackEffect; simp +decide) w

@[simp] theorem ackPealEffect_keeps {k : List Part} {s : State} (a0) (a1) (t : State) (w : within [.rem, .launch, .errs] k = true) :
    Keeps k s (ackPealEffect a0 a1 t) ↔ Keeps k s t :=
  Keeps.iff_of (k := [.rem, .launch, .errs]) (by
    unfold ackPealEffect; simp only []; (repeat' split) <;> simp +decide) w

@[simp] theorem setCell_keeps {k : List Part} {s : State} (a0) (a1) (t : State) (w : within [.cells] k = true) :
    Keeps k s (setCell a0 a1 t) ↔ Keeps k s t :=
  Keeps.iff_of (k := [.cells]) (by
    unfold setCell; simp +decide) w

@[simp] theorem addFlight_keeps {k : List Part} {s : State} (a0) (a1) (a2) (t : State) (w : within [.cells] k = true) :
    Keeps k s (addFlight a0 a1 a2 t) ↔ Keeps k s t :=
  Keeps.iff_of (k := [.cells]) (by
    unfold addFlight; simp +decide) w

@[simp] theorem addStallEvent_keeps {k : List Part} {s : State} (a0) (t : State) (w : within [.ctl] k = true) :
    Keeps k s (addStallEvent a0 t) ↔ Keeps k s t :=
  Keeps.iff_of (k := [.ctl]) (by
    unfold addStallEvent; simp +decide) w

@[simp] theorem addStallTicks_keeps {k : List Part} {s : State} (a0) (t : State) (w : within [.ctl] k = true) :
    Keeps k s (addStallTicks a0 t) ↔ Keeps k s t :=
  Keeps.iff_of (k := [.ctl]) (by
    fun_induction addStallTicks a0 t <;> first
      | (simp +decide; done)
      | (rename_i ih; exact Keeps.trans (by simp +decide) ih)) w

@[simp] theorem addStepCodes_keeps {k : List Part} {s : State} (a0) (t : State) (w : within [.ctl] k = true) :
    Keeps k s (addStepCodes a0 t) ↔ Keeps k s t :=
  Keeps.iff_of (k := [.ctl]) (by
    unfold addStepCodes; simp +decide) w

@[simp] theorem takeBuffer_keeps {k : List Part} {s : State} (a0) (a1) (a2) (a3) (a4) (t : State) (w : within [.pools] k = true) :
    Keeps k s (takeBuffer a0 a1 a2 a3 a4 t) ↔ Keeps k s t :=
  Keeps.iff_of (k := [.pools]) (by
    unfold takeBuffer; simp +decide) w

theorem allocate_keeps {cl len owner h : Nat} {t u : State} (e : allocate? cl len owner t = some (h, u)) :
    Keeps [.pools] t u := by
  unfold allocate? at e
  obtain ⟨k, _, hk⟩ := List.exists_of_findSome?_eq_some e
  simp only [Option.map_eq_some_iff, Prod.mk.injEq] at hk
  obtain ⟨i, _, _, rfl⟩ := hk
  simp +decide

@[simp] theorem giveStage_keeps {k : List Part} {s : State} (a0) (a1) (a2) (t : State) (w : within [.flash] k = true) :
    Keeps k s (giveStage a0 a1 a2 t) ↔ Keeps k s t :=
  Keeps.iff_of (k := [.flash]) (by
    unfold giveStage; simp +decide) w

@[simp] theorem grantWait_keeps {k : List Part} {s : State} (a0) (a1) (t : State) (w : within [.mb, .mem, .ctl, .tier, .flash, .rem, .launch, .mgmt, .errs] k = true) :
    Keeps k s (grantWait a0 a1 t) ↔ Keeps k s t :=
  Keeps.iff_of (k := [.mb, .mem, .ctl, .tier, .flash, .rem, .launch, .mgmt, .errs]) (by
    unfold grantWait; (repeat' split) <;> simp +decide) w

@[simp] theorem serveWaits_keeps {k : List Part} {s : State} (l : List PoolWait) (t : State)
    (w : within [.mb, .mem, .ctl, .tier, .flash, .pools, .rem, .launch, .mgmt, .errs] k = true) : Keeps k s (serveWaits l t) ↔ Keeps k s t := by
  refine Keeps.iff_of (k := [.mb, .mem, .ctl, .tier, .flash, .pools, .rem, .launch, .mgmt, .errs]) ?_ w
  induction l generalizing t with
  | nil => unfold serveWaits; simp +decide
  | cons e r ih =>
    unfold serveWaits
    split
    · next h u he => exact Keeps.trans ((allocate_keeps he).mono (by decide)) (Keeps.trans (by simp +decide) (ih _))
    · exact Keeps.trans (by simp +decide) (ih _)

@[simp] theorem runWaits_keeps {k : List Part} {s : State}  (t : State) (w : within [.mb, .mem, .ctl, .tier, .flash, .pools, .rem, .launch, .mgmt, .errs] k = true) :
    Keeps k s (runWaits t) ↔ Keeps k s t :=
  Keeps.iff_of (k := [.mb, .mem, .ctl, .tier, .flash, .pools, .rem, .launch, .mgmt, .errs]) (by
    unfold runWaits; simp +decide) w

@[simp] theorem freeBuffer_keeps {k : List Part} {s : State} (a0) (t : State) (w : within [.mb, .mem, .ctl, .tier, .flash, .pools, .rem, .launch, .mgmt, .errs] k = true) :
    Keeps k s (freeBuffer a0 t) ↔ Keeps k s t :=
  Keeps.iff_of (k := [.mb, .mem, .ctl, .tier, .flash, .pools, .rem, .launch, .mgmt, .errs]) (by
    unfold freeBuffer; simp +decide) w

@[simp] theorem mapBuffer_keeps {k : List Part} {s : State} (a0) (a1) (t : State) (w : within [.pools] k = true) :
    Keeps k s (mapBuffer a0 a1 t) ↔ Keeps k s t :=
  Keeps.iff_of (k := [.pools]) (by
    unfold mapBuffer; simp +decide) w

@[simp] theorem applyFree_keeps {k : List Part} {s : State} (h owner tag step : Nat) (t : State)
    (w : within [.pools] k = true) : Keeps k s (applyFree h owner tag step t).2.1 ↔ Keeps k s t := by
  refine Keeps.iff_of (k := [.pools]) ?_ w
  unfold applyFree
  (repeat' (first | split | dsimp only)) <;> simp +decide

@[simp] theorem applyFree_then {k : List Part} {s : State} (h owner tag step : Nat) (t u : State)
    (w : within [.mb, .mem, .ctl, .tier, .flash, .pools, .rem, .launch, .mgmt, .errs] k = true) : Keeps k s ((applyFree h owner tag step t).2.2 u) ↔ Keeps k s u := by
  refine Keeps.iff_of (k := [.mb, .mem, .ctl, .tier, .flash, .pools, .rem, .launch, .mgmt, .errs]) ?_ w
  unfold applyFree
  (repeat' (first | split | dsimp only)) <;> simp +decide

@[simp] theorem applyRelease_keeps {k : List Part} {s : State} (h owner : Nat) (t : State)
    (w : within [.pools] k = true) : Keeps k s (applyRelease h owner t).2.1 ↔ Keeps k s t := by
  refine Keeps.iff_of (k := [.pools]) ?_ w
  unfold applyRelease
  (repeat' (first | split | dsimp only)) <;> simp +decide

@[simp] theorem applyRelease_then {k : List Part} {s : State} (h owner : Nat) (t u : State)
    (w : within [.mb, .mem, .ctl, .tier, .flash, .pools, .rem, .launch, .mgmt, .errs] k = true) : Keeps k s ((applyRelease h owner t).2.2 u) ↔ Keeps k s u := by
  refine Keeps.iff_of (k := [.mb, .mem, .ctl, .tier, .flash, .pools, .rem, .launch, .mgmt, .errs]) ?_ w
  unfold applyRelease
  (repeat' (first | split | dsimp only)) <;> simp +decide

@[simp] theorem applyPool_keeps {k : List Part} {s : State} (free : Bool) (h owner tag step : Nat) (t : State)
    (w : within [.pools] k = true) : Keeps k s (applyPool free h owner tag step t).2.1 ↔ Keeps k s t := by
  unfold applyPool; split <;> simp [w]

@[simp] theorem applyPool_then {k : List Part} {s : State} (free : Bool) (h owner tag step : Nat) (t u : State)
    (w : within [.mb, .mem, .ctl, .tier, .flash, .pools, .rem, .launch, .mgmt, .errs] k = true) : Keeps k s ((applyPool free h owner tag step t).2.2 u) ↔ Keeps k s u := by
  unfold applyPool; split <;> simp [w]

@[simp] theorem applyBound_keeps {k : List Part} {s : State} (a0) (t : State) (w : within [.mb, .mem, .ctl, .tier, .flash, .pools, .rem, .launch, .mgmt, .errs] k = true) :
    Keeps k s (applyBound a0 t) ↔ Keeps k s t :=
  Keeps.iff_of (k := [.mb, .mem, .ctl, .tier, .flash, .pools, .rem, .launch, .mgmt, .errs]) (by
    unfold applyBound; simp +decide) w

@[simp] theorem writeAll_keeps {k : List Part} {s : State} (a0) (t : State) (w : within [.mem, .errs] k = true) :
    Keeps k s (writeAll a0 t) ↔ Keeps k s t :=
  Keeps.iff_of (k := [.mem, .errs]) (by
    unfold writeAll; simp +decide) w

@[simp] theorem applyLanding_keeps {k : List Part} {s : State} (a0) (t : State) (w : within [.mem, .ctl, .exch, .errs] k = true) :
    Keeps k s (applyLanding a0 t) ↔ Keeps k s t :=
  Keeps.iff_of (k := [.mem, .ctl, .exch, .errs]) (by
    unfold applyLanding; simp +decide) w

@[simp] theorem landingFault_keeps {k : List Part} {s : State} (a0) (a1) (t : State) (w : within [.ctl, .rem, .launch] k = true) :
    Keeps k s (landingFault a0 a1 t) ↔ Keeps k s t :=
  Keeps.iff_of (k := [.ctl, .rem, .launch]) (by
    unfold landingFault; simp +decide) w

@[simp] theorem applyLandings_keeps {k : List Part} {s : State} (a0) (a1) (t : State) (w : within [.mem, .ctl, .exch, .rem, .launch, .errs] k = true) :
    Keeps k s (applyLandings a0 a1 t) ↔ Keeps k s t :=
  Keeps.iff_of (k := [.mem, .ctl, .exch, .rem, .launch, .errs]) (by
    unfold applyLandings; (repeat' split) <;> simp +decide) w

@[simp] theorem applyShare_keeps {k : List Part} {s : State} (a0) (a1) (a2) (t : State) (w : within [.pools] k = true) :
    Keeps k s (applyShare a0 a1 a2 t).2 ↔ Keeps k s t :=
  Keeps.iff_of (k := [.pools]) (by
    unfold applyShare; (repeat' split) <;> simp +decide) w

@[simp] theorem depAdd_keeps {k : List Part} {s : State} (a0) (a1) (a2) (t : State) (w : within [.ctr, .ctl, .rem, .launch] k = true) :
    Keeps k s (depAdd a0 a1 a2 t) ↔ Keeps k s t :=
  Keeps.iff_of (k := [.ctr, .ctl, .rem, .launch]) (by
    unfold depAdd; simp +decide) w

@[simp] theorem applySignal_keeps {k : List Part} {s : State} (a0) (a1) (t : State) (w : within [.ctr, .ctl, .rem, .launch] k = true) :
    Keeps k s (applySignal a0 a1 t) ↔ Keeps k s t :=
  Keeps.iff_of (k := [.ctr, .ctl, .rem, .launch]) (by
    unfold applySignal; simp +decide) w

@[simp] theorem putWindow_keeps {k : List Part} {s : State} (a0) (a1) (t : State) (w : within [.rem] k = true) :
    Keeps k s (putWindow a0 a1 t) ↔ Keeps k s t :=
  Keeps.iff_of (k := [.rem]) (by
    unfold putWindow; simp +decide) w

@[simp] theorem applyWindow_keeps {k : List Part} {s : State} (a0) (a1) (a2) (t : State) (w : within [.rem] k = true) :
    Keeps k s (applyWindow a0 a1 a2 t).endState ↔ Keeps k s t :=
  Keeps.iff_of (k := [.rem]) (by
    unfold applyWindow; simp +decide) w

@[simp] theorem armAcknowledgeEffect_keeps {k : List Part} {s : State}  (t : State) (w : within [.rem, .launch] k = true) :
    Keeps k s (armAcknowledgeEffect t) ↔ Keeps k s t :=
  Keeps.iff_of (k := [.rem, .launch]) (by
    unfold armAcknowledgeEffect; (repeat' split) <;> simp +decide) w

@[simp] theorem noteForward_keeps {k : List Part} {s : State} (a0) (t : State) (w : within [.launch] k = true) :
    Keeps k s (noteForward a0 t) ↔ Keeps k s t :=
  Keeps.iff_of (k := [.launch]) (by
    unfold noteForward; simp +decide) w

@[simp] theorem forwardPeal_keeps {k : List Part} {s : State} (a0) (t : State) (w : within [.rem, .launch] k = true) :
    Keeps k s (forwardPeal a0 t) ↔ Keeps k s t :=
  Keeps.iff_of (k := [.rem, .launch]) (by
    unfold forwardPeal; (repeat' split) <;> simp +decide) w

@[simp] theorem launchEvent_keeps {k : List Part} {s : State} (a0) (a1) (a2) (t : State) (w : within [.mb, .mem, .ctl, .rem, .launch, .mgmt, .errs] k = true) :
    Keeps k s (launchEvent a0 a1 a2 t) ↔ Keeps k s t :=
  Keeps.iff_of (k := [.mb, .mem, .ctl, .rem, .launch, .mgmt, .errs]) (by
    unfold launchEvent; simp +decide) w

@[simp] theorem closeCommands_keeps {k : List Part} {s : State} (a0) (a1) (t : State) (w : within [.mb] k = true) :
    Keeps k s (closeCommands a0 a1 t) ↔ Keeps k s t :=
  Keeps.iff_of (k := [.mb]) (by
    fun_induction closeCommands a0 a1 t <;> first
      | (simp +decide; done)
      | (rename_i ih; exact Keeps.trans (by simp +decide) ih)) w

@[simp] theorem closeOpen_keeps {k : List Part} {s : State} (a0) (t : State) (w : within [.mb] k = true) :
    Keeps k s (closeOpen a0 t) ↔ Keeps k s t :=
  Keeps.iff_of (k := [.mb]) (by
    unfold closeOpen; simp +decide) w

@[simp] theorem latchOutcome_keeps {k : List Part} {s : State} (a0) (t : State) (w : within [.mb, .mem, .ctl, .rem, .launch, .mgmt, .errs] k = true) :
    Keeps k s (latchOutcome a0 t) ↔ Keeps k s t :=
  Keeps.iff_of (k := [.mb, .mem, .ctl, .rem, .launch, .mgmt, .errs]) (by
    unfold latchOutcome; simp +decide) w

@[simp] theorem armFresh_keeps {k : List Part} {s : State} (a0) (a1) (t : State) (w : within [.mb, .mem, .ctl, .rem, .launch, .mgmt, .errs] k = true) :
    Keeps k s (armFresh a0 a1 t) ↔ Keeps k s t :=
  Keeps.iff_of (k := [.mb, .mem, .ctl, .rem, .launch, .mgmt, .errs]) (by
    unfold armFresh; simp only []; (repeat' split) <;> simp +decide) w

@[simp] theorem armEffect_keeps {k : List Part} {s : State} (a0) (t : State) (w : within [.mb, .mem, .ctl, .rem, .launch, .mgmt, .errs] k = true) :
    Keeps k s (armEffect a0 t) ↔ Keeps k s t :=
  Keeps.iff_of (k := [.mb, .mem, .ctl, .rem, .launch, .mgmt, .errs]) (by
    unfold armEffect; simp only []; (repeat' split) <;> simp +decide) w

@[simp] theorem countFlits_keeps {k : List Part} {s : State} (a0) (a1) (t : State) (w : within [.fab] k = true) :
    Keeps k s (countFlits a0 a1 t) ↔ Keeps k s t :=
  Keeps.iff_of (k := [.fab]) (by
    unfold countFlits; simp +decide) w

@[simp] theorem noteLeft_keeps {k : List Part} {s : State} (a0) (a1) (t : State) (w : within [.rem, .errs] k = true) :
    Keeps k s (noteLeft a0 a1 t) ↔ Keeps k s t :=
  Keeps.iff_of (k := [.rem, .errs]) (by
    unfold noteLeft; simp only []; (repeat' split) <;> simp +decide) w

theorem arrive_keeps {f : Option Nat} {p : Packet} {t u : State} (e : arrive? f p t = some u) :
    Keeps [.rem, .fab, .errs] t u := by
  unfold arrive? at e
  split at e
  · split at e
    · cases e; simp +decide
    · cases e
  · split at e
    · cases e; simp +decide
    · cases e

@[simp] theorem freeChoice_keeps {k : List Part} {s : State}  (t : State) (w : within [.time] k = true) :
    Keeps k s (freeChoice t).2 ↔ Keeps k s t :=
  Keeps.iff_of (k := [.time]) (by
    unfold freeChoice; simp +decide) w

@[simp] theorem moveBeat_keeps {k : List Part} {s : State} (a0) (a1) (t : State) (w : within [.time] k = true) :
    Keeps k s (moveBeat a0 a1 t) ↔ Keeps k s t :=
  Keeps.iff_of (k := [.time]) (by
    unfold moveBeat; simp +decide) w

@[simp] theorem settleOffset_keeps {k : List Part} {s : State}  (t : State) (w : within [.time] k = true) :
    Keeps k s (settleOffset t) ↔ Keeps k s t :=
  Keeps.iff_of (k := [.time]) (by
    unfold settleOffset; simp +decide) w

@[simp] theorem beatPeriod_keeps {k : List Part} {s : State}  (t : State) (w : within [.time] k = true) :
    Keeps k s (beatPeriod t) ↔ Keeps k s t :=
  Keeps.iff_of (k := [.time]) (by
    unfold beatPeriod; simp only []; (repeat' split) <;> simp +decide) w

@[simp] theorem mapCopy_keeps {k : List Part} {s : State} (a0) (a1) (a2) (t : State) (w : within [.tier] k = true) :
    Keeps k s (mapCopy a0 a1 a2 t) ↔ Keeps k s t :=
  Keeps.iff_of (k := [.tier]) (by
    unfold mapCopy; simp +decide) w

@[simp] theorem beginEvict_keeps {k : List Part} {s : State} (a0) (a1) (a2) (t : State) (w : within [.tier] k = true) :
    Keeps k s (beginEvict a0 a1 a2 t) ↔ Keeps k s t :=
  Keeps.iff_of (k := [.tier]) (by
    unfold beginEvict; simp +decide) w

@[simp] theorem biasCheck_keeps {k : List Part} {s : State} (a0) (a1) (t : State) (w : within [.ctl] k = true) :
    Keeps k s (biasCheck a0 a1 t).2 ↔ Keeps k s t :=
  Keeps.iff_of (k := [.ctl]) (by
    unfold biasCheck; (repeat' split) <;> simp +decide) w

@[simp] theorem bindImage_keeps {k : List Part} {s : State} (a0) (a1) (t : State) (w : within [.mb, .ctr, .job, .ctl] k = true) :
    Keeps k s (bindImage a0 a1 t) ↔ Keeps k s t :=
  Keeps.iff_of (k := [.mb, .ctr, .job, .ctl]) (by
    unfold bindImage; simp +decide) w

@[simp] theorem bootFail_keeps {k : List Part} {s : State} (a0) (t : State) (w : within [.boot, .mgmt] k = true) :
    Keeps k s (bootFail a0 t) ↔ Keeps k s t :=
  Keeps.iff_of (k := [.boot, .mgmt]) (by
    unfold bootFail; simp +decide) w

@[simp] theorem bulkArrival_keeps {k : List Part} {s : State} (place : Packet → State → State) (p : Packet)
    (t : State) (w : within [.rem, .errs] k = true) (h : ∀ q u, Keeps k u (place q u)) :
    Keeps k s (bulkArrival place p t) ↔ Keeps k s t := by
  refine Keeps.iff_of (k := k) ?_ (by simp [within])
  unfold bulkArrival
  split
  · simp
  · split
    · exact (Keeps.mono (k := [.rem, .errs]) (by simp +decide) w)
    · exact h _ _

@[simp] theorem cancelEvicts_keeps {k : List Part} {s : State} (a0) (a1) (t : State) (w : within [.mb, .mem, .ctl, .tier, .rem, .launch, .mgmt, .errs] k = true) :
    Keeps k s (cancelEvicts a0 a1 t) ↔ Keeps k s t :=
  Keeps.iff_of (k := [.mb, .mem, .ctl, .tier, .rem, .launch, .mgmt, .errs]) (by
    unfold cancelEvicts; simp +decide) w

@[simp] theorem changeDigest_keeps {k : List Part} {s : State}  (t : State) (w : within [.boot, .cells, .ctr, .job, .ctl, .exch, .tier] k = true) :
    Keeps k s (changeDigest t) ↔ Keeps k s t :=
  Keeps.iff_of (k := [.boot, .cells, .ctr, .job, .ctl, .exch, .tier]) (by
    unfold changeDigest; simp +decide) w

@[simp] theorem putMem_keeps {k : List Part} {s : State} (a0) (a1) (a2) (t : State) (w : within [.mem, .errs] k = true) :
    Keeps k s (putMem a0 a1 a2 t) ↔ Keeps k s t :=
  Keeps.iff_of (k := [.mem, .errs]) (by
    unfold putMem; simp +decide) w

@[simp] theorem dropCopy_keeps {k : List Part} {s : State} (a0) (a1) (t : State) (w : within [.mb, .mem, .ctl, .tier, .flash, .pools, .rem, .launch, .mgmt, .errs] k = true) :
    Keeps k s (dropCopy a0 a1 t) ↔ Keeps k s t :=
  Keeps.iff_of (k := [.mb, .mem, .ctl, .tier, .flash, .pools, .rem, .launch, .mgmt, .errs]) (by
    unfold dropCopy; (repeat' split) <;> simp +decide) w

@[simp] theorem countBadSource_keeps {k : List Part} {s : State} (a0) (a1) (t : State) (w : within [.errs] k = true) :
    Keeps k s (countBadSource a0 a1 t) ↔ Keeps k s t :=
  Keeps.iff_of (k := [.errs]) (by
    unfold countBadSource; (repeat' split) <;> simp +decide) w

@[simp] theorem dropBad_keeps {k : List Part} {s : State} (a0) (a1) (t : State) (w : within [.mb, .mem, .ctl, .tier, .flash, .pools, .rem, .launch, .mgmt, .errs] k = true) :
    Keeps k s (dropBad a0 a1 t) ↔ Keeps k s t :=
  Keeps.iff_of (k := [.mb, .mem, .ctl, .tier, .flash, .pools, .rem, .launch, .mgmt, .errs]) (by
    unfold dropBad; simp +decide) w

@[simp] theorem refillTier_keeps {k : List Part} {s : State} (a0) (a1) (a2) (t : State) (w : within [.mb, .mem, .ctl, .tier, .flash, .pools, .rem, .launch, .mgmt, .errs] k = true) :
    Keeps k s (refillTier? a0 a1 a2 t).2 ↔ Keeps k s t :=
  Keeps.iff_of (k := [.mb, .mem, .ctl, .tier, .flash, .pools, .rem, .launch, .mgmt, .errs]) (by
    induction a2 generalizing t with
    | zero => simp [refillTier?]
    | succ n ih =>
      unfold refillTier?; dsimp only
      split
      · simp
      · split
        · simp +decide
        · exact Keeps.trans (by simp +decide) (ih _)) w

@[simp] theorem refillCopy_keeps {k : List Part} {s : State} (a0) (t : State) (w : within [.mb, .mem, .ctl, .tier, .flash, .pools, .rem, .launch, .mgmt, .errs] k = true) :
    Keeps k s (refillCopy t a0) ↔ Keeps k s t :=
  Keeps.iff_of (k := [.mb, .mem, .ctl, .tier, .flash, .pools, .rem, .launch, .mgmt, .errs]) (by
    unfold refillCopy; simp only []; (repeat' split) <;> simp +decide) w

@[simp] theorem wordsFrom_keeps {k : List Part} {s : State} (a0) (a1) (t : State) (w : within [.errs] k = true) :
    Keeps k s (wordsFrom a0 a1 t) ↔ Keeps k s t :=
  Keeps.iff_of (k := [.errs]) (by
    unfold wordsFrom; simp +decide) w

@[simp] theorem freshCell_keeps {k : List Part} {s : State} (a0) (t : State) (w : within [.mb, .mem, .tiles, .ctl, .tier, .flash, .pools, .rem, .launch, .mgmt, .errs] k = true) :
    Keeps k s (freshCell a0 t) ↔ Keeps k s t :=
  Keeps.iff_of (k := [.mb, .mem, .tiles, .ctl, .tier, .flash, .pools, .rem, .launch, .mgmt, .errs]) (by
    unfold freshCell; simp +decide) w

@[simp] theorem takeOverCell_keeps {k : List Part} {s : State} (a0) (a1) (t : State) (w : within [.mb, .mem, .tiles, .ctl, .tier, .flash, .pools, .rem, .launch, .mgmt, .errs] k = true) :
    Keeps k s (takeOverCell a0 a1 t) ↔ Keeps k s t :=
  Keeps.iff_of (k := [.mb, .mem, .tiles, .ctl, .tier, .flash, .pools, .rem, .launch, .mgmt, .errs]) (by
    unfold takeOverCell; simp +decide) w

@[simp] theorem retireCell_keeps {k : List Part} {s : State} (a0) (t : State) (w : within [.mb, .boot, .mem, .tiles, .cells, .ctr, .job, .ctl, .exch, .tier, .flash, .pools, .rem, .launch, .mgmt, .errs] k = true) :
    Keeps k s (retireCell a0 t) ↔ Keeps k s t :=
  Keeps.iff_of (k := [.mb, .boot, .mem, .tiles, .cells, .ctr, .job, .ctl, .exch, .tier, .flash, .pools, .rem, .launch, .mgmt, .errs]) (by
    unfold retireCell; simp only []; (repeat' split) <;> simp +decide) w

@[simp] theorem writeReport_keeps {k : List Part} {s : State} (a0) (t : State) (w : within [.mb, .mem, .ctl, .rem, .launch, .mgmt, .errs] k = true) :
    Keeps k s (writeReport a0 t) ↔ Keeps k s t :=
  Keeps.iff_of (k := [.mb, .mem, .ctl, .rem, .launch, .mgmt, .errs]) (by
    unfold writeReport; (repeat' split) <;> simp +decide) w

@[simp] theorem writeReports_keeps {k : List Part} {s : State} (a0) (t : State) (w : within [.mb, .mem, .ctl, .rem, .launch, .mgmt, .errs] k = true) :
    Keeps k s (writeReports a0 t) ↔ Keeps k s t :=
  Keeps.iff_of (k := [.mb, .mem, .ctl, .rem, .launch, .mgmt, .errs]) (by
    fun_induction writeReports a0 t <;> first
      | (simp +decide; done)
      | (rename_i ih; exact Keeps.trans (by simp +decide) ih)) w

@[simp] theorem settleReport_keeps {k : List Part} {s : State}  (t : State) (w : within [.mb, .mem, .ctl, .rem, .launch, .mgmt, .errs] k = true) :
    Keeps k s (settleReport t) ↔ Keeps k s t :=
  Keeps.iff_of (k := [.mb, .mem, .ctl, .rem, .launch, .mgmt, .errs]) (by
    unfold settleReport; simp +decide) w

@[simp] theorem testPhys_keeps {k : List Part} {s : State} (a0) (a1) (t : State) (w : within [.mb, .boot, .mem, .tiles, .cells, .ctr, .job, .ctl, .exch, .tier, .flash, .pools, .rem, .launch, .mgmt, .errs] k = true) :
    Keeps k s (testPhys a0 a1 t) ↔ Keeps k s t :=
  Keeps.iff_of (k := [.mb, .boot, .mem, .tiles, .cells, .ctr, .job, .ctl, .exch, .tier, .flash, .pools, .rem, .launch, .mgmt, .errs]) (by
    unfold testPhys; (repeat' split) <;> simp +decide) w

@[simp] theorem cellTestEffect_keeps {k : List Part} {s : State} (a0) (t : State) (w : within [.mb, .boot, .mem, .tiles, .cells, .ctr, .job, .ctl, .exch, .tier, .flash, .pools, .rem, .launch, .mgmt, .errs] k = true) :
    Keeps k s (cellTestEffect a0 t) ↔ Keeps k s t :=
  Keeps.iff_of (k := [.mb, .boot, .mem, .tiles, .cells, .ctr, .job, .ctl, .exch, .tier, .flash, .pools, .rem, .launch, .mgmt, .errs]) (by
    unfold cellTestEffect; (repeat' split) <;> simp +decide) w

@[simp] theorem checkpointReads_keeps {k : List Part} {s : State}  (t : State) (w : within [.flash] k = true) :
    Keeps k s (checkpointReads t) ↔ Keeps k s t :=
  Keeps.iff_of (k := [.flash]) (by
    unfold checkpointReads; simp +decide) w

@[simp] theorem setParent_keeps {k : List Part} {s : State} (a0) (t : State) (w : within [.time, .errs] k = true) :
    Keeps k s (setParent a0 t) ↔ Keeps k s t :=
  Keeps.iff_of (k := [.time, .errs]) (by
    unfold setParent; simp +decide) w

@[simp] theorem chooseParent_keeps {k : List Part} {s : State} (a0) (t : State) (w : within [.time, .errs] k = true) :
    Keeps k s (chooseParent a0 t) ↔ Keeps k s t :=
  Keeps.iff_of (k := [.time, .errs]) (by
    unfold chooseParent; simp only []; (repeat' split) <;> simp +decide) w

@[simp] theorem chooseAfterMisses_keeps {k : List Part} {s : State}  (t : State) (w : within [.time, .errs] k = true) :
    Keeps k s (chooseAfterMisses t) ↔ Keeps k s t :=
  Keeps.iff_of (k := [.time, .errs]) (by
    unfold chooseAfterMisses; simp +decide) w

@[simp] theorem clearCells_keeps {k : List Part} {s : State} (a0) (t : State) (w : within [.cells] k = true) :
    Keeps k s (clearCells a0 t) ↔ Keeps k s t :=
  Keeps.iff_of (k := [.cells]) (by
    unfold clearCells; simp +decide) w

@[simp] theorem clearPresence_keeps {k : List Part} {s : State} (a0) (a1) (a2) (t : State) (w : within [.mem] k = true) :
    Keeps k s (clearPresence a0 a1 a2 t) ↔ Keeps k s t :=
  Keeps.iff_of (k := [.mem]) (by
    unfold clearPresence; simp +decide) w

@[simp] theorem requestStage_keeps {k : List Part} {s : State} (cl : Nat) (e : Nat × Nat) (t : State)
    (w : within [.flash, .pools] k = true) : Keeps k s (requestStage cl e t) ↔ Keeps k s t := by
  refine Keeps.iff_of (k := [.flash, .pools]) ?_ w
  unfold requestStage
  dsimp only
  split
  · next h u he =>
    have a : Keeps [.flash, .pools] t u := Keeps.trans (by simp +decide) ((allocate_keeps he).mono (by decide))
    exact (giveStage_keeps (k := [.flash, .pools]) _ _ _ _ (by decide)).2 a
  · simp +decide

@[simp] theorem startStages_keeps {k : List Part} {s : State} (l : List (Nat × Nat)) (t : State)
    (w : within [.flash, .pools] k = true) : Keeps k s (startStages l t) ↔ Keeps k s t := by
  refine Keeps.iff_of (k := [.flash, .pools]) ?_ w
  induction l generalizing t with
  | nil => unfold startStages; simp +decide
  | cons e r ih =>
    unfold startStages
    dsimp only
    (repeat' split) <;> first
      | (simp +decide; done)
      | exact Keeps.trans (by simp +decide) (ih _)

@[simp] theorem restage_keeps {k : List Part} {s : State}  (t : State) (w : within [.flash, .pools] k = true) :
    Keeps k s (restage t) ↔ Keeps k s t :=
  Keeps.iff_of (k := [.flash, .pools]) (by
    unfold restage; simp +decide) w

@[simp] theorem abortFrees_keeps {k : List Part} {s : State} (t : State) (w : within [.mb, .mem, .ctl, .pools, .rem, .launch, .mgmt, .errs] k = true) :
    Keeps k s (abortFrees t) ↔ Keeps k s t :=
  Keeps.iff_of (k := [.mb, .mem, .ctl, .pools, .rem, .launch, .mgmt, .errs]) (by
    unfold abortFrees
    generalize t.pools.buffers = l
    induction l generalizing t with
    | nil => simp
    | cons x r ih => refine Keeps.trans ?_ (ih _); dsimp only; split <;> simp +decide) w

@[simp] theorem closeJob_keeps {k : List Part} {s : State}  (t : State) (w : within [.mb, .mem, .cells, .ctr, .job, .ctl, .exch, .tier, .flash, .pools, .rem, .launch, .mgmt, .errs] k = true) :
    Keeps k s (closeJob t) ↔ Keeps k s t :=
  Keeps.iff_of (k := [.mb, .mem, .cells, .ctr, .job, .ctl, .exch, .tier, .flash, .pools, .rem, .launch, .mgmt, .errs]) (by
    unfold closeJob; simp +decide) w

@[simp] theorem closeMsg_keeps {k : List Part} {s : State} (a0) (t : State) (w : within [.exch] k = true) :
    Keeps k s (closeMsg a0 t) ↔ Keeps k s t :=
  Keeps.iff_of (k := [.exch]) (by
    unfold closeMsg; simp +decide) w

@[simp] theorem reject_keeps {k : List Part} {s : State} (a0) (t : State) (w : within [] k = true) :
    Keeps k s (reject a0 t).endState ↔ Keeps k s t :=
  Keeps.iff_of (k := []) (by
    unfold reject; simp +decide) w

@[simp] theorem cmdAbortJob_keeps {k : List Part} {s : State} (a0) (t : State) (w : within [.mb, .mem, .cells, .ctr, .ctl, .exch, .tier, .pools, .rem, .launch, .mgmt, .errs] k = true) :
    Keeps k s (cmdAbortJob a0 t).endState ↔ Keeps k s t :=
  Keeps.iff_of (k := [.mb, .mem, .cells, .ctr, .ctl, .exch, .tier, .pools, .rem, .launch, .mgmt, .errs]) (by
    unfold cmdAbortJob; (repeat' split) <;> simp +decide) w

@[simp] theorem cmdAbortStep_keeps {k : List Part} {s : State} (a0) (t : State) (w : within [.ctl, .rem, .launch] k = true) :
    Keeps k s (cmdAbortStep a0 t).endState ↔ Keeps k s t :=
  Keeps.iff_of (k := [.ctl, .rem, .launch]) (by
    unfold cmdAbortStep; simp only []; (repeat' split) <;> simp +decide) w

@[simp] theorem cmdAttest_keeps {k : List Part} {s : State} (a0) (t : State) (w : within [.mem, .errs] k = true) :
    Keeps k s (cmdAttest a0 t).endState ↔ Keeps k s t :=
  Keeps.iff_of (k := [.mem, .errs]) (by
    unfold cmdAttest; simp +decide) w

@[simp] theorem cmdBind_keeps {k : List Part} {s : State} (a0) (t : State) (w : within [.mb, .ctr, .job, .ctl] k = true) :
    Keeps k s (cmdBind a0 t).endState ↔ Keeps k s t :=
  Keeps.iff_of (k := [.mb, .ctr, .job, .ctl]) (by
    unfold cmdBind; (repeat' split) <;> simp +decide) w

@[simp] theorem memreadCorrected_keeps {k : List Part} {s : State} (a0) (a1) (t : State) (w : within [.errs] k = true) :
    Keeps k s (memreadCorrected a0 a1 t) ↔ Keeps k s t :=
  Keeps.iff_of (k := [.errs]) (by
    unfold memreadCorrected; (repeat' split) <;> simp +decide) w

@[simp] theorem memreadHealth_keeps {k : List Part} {s : State} (a0) (t : State) (w : within [.errs] k = true) :
    Keeps k s (memreadHealth a0 t).2 ↔ Keeps k s t :=
  Keeps.iff_of (k := [.errs]) (by
    unfold memreadHealth; (repeat' split) <;> simp +decide) w

@[simp] theorem memreadFinds_keeps {k : List Part} {s : State} (a0) (a1) (a2) (t : State) (w : within [.errs] k = true) :
    Keeps k s (memreadFinds a0 a1 a2 t).2 ↔ Keeps k s t :=
  Keeps.iff_of (k := [.errs]) (by
    unfold memreadFinds; dsimp only; split <;> simp +decide) w

@[simp] theorem cmdDebugMemread_keeps {k : List Part} {s : State} (a0) (a1) (t : State) (w : within [.mem, .errs] k = true) :
    Keeps k s (cmdDebugMemread a0 a1 t).endState ↔ Keeps k s t :=
  Keeps.iff_of (k := [.mem, .errs]) (by
    unfold cmdDebugMemread; simp +decide) w

@[simp] theorem defer_keeps {k : List Part} {s : State} (a0) (t : State) (w : within [.tier] k = true) :
    Keeps k s (defer a0 t) ↔ Keeps k s t :=
  Keeps.iff_of (k := [.tier]) (by
    unfold defer; simp +decide) w

@[simp] theorem cmdEvict_keeps {k : List Part} {s : State} (a0) (t : State) (w : within [.tier] k = true) :
    Keeps k s (cmdEvict a0 t).endState ↔ Keeps k s t :=
  Keeps.iff_of (k := [.tier]) (by
    unfold cmdEvict; (repeat' split) <;> simp +decide) w

@[simp] theorem flashEvent_keeps {k : List Part} {s : State} (a0) (a1) (a2) (a3) (t : State) (w : within [.mb, .mem, .ctl, .rem, .launch, .mgmt, .errs] k = true) :
    Keeps k s (flashEvent a0 a1 a2 a3 t) ↔ Keeps k s t :=
  Keeps.iff_of (k := [.mb, .mem, .ctl, .rem, .launch, .mgmt, .errs]) (by
    unfold flashEvent; simp +decide) w

@[simp] theorem updateFlash_keeps {k : List Part} {s : State} (a0) (t : State) (w : within [.mb, .mem, .ctl, .flash, .rem, .launch, .mgmt, .errs] k = true) :
    Keeps k s (updateFlash a0 t) ↔ Keeps k s t :=
  Keeps.iff_of (k := [.mb, .mem, .ctl, .flash, .rem, .launch, .mgmt, .errs]) (by
    unfold updateFlash; simp +decide) w

@[simp] theorem cmdExtentCreate_keeps {k : List Part} {s : State} (a0) (t : State) (w : within [.mb, .mem, .ctl, .flash, .rem, .launch, .mgmt, .errs] k = true) :
    Keeps k s (cmdExtentCreate a0 t).endState ↔ Keeps k s t :=
  Keeps.iff_of (k := [.mb, .mem, .ctl, .flash, .rem, .launch, .mgmt, .errs]) (by
    unfold cmdExtentCreate; simp only []; (repeat' split) <;> simp +decide) w

@[simp] theorem endStages_keeps {k : List Part} {s : State} (a0) (a1) (t : State) (w : within [.mb, .mem, .ctl, .tier, .flash, .pools, .rem, .launch, .mgmt, .errs] k = true) :
    Keeps k s (endStages a0 a1 t) ↔ Keeps k s t :=
  Keeps.iff_of (k := [.mb, .mem, .ctl, .tier, .flash, .pools, .rem, .launch, .mgmt, .errs]) (by
    unfold endStages; simp +decide) w

@[simp] theorem dropStages_keeps {k : List Part} {s : State} (a0) (t : State) (w : within [.mb, .mem, .ctl, .tier, .flash, .pools, .rem, .launch, .mgmt, .errs] k = true) :
    Keeps k s (dropStages a0 t) ↔ Keeps k s t :=
  Keeps.iff_of (k := [.mb, .mem, .ctl, .tier, .flash, .pools, .rem, .launch, .mgmt, .errs]) (by
    unfold dropStages; simp +decide) w

@[simp] theorem cmdExtentDelete_keeps {k : List Part} {s : State} (a0) (t : State) (w : within [.mb, .mem, .ctl, .tier, .flash, .pools, .rem, .launch, .mgmt, .errs] k = true) :
    Keeps k s (cmdExtentDelete a0 t).endState ↔ Keeps k s t :=
  Keeps.iff_of (k := [.mb, .mem, .ctl, .tier, .flash, .pools, .rem, .launch, .mgmt, .errs]) (by
    unfold cmdExtentDelete; simp only []; (repeat' split) <;> simp +decide) w

@[simp] theorem stageRest_keeps {k : List Part} {s : State} (a0) (t : State) (w : within [.flash, .pools] k = true) :
    Keeps k s (stageRest a0 t) ↔ Keeps k s t :=
  Keeps.iff_of (k := [.flash, .pools]) (by
    unfold stageRest; simp only []; (repeat' split) <;> simp +decide) w

@[simp] theorem cmdExtentSeal_keeps {k : List Part} {s : State} (a0) (t : State) (w : within [.flash, .pools] k = true) :
    Keeps k s (cmdExtentSeal a0 t).endState ↔ Keeps k s t :=
  Keeps.iff_of (k := [.flash, .pools]) (by
    unfold cmdExtentSeal; simp only []; (repeat' split) <;> simp +decide) w

@[simp] theorem stageWrite_keeps {k : List Part} {s : State} (a0) (a1) (a2) (t : State) (w : within [.flash, .pools] k = true) :
    Keeps k s (stageWrite a0 a1 a2 t) ↔ Keeps k s t :=
  Keeps.iff_of (k := [.flash, .pools]) (by
    unfold stageWrite; simp +decide) w

@[simp] theorem cmdExtentWrite_keeps {k : List Part} {s : State} (a0) (t : State) (w : within [.flash, .pools] k = true) :
    Keeps k s (cmdExtentWrite a0 t).endState ↔ Keeps k s t :=
  Keeps.iff_of (k := [.flash, .pools]) (by
    unfold cmdExtentWrite; simp only []; (repeat' split) <;> simp +decide) w

@[simp] theorem setFlashState_keeps {k : List Part} {s : State} (a0) (a1) (t : State) (w : within [.mb, .mem, .ctl, .flash, .rem, .launch, .mgmt, .errs] k = true) :
    Keeps k s (setFlashState a0 a1 t) ↔ Keeps k s t :=
  Keeps.iff_of (k := [.mb, .mem, .ctl, .flash, .rem, .launch, .mgmt, .errs]) (by
    unfold setFlashState; simp +decide) w

@[simp] theorem cmdFlashFormat_keeps {k : List Part} {s : State} (a0) (t : State) (w : within [.mb, .mem, .ctl, .flash, .rem, .launch, .mgmt, .errs] k = true) :
    Keeps k s (cmdFlashFormat a0 t).endState ↔ Keeps k s t :=
  Keeps.iff_of (k := [.mb, .mem, .ctl, .flash, .rem, .launch, .mgmt, .errs]) (by
    unfold cmdFlashFormat; simp +decide) w

@[simp] theorem freeBytes_keeps {k : List Part} {s : State} (a0) (t : State) (w : within [.time] k = true) :
    Keeps k s (freeBytes a0 t).2 ↔ Keeps k s t :=
  Keeps.iff_of (k := [.time]) (by
    unfold freeBytes; simp +decide) w

@[simp] theorem flashRecord_keeps {k : List Part} {s : State}  (t : State) (w : within [.time] k = true) :
    Keeps k s (flashRecord t).2 ↔ Keeps k s t :=
  Keeps.iff_of (k := [.time]) (by
    unfold flashRecord; (repeat' split) <;> simp +decide) w

@[simp] theorem cmdFlashStatus_keeps {k : List Part} {s : State} (a0) (t : State) (w : within [.mem, .time, .errs] k = true) :
    Keeps k s (cmdFlashStatus a0 t).endState ↔ Keeps k s t :=
  Keeps.iff_of (k := [.mem, .time, .errs]) (by
    unfold cmdFlashStatus; simp +decide) w

@[simp] theorem cmdGetCaps_keeps {k : List Part} {s : State} (a0) (t : State) (w : within [.mem, .errs] k = true) :
    Keeps k s (cmdGetCaps a0 t).endState ↔ Keeps k s t :=
  Keeps.iff_of (k := [.mem, .errs]) (by
    unfold cmdGetCaps; simp +decide) w

@[simp] theorem granted_keeps {k : List Part} {s : State}  (t : State) (w : within [] k = true) :
    Keeps k s (granted t).endState ↔ Keeps k s t :=
  Keeps.iff_of (k := []) (by
    unfold granted; simp +decide) w

@[simp] theorem cmdGrant_keeps {k : List Part} {s : State} (a0) (t : State) (w : within [.cells, .ctl, .time] k = true) :
    Keeps k s (cmdGrant a0 t).endState ↔ Keeps k s t :=
  Keeps.iff_of (k := [.cells, .ctl, .time]) (by
    unfold cmdGrant; simp only []; (repeat' split) <;> simp +decide) w

@[simp] theorem cmdIdentify_keeps {k : List Part} {s : State} (a0) (t : State) (w : within [] k = true) :
    Keeps k s (cmdIdentify a0 t).endState ↔ Keeps k s t :=
  Keeps.iff_of (k := []) (by
    unfold cmdIdentify; simp +decide) w

@[simp] theorem cmdJobClose_keeps {k : List Part} {s : State} (a0) (t : State) (w : within [.mb, .mem, .cells, .ctr, .job, .ctl, .exch, .tier, .flash, .pools, .rem, .launch, .mgmt, .errs] k = true) :
    Keeps k s (cmdJobClose a0 t).endState ↔ Keeps k s t :=
  Keeps.iff_of (k := [.mb, .mem, .cells, .ctr, .job, .ctl, .exch, .tier, .flash, .pools, .rem, .launch, .mgmt, .errs]) (by
    unfold cmdJobClose; simp +decide) w

@[simp] theorem cmdJobOpen_keeps {k : List Part} {s : State} (a0) (t : State) (w : within [.job, .pools, .rem] k = true) :
    Keeps k s (cmdJobOpen a0 t).endState ↔ Keeps k s t :=
  Keeps.iff_of (k := [.job, .pools, .rem]) (by
    unfold cmdJobOpen; simp +decide) w

@[simp] theorem defineObj_keeps {k : List Part} {s : State} (a0) (a1) (t : State) (w : within [.tier] k = true) :
    Keeps k s (defineObj a0 a1 t).2 ↔ Keeps k s t :=
  Keeps.iff_of (k := [.tier]) (by
    unfold defineObj; simp only []; (repeat' split) <;> simp +decide) w

@[simp] theorem defineManifest_keeps {k : List Part} {s : State} (im : Image) (n i : Nat) (t : State)
    (w : within [.tier] k = true) : Keeps k s (defineManifest im n i t).2 ↔ Keeps k s t := by
  refine Keeps.iff_of (k := [.tier]) ?_ w
  induction n generalizing i t with
  | zero => unfold defineManifest; simp
  | succ n ih =>
    unfold defineManifest
    dsimp only
    split
    · exact Keeps.trans (by simp +decide) (ih _ _)
    · simp

@[simp] theorem loadImage_keeps {k : List Part} {s : State} (a0) (a1) (t : State) (w : within [.mem, .job, .tier, .errs] k = true) :
    Keeps k s (loadImage a0 a1 t).2.2 ↔ Keeps k s t :=
  Keeps.iff_of (k := [.mem, .job, .tier, .errs]) (by
    unfold loadImage; simp only []; (repeat' split) <;> simp +decide) w

@[simp] theorem unloadImage_keeps {k : List Part} {s : State}  (t : State) (w : within [.mb, .mem, .job, .ctl, .tier, .flash, .pools, .rem, .launch, .mgmt, .errs] k = true) :
    Keeps k s (unloadImage t) ↔ Keeps k s t :=
  Keeps.iff_of (k := [.mb, .mem, .job, .ctl, .tier, .flash, .pools, .rem, .launch, .mgmt, .errs]) (by
    unfold unloadImage; simp +decide) w

@[simp] theorem cmdLoadImage_keeps {k : List Part} {s : State} (a0) (t : State) (w : within [.mb, .mem, .job, .ctl, .tier, .flash, .pools, .rem, .launch, .mgmt, .errs] k = true) :
    Keeps k s (cmdLoadImage a0 t).endState ↔ Keeps k s t :=
  Keeps.iff_of (k := [.mb, .mem, .job, .ctl, .tier, .flash, .pools, .rem, .launch, .mgmt, .errs]) (by
    unfold cmdLoadImage; simp +decide) w

@[simp] theorem cmdObjDefine_keeps {k : List Part} {s : State} (a0) (t : State) (w : within [.tier] k = true) :
    Keeps k s (cmdObjDefine a0 t).endState ↔ Keeps k s t :=
  Keeps.iff_of (k := [.tier]) (by
    unfold cmdObjDefine; simp +decide) w

@[simp] theorem cmdPeal_keeps {k : List Part} {s : State} (a0) (t : State) (w : within [.rem, .launch] k = true) :
    Keeps k s (cmdPeal a0 t).endState ↔ Keeps k s t :=
  Keeps.iff_of (k := [.rem, .launch]) (by
    unfold cmdPeal; (repeat' split) <;> simp +decide) w

@[simp] theorem cmdPin_keeps {k : List Part} {s : State} (a0) (t : State) (w : within [.mb, .mem, .ctl, .tier, .rem, .launch, .mgmt, .errs] k = true) :
    Keeps k s (cmdPin a0 t).endState ↔ Keeps k s t :=
  Keeps.iff_of (k := [.mb, .mem, .ctl, .tier, .rem, .launch, .mgmt, .errs]) (by
    unfold cmdPin; (repeat' split) <;> simp +decide) w

@[simp] theorem cmdPoolAlloc_keeps {k : List Part} {s : State} (c : Cmd) (t : State) (w : within [.pools] k = true) :
    Keeps k s (cmdPoolAlloc c t).endState ↔ Keeps k s t := by
  refine Keeps.iff_of (k := [.pools]) ?_ w
  unfold cmdPoolAlloc
  dsimp only
  (repeat' split) <;> first
    | (simp +decide; done)
    | (next h u he => exact (allocate_keeps he).mono (by decide))

@[simp] theorem cmdPoolConfig_keeps {k : List Part} {s : State} (a0) (t : State) (w : within [.pools] k = true) :
    Keeps k s (cmdPoolConfig a0 t).endState ↔ Keeps k s t :=
  Keeps.iff_of (k := [.pools]) (by
    unfold cmdPoolConfig; simp +decide) w

@[simp] theorem cmdPoolGive_keeps {k : List Part} {s : State} (a0) (a1) (t : State) (w : within [.mb, .mem, .ctl, .tier, .flash, .pools, .rem, .launch, .mgmt, .errs] k = true) :
    Keeps k s (cmdPoolGive a0 a1 t).endState ↔ Keeps k s t :=
  Keeps.iff_of (k := [.mb, .mem, .ctl, .tier, .flash, .pools, .rem, .launch, .mgmt, .errs]) (by
    unfold cmdPoolGive; simp +decide) w

theorem keeps_done_applyShare (h x y : Nat) (t : State) :
    Keeps [.pools] t (CmdEnd.done (applyShare h x y t).1 [] (applyShare h x y t).2).endState :=
  (applyShare_keeps (k := [.pools]) h x y t (by decide)).2 (Keeps.refl _ _)

@[simp] theorem cmdPoolShare_keeps {k : List Part} {s : State} (c : Cmd) (t : State)
    (w : within [.pools] k = true) : Keeps k s (cmdPoolShare c t).endState ↔ Keeps k s t := by
  refine Keeps.iff_of (k := [.pools]) ?_ w
  unfold cmdPoolShare
  by_cases h : (!hostOwner (cmdField c 20 2)) = true
  · rw [if_pos h]; exact (reject_keeps _ _ (by decide)).2 (Keeps.refl _ _)
  · rw [if_neg h]; exact keeps_done_applyShare _ _ _ _

@[simp] theorem cmdPoolStatus_keeps {k : List Part} {s : State} (a0) (t : State) (w : within [.mem, .errs] k = true) :
    Keeps k s (cmdPoolStatus a0 t).endState ↔ Keeps k s t :=
  Keeps.iff_of (k := [.mem, .errs]) (by
    unfold cmdPoolStatus; simp +decide) w

@[simp] theorem hbmRoute_keeps {k : List Part} {s : State} (a0) (a1) (t : State) (w : within [.time] k = true) :
    Keeps k s (hbmRoute a0 a1 t).2 ↔ Keeps k s t :=
  Keeps.iff_of (k := [.time]) (by
    unfold hbmRoute; (repeat' split) <;> simp +decide) w

@[simp] theorem displace_keeps {k : List Part} {s : State} (a0) (a1) (t : State) (w : within [.tier] k = true) :
    Keeps k s (displace a0 a1 t) ↔ Keeps k s t :=
  Keeps.iff_of (k := [.tier]) (by
    unfold displace; (repeat' split) <;> simp +decide) w

@[simp] theorem putCopy_keeps {k : List Part} {s : State} (a0) (t : State) (w : within [.tier] k = true) :
    Keeps k s (putCopy a0 t) ↔ Keeps k s t :=
  Keeps.iff_of (k := [.tier]) (by
    unfold putCopy; simp +decide) w

@[simp] theorem requestBuffer_keeps {k : List Part} {s : State} (o : Obj) (t : State)
    (w : within [.tier, .pools] k = true) : Keeps k s (requestBuffer o t) ↔ Keeps k s t := by
  refine Keeps.iff_of (k := [.tier, .pools]) ?_ w
  unfold requestBuffer
  split
  · next h u he => exact Keeps.trans ((allocate_keeps he).mono (by decide)) (by simp +decide)
  · simp +decide

@[simp] theorem startCopy_keeps {k : List Part} {s : State} (a0) (a1) (a2) (a3) (t : State) (w : within [.tier, .pools] k = true) :
    Keeps k s (startCopy a0 a1 a2 a3 t) ↔ Keeps k s t :=
  Keeps.iff_of (k := [.tier, .pools]) (by
    unfold startCopy; simp +decide) w

@[simp] theorem startPromotion_keeps {k : List Part} {s : State} (a0) (a1) (a2) (a3) (t : State) (w : within [.tier, .pools, .errs] k = true) :
    Keeps k s (startPromotion a0 a1 a2 a3 t) ↔ Keeps k s t :=
  Keeps.iff_of (k := [.tier, .pools, .errs]) (by
    unfold startPromotion; simp +decide) w

@[simp] theorem cmdPromote_keeps {k : List Part} {s : State} (a0) (t : State) (w : within [.tier, .pools, .time, .errs] k = true) :
    Keeps k s (cmdPromote a0 t).endState ↔ Keeps k s t :=
  Keeps.iff_of (k := [.tier, .pools, .time, .errs]) (by
    unfold cmdPromote; (repeat' split) <;> simp +decide) w

@[simp] theorem cmdSetConfig_keeps {k : List Part} {s : State} (a0) (t : State) (w : within [.mb, .mem, .ctl, .rem, .launch, .mgmt, .errs] k = true) :
    Keeps k s (cmdSetConfig a0 t).endState ↔ Keeps k s t :=
  Keeps.iff_of (k := [.mb, .mem, .ctl, .rem, .launch, .mgmt, .errs]) (by
    unfold cmdSetConfig; simp +decide) w

@[simp] theorem cmdTelSnapshot_keeps {k : List Part} {s : State} (a0) (t : State) (w : within [.mem, .errs] k = true) :
    Keeps k s (cmdTelSnapshot a0 t).endState ↔ Keeps k s t :=
  Keeps.iff_of (k := [.mem, .errs]) (by
    unfold cmdTelSnapshot; simp +decide) w

@[simp] theorem cmdTraceStart_keeps {k : List Part} {s : State} (a0) (t : State) (w : within [.dbg] k = true) :
    Keeps k s (cmdTraceStart a0 t).endState ↔ Keeps k s t :=
  Keeps.iff_of (k := [.dbg]) (by
    unfold cmdTraceStart; simp +decide) w

@[simp] theorem cmdTraceStatus_keeps {k : List Part} {s : State} (a0) (t : State) (w : within [] k = true) :
    Keeps k s (cmdTraceStatus a0 t).endState ↔ Keeps k s t :=
  Keeps.iff_of (k := []) (by
    unfold cmdTraceStatus; simp +decide) w

@[simp] theorem cmdTraceStop_keeps {k : List Part} {s : State} (a0) (t : State) (w : within [.dbg] k = true) :
    Keeps k s (cmdTraceStop a0 t).endState ↔ Keeps k s t :=
  Keeps.iff_of (k := [.dbg]) (by
    unfold cmdTraceStop; simp +decide) w

@[simp] theorem cmdTreeSet_keeps {k : List Part} {s : State} (a0) (t : State) (w : within [.launch] k = true) :
    Keeps k s (cmdTreeSet a0 t).endState ↔ Keeps k s t :=
  Keeps.iff_of (k := [.launch]) (by
    unfold cmdTreeSet; simp +decide) w

@[simp] theorem cmdUnpin_keeps {k : List Part} {s : State} (a0) (t : State) (w : within [.mb, .mem, .ctl, .tier, .rem, .launch, .mgmt, .errs] k = true) :
    Keeps k s (cmdUnpin a0 t).endState ↔ Keeps k s t :=
  Keeps.iff_of (k := [.mb, .mem, .ctl, .tier, .rem, .launch, .mgmt, .errs]) (by
    unfold cmdUnpin; (repeat' split) <;> simp +decide) w

@[simp] theorem cmdWinClear_keeps {k : List Part} {s : State} (a0) (t : State) (w : within [.rem] k = true) :
    Keeps k s (cmdWinClear a0 t).endState ↔ Keeps k s t :=
  Keeps.iff_of (k := [.rem]) (by
    unfold cmdWinClear; simp +decide) w

@[simp] theorem cmdWinRead_keeps {k : List Part} {s : State} (a0) (t : State) (w : within [.mem, .errs] k = true) :
    Keeps k s (cmdWinRead a0 t).endState ↔ Keeps k s t :=
  Keeps.iff_of (k := [.mem, .errs]) (by
    unfold cmdWinRead; simp +decide) w

@[simp] theorem cmdWinSet_keeps {k : List Part} {s : State} (a0) (t : State) (w : within [.rem] k = true) :
    Keeps k s (cmdWinSet a0 t).endState ↔ Keeps k s t :=
  Keeps.iff_of (k := [.rem]) (by
    unfold cmdWinSet; simp +decide) w

@[simp] theorem failCopy_keeps {k : List Part} {s : State} (a0) (a1) (t : State) (w : within [.mb, .mem, .ctl, .tier, .flash, .pools, .rem, .launch, .mgmt, .errs] k = true) :
    Keeps k s (failCopy a0 a1 t) ↔ Keeps k s t :=
  Keeps.iff_of (k := [.mb, .mem, .ctl, .tier, .flash, .pools, .rem, .launch, .mgmt, .errs]) (by
    unfold failCopy; (repeat' split) <;> simp +decide) w

@[simp] theorem failPromotion_keeps {k : List Part} {s : State} (a0) (a1) (t : State) (w : within [.mb, .mem, .ctl, .tier, .flash, .pools, .rem, .launch, .mgmt, .errs] k = true) :
    Keeps k s (failPromotion a0 a1 t) ↔ Keeps k s t :=
  Keeps.iff_of (k := [.mb, .mem, .ctl, .tier, .flash, .pools, .rem, .launch, .mgmt, .errs]) (by
    unfold failPromotion; simp +decide) w

@[simp] theorem settlePrefetches_keeps {k : List Part} {s : State}  (t : State) (w : within [.cells] k = true) :
    Keeps k s (settlePrefetches t) ↔ Keeps k s t :=
  Keeps.iff_of (k := [.cells]) (by
    unfold settlePrefetches; simp +decide) w

@[simp] theorem takeDeferred_keeps {k : List Part} {s : State} (a0) (a1) (t : State) (w : within [.tier] k = true) :
    Keeps k s (takeDeferred a0 a1 t).2 ↔ Keeps k s t :=
  Keeps.iff_of (k := [.tier]) (by
    unfold takeDeferred; simp +decide) w

@[simp] theorem tryPromote_keeps {k : List Part} {s : State} (a0) (a1) (t : State) (w : within [.ctl, .tier, .pools, .rem, .time, .launch, .errs] k = true) :
    Keeps k s (tryPromote a0 a1 t) ↔ Keeps k s t :=
  Keeps.iff_of (k := [.ctl, .tier, .pools, .rem, .time, .launch, .errs]) (by
    unfold tryPromote; simp +decide) w

@[simp] theorem retryEnsures_keeps {k : List Part} {s : State} (t : State) (w : within [.cells, .ctl, .tier, .pools, .rem, .time, .launch, .errs] k = true) :
    Keeps k s (retryEnsures t) ↔ Keeps k s t := by
  refine Keeps.iff_of (k := [.cells, .ctl, .tier, .pools, .rem, .time, .launch, .errs]) ?_ w
  unfold retryEnsures
  split
  · refine (settlePrefetches_keeps _ (by decide)).2 (Keeps.foldl _ (fun t n => ?_) _ _)
    cases objOf? t n.1 <;> simp +decide
  · simp

@[simp] theorem noteCauses_keeps {k : List Part} {s : State} (t : State) (w : within [.cells] k = true) :
    Keeps k s (noteCauses t) ↔ Keeps k s t :=
  Keeps.iff_of (k := [.cells]) (by
    unfold noteCauses; simp +decide) w

@[simp] theorem failPromotions_keeps {k : List Part} {s : State} (a0) (t : State) (w : within [.mb, .mem, .cells, .ctl, .tier, .flash, .pools, .rem, .time, .launch, .mgmt, .errs] k = true) :
    Keeps k s (failPromotions a0 t) ↔ Keeps k s t :=
  Keeps.iff_of (k := [.mb, .mem, .cells, .ctl, .tier, .flash, .pools, .rem, .time, .launch, .mgmt, .errs]) (by
    unfold failPromotions; simp +decide) w

@[simp] theorem retireDie_keeps {k : List Part} {s : State} (a0) (t : State) (w : within [.mb, .mem, .ctl, .flash, .rem, .launch, .mgmt, .errs] k = true) :
    Keeps k s (retireDie a0 t) ↔ Keeps k s t :=
  Keeps.iff_of (k := [.mb, .mem, .ctl, .flash, .rem, .launch, .mgmt, .errs]) (by
    unfold retireDie; simp +decide) w

@[simp] theorem growBad_keeps {k : List Part} {s : State} (a0) (t : State) (w : within [.mb, .mem, .ctl, .flash, .rem, .launch, .mgmt, .errs] k = true) :
    Keeps k s (growBad a0 t) ↔ Keeps k s t :=
  Keeps.iff_of (k := [.mb, .mem, .ctl, .flash, .rem, .launch, .mgmt, .errs]) (by
    unfold growBad; simp only []; (repeat' split) <;> simp +decide) w

@[simp] theorem ladderEffect_keeps {k : List Part} {s : State} (a0) (a1) (a2) (t : State) (w : within [.mb, .mem, .ctl, .flash, .rem, .launch, .mgmt, .errs] k = true) :
    Keeps k s (ladderEffect a0 a1 a2 t) ↔ Keeps k s t :=
  Keeps.iff_of (k := [.mb, .mem, .ctl, .flash, .rem, .launch, .mgmt, .errs]) (by
    unfold ladderEffect; simp only []; (repeat' split) <;> simp +decide) w

@[simp] theorem markReaders_keeps {k : List Part} {s : State} (a0) (a1) (t : State) (w : within [.tier] k = true) :
    Keeps k s (markReaders a0 a1 t) ↔ Keeps k s t :=
  Keeps.iff_of (k := [.tier]) (by
    unfold markReaders; (repeat' split) <;> simp +decide) w

@[simp] theorem codewordReadEffect_keeps {k : List Part} {s : State} (a0) (a1) (t : State) (w : within [.mb, .mem, .cells, .ctl, .tier, .flash, .pools, .rem, .time, .launch, .mgmt, .errs] k = true) :
    Keeps k s (codewordReadEffect a0 a1 t) ↔ Keeps k s t :=
  Keeps.iff_of (k := [.mb, .mem, .cells, .ctl, .tier, .flash, .pools, .rem, .time, .launch, .mgmt, .errs]) (by
    unfold codewordReadEffect; simp only []; (repeat' split) <;> simp +decide) w

@[simp] theorem mapFlight_keeps {k : List Part} {s : State} (a0) (a1) (a2) (t : State) (w : within [.cells] k = true) :
    Keeps k s (mapFlight a0 a1 a2 t) ↔ Keeps k s t :=
  Keeps.iff_of (k := [.cells]) (by
    unfold mapFlight; simp +decide) w

@[simp] theorem sendRequest_keeps {k : List Part} {s : State} (a0) (a1) (a2) (a3) (t : State) (w : within [.rem] k = true) :
    Keeps k s (sendRequest a0 a1 a2 a3 t) ↔ Keeps k s t :=
  Keeps.iff_of (k := [.rem]) (by
    unfold sendRequest; simp +decide) w

@[simp] theorem sendMessage_keeps {k : List Part} {s : State} (a0) (a1) (a2) (a3) (a4) (a5) (t : State) (w : within [.rem, .dbg] k = true) :
    Keeps k s (sendMessage a0 a1 a2 a3 a4 a5 t) ↔ Keeps k s t :=
  Keeps.iff_of (k := [.rem, .dbg]) (by
    unfold sendMessage; simp +decide) w

@[simp] theorem sendRanks_keeps {k : List Part} {s : State} (a0) (a1) (a2) (a3) (a4) (t : State) (w : within [.rem, .dbg] k = true) :
    Keeps k s (sendRanks a0 a1 a2 a3 a4 t) ↔ Keeps k s t :=
  Keeps.iff_of (k := [.rem, .dbg]) (by
    unfold sendRanks; simp +decide) w

@[simp] theorem collScatter_keeps {k : List Part} {s : State} (a0) (a1) (t : State) (w : within [.cells, .rem, .dbg] k = true) :
    Keeps k s (collScatter a0 a1 t).2 ↔ Keeps k s t :=
  Keeps.iff_of (k := [.cells, .rem, .dbg]) (by
    unfold collScatter; simp +decide) w

@[simp] theorem collSum_keeps {k : List Part} {s : State} (a0) (a1) (t : State) (w : within [.mem, .cells, .rem, .errs, .dbg] k = true) :
    Keeps k s (collSum a0 a1 t) ↔ Keeps k s t :=
  Keeps.iff_of (k := [.mem, .cells, .rem, .errs, .dbg]) (by
    unfold collSum; simp +decide) w

@[simp] theorem taskReads_keeps {k : List Part} {s : State} (a0) (a1) (a2) (a3) (t : State) (w : within [.mb, .mem, .ctl, .rem, .launch, .mgmt, .errs] k = true) :
    Keeps k s (taskReads a0 a1 a2 a3 t).2 ↔ Keeps k s t :=
  Keeps.iff_of (k := [.mb, .mem, .ctl, .rem, .launch, .mgmt, .errs]) (by
    unfold taskReads; dsimp only; split <;> simp +decide) w

@[simp] theorem collectiveSumEffect_keeps {k : List Part} {s : State} (a0) (a1) (a2) (t : State) (w : within [.mb, .mem, .cells, .ctl, .rem, .launch, .mgmt, .errs, .dbg] k = true) :
    Keeps k s (collectiveSumEffect a0 a1 a2 t) ↔ Keeps k s t :=
  Keeps.iff_of (k := [.mb, .mem, .cells, .ctl, .rem, .launch, .mgmt, .errs, .dbg]) (by
    unfold collectiveSumEffect; (repeat' split) <;> simp +decide) w

@[simp] theorem raiseUnmet_keeps {k : List Part} {s : State}  (t : State) (w : within [.mgmt] k = true) :
    Keeps k s (raiseUnmet t) ↔ Keeps k s t :=
  Keeps.iff_of (k := [.mgmt]) (by
    unfold raiseUnmet; simp +decide) w

@[simp] theorem commandVsram_keeps {k : List Part} {s : State} (a0) (a1) (t : State) (w : within [.mgmt] k = true) :
    Keeps k s (commandVsram a0 a1 t) ↔ Keeps k s t :=
  Keeps.iff_of (k := [.mgmt]) (by
    unfold commandVsram; simp +decide) w

@[simp] theorem commandVcore_keeps {k : List Part} {s : State} (a0) (a1) (t : State) (w : within [.mgmt] k = true) :
    Keeps k s (commandVcore a0 a1 t) ↔ Keeps k s t :=
  Keeps.iff_of (k := [.mgmt]) (by
    unfold commandVcore; simp +decide) w

@[simp] theorem dropFlight_keeps {k : List Part} {s : State} (a0) (a1) (t : State) (w : within [.cells] k = true) :
    Keeps k s (dropFlight a0 a1 t) ↔ Keeps k s t :=
  Keeps.iff_of (k := [.cells]) (by
    unfold dropFlight; simp +decide) w

@[simp] theorem traceEvent_keeps {k : List Part} {s : State} (a0) (a1) (a2) (t : State) (w : within [.mem, .time, .errs, .dbg] k = true) :
    Keeps k s (traceEvent a0 a1 a2 t) ↔ Keeps k s t :=
  Keeps.iff_of (k := [.mem, .time, .errs, .dbg]) (by
    unfold traceEvent; (repeat' split) <;> simp +decide) w

@[simp] theorem completeTask_keeps {k : List Part} {s : State} (a0) (a1) (t : State) (w : within [.mem, .cells, .ctr, .ctl, .rem, .time, .launch, .errs, .dbg] k = true) :
    Keeps k s (completeTask a0 a1 t) ↔ Keeps k s t :=
  Keeps.iff_of (k := [.mem, .cells, .ctr, .ctl, .rem, .time, .launch, .errs, .dbg]) (by
    unfold completeTask; (repeat' split) <;> simp +decide) w

@[simp] theorem copyUncorrectable_keeps {k : List Part} {s : State} (a0) (t : State) (w : within [.mb, .mem, .cells, .ctl, .tier, .flash, .pools, .rem, .time, .launch, .mgmt, .errs] k = true) :
    Keeps k s (copyUncorrectable a0 t) ↔ Keeps k s t :=
  Keeps.iff_of (k := [.mb, .mem, .cells, .ctl, .tier, .flash, .pools, .rem, .time, .launch, .mgmt, .errs]) (by
    unfold copyUncorrectable; (repeat' split) <;> simp +decide) w

@[simp] theorem countBodies_keeps {k : List Part} {s : State} (a0) (a1) (a2) (a3) (t : State) (w : within [.dbg] k = true) :
    Keeps k s (countBodies a0 a1 a2 a3 t) ↔ Keeps k s t :=
  Keeps.iff_of (k := [.dbg]) (by
    fun_induction countBodies a0 a1 a2 a3 t <;> first
      | (simp +decide; done)
      | (rename_i ih; exact Keeps.trans (by simp +decide) ih)) w

@[simp] theorem countCompares_keeps {k : List Part} {s : State} (a0) (a1) (a2) (t : State) (w : within [.dbg] k = true) :
    Keeps k s (countCompares a0 a1 a2 t) ↔ Keeps k s t :=
  Keeps.iff_of (k := [.dbg]) (by
    unfold countCompares; simp +decide) w

@[simp] theorem countFec_keeps {k : List Part} {s : State}  (t : State) (w : within [.fab] k = true) :
    Keeps k s (countFec t) ↔ Keeps k s t :=
  Keeps.iff_of (k := [.fab]) (by
    unfold countFec; simp +decide) w

@[simp] theorem countMoved_keeps {k : List Part} {s : State} (a0) (a1) (t : State) (w : within [.dbg] k = true) :
    Keeps k s (countMoved a0 a1 t) ↔ Keeps k s t :=
  Keeps.iff_of (k := [.dbg]) (by
    unfold countMoved; (repeat' split) <;> simp +decide) w

@[simp] theorem countPeriod_keeps {k : List Part} {s : State}  (t : State) (w : within [.time] k = true) :
    Keeps k s (countPeriod t) ↔ Keeps k s t :=
  Keeps.iff_of (k := [.time]) (by
    unfold countPeriod; simp +decide) w

@[simp] theorem countTarget_keeps {k : List Part} {s : State} (a0) (a1) (t : State) (w : within [.ctr, .ctl, .rem, .launch, .dbg] k = true) :
    Keeps k s (countTarget a0 a1 t) ↔ Keeps k s t :=
  Keeps.iff_of (k := [.ctr, .ctl, .rem, .launch, .dbg]) (by
    unfold countTarget; simp +decide) w

@[simp] theorem putAPlane_keeps {k : List Part} {s : State} (a0) (a1) (a2) (a3) (a4) (t : State) (w : within [.mem] k = true) :
    Keeps k s (putAPlane a0 a1 a2 a3 a4 t) ↔ Keeps k s t :=
  Keeps.iff_of (k := [.mem]) (by
    unfold putAPlane; refine Keeps.trans ?_ (Keeps.foldl _ (fun t a => ?_) _ _) <;> (repeat' split) <;> simp +decide) w

@[simp] theorem putUnit_keeps {k : List Part} {s : State} (a0) (a1) (a2) (a3) (a4) (a5) (a6) (t : State) (w : within [.mem] k = true) :
    Keeps k s (putUnit a0 a1 a2 a3 a4 a5 a6 t) ↔ Keeps k s t :=
  Keeps.iff_of (k := [.mem]) (by
    unfold putUnit; simp +decide) w

@[simp] theorem putBPlane_keeps {k : List Part} {s : State} (a0) (a1) (a2) (a3) (a4) (t : State) (w : within [.mem] k = true) :
    Keeps k s (putBPlane a0 a1 a2 a3 a4 t) ↔ Keeps k s t :=
  Keeps.iff_of (k := [.mem]) (by
    unfold putBPlane; refine Keeps.trans ?_ (Keeps.foldl _ (fun t a => ?_) _ _) <;> (repeat' split) <;> simp +decide) w

@[simp] theorem putConverted_keeps {k : List Part} {s : State} (a0) (a1) (a2) (t : State) (w : within [.mem, .ctl] k = true) :
    Keeps k s (putConverted a0 a1 a2 t) ↔ Keeps k s t :=
  Keeps.iff_of (k := [.mem, .ctl]) (by
    unfold putConverted; simp +decide) w

@[simp] theorem putLinear_keeps {k : List Part} {s : State} (a0) (a1) (a2) (t : State) (w : within [.mem, .errs] k = true) :
    Keeps k s (putLinear a0 a1 a2 t) ↔ Keeps k s t :=
  Keeps.iff_of (k := [.mem, .errs]) (by
    fun_induction putLinear a0 a1 a2 t <;> first
      | (simp +decide; done)
      | (rename_i ih; exact Keeps.trans (by simp +decide) ih)) w

@[simp] theorem healWhere_keeps {k : List Part} {s : State} (a0) (t : State) (w : within [.errs] k = true) :
    Keeps k s (healWhere a0 t) ↔ Keeps k s t :=
  Keeps.iff_of (k := [.errs]) (by
    unfold healWhere; (repeat' split) <;> simp +decide) w

@[simp] theorem cpWork_keeps {k : List Part} {s : State} (a0) (a1) (t : State) (w : within [.mem, .ctl, .rem, .launch, .errs, .dbg] k = true) :
    Keeps k s (cpWork a0 a1 t).2 ↔ Keeps k s t :=
  Keeps.iff_of (k := [.mem, .ctl, .rem, .launch, .errs, .dbg]) (by
    unfold cpWork; simp only []; (repeat' split) <;> simp +decide) w

@[simp] theorem settleAbortJob_keeps {k : List Part} {s : State}  (t : State) (w : within [.mb] k = true) :
    Keeps k s (settleAbortJob t) ↔ Keeps k s t :=
  Keeps.iff_of (k := [.mb]) (by
    unfold settleAbortJob; simp +decide) w

@[simp] theorem decisionPointEffect_keeps {k : List Part} {s : State}  (t : State) (w : within [.mb, .mem, .ctl, .rem, .launch, .mgmt, .errs] k = true) :
    Keeps k s (decisionPointEffect t) ↔ Keeps k s t :=
  Keeps.iff_of (k := [.mb, .mem, .ctl, .rem, .launch, .mgmt, .errs]) (by
    unfold decisionPointEffect; simp only []; (repeat' split) <;> simp +decide) w

@[simp] theorem deferredRoute_keeps {k : List Part} {s : State} (a0) (t : State) (w : within [.time] k = true) :
    Keeps k s (deferredRoute a0 t).2.2 ↔ Keeps k s t :=
  Keeps.iff_of (k := [.time]) (by
    unfold deferredRoute; (repeat' split) <;> simp +decide) w

@[simp] theorem fetchArmed_keeps {k : List Part} {s : State} (a0) (a1) (a2) (t : State) (w : within [.cells, .ctl] k = true) :
    Keeps k s (fetchArmed a0 a1 a2 t) ↔ Keeps k s t :=
  Keeps.iff_of (k := [.cells, .ctl]) (by
    unfold fetchArmed; simp +decide) w

@[simp] theorem fetchRun_keeps {k : List Part} {s : State} (a0) (a1) (a2) (t : State) (w : within [.cells, .ctl, .rem, .launch] k = true) :
    Keeps k s (fetchRun a0 a1 a2 t) ↔ Keeps k s t :=
  Keeps.iff_of (k := [.cells, .ctl, .rem, .launch]) (by
    unfold fetchRun; simp +decide) w

@[simp] theorem settleCell_keeps {k : List Part} {s : State} (a0) (t : State) (w : within [.cells, .ctl] k = true) :
    Keeps k s (settleCell a0 t) ↔ Keeps k s t :=
  Keeps.iff_of (k := [.cells, .ctl]) (by
    unfold settleCell; (repeat' split) <;> simp +decide) w

@[simp] theorem settleDrain_keeps {k : List Part} {s : State}  (t : State) (w : within [.ctl, .time] k = true) :
    Keeps k s (settleDrain t) ↔ Keeps k s t :=
  Keeps.iff_of (k := [.ctl, .time]) (by
    unfold settleDrain; (repeat' split) <;> simp +decide) w

@[simp] theorem descriptorFetchEffect_keeps {k : List Part} {s : State} (a0) (t : State) (w : within [.cells, .ctl, .rem, .time, .launch] k = true) :
    Keeps k s (descriptorFetchEffect a0 t) ↔ Keeps k s t :=
  Keeps.iff_of (k := [.cells, .ctl, .rem, .time, .launch]) (by
    unfold descriptorFetchEffect; (repeat' split) <;> simp +decide) w

@[simp] theorem dieRetireEffect_keeps {k : List Part} {s : State} (a0) (t : State) (w : within [.mb, .mem, .ctl, .flash, .rem, .launch, .mgmt, .errs] k = true) :
    Keeps k s (dieRetireEffect a0 t) ↔ Keeps k s t :=
  Keeps.iff_of (k := [.mb, .mem, .ctl, .flash, .rem, .launch, .mgmt, .errs]) (by
    unfold dieRetireEffect; simp +decide) w

@[simp] theorem leaveService_keeps {k : List Part} {s : State} (a0) (a1) (a2) (t : State) (w : within [.fab, .errs] k = true) :
    Keeps k s (leaveService a0 a1 a2 t) ↔ Keeps k s t :=
  Keeps.iff_of (k := [.fab, .errs]) (by
    unfold leaveService; simp +decide) w

@[simp] theorem disablePort_keeps {k : List Part} {s : State} (a0) (t : State) (w : within [.fab, .time, .errs] k = true) :
    Keeps k s (disablePort a0 t) ↔ Keeps k s t :=
  Keeps.iff_of (k := [.fab, .time, .errs]) (by
    unfold disablePort; simp +decide) w

@[simp] theorem disarmEffect_keeps {k : List Part} {s : State} (a0) (t : State) (w : within [.rem, .launch, .errs] k = true) :
    Keeps k s (disarmEffect a0 t) ↔ Keeps k s t :=
  Keeps.iff_of (k := [.rem, .launch, .errs]) (by
    unfold disarmEffect; simp only []; (repeat' split) <;> simp +decide) w

@[simp] theorem halfOf_keeps {k : List Part} {s : State} (a0) (t : State) (w : within [.time] k = true) :
    Keeps k s (halfOf a0 t).2 ↔ Keeps k s t :=
  Keeps.iff_of (k := [.time]) (by
    unfold halfOf; (repeat' split) <;> simp +decide) w

@[simp] theorem takeOffset_keeps {k : List Part} {s : State} (a0) (t : State) (w : within [.time, .errs] k = true) :
    Keeps k s (takeOffset a0 t) ↔ Keeps k s t :=
  Keeps.iff_of (k := [.time, .errs]) (by
    unfold takeOffset; simp +decide) w

@[simp] theorem disciplined_keeps {k : List Part} {s : State} (a0) (t : State) (w : within [.time, .errs] k = true) :
    Keeps k s (disciplined a0 t) ↔ Keeps k s t :=
  Keeps.iff_of (k := [.time, .errs]) (by
    unfold disciplined; simp +decide) w

@[simp] theorem dropDie_keeps {k : List Part} {s : State} (a0) (t : State) (w : within [.errs] k = true) :
    Keeps k s (dropDie a0 t) ↔ Keeps k s t :=
  Keeps.iff_of (k := [.errs]) (by
    unfold dropDie; simp +decide) w

@[simp] theorem dropDoomed_keeps {k : List Part} {s : State} (a0) (a1) (t : State) (w : within [.mb, .mem, .cells, .ctl, .tier, .flash, .pools, .rem, .launch, .mgmt, .errs] k = true) :
    Keeps k s (dropDoomed a0 a1 t) ↔ Keeps k s t :=
  Keeps.iff_of (k := [.mb, .mem, .cells, .ctl, .tier, .flash, .pools, .rem, .launch, .mgmt, .errs]) (by
    unfold dropDoomed; simp +decide) w

@[simp] theorem dropUnsent_keeps {k : List Part} {s : State}  (t : State) (w : within [.rem] k = true) :
    Keeps k s (dropUnsent t) ↔ Keeps k s t :=
  Keeps.iff_of (k := [.rem]) (by
    unfold dropUnsent; simp +decide) w

@[simp] theorem e2eRetryEffect_keeps {k : List Part} {s : State} (a0) (a1) (t : State) (w : within [.ctl, .rem, .launch, .errs] k = true) :
    Keeps k s (e2eRetryEffect a0 a1 t) ↔ Keeps k s t :=
  Keeps.iff_of (k := [.ctl, .rem, .launch, .errs]) (by
    unfold e2eRetryEffect; (repeat' split) <;> simp +decide) w

@[simp] theorem writeBootDoorbell_keeps {k : List Part} {s : State} (a0) (t : State) (w : within [.boot] k = true) :
    Keeps k s (writeBootDoorbell a0 t) ↔ Keeps k s t :=
  Keeps.iff_of (k := [.boot]) (by
    unfold writeBootDoorbell; simp +decide) w

@[simp] theorem writeBootSram_keeps {k : List Part} {s : State} (a0) (a1) (t : State) (w : within [.boot] k = true) :
    Keeps k s (writeBootSram a0 a1 t) ↔ Keeps k s t :=
  Keeps.iff_of (k := [.boot]) (by
    unfold writeBootSram; simp +decide) w

@[simp] theorem writeClBusy_keeps {k : List Part} {s : State} (a0) (a1) (t : State) (w : within [.boot] k = true) :
    Keeps k s (writeClBusy a0 a1 t) ↔ Keeps k s t :=
  Keeps.iff_of (k := [.boot]) (by
    unfold writeClBusy; simp +decide) w

@[simp] theorem writeClPerfSel_keeps {k : List Part} {s : State} (a0) (a1) (t : State) (w : within [.boot, .dbg] k = true) :
    Keeps k s (writeClPerfSel a0 a1 t) ↔ Keeps k s t :=
  Keeps.iff_of (k := [.boot, .dbg]) (by
    unfold writeClPerfSel; simp +decide) w

@[simp] theorem loadRecordEffect_keeps {k : List Part} {s : State} (a0) (t : State) (w : within [.boot, .mgmt] k = true) :
    Keeps k s (loadRecordEffect a0 t) ↔ Keeps k s t :=
  Keeps.iff_of (k := [.boot, .mgmt]) (by
    unfold loadRecordEffect; simp +decide) w

@[simp] theorem writeCmdDoorbell_keeps {k : List Part} {s : State} (a0) (t : State) (w : within [.mb, .boot, .mgmt] k = true) :
    Keeps k s (writeCmdDoorbell a0 t) ↔ Keeps k s t :=
  Keeps.iff_of (k := [.mb, .boot, .mgmt]) (by
    unfold writeCmdDoorbell; simp +decide) w

@[simp] theorem writeCplHead_keeps {k : List Part} {s : State} (a0) (t : State) (w : within [.mb] k = true) :
    Keeps k s (writeCplHead a0 t) ↔ Keeps k s t :=
  Keeps.iff_of (k := [.mb]) (by
    unfold writeCplHead; simp +decide) w

@[simp] theorem writeEvtClear_keeps {k : List Part} {s : State} (a0) (t : State) (w : within [.mb] k = true) :
    Keeps k s (writeEvtClear a0 t) ↔ Keeps k s t :=
  Keeps.iff_of (k := [.mb]) (by
    unfold writeEvtClear; simp +decide) w

@[simp] theorem writeEvtEnable_keeps {k : List Part} {s : State} (a0) (t : State) (w : within [.mb] k = true) :
    Keeps k s (writeEvtEnable a0 t) ↔ Keeps k s t :=
  Keeps.iff_of (k := [.mb]) (by
    unfold writeEvtEnable; simp +decide) w

@[simp] theorem writeEvtHead_keeps {k : List Part} {s : State} (a0) (t : State) (w : within [.mb, .mem, .ctl, .rem, .launch, .mgmt, .errs] k = true) :
    Keeps k s (writeEvtHead a0 t) ↔ Keeps k s t :=
  Keeps.iff_of (k := [.mb, .mem, .ctl, .rem, .launch, .mgmt, .errs]) (by
    unfold writeEvtHead; simp +decide) w

@[simp] theorem fullReset_keeps {k : List Part} {s : State} (c : Nat) (t : State) (w : within [.mb, .boot, .mem, .unbacked, .tiles, .cells, .ctr, .job, .ctl, .exch, .tier, .flash, .pools, .rem, .fab, .time, .launch, .mgmt, .errs, .dbg, .pins] k = true) :
    Keeps k s (fullReset c t) ↔ Keeps k s t := by
  refine Keeps.iff_of (k := [.mb, .boot, .mem, .unbacked, .tiles, .cells, .ctr, .job, .ctl, .exch, .tier, .flash, .pools, .rem, .fab, .time, .launch, .mgmt, .errs, .dbg, .pins]) ?_ w
  intro c hc
  cases c <;> first | rfl | simp at hc

@[simp] theorem requestReset_keeps {k : List Part} {s : State} (a0) (t : State) (w : within [.mb, .boot, .mem, .unbacked, .tiles, .cells, .ctr, .job, .ctl, .exch, .tier, .flash, .pools, .rem, .fab, .time, .launch, .mgmt, .errs, .dbg, .pins] k = true) :
    Keeps k s (requestReset a0 t) ↔ Keeps k s t :=
  Keeps.iff_of (k := [.mb, .boot, .mem, .unbacked, .tiles, .cells, .ctr, .job, .ctl, .exch, .tier, .flash, .pools, .rem, .fab, .time, .launch, .mgmt, .errs, .dbg, .pins]) (by
    unfold requestReset; (repeat' split) <;> simp +decide) w

@[simp] theorem writeResetCtl_keeps {k : List Part} {s : State} (a0) (t : State) (w : within [.mb, .boot, .mem, .unbacked, .tiles, .cells, .ctr, .job, .ctl, .exch, .tier, .flash, .pools, .rem, .fab, .time, .launch, .mgmt, .errs, .dbg, .pins] k = true) :
    Keeps k s (writeResetCtl a0 t) ↔ Keeps k s t :=
  Keeps.iff_of (k := [.mb, .boot, .mem, .unbacked, .tiles, .cells, .ctr, .job, .ctl, .exch, .tier, .flash, .pools, .rem, .fab, .time, .launch, .mgmt, .errs, .dbg, .pins]) (by
    unfold writeResetCtl; simp +decide) w

@[simp] theorem writeRptHead_keeps {k : List Part} {s : State} (a0) (t : State) (w : within [.mb] k = true) :
    Keeps k s (writeRptHead a0 t) ↔ Keeps k s t :=
  Keeps.iff_of (k := [.mb]) (by
    unfold writeRptHead; simp +decide) w

@[simp] theorem writeTmxCtl_keeps {k : List Part} {s : State} (a0) (t : State) (w : within [.boot, .dbg] k = true) :
    Keeps k s (writeTmxCtl a0 t) ↔ Keeps k s t :=
  Keeps.iff_of (k := [.boot, .dbg]) (by
    unfold writeTmxCtl; simp +decide) w

@[simp] theorem writeTmxSel_keeps {k : List Part} {s : State} (a0) (a1) (t : State) (w : within [.dbg] k = true) :
    Keeps k s (writeTmxSel a0 a1 t) ↔ Keeps k s t :=
  Keeps.iff_of (k := [.dbg]) (by
    unfold writeTmxSel; simp +decide) w

@[simp] theorem ecsWriteWord_keeps {k : List Part} {s : State} (a0) (a1) (t : State) (w : within [.mb, .boot, .mem, .unbacked, .tiles, .cells, .ctr, .job, .ctl, .exch, .tier, .flash, .pools, .rem, .fab, .time, .launch, .mgmt, .errs, .dbg, .pins] k = true) :
    Keeps k s (ecsWriteWord a0 a1 t) ↔ Keeps k s t :=
  Keeps.iff_of (k := [.mb, .boot, .mem, .unbacked, .tiles, .cells, .ctr, .job, .ctl, .exch, .tier, .flash, .pools, .rem, .fab, .time, .launch, .mgmt, .errs, .dbg, .pins]) (by
    unfold ecsWriteWord; simp +decide) w

@[simp] theorem ecsWriteBytes_keeps {k : List Part} {s : State} (a0) (a1) (t : State) (w : within [.mb, .boot, .mem, .unbacked, .tiles, .cells, .ctr, .job, .ctl, .exch, .tier, .flash, .pools, .rem, .fab, .time, .launch, .mgmt, .errs, .dbg, .pins] k = true) :
    Keeps k s (ecsWriteBytes a0 a1 t) ↔ Keeps k s t :=
  Keeps.iff_of (k := [.mb, .boot, .mem, .unbacked, .tiles, .cells, .ctr, .job, .ctl, .exch, .tier, .flash, .pools, .rem, .fab, .time, .launch, .mgmt, .errs, .dbg, .pins]) (by
    unfold ecsWriteBytes; simp +decide) w

@[simp] theorem settlePort_keeps {k : List Part} {s : State} (a0) (a2) (t : State) (w : within [.fab, .time, .errs] k = true) :
    Keeps k s (settlePort a0 t a2) ↔ Keeps k s t :=
  Keeps.iff_of (k := [.fab, .time, .errs]) (by
    unfold settlePort; simp +decide) w

@[simp] theorem settlePorts_keeps {k : List Part} {s : State} (a0) (t : State) (w : within [.fab, .time, .errs] k = true) :
    Keeps k s (settlePorts a0 t) ↔ Keeps k s t :=
  Keeps.iff_of (k := [.fab, .time, .errs]) (by
    unfold settlePorts; simp +decide) w

@[simp] theorem enterFirmwareInit_keeps {k : List Part} {s : State} (a0) (t : State) (w : within [.mb, .boot, .fab, .time, .errs] k = true) :
    Keeps k s (enterFirmwareInit a0 t) ↔ Keeps k s t :=
  Keeps.iff_of (k := [.mb, .boot, .fab, .time, .errs]) (by
    unfold enterFirmwareInit; simp +decide) w

@[simp] theorem entryFaults_keeps {k : List Part} {s : State} (a0) (a1) (t : State) (w : within [.ctl, .rem, .launch] k = true) :
    Keeps k s (entryFaults a0 a1 t) ↔ Keeps k s t :=
  Keeps.iff_of (k := [.ctl, .rem, .launch]) (by
    unfold entryFaults; simp +decide) w

@[simp] theorem openQueues_keeps {k : List Part} {s : State}  (t : State) (w : within [.cells, .ctl, .time] k = true) :
    Keeps k s (openQueues t) ↔ Keeps k s t :=
  Keeps.iff_of (k := [.cells, .ctl, .time]) (by
    unfold openQueues; simp +decide) w

@[simp] theorem resetCounters_keeps {k : List Part} {s : State} (a0) (t : State) (w : within [.ctr, .ctl, .rem, .launch] k = true) :
    Keeps k s (resetCounters a0 t) ↔ Keeps k s t :=
  Keeps.iff_of (k := [.ctr, .ctl, .rem, .launch]) (by
    unfold resetCounters; simp +decide) w

@[simp] theorem fillAnswers_keeps {k : List Part} {s : State} (a0) (a1) (t : State) (w : within [.mem, .ctl] k = true) :
    Keeps k s (fillAnswers a0 a1 t) ↔ Keeps k s t :=
  Keeps.iff_of (k := [.mem, .ctl]) (by
    unfold fillAnswers; simp +decide) w

@[simp] theorem tallyAnswers_keeps {k : List Part} {s : State} (a0) (a1) (t : State) (w : within [.mem, .ctl, .exch] k = true) :
    Keeps k s (tallyAnswers a0 a1 t) ↔ Keeps k s t :=
  Keeps.iff_of (k := [.mem, .ctl, .exch]) (by
    unfold tallyAnswers; simp +decide) w

@[simp] theorem placeMessage_keeps {k : List Part} {s : State} (a0) (t : State) (w : within [.mem, .ctl, .exch, .rem, .launch, .errs] k = true) :
    Keeps k s (placeMessage a0 t) ↔ Keeps k s t :=
  Keeps.iff_of (k := [.mem, .ctl, .exch, .rem, .launch, .errs]) (by
    unfold placeMessage; simp only []; (repeat' split) <;> simp +decide) w

@[simp] theorem settleEarly_keeps {k : List Part} {s : State} (a0) (t : State) (w : within [.mem, .ctl, .exch, .rem, .launch, .errs] k = true) :
    Keeps k s (settleEarly a0 t) ↔ Keeps k s t :=
  Keeps.iff_of (k := [.mem, .ctl, .exch, .rem, .launch, .errs]) (by
    unfold settleEarly; simp +decide) w

@[simp] theorem enterRunning_keeps {k : List Part} {s : State} (a0) (a1) (a2) (t : State) (w : within [.mem, .cells, .ctr, .job, .ctl, .exch, .rem, .time, .launch, .errs] k = true) :
    Keeps k s (enterRunning a0 a1 a2 t) ↔ Keeps k s t :=
  Keeps.iff_of (k := [.mem, .cells, .ctr, .job, .ctl, .exch, .rem, .time, .launch, .errs]) (by
    unfold enterRunning; simp +decide) w

@[simp] theorem enterOrWait_keeps {k : List Part} {s : State} (g : GStep) (f : State → Nat × State) (t : State)
    (w : within [.mem, .cells, .ctr, .job, .ctl, .exch, .rem, .time, .launch, .errs] k = true) (h : ∀ u, Keeps k u (f u).2) : Keeps k s (enterOrWait g f t) ↔ Keeps k s t := by
  refine Keeps.iff_of (k := k) ?_ (by simp [within])
  unfold enterOrWait
  split
  · simp
  · split
    · exact (h t).trans (Keeps.mono (k := [.mem, .cells, .ctr, .job, .ctl, .exch, .rem, .time, .launch, .errs]) (by simp +decide) w)
    · exact (Keeps.mono (k := [.mem, .cells, .ctr, .job, .ctl, .exch, .rem, .time, .launch, .errs]) (by simp +decide) w)

@[simp] theorem evictionEndEffect_keeps {k : List Part} {s : State} (a0) (a1) (t : State) (w : within [.mb, .mem, .cells, .ctl, .tier, .flash, .pools, .rem, .time, .launch, .mgmt, .errs] k = true) :
    Keeps k s (evictionEndEffect a0 a1 t) ↔ Keeps k s t :=
  Keeps.iff_of (k := [.mb, .mem, .cells, .ctl, .tier, .flash, .pools, .rem, .time, .launch, .mgmt, .errs]) (by
    unfold evictionEndEffect; (repeat' split) <;> simp +decide) w

@[simp] theorem runCmd_keeps {k : List Part} {s : State} (meant : Cmd → Bool) (body : Cmd → State → CmdEnd) (t : State)
    (w : within [.mb] k = true) (h : ∀ c u, Keeps k u (body c u).endState) :
    Keeps k s (runCmd meant body t) ↔ Keeps k s t := by
  refine Keeps.iff_of (k := k) ?_ (by simp [within])
  unfold runCmd
  split
  · simp
  · next c _ =>
    split
    · have a := h c { t with mb := { t.mb with cmdHead := t.mb.cmdHead + 1 } }
      simp only [] at a ⊢
      split
      · next st res u e =>
        rw [e] at a
        split
        · simp
        · exact Keeps.trans (Keeps.trans (by simp [w]) a) (by simp [w])
      · next o u e =>
        rw [e] at a
        exact Keeps.trans (Keeps.trans (by simp [w]) a) (by simp [w])
    · simp

@[simp] theorem runPlain_keeps {k : List Part} {s : State} (op : Nat) (body : Cmd → State → CmdEnd) (t : State)
    (w : within [.mb] k = true) (h : ∀ c u, Keeps k u (body c u).endState) :
    Keeps k s (runPlain op body t) ↔ Keeps k s t := by
  unfold runPlain
  simp [w, h]

@[simp] theorem stoppingRead_keeps {k : List Part} {s : State} (a0) (a1) (a2) (t : State) (w : within [.mb, .mem, .ctl, .rem, .launch, .mgmt, .errs] k = true) :
    Keeps k s (stoppingRead a0 a1 a2 t) ↔ Keeps k s t :=
  Keeps.iff_of (k := [.mb, .mem, .ctl, .rem, .launch, .mgmt, .errs]) (by
    unfold stoppingRead; (repeat' split) <;> simp +decide) w

@[simp] theorem issueTask_keeps {k : List Part} {s : State} (cls : Nat) (meant : Desc → Bool)
    (reads : Nat → Desc → State → Nat → Nat → Bool) (work : Nat → Desc → State → TaskEnd × State) (cell : Nat) (hl : Health) (t : State) (w : within [.mb, .mem, .cells, .ctr, .ctl, .rem, .time, .launch, .mgmt, .errs, .dbg] k = true)
    (h : ∀ c d u, Keeps k u (work c d u).2) :
    Keeps k s (issueTask cls meant reads work cell hl t) ↔ Keeps k s t := by
  refine Keeps.iff_of (k := k) ?_ (by simp [within])
  have m : ∀ {a b : State}, Keeps [.mb, .mem, .cells, .ctr, .ctl, .rem, .time, .launch, .mgmt, .errs, .dbg] a b → Keeps k a b := fun x => x.mono w
  unfold issueTask
  split
  · exact m (by simp +decide)
  · dsimp only
    refine Keeps.trans ?_ (m ((settleDrain_keeps _ (by decide)).2 ((settleCell_keeps _ _ (by decide)).2 (Keeps.refl _ _))))
    split
    · exact m (by simp +decide)
    · split
      · split
        · refine Keeps.trans (Keeps.trans ?_ (h _ _ _)) (m ((mapFlight_keeps _ _ _ _ (by decide)).2 (Keeps.refl _ _)))
          exact m (by simp +decide)
        · refine Keeps.trans ?_ (h _ _ _)
          exact m (by simp +decide)
      · exact m (by simp +decide)

@[simp] theorem rtAccept_keeps {k : List Part} {s : State} (a0) (a1) (t : State) (w : within [.mem, .ctr, .ctl, .exch, .rem, .launch, .errs] k = true) :
    Keeps k s (rtAccept a0 a1 t).2 ↔ Keeps k s t :=
  Keeps.iff_of (k := [.mem, .ctr, .ctl, .exch, .rem, .launch, .errs]) (by
    unfold rtAccept; simp only []; (repeat' split) <;> simp +decide) w

@[simp] theorem park_keeps {k : List Part} {s : State} (a0) (a1) (t : State) (w : within [.fab] k = true) :
    Keeps k s (park a0 a1 t) ↔ Keeps k s t :=
  Keeps.iff_of (k := [.fab]) (by
    unfold park; simp +decide) w

@[simp] theorem receive_keeps {k : List Part} {s : State} (op : Nat) (ll : Bool) (f : Option Nat) (p : Packet)
    (g : State → State) (t : State) (w : within [.rem, .fab, .errs] k = true)
    (h : ∀ u, Keeps k t u → Keeps k t (g u)) :
    Keeps k s (receive op ll f p g t) ↔ Keeps k s t := by
  refine Keeps.iff_of (k := k) ?_ (by simp [within])
  unfold receive
  split
  · simp
  · next u he =>
    have a := (arrive_keeps he).mono (within_of w (by decide))
    have w2 : within [.errs] k = true := within_of w (by decide)
    have w3 : within [.fab] k = true := within_of w (by decide)
    have b : Keeps k t (leaveBuffer f p u) := (leaveBuffer_keeps f p u w3).2 a
    (repeat' split) <;> first | exact h _ b | exact (park_keeps f p u w3).2 a | (simp; done) | (simp [w2]; exact b)

@[simp] theorem issueVx_keeps {k : List Part} {s : State} (op : Nat) (f : VxRun → TaskEnd × State) (cell : Nat)
    (hl : Health) (t : State) (w : within [.mb, .mem, .cells, .ctr, .ctl, .rem, .time, .launch, .mgmt, .errs, .dbg] k = true) (h : ∀ x, Keeps k x.s (f x).2) :
    Keeps k s (issueVx op f cell hl t) ↔ Keeps k s t := by
  unfold issueVx
  exact issueTask_keeps _ _ _ _ _ _ _ w fun c d u => h ⟨c, _, u⟩

@[simp] theorem receiveRequest_keeps {k : List Part} {s : State} (op : Nat) (f : Option Nat) (p : Packet) (t : State)
    (w : within [.mem, .ctr, .ctl, .rem, .fab, .launch, .errs, .dbg] k = true) : Keeps k s (receiveRequest op f p t) ↔ Keeps k s t := by
  refine Keeps.iff_of (k := [.mem, .ctr, .ctl, .rem, .fab, .launch, .errs, .dbg]) ?_ w
  unfold receiveRequest
  split
  · simp
  · next u he =>
    have a : Keeps [.mem, .ctr, .ctl, .rem, .fab, .launch, .errs, .dbg] t u := (arrive_keeps he).mono (by decide)
    (repeat' split) <;> first | (simp; done) | exact Keeps.trans a (by simp +decide)

@[simp] theorem placeAnswer_keeps {k : List Part} {s : State} (a0) (a1) (t : State) (w : within [.mem, .ctl, .rem, .launch, .errs] k = true) :
    Keeps k s (placeAnswer a0 a1 t) ↔ Keeps k s t :=
  Keeps.iff_of (k := [.mem, .ctl, .rem, .launch, .errs]) (by
    unfold placeAnswer; (repeat' split) <;> simp +decide) w

@[simp] theorem maybeLate_keeps {k : List Part} {s : State} (e : CmdEnd) (w : within [.time] k = true) :
    Keeps k s (maybeLate e).endState ↔ Keeps k s e.endState := by
  cases e
  · unfold maybeLate; dsimp only [endState_done]; split <;> simp [w]
  · exact Iff.rfl
@[simp] theorem runLong_keeps {k : List Part} {s : State} (op : Nat) (body : Cmd → State → CmdEnd) (t : State)
    (w : within [.mb, .time] k = true) (h : ∀ c u, Keeps k u (body c u).endState) :
    Keeps k s (runLong op body t) ↔ Keeps k s t := by
  have w1 : within [.mb] k = true := within_of w (by decide)
  have w2 : within [.time] k = true := within_of w (by decide)
  unfold runLong
  exact runCmd_keeps _ _ _ w1 fun c u => (maybeLate_keeps _ w2).2 (h c u)

@[simp] theorem refuseMgmt_keeps {k : List Part} {s : State} (a0) (t : State) (w : within [] k = true) :
    Keeps k s (refuseMgmt a0 t).2.2 ↔ Keeps k s t :=
  Keeps.iff_of (k := []) (by
    unfold refuseMgmt; simp +decide) w

@[simp] theorem mgmtAttestRead_keeps {k : List Part} {s : State} (a0) (t : State) (w : within [] k = true) :
    Keeps k s (mgmtAttestRead a0 t).2.2 ↔ Keeps k s t :=
  Keeps.iff_of (k := []) (by
    unfold mgmtAttestRead; simp only []; (repeat' split) <;> simp +decide) w

@[simp] theorem mgmtRespond_keeps {k : List Part} {s : State} (a0) (a1) (a2) (t : State) (w : within [.mgmt] k = true) :
    Keeps k s (mgmtRespond a0 a1 a2 t) ↔ Keeps k s t :=
  Keeps.iff_of (k := [.mgmt]) (by
    unfold mgmtRespond; simp +decide) w

@[simp] theorem serveMgmt_keeps {k : List Part} {s : State} (meant : Nat → Bool) (n : Nat) (body : MgmtBody) (q : MgmtReq)
    (t : State) (w : within [.mgmt] k = true) (h : ∀ u, Keeps k u (body q u).2.2) :
    Keeps k s (serveMgmt meant n body q t) ↔ Keeps k s t := by
  refine Keeps.iff_of (k := k) ?_ (by simp [within])
  unfold serveMgmt
  (repeat' split) <;> simp [w, h]

@[simp] theorem takeFrame_keeps {k : List Part} {s : State} (via : MgmtVia) (f : State → State) (t : State)
    (w : within [.mgmt] k = true) (h : ∀ u, Keeps k u (f u)) : Keeps k s (takeFrame via f t) ↔ Keeps k s t := by
  refine Keeps.iff_of (k := k) ?_ (by simp [within])
  unfold takeFrame
  (repeat' split) <;> first | exact h _ | simp [w]

@[simp] theorem runMgmt_keeps {k : List Part} {s : State} (meant : Nat → Bool) (n : Nat) (body : MgmtBody) (q : MgmtReq)
    (t : State) (w : within [.mgmt] k = true) (h : ∀ u, Keeps k u (body q u).2.2) :
    Keeps k s (runMgmt meant n body q t) ↔ Keeps k s t := by
  refine Keeps.iff_of (k := k) ?_ (by simp [within])
  unfold runMgmt
  split
  · exact (takeFrame_keeps _ _ _ w fun u => (serveMgmt_keeps _ _ _ _ u w h).2 (Keeps.refl _ _)).2 (Keeps.refl _ _)
  · simp

@[simp] theorem runSerial_keeps {k : List Part} {s : State} (op : Nat) (body : Cmd → State → CmdEnd) (t : State)
    (w : within [.mb] k = true) (h : ∀ c u, Keeps k u (body c u).endState) :
    Keeps k s (runSerial op body t) ↔ Keeps k s t := by
  unfold runSerial
  (repeat' split) <;> simp [w, h]

@[simp] theorem loadIr_keeps {k : List Part} {s : State} (a0) (t : State) (w : within [.dbg] k = true) :
    Keeps k s (loadIr a0 t) ↔ Keeps k s t :=
  Keeps.iff_of (k := [.dbg]) (by
    unfold loadIr; simp +decide) w

@[simp] theorem noteEntryStep_keeps {k : List Part} {s : State} (a0) (t : State) (w : within [.ctl] k = true) :
    Keeps k s (noteEntryStep a0 t) ↔ Keeps k s t :=
  Keeps.iff_of (k := [.ctl]) (by
    unfold noteEntryStep; (repeat' split) <;> simp +decide) w

@[simp] theorem putMsg_keeps {k : List Part} {s : State} (a0) (t : State) (w : within [.exch] k = true) :
    Keeps k s (putMsg a0 t) ↔ Keeps k s t :=
  Keeps.iff_of (k := [.exch]) (by
    unfold putMsg; simp +decide) w

@[simp] theorem placeCollective_keeps {k : List Part} {s : State} (a0) (t : State) (w : within [.mem, .ctl, .exch, .rem, .launch, .errs] k = true) :
    Keeps k s (placeCollective a0 t) ↔ Keeps k s t :=
  Keeps.iff_of (k := [.mem, .ctl, .exch, .rem, .launch, .errs]) (by
    unfold placeCollective; simp +decide) w

@[simp] theorem sendCum_keeps {k : List Part} {s : State} (a0) (t : State) (w : within [.rem] k = true) :
    Keeps k s (sendCum a0 t) ↔ Keeps k s t :=
  Keeps.iff_of (k := [.rem]) (by
    unfold sendCum; simp +decide) w

@[simp] theorem tqWork_keeps {k : List Part} {s : State} (a0) (a1) (t : State) (w : within [.cells, .ctl, .tier, .pools, .rem, .time, .launch, .errs] k = true) :
    Keeps k s (tqWork a0 a1 t).2 ↔ Keeps k s t :=
  Keeps.iff_of (k := [.cells, .ctl, .tier, .pools, .rem, .time, .launch, .errs]) (by
    unfold tqWork; simp only []; (repeat' split) <;> simp +decide) w

@[simp] theorem placeExchange_keeps {k : List Part} {s : State} (a0) (t : State) (w : within [.ctl, .exch, .rem, .launch] k = true) :
    Keeps k s (placeExchange a0 t) ↔ Keeps k s t :=
  Keeps.iff_of (k := [.ctl, .exch, .rem, .launch]) (by
    unfold placeExchange; simp only []; (repeat' split) <;> simp +decide) w

@[simp] theorem sealDoneEffect_keeps {k : List Part} {s : State} (a0) (t : State) (w : within [.mb, .mem, .ctl, .tier, .flash, .pools, .rem, .launch, .mgmt, .errs] k = true) :
    Keeps k s (sealDoneEffect a0 t) ↔ Keeps k s t :=
  Keeps.iff_of (k := [.mb, .mem, .ctl, .tier, .flash, .pools, .rem, .launch, .mgmt, .errs]) (by
    unfold sealDoneEffect; (repeat' split) <;> simp +decide) w

@[simp] theorem firmwareVerifyEffect_keeps {k : List Part} {s : State}  (t : State) (w : within [.mb, .boot, .fab, .time, .mgmt, .errs] k = true) :
    Keeps k s (firmwareVerifyEffect t) ↔ Keeps k s t :=
  Keeps.iff_of (k := [.mb, .boot, .fab, .time, .mgmt, .errs]) (by
    unfold firmwareVerifyEffect; simp only []; (repeat' split) <;> simp +decide) w

@[simp] theorem faultWhile_keeps {k : List Part} {s : State} (a0) (a1) (t : State) (w : within [.mb, .mem, .ctl, .rem, .launch, .mgmt, .errs] k = true) :
    Keeps k s (faultWhile a0 a1 t) ↔ Keeps k s t :=
  Keeps.iff_of (k := [.mb, .mem, .ctl, .rem, .launch, .mgmt, .errs]) (by
    unfold faultWhile; simp +decide) w

@[simp] theorem formatDoneEffect_keeps {k : List Part} {s : State} (a0) (t : State) (w : within [.mb, .mem, .ctl, .flash, .rem, .launch, .mgmt, .errs] k = true) :
    Keeps k s (formatDoneEffect a0 t) ↔ Keeps k s t :=
  Keeps.iff_of (k := [.mb, .mem, .ctl, .flash, .rem, .launch, .mgmt, .errs]) (by
    unfold formatDoneEffect; simp +decide) w

@[simp] theorem fmGuard_keeps {k : List Part} {s : State} (a n : Nat) (f : State → State) (t : State)
    (w : within [.ctl, .rem, .launch] k = true) (h : ∀ u, Keeps k u (f u)) : Keeps k s (fmGuard a n f t).2 ↔ Keeps k s t := by
  refine Keeps.iff_of (k := k) ?_ (by simp [within])
  unfold fmGuard
  split
  · exact h _
  · exact (Keeps.mono (k := [.ctl, .rem, .launch]) (by simp +decide) w)

@[simp] theorem fmAtomic_keeps {k : List Part} {s : State} (a0) (a1) (t : State) (w : within [.ctl, .rem, .launch] k = true) :
    Keeps k s (fmAtomic a0 a1 t).2 ↔ Keeps k s t :=
  Keeps.iff_of (k := [.ctl, .rem, .launch]) (by
    unfold fmAtomic; simp +decide) w

@[simp] theorem issueFm_keeps {k : List Part} {s : State} (op : Nat) (work : Nat → Desc → State → TaskEnd × State)
    (cell : Nat) (hl : Health) (t : State) (w : within [.mb, .mem, .cells, .ctr, .ctl, .rem, .time, .launch, .mgmt, .errs, .dbg] k = true) (h : ∀ c d u, Keeps k u (work c d u).2) :
    Keeps k s (issueFm op work cell hl t) ↔ Keeps k s t := by
  unfold issueFm
  exact issueTask_keeps _ _ _ _ _ _ _ w h

@[simp] theorem fmFlagStore_keeps {k : List Part} {s : State} (a0) (a1) (t : State) (w : within [.ctl, .rem, .launch] k = true) :
    Keeps k s (fmFlagStore a0 a1 t).2 ↔ Keeps k s t :=
  Keeps.iff_of (k := [.ctl, .rem, .launch]) (by
    unfold fmFlagStore; simp +decide) w

@[simp] theorem sendEach_keeps {k : List Part} {s : State} (a0) (a1) (a2) (a3) (t : State) (w : within [.rem] k = true) :
    Keeps k s (sendEach a0 a1 a2 a3 t) ↔ Keeps k s t :=
  Keeps.iff_of (k := [.rem]) (by
    unfold sendEach; simp +decide) w

@[simp] theorem fmGet_keeps {k : List Part} {s : State} (a0) (a1) (t : State) (w : within [.ctl, .rem, .launch] k = true) :
    Keeps k s (fmGet a0 a1 t).2 ↔ Keeps k s t :=
  Keeps.iff_of (k := [.ctl, .rem, .launch]) (by
    unfold fmGet; simp +decide) w

@[simp] theorem fmLoad_keeps {k : List Part} {s : State} (a0) (a1) (t : State) (w : within [.ctl, .rem, .launch] k = true) :
    Keeps k s (fmLoad a0 a1 t).2 ↔ Keeps k s t :=
  Keeps.iff_of (k := [.ctl, .rem, .launch]) (by
    unfold fmLoad; simp +decide) w

@[simp] theorem fmPut_keeps {k : List Part} {s : State} (a0) (a1) (t : State) (w : within [.ctl, .rem, .launch] k = true) :
    Keeps k s (fmPut a0 a1 t).2 ↔ Keeps k s t :=
  Keeps.iff_of (k := [.ctl, .rem, .launch]) (by
    unfold fmPut; simp +decide) w

@[simp] theorem fmStore_keeps {k : List Part} {s : State} (a0) (a1) (t : State) (w : within [.ctl, .rem, .launch] k = true) :
    Keeps k s (fmStore a0 a1 t).2 ↔ Keeps k s t :=
  Keeps.iff_of (k := [.ctl, .rem, .launch]) (by
    unfold fmStore; simp +decide) w

@[simp] theorem noteNeighbour_keeps {k : List Part} {s : State} (a0) (a1) (t : State) (w : within [.time, .errs] k = true) :
    Keeps k s (noteNeighbour a0 a1 t) ↔ Keeps k s t :=
  Keeps.iff_of (k := [.time, .errs]) (by
    unfold noteNeighbour; simp +decide) w

@[simp] theorem followEffect_keeps {k : List Part} {s : State} (a0) (a1) (t : State) (w : within [.time, .errs] k = true) :
    Keeps k s (followEffect a0 a1 t) ↔ Keeps k s t :=
  Keeps.iff_of (k := [.time, .errs]) (by
    unfold followEffect; simp +decide) w

@[simp] theorem forwardEffect_keeps {k : List Part} {s : State} (a0) (a1) (t : State) (w : within [.rem, .fab, .errs] k = true) :
    Keeps k s (forwardEffect a0 a1 t) ↔ Keeps k s t :=
  Keeps.iff_of (k := [.rem, .fab, .errs]) (by
    unfold forwardEffect; (repeat' split) <;> simp +decide) w

@[simp] theorem placeGet_keeps {k : List Part} {s : State} (a0) (a1) (t : State) (w : within [.mem, .ctr, .ctl, .rem, .launch, .errs, .dbg] k = true) :
    Keeps k s (placeGet a0 a1 t) ↔ Keeps k s t :=
  Keeps.iff_of (k := [.mem, .ctr, .ctl, .rem, .launch, .errs, .dbg]) (by
    unfold placeGet; (repeat' split) <;> simp +decide) w

@[simp] theorem mgmtGetSnapshot_keeps {k : List Part} {s : State} (a0) (t : State) (w : within [] k = true) :
    Keeps k s (mgmtGetSnapshot a0 t).2.2 ↔ Keeps k s t :=
  Keeps.iff_of (k := []) (by
    unfold mgmtGetSnapshot; simp only []; (repeat' split) <;> simp +decide) w

@[simp] theorem mgmtGetState_keeps {k : List Part} {s : State} (a0) (t : State) (w : within [] k = true) :
    Keeps k s (mgmtGetState a0 t).2.2 ↔ Keeps k s t :=
  Keeps.iff_of (k := []) (by
    unfold mgmtGetState; simp +decide) w

@[simp] theorem holdReport_keeps {k : List Part} {s : State} (a0) (t : State) (w : within [.mb, .mem, .ctl, .rem, .launch, .mgmt, .errs] k = true) :
    Keeps k s (holdReport a0 t) ↔ Keeps k s t :=
  Keeps.iff_of (k := [.mb, .mem, .ctl, .rem, .launch, .mgmt, .errs]) (by
    unfold holdReport; simp +decide) w

@[simp] theorem keepRun_keeps {k : List Part} {s : State} (a0) (a1) (t : State) (w : within [.ctl] k = true) :
    Keeps k s (keepRun a0 a1 t) ↔ Keeps k s t :=
  Keeps.iff_of (k := [.ctl]) (by
    unfold keepRun; simp +decide) w

@[simp] theorem latchWindows_keeps {k : List Part} {s : State}  (t : State) (w : within [.mb, .mem, .ctl, .rem, .launch, .mgmt, .errs] k = true) :
    Keeps k s (latchWindows t) ↔ Keeps k s t :=
  Keeps.iff_of (k := [.mb, .mem, .ctl, .rem, .launch, .mgmt, .errs]) (by
    unfold latchWindows; simp +decide) w

@[simp] theorem releaseHolds_keeps {k : List Part} {s : State}  (t : State) (w : within [.tier] k = true) :
    Keeps k s (releaseHolds t) ↔ Keeps k s t :=
  Keeps.iff_of (k := [.tier]) (by
    unfold releaseHolds; simp +decide) w

@[simp] theorem sendCums_keeps {k : List Part} {s : State}  (t : State) (w : within [.rem] k = true) :
    Keeps k s (sendCums t) ↔ Keeps k s t :=
  Keeps.iff_of (k := [.rem]) (by
    unfold sendCums; simp +decide) w

@[simp] theorem tableSwap_keeps {k : List Part} {s : State}  (t : State) (w : within [.fab, .time, .errs] k = true) :
    Keeps k s (tableSwap t) ↔ Keeps k s t :=
  Keeps.iff_of (k := [.fab, .time, .errs]) (by
    unfold tableSwap; simp +decide) w

@[simp] theorem latchEffects_keeps {k : List Part} {s : State} (a0) (t : State) (w : within [.mb, .mem, .cells, .ctl, .tier, .rem, .fab, .time, .launch, .mgmt, .errs] k = true) :
    Keeps k s (latchEffects a0 t) ↔ Keeps k s t :=
  Keeps.iff_of (k := [.mb, .mem, .cells, .ctl, .tier, .rem, .fab, .time, .launch, .mgmt, .errs]) (by
    unfold latchEffects; simp +decide) w

@[simp] theorem latchArmed_keeps {k : List Part} {s : State} (a0) (t : State) (w : within [.mb, .mem, .cells, .ctr, .ctl, .exch, .tier, .rem, .fab, .time, .launch, .mgmt, .errs] k = true) :
    Keeps k s (latchArmed a0 t) ↔ Keeps k s t :=
  Keeps.iff_of (k := [.mb, .mem, .cells, .ctr, .ctl, .exch, .tier, .rem, .fab, .time, .launch, .mgmt, .errs]) (by
    unfold latchArmed; (repeat' split) <;> simp +decide) w

@[simp] theorem obeyGong_keeps {k : List Part} {s : State} (a0) (t : State) (w : within [.mb, .mem, .cells, .ctr, .ctl, .exch, .tier, .rem, .fab, .time, .launch, .mgmt, .errs] k = true) :
    Keeps k s (obeyGong a0 t) ↔ Keeps k s t :=
  Keeps.iff_of (k := [.mb, .mem, .cells, .ctr, .ctl, .exch, .tier, .rem, .fab, .time, .launch, .mgmt, .errs]) (by
    unfold obeyGong; simp only []; (repeat' split) <;> simp +decide) w

@[simp] theorem gongEffect_keeps {k : List Part} {s : State} (a0) (a1) (t : State) (w : within [.mb, .mem, .cells, .ctr, .ctl, .exch, .tier, .rem, .fab, .time, .launch, .mgmt, .errs] k = true) :
    Keeps k s (gongEffect a0 a1 t) ↔ Keeps k s t :=
  Keeps.iff_of (k := [.mb, .mem, .cells, .ctr, .ctl, .exch, .tier, .rem, .fab, .time, .launch, .mgmt, .errs]) (by
    unfold gongEffect; simp +decide) w

@[simp] theorem raiseSetpoints_keeps {k : List Part} {s : State} (a0) (a1) (t : State) (w : within [.mgmt] k = true) :
    Keeps k s (raiseSetpoints a0 a1 t) ↔ Keeps k s t :=
  Keeps.iff_of (k := [.mgmt]) (by
    unfold raiseSetpoints; simp only []; split <;> simp +decide) w

@[simp] theorem lowerSetpoints_keeps {k : List Part} {s : State} (a0) (a1) (t : State) (w : within [.mgmt] k = true) :
    Keeps k s (lowerSetpoints a0 a1 t) ↔ Keeps k s t :=
  Keeps.iff_of (k := [.mgmt]) (by
    unfold lowerSetpoints; simp only []; split <;> simp +decide) w

@[simp] theorem governorStepEffect_keeps {k : List Part} {s : State} (a0) (t : State) (w : within [.mgmt] k = true) :
    Keeps k s (governorStepEffect a0 t) ↔ Keeps k s t :=
  Keeps.iff_of (k := [.mgmt]) (by
    unfold governorStepEffect; simp +decide) w

@[simp] theorem retrain_keeps {k : List Part} {s : State} (a0) (t : State) (w : within [.fab, .time, .errs] k = true) :
    Keeps k s (retrain a0 t) ↔ Keeps k s t :=
  Keeps.iff_of (k := [.fab, .time, .errs]) (by
    unfold retrain; simp +decide) w

@[simp] theorem hbmScrubEffect_keeps {k : List Part} {s : State} (a0) (a1) (t : State) (w : within [.mb, .mem, .cells, .ctl, .tier, .flash, .pools, .rem, .time, .launch, .mgmt, .errs] k = true) :
    Keeps k s (hbmScrubEffect a0 a1 t) ↔ Keeps k s t :=
  Keeps.iff_of (k := [.mb, .mem, .cells, .ctl, .tier, .flash, .pools, .rem, .time, .launch, .mgmt, .errs]) (by
    unfold hbmScrubEffect; simp only []; (repeat' split) <;> simp +decide) w

@[simp] theorem strobeBeat_keeps {k : List Part} {s : State} (a0) (t : State) (w : within [.time] k = true) :
    Keeps k s (strobeBeat a0 t).2 ↔ Keeps k s t :=
  Keeps.iff_of (k := [.time]) (by
    unfold strobeBeat; simp +decide) w

@[simp] theorem launchStrobeEffect_keeps {k : List Part} {s : State}  (t : State) (w : within [.mem, .cells, .ctr, .job, .ctl, .exch, .rem, .time, .launch, .errs] k = true) :
    Keeps k s (launchStrobeEffect t) ↔ Keeps k s t :=
  Keeps.iff_of (k := [.mem, .cells, .ctr, .job, .ctl, .exch, .rem, .time, .launch, .errs]) (by
    unfold launchStrobeEffect; (repeat' split) <;> simp +decide) w

@[simp] theorem lineWriteBackEffect_keeps {k : List Part} {s : State} (a0) (t : State) (w : within [.mem, .ctr, .ctl, .rem, .launch, .errs, .dbg] k = true) :
    Keeps k s (lineWriteBackEffect a0 t) ↔ Keeps k s t :=
  Keeps.iff_of (k := [.mem, .ctr, .ctl, .rem, .launch, .errs, .dbg]) (by
    unfold lineWriteBackEffect; (repeat' split) <;> simp +decide) w

@[simp] theorem linkReplayEffect_keeps {k : List Part} {s : State} (a0) (a1) (t : State) (w : within [.fab, .time, .errs] k = true) :
    Keeps k s (linkReplayEffect a0 a1 t) ↔ Keeps k s t :=
  Keeps.iff_of (k := [.fab, .time, .errs]) (by
    unfold linkReplayEffect; (repeat' split) <;> simp +decide) w

@[simp] theorem markWork_keeps {k : List Part} {s : State} (a0) (a1) (t : State) (w : within [.mem, .ctl, .rem, .time, .launch, .errs] k = true) :
    Keeps k s (markWork a0 a1 t).2 ↔ Keeps k s t :=
  Keeps.iff_of (k := [.mem, .ctl, .rem, .time, .launch, .errs]) (by
    unfold markWork; simp only []; (repeat' split) <;> simp +decide) w

@[simp] theorem mgmtSend_keeps {k : List Part} {s : State} (a0) (a1) (a2) (t : State) (w : within [.mgmt] k = true) :
    Keeps k s (mgmtSend a0 a1 a2 t) ↔ Keeps k s t :=
  Keeps.iff_of (k := [.mgmt]) (by
    unfold mgmtSend; simp +decide) w

@[simp] theorem nextFree_keeps {k : List Part} {s : State}  (t : State) (w : within [.time] k = true) :
    Keeps k s (nextFree t) ↔ Keeps k s t :=
  Keeps.iff_of (k := [.time]) (by
    unfold nextFree; simp +decide) w

@[simp] theorem hostData_keeps {k : List Part} {s : State} (a0) (a1) (t : State) (w : within [.mem, .unbacked] k = true) :
    Keeps k s (hostData a0 a1 t) ↔ Keeps k s t :=
  Keeps.iff_of (k := [.mem, .unbacked]) (by
    unfold hostData; simp +decide) w

@[simp] theorem unbackedOutcome_keeps {k : List Part} {s : State} (a0) (t : State) (w : within [.mb, .boot, .mem, .ctl, .rem, .launch, .mgmt, .errs] k = true) :
    Keeps k s (unbackedOutcome a0 t) ↔ Keeps k s t :=
  Keeps.iff_of (k := [.mb, .boot, .mem, .ctl, .rem, .launch, .mgmt, .errs]) (by
    unfold unbackedOutcome; (repeat' split) <;> simp +decide) w

@[simp] theorem memCplEffect_keeps {k : List Part} {s : State} (a0) (a1) (a2) (t : State) (w : within [.mb, .boot, .mem, .unbacked, .ctl, .rem, .launch, .mgmt, .errs] k = true) :
    Keeps k s (memCplEffect a0 a1 a2 t) ↔ Keeps k s t :=
  Keeps.iff_of (k := [.mb, .boot, .mem, .unbacked, .ctl, .rem, .launch, .mgmt, .errs]) (by
    unfold memCplEffect; (repeat' split) <;> simp +decide) w

@[simp] theorem landAgain_keeps {k : List Part} {s : State} (a0) (t : State) (w : within [.mem, .ctl, .exch, .rem, .launch, .errs] k = true) :
    Keeps k s (landAgain a0 t) ↔ Keeps k s t :=
  Keeps.iff_of (k := [.mem, .ctl, .exch, .rem, .launch, .errs]) (by
    unfold landAgain; simp only []; (repeat' split) <;> simp +decide) w

@[simp] theorem landCollective_keeps {k : List Part} {s : State} (a0) (t : State) (w : within [.ctr, .ctl, .exch, .rem, .launch, .dbg] k = true) :
    Keeps k s (landCollective a0 t) ↔ Keeps k s t :=
  Keeps.iff_of (k := [.ctr, .ctl, .exch, .rem, .launch, .dbg]) (by
    unfold landCollective; simp only []; (repeat' split) <;> simp +decide) w

@[simp] theorem landExchange_keeps {k : List Part} {s : State} (a0) (t : State) (w : within [.mem, .ctr, .ctl, .exch, .rem, .launch, .errs, .dbg] k = true) :
    Keeps k s (landExchange a0 t) ↔ Keeps k s t :=
  Keeps.iff_of (k := [.mem, .ctr, .ctl, .exch, .rem, .launch, .errs, .dbg]) (by
    unfold landExchange; simp only []; (repeat' split) <;> simp +decide) w

@[simp] theorem messageLandedEffect_keeps {k : List Part} {s : State} (a0) (t : State) (w : within [.mem, .ctr, .ctl, .exch, .rem, .launch, .errs, .dbg] k = true) :
    Keeps k s (messageLandedEffect a0 t) ↔ Keeps k s t :=
  Keeps.iff_of (k := [.mem, .ctr, .ctl, .exch, .rem, .launch, .errs, .dbg]) (by
    unfold messageLandedEffect; (repeat' split) <;> simp +decide) w

@[simp] theorem mgmtAttestBody_keeps {k : List Part} {s : State} (a0) (t : State) (w : within [.mgmt] k = true) :
    Keeps k s (mgmtAttestBody a0 t).2.2 ↔ Keeps k s t :=
  Keeps.iff_of (k := [.mgmt]) (by
    unfold mgmtAttestBody; simp +decide) w

@[simp] theorem failFlashPromotions_keeps {k : List Part} {s : State}  (t : State) (w : within [.mb, .mem, .cells, .ctl, .tier, .flash, .pools, .rem, .time, .launch, .mgmt, .errs] k = true) :
    Keeps k s (failFlashPromotions t) ↔ Keeps k s t :=
  Keeps.iff_of (k := [.mb, .mem, .cells, .ctl, .tier, .flash, .pools, .rem, .time, .launch, .mgmt, .errs]) (by
    unfold failFlashPromotions; simp +decide) w

@[simp] theorem mountFailed_keeps {k : List Part} {s : State} (a0) (a1) (t : State) (w : within [.mb, .mem, .cells, .ctl, .tier, .flash, .pools, .rem, .time, .launch, .mgmt, .errs] k = true) :
    Keeps k s (mountFailed a0 a1 t) ↔ Keeps k s t :=
  Keeps.iff_of (k := [.mb, .mem, .cells, .ctl, .tier, .flash, .pools, .rem, .time, .launch, .mgmt, .errs]) (by
    unfold mountFailed; simp +decide) w

@[simp] theorem mountUnformatted_keeps {k : List Part} {s : State} (a0) (t : State) (w : within [.mb, .mem, .cells, .ctl, .tier, .flash, .pools, .rem, .time, .launch, .mgmt, .errs] k = true) :
    Keeps k s (mountUnformatted a0 t) ↔ Keeps k s t :=
  Keeps.iff_of (k := [.mb, .mem, .cells, .ctl, .tier, .flash, .pools, .rem, .time, .launch, .mgmt, .errs]) (by
    unfold mountUnformatted; simp +decide) w

theorem mountDecided_keeps {r : MountResult} {g : FlashGeometry} {t u : State} (e : mountDecided? r g t = some u) :
    Keeps [.mb, .mem, .cells, .ctl, .tier, .flash, .pools, .rem, .time, .launch, .mgmt, .errs] t u := by
  unfold mountDecided? at e
  (repeat' split at e) <;> cases e <;> simp +decide

theorem mountDecided_getD {k : List Part} {r : MountResult} {g : FlashGeometry} {t d : State} (w : within [.mb, .mem, .cells, .ctl, .tier, .flash, .pools, .rem, .time, .launch, .mgmt, .errs] k = true)
    (h : Keeps k t d) : Keeps k t ((mountDecided? r g t).getD d) := by
  cases e : mountDecided? r g t with
  | none => exact h
  | some u => exact (mountDecided_keeps e).mono w

@[simp] theorem recoverExtents_keeps {k : List Part} {s : State} (l : List Extent) (t : State)
    (w : within [.time] k = true) : Keeps k s (recoverExtents l t).2 ↔ Keeps k s t := by
  refine Keeps.iff_of (k := [.time]) ?_ w
  induction l generalizing t with
  | nil => unfold recoverExtents; simp
  | cons x r ih =>
    unfold recoverExtents
    dsimp only
    split
    · exact ih _
    · split <;> exact Keeps.trans (by simp +decide) (ih _)

@[simp] theorem mountOnline_keeps {k : List Part} {s : State} (a0) (a1) (t : State) (w : within [.mb, .mem, .ctl, .flash, .rem, .time, .launch, .mgmt, .errs] k = true) :
    Keeps k s (mountOnline a0 a1 t) ↔ Keeps k s t :=
  Keeps.iff_of (k := [.mb, .mem, .ctl, .flash, .rem, .time, .launch, .mgmt, .errs]) (by
    unfold mountOnline; simp +decide) w

@[simp] theorem mountEndEffect_keeps {k : List Part} {s : State} (r : MountResult) (t : State)
    (w : within [.mb, .mem, .cells, .ctl, .tier, .flash, .pools, .rem, .time, .launch, .mgmt, .errs] k = true) : Keeps k s (mountEndEffect r t) ↔ Keeps k s t := by
  refine Keeps.iff_of (k := [.mb, .mem, .cells, .ctl, .tier, .flash, .pools, .rem, .time, .launch, .mgmt, .errs]) ?_ w
  unfold mountEndEffect
  (repeat' split) <;> first
    | (simp +decide; done)
    | exact mountDecided_getD (by decide) (by first | (simp +decide; done) | (split <;> simp +decide))

@[simp] theorem mxDrain_keeps {k : List Part} {s : State} (a0) (a1) (t : State) (w : within [.mem, .ctl, .errs] k = true) :
    Keeps k s (mxDrain a0 a1 t) ↔ Keeps k s t :=
  Keeps.iff_of (k := [.mem, .ctl, .errs]) (by
    unfold mxDrain; simp +decide) w

@[simp] theorem mxProduct_keeps {k : List Part} {s : State} (cell : Nat) (x : Mx) (steps : List KStep) (t : State)
    (w : within [.tiles] k = true) : Keeps k s (mxProduct cell x steps t).1 ↔ Keeps k s t := by
  refine Keeps.iff_of (k := [.tiles]) ?_ w
  unfold mxProduct
  have inner : ∀ (b : Nat) (l : List Nat) (a : State × Nat), Keeps [.tiles] t a.1 → Keeps [.tiles] t (l.foldl (fun a p =>
      let r := elementResult t cell x steps b p
      ({ a.1 with tiles := memPutLe a.1.tiles (tileAddr cell (x.tile + b) p) 4 r.1 }, a.2 + r.2)) a).1 := by
    intro b l
    induction l with
    | nil => intro a h; exact h
    | cons p q ih => intro a h; exact ih _ ((keeps_set_tiles (by decide)).2 h)
  have outer : ∀ (m l : List Nat) (a : State × Nat), Keeps [.tiles] t a.1 → Keeps [.tiles] t (l.foldl (fun a b =>
      m.foldl (fun a p =>
        let r := elementResult t cell x steps b p
        ({ a.1 with tiles := memPutLe a.1.tiles (tileAddr cell (x.tile + b) p) 4 r.1 }, a.2 + r.2)) a) a).1 := by
    intro m l
    induction l with
    | nil => intro a h; exact h
    | cons b r ih => intro a h; exact ih _ (inner b m a h)
  exact outer _ _ _ (Keeps.refl _ _)

@[simp] theorem mxWork_keeps {k : List Part} {s : State} (a0) (a1) (t : State) (w : within [.mem, .tiles, .ctl, .errs, .dbg] k = true) :
    Keeps k s (mxWork a0 a1 t).2 ↔ Keeps k s t :=
  Keeps.iff_of (k := [.mem, .tiles, .ctl, .errs, .dbg]) (by
    unfold mxWork; simp +decide) w

@[simp] theorem nandEraseEndEffect_keeps {k : List Part} {s : State} (a0) (a1) (t : State) (w : within [.mb, .mem, .ctl, .flash, .rem, .launch, .mgmt, .errs] k = true) :
    Keeps k s (nandEraseEndEffect a0 a1 t) ↔ Keeps k s t :=
  Keeps.iff_of (k := [.mb, .mem, .ctl, .flash, .rem, .launch, .mgmt, .errs]) (by
    unfold nandEraseEndEffect; simp +decide) w

@[simp] theorem pageProgrammed_keeps {k : List Part} {s : State} (a0) (t : State) (w : within [.mb, .mem, .ctl, .tier, .flash, .pools, .rem, .launch, .mgmt, .errs] k = true) :
    Keeps k s (pageProgrammed a0 t) ↔ Keeps k s t :=
  Keeps.iff_of (k := [.mb, .mem, .ctl, .tier, .flash, .pools, .rem, .launch, .mgmt, .errs]) (by
    unfold pageProgrammed; (repeat' split) <;> simp +decide) w

@[simp] theorem nandProgramEndEffect_keeps {k : List Part} {s : State} (a0) (a1) (t : State) (w : within [.mb, .mem, .ctl, .tier, .flash, .pools, .rem, .launch, .mgmt, .errs] k = true) :
    Keeps k s (nandProgramEndEffect a0 a1 t) ↔ Keeps k s t :=
  Keeps.iff_of (k := [.mb, .mem, .ctl, .tier, .flash, .pools, .rem, .launch, .mgmt, .errs]) (by
    unfold nandProgramEndEffect; simp +decide) w

@[simp] theorem getBackground_keeps {k : List Part} {s : State} (a0) (t : State) (w : within [.time] k = true) :
    Keeps k s (getBackground a0 t).2 ↔ Keeps k s t :=
  Keeps.iff_of (k := [.time]) (by
    unfold getBackground; (repeat' split) <;> simp +decide) w

@[simp] theorem serveGet_keeps {k : List Part} {s : State} (a0) (a1) (t : State) (w : within [.mem, .ctr, .ctl, .rem, .time, .launch, .errs, .dbg] k = true) :
    Keeps k s (serveGet a0 a1 t) ↔ Keeps k s t :=
  Keeps.iff_of (k := [.mem, .ctr, .ctl, .rem, .time, .launch, .errs, .dbg]) (by
    unfold serveGet; simp +decide) w

@[simp] theorem startOn_keeps {k : List Part} {s : State} (a0) (a1) (t : State) (w : within [.rem, .fab, .errs] k = true) :
    Keeps k s (startOn a0 a1 t) ↔ Keeps k s t :=
  Keeps.iff_of (k := [.rem, .fab, .errs]) (by
    unfold startOn; simp +decide) w

@[simp] theorem leaveCredit_keeps {k : List Part} {s : State} (a0) (t : State) (w : within [.fab] k = true) :
    Keeps k s (leaveCredit a0 t) ↔ Keeps k s t :=
  Keeps.iff_of (k := [.fab]) (by
    unfold leaveCredit; (repeat' split) <;> simp +decide) w

@[simp] theorem unqueue_keeps {k : List Part} {s : State} (a0) (a1) (t : State) (w : within [.rem, .fab] k = true) :
    Keeps k s (unqueue a0 a1 t) ↔ Keeps k s t :=
  Keeps.iff_of (k := [.rem, .fab]) (by
    unfold unqueue; simp +decide) w

@[simp] theorem discardHeld_keeps {k : List Part} {s : State} (v : LaneWait) (u t : State)
    (w : within [.fab] k = true) : Keeps k s (discardHeld v u t) ↔ if v.held then Keeps k s u else Keeps k s t := by
  unfold discardHeld; split <;> simp [w]

@[simp] theorem dropBuffered_keeps {k : List Part} {s : State} (a0) (t : State) (w : within [.rem, .fab] k = true) :
    Keeps k s (dropBuffered a0 t) ↔ Keeps k s t :=
  Keeps.iff_of (k := [.rem, .fab]) (by
    unfold dropBuffered; simp only []; (repeat' split) <;> simp +decide) w

@[simp] theorem markWord_keeps {k : List Part} {s : State} (a0) (a1) (t : State) (w : within [.errs] k = true) :
    Keeps k s (markWord a0 a1 t) ↔ Keeps k s t :=
  Keeps.iff_of (k := [.errs]) (by
    unfold markWord; simp only []; (repeat' split) <;> simp +decide) w

@[simp] theorem sramScrubEffect_keeps {k : List Part} {s : State} (a0) (t : State) (w : within [.mb, .mem, .ctl, .rem, .fab, .launch, .mgmt, .errs] k = true) :
    Keeps k s (sramScrubEffect a0 t) ↔ Keeps k s t :=
  Keeps.iff_of (k := [.mb, .mem, .ctl, .rem, .fab, .launch, .mgmt, .errs]) (by
    unfold sramScrubEffect; (repeat' split) <;> simp +decide) w

@[simp] theorem serveItem_keeps {k : List Part} {s : State} (a0) (a1) (a2) (a3) (t : State) (w : within [.rem, .fab, .errs] k = true) :
    Keeps k s (serveItem a0 a1 a2 a3 t) ↔ Keeps k s t :=
  Keeps.iff_of (k := [.rem, .fab, .errs]) (by
    unfold serveItem; simp +decide) w

@[simp] theorem unroutable_keeps {k : List Part} {s : State} (a0) (t : State) (w : within [.ctl, .rem, .launch, .errs] k = true) :
    Keeps k s (unroutable a0 t) ↔ Keeps k s t :=
  Keeps.iff_of (k := [.ctl, .rem, .launch, .errs]) (by
    unfold unroutable; simp +decide) w

@[simp] theorem startItem_keeps {k : List Part} {s : State} (a0) (a1) (t : State) (w : within [.ctl, .rem, .fab, .launch, .errs] k = true) :
    Keeps k s (startItem a0 a1 t) ↔ Keeps k s t :=
  Keeps.iff_of (k := [.ctl, .rem, .fab, .launch, .errs]) (by
    unfold startItem; (repeat' split) <;> simp +decide) w

@[simp] theorem takeViews_keeps {k : List Part} {s : State} (a0) (t : State) (w : within [.fab] k = true) :
    Keeps k s (takeViews a0 t) ↔ Keeps k s t :=
  Keeps.iff_of (k := [.fab]) (by
    unfold takeViews; simp +decide) w

@[simp] theorem packetSendEffect_keeps {k : List Part} {s : State} (a0) (a1) (t : State) (w : within [.mem, .ctr, .ctl, .rem, .fab, .time, .launch, .errs, .dbg] k = true) :
    Keeps k s (packetSendEffect a0 a1 t) ↔ Keeps k s t :=
  Keeps.iff_of (k := [.mem, .ctr, .ctl, .rem, .fab, .time, .launch, .errs, .dbg]) (by
    unfold packetSendEffect; simp only []; (repeat' split) <;> simp +decide) w

@[simp] theorem receivePeal_keeps {k : List Part} {s : State} (kind port : Nat) (p : Packet) (f : State → State)
    (t : State) (w : within [.rem, .fab, .errs] k = true) (h : ∀ u, Keeps k u (f u)) :
    Keeps k s (receivePeal kind port p f t) ↔ Keeps k s t := by
  unfold receivePeal
  refine receive_keeps _ _ _ _ _ _ w fun u a => ?_
  have w2 : within [.errs] k = true := within_of w (by decide)
  (repeat' split) <;> first | exact a.trans (h u) | (simp; done) | (simp [w2]; exact a)

@[simp] theorem pldmEffect_keeps {k : List Part} {s : State} (a0) (a1) (a2) (t : State) (w : within [.time, .mgmt] k = true) :
    Keeps k s (pldmEffect a0 a1 a2 t) ↔ Keeps k s t :=
  Keeps.iff_of (k := [.time, .mgmt]) (by
    unfold pldmEffect; (repeat' split) <;> simp +decide) w

@[simp] theorem retrainEnabled_keeps {k : List Part} {s : State} (a0) (t : State) (w : within [.fab, .time, .errs] k = true) :
    Keeps k s (retrainEnabled a0 t) ↔ Keeps k s t :=
  Keeps.iff_of (k := [.fab, .time, .errs]) (by
    unfold retrainEnabled; (repeat' split) <;> simp +decide) w

@[simp] theorem mgmtPortConfig_keeps {k : List Part} {s : State} (a0) (t : State) (w : within [.fab, .time, .errs] k = true) :
    Keeps k s (mgmtPortConfig a0 t).2.2 ↔ Keeps k s t :=
  Keeps.iff_of (k := [.fab, .time, .errs]) (by
    unfold mgmtPortConfig; (repeat' split) <;> simp +decide) w

@[simp] theorem portDieLost_keeps {k : List Part} {s : State} (a0) (t : State) (w : within [.mb, .mem, .ctl, .rem, .launch, .mgmt, .errs] k = true) :
    Keeps k s (portDieLost a0 t) ↔ Keeps k s t :=
  Keeps.iff_of (k := [.mb, .mem, .ctl, .rem, .launch, .mgmt, .errs]) (by
    unfold portDieLost; simp +decide) w

@[simp] theorem trainedUp_keeps {k : List Part} {s : State} (a0) (a1) (a2) (a3) (t : State) (w : within [.fab] k = true) :
    Keeps k s (trainedUp a0 a1 a2 a3 t) ↔ Keeps k s t :=
  Keeps.iff_of (k := [.fab]) (by
    unfold trainedUp; simp +decide) w

@[simp] theorem probeEffect_keeps {k : List Part} {s : State} (a0) (t : State) (w : within [.fab] k = true) :
    Keeps k s (probeEffect a0 t) ↔ Keeps k s t :=
  Keeps.iff_of (k := [.fab]) (by
    unfold probeEffect; simp +decide) w

@[simp] theorem finishCopy_keeps {k : List Part} {s : State} (a0) (a1) (t : State) (w : within [.mb, .mem, .cells, .ctl, .tier, .flash, .pools, .rem, .launch, .mgmt, .errs, .dbg] k = true) :
    Keeps k s (finishCopy a0 a1 t) ↔ Keeps k s t :=
  Keeps.iff_of (k := [.mb, .mem, .cells, .ctl, .tier, .flash, .pools, .rem, .launch, .mgmt, .errs, .dbg]) (by
    unfold finishCopy; (repeat' split) <;> simp +decide) w

@[simp] theorem promotionEndEffect_keeps {k : List Part} {s : State} (a0) (a1) (a2) (t : State) (w : within [.mb, .mem, .cells, .ctl, .tier, .flash, .pools, .rem, .time, .launch, .mgmt, .errs, .dbg] k = true) :
    Keeps k s (promotionEndEffect a0 a1 a2 t) ↔ Keeps k s t :=
  Keeps.iff_of (k := [.mb, .mem, .cells, .ctl, .tier, .flash, .pools, .rem, .time, .launch, .mgmt, .errs, .dbg]) (by
    unfold promotionEndEffect; (repeat' split) <;> simp +decide) w

@[simp] theorem runDeferred_keeps {k : List Part} {s : State} (a0) (a1) (t : State) (w : within [.mb, .mem, .ctl, .tier, .pools, .rem, .launch, .mgmt, .errs] k = true) :
    Keeps k s (runDeferred a0 a1 t) ↔ Keeps k s t :=
  Keeps.iff_of (k := [.mb, .mem, .ctl, .tier, .pools, .rem, .launch, .mgmt, .errs]) (by
    unfold runDeferred; (repeat' split) <;> simp +decide) w

@[simp] theorem promotionStartEffect_keeps {k : List Part} {s : State} (a0) (a1) (t : State) (w : within [.mb, .mem, .ctl, .tier, .pools, .rem, .time, .launch, .mgmt, .errs] k = true) :
    Keeps k s (promotionStartEffect a0 a1 t) ↔ Keeps k s t :=
  Keeps.iff_of (k := [.mb, .mem, .ctl, .tier, .pools, .rem, .time, .launch, .mgmt, .errs]) (by
    unfold promotionStartEffect; (repeat' split) <;> simp +decide) w

@[simp] theorem powerOn_keeps {k : List Part} {s : State} (t : State) (w : within [.mb, .boot, .mem, .unbacked, .tiles, .cells, .ctr, .job, .ctl, .exch, .tier, .flash, .pools, .rem, .fab, .time, .launch, .mgmt, .errs, .dbg, .pins] k = true) :
    Keeps k s (powerOn t) ↔ Keeps k s t := by
  refine Keeps.iff_of (k := [.mb, .boot, .mem, .unbacked, .tiles, .cells, .ctr, .job, .ctl, .exch, .tier, .flash, .pools, .rem, .fab, .time, .launch, .mgmt, .errs, .dbg, .pins]) ?_ w
  intro c hc
  cases c <;> first | rfl | simp at hc

@[simp] theorem powerOff_keeps {k : List Part} {s : State}  (t : State) (w : within [.mb, .boot, .mem, .unbacked, .tiles, .cells, .ctr, .job, .ctl, .exch, .tier, .flash, .pools, .rem, .fab, .time, .launch, .mgmt, .errs, .dbg, .pins] k = true) :
    Keeps k s (powerOff t) ↔ Keeps k s t :=
  Keeps.iff_of (k := [.mb, .boot, .mem, .unbacked, .tiles, .cells, .ctr, .job, .ctl, .exch, .tier, .flash, .pools, .rem, .fab, .time, .launch, .mgmt, .errs, .dbg, .pins]) (by
    unfold powerOff; simp +decide) w

@[simp] theorem readyEffect_keeps {k : List Part} {s : State} (a0) (t : State) (w : within [.mb, .boot, .mem, .tiles, .cells, .mgmt, .errs] k = true) :
    Keeps k s (readyEffect a0 t) ↔ Keeps k s t :=
  Keeps.iff_of (k := [.mb, .boot, .mem, .tiles, .cells, .mgmt, .errs]) (by
    unfold readyEffect; simp +decide) w

@[simp] theorem portLosesClock_keeps {k : List Part} {s : State} (a1) (t : State) (w : within [.fab, .time, .errs] k = true) :
    Keeps k s (portLosesClock t a1) ↔ Keeps k s t :=
  Keeps.iff_of (k := [.fab, .time, .errs]) (by
    unfold portLosesClock; simp +decide) w

@[simp] theorem faultNow_keeps {k : List Part} {s : State} (a0) (t : State) (w : within [.mb, .mem, .ctl, .rem, .launch, .mgmt, .errs] k = true) :
    Keeps k s (faultNow a0 t) ↔ Keeps k s t :=
  Keeps.iff_of (k := [.mb, .mem, .ctl, .rem, .launch, .mgmt, .errs]) (by
    unfold faultNow; (repeat' split) <;> simp +decide) w

@[simp] theorem loseStack_keeps {k : List Part} {s : State} (t : State) (w : within [.errs] k = true) :
    Keeps k s (loseStack t) ↔ Keeps k s t :=
  Keeps.iff_of (k := [.errs]) (by
    unfold loseStack; simp +decide) w

@[simp] theorem refclkLossEffect_keeps {k : List Part} {s : State} (a0) (t : State) (w : within [.mb, .mem, .ctl, .rem, .fab, .time, .launch, .mgmt, .errs] k = true) :
    Keeps k s (refclkLossEffect a0 t) ↔ Keeps k s t :=
  Keeps.iff_of (k := [.mb, .mem, .ctl, .rem, .fab, .time, .launch, .mgmt, .errs]) (by
    unfold refclkLossEffect; (repeat' split) <;> simp +decide) w

@[simp] theorem refuseEffect_keeps {k : List Part} {s : State} (a0) (t : State) (w : within [.mem, .ctr, .ctl, .rem, .fab, .launch, .errs, .dbg] k = true) :
    Keeps k s (refuseEffect a0 t) ↔ Keeps k s t :=
  Keeps.iff_of (k := [.mem, .ctr, .ctl, .rem, .fab, .launch, .errs, .dbg]) (by
    unfold refuseEffect; simp +decide) w

@[simp] theorem relocationEndEffect_keeps {k : List Part} {s : State} (a0) (t : State) (w : within [.mb, .mem, .ctl, .flash, .rem, .launch, .mgmt, .errs] k = true) :
    Keeps k s (relocationEndEffect a0 t) ↔ Keeps k s t :=
  Keeps.iff_of (k := [.mb, .mem, .ctl, .flash, .rem, .launch, .mgmt, .errs]) (by
    unfold relocationEndEffect; (repeat' split) <;> simp +decide) w

@[simp] theorem replayWindowEffect_keeps {k : List Part} {s : State} (a0) (t : State) (w : within [.rem, .fab] k = true) :
    Keeps k s (replayWindowEffect a0 t) ↔ Keeps k s t :=
  Keeps.iff_of (k := [.rem, .fab]) (by
    unfold replayWindowEffect; simp +decide) w

@[simp] theorem mgmtReset_keeps {k : List Part} {s : State} (a0) (t : State) (w : within [.mb, .boot, .mem, .unbacked, .tiles, .cells, .ctr, .job, .ctl, .exch, .tier, .flash, .pools, .rem, .fab, .time, .launch, .mgmt, .errs, .dbg, .pins] k = true) :
    Keeps k s (mgmtReset a0 t).2.2 ↔ Keeps k s t :=
  Keeps.iff_of (k := [.mb, .boot, .mem, .unbacked, .tiles, .cells, .ctr, .job, .ctl, .exch, .tier, .flash, .pools, .rem, .fab, .time, .launch, .mgmt, .errs, .dbg, .pins]) (by
    unfold mgmtReset; (repeat' split) <;> simp +decide) w

@[simp] theorem retentionPatrolEffect_keeps {k : List Part} {s : State} (a0) (t : State) (w : within [.mb, .mem, .ctl, .flash, .rem, .launch, .mgmt, .errs] k = true) :
    Keeps k s (retentionPatrolEffect a0 t) ↔ Keeps k s t :=
  Keeps.iff_of (k := [.mb, .mem, .ctl, .flash, .rem, .launch, .mgmt, .errs]) (by
    unfold retentionPatrolEffect; simp only []; (repeat' split) <;> simp +decide) w

@[simp] theorem romVerifyEffect_keeps {k : List Part} {s : State}  (t : State) (w : within [.boot, .mgmt] k = true) :
    Keeps k s (romVerifyEffect t) ↔ Keeps k s t :=
  Keeps.iff_of (k := [.boot, .mgmt]) (by
    unfold romVerifyEffect; (repeat' split) <;> simp +decide) w

@[simp] theorem writeSome_keeps {k : List Part} {s : State} (a0) (t : State) (w : within [.mem, .time, .errs] k = true) :
    Keeps k s (writeSome a0 t) ↔ Keeps k s t :=
  Keeps.iff_of (k := [.mem, .time, .errs]) (by
    unfold writeSome; simp +decide) w

@[simp] theorem finishLists_keeps {k : List Part} {s : State} (a0) (a1) (a2) (a3) (a4) (a5) (a6) (t : State) (w : within [.mem, .ctl, .rem, .time, .launch, .errs] k = true) :
    Keeps k s (finishLists a0 a1 a2 a3 a4 a5 a6 t).2 ↔ Keeps k s t :=
  Keeps.iff_of (k := [.mem, .ctl, .rem, .time, .launch, .errs]) (by
    unfold finishLists; (repeat' split) <;> simp +decide) w

@[simp] theorem rtRoute_keeps {k : List Part} {s : State} (a0) (a1) (t : State) (w : within [.mem, .cells, .ctl, .exch, .rem, .time, .launch, .errs, .dbg] k = true) :
    Keeps k s (rtRoute a0 a1 t).2 ↔ Keeps k s t :=
  Keeps.iff_of (k := [.mem, .cells, .ctl, .exch, .rem, .time, .launch, .errs, .dbg]) (by
    unfold rtRoute; simp only []; (repeat' split) <;> simp +decide) w

@[simp] theorem routePartEffect_keeps {k : List Part} {s : State} (a0) (t : State) (w : within [.cells] k = true) :
    Keeps k s (routePartEffect a0 t) ↔ Keeps k s t :=
  Keeps.iff_of (k := [.cells]) (by
    unfold routePartEffect; (repeat' split) <;> simp +decide) w

@[simp] theorem sendMessages_keeps {k : List Part} {s : State} (a0) (a1) (a2) (a3) (t : State) (w : within [.rem, .dbg] k = true) :
    Keeps k s (sendMessages a0 a1 a2 a3 t) ↔ Keeps k s t :=
  Keeps.iff_of (k := [.rem, .dbg]) (by
    unfold sendMessages; simp +decide) w

@[simp] theorem xcHome_keeps {k : List Part} {s : State} (a0) (a1) (a2) (t : State) (w : within [.ctl, .rem, .launch, .dbg] k = true) :
    Keeps k s (xcHome a0 a1 a2 t).2 ↔ Keeps k s t :=
  Keeps.iff_of (k := [.ctl, .rem, .launch, .dbg]) (by
    unfold xcHome; simp only []; (repeat' split) <;> simp +decide) w

@[simp] theorem xcSource_keeps {k : List Part} {s : State} (a0) (a1) (a2) (t : State) (w : within [.mem, .ctl, .rem, .launch, .dbg] k = true) :
    Keeps k s (xcSource a0 a1 a2 t).2 ↔ Keeps k s t :=
  Keeps.iff_of (k := [.mem, .ctl, .rem, .launch, .dbg]) (by
    unfold xcSource; simp only []; (repeat' split) <;> simp +decide) w

@[simp] theorem noteThrottling_keeps {k : List Part} {s : State}  (t : State) (w : within [.mgmt] k = true) :
    Keeps k s (noteThrottling t) ↔ Keeps k s t :=
  Keeps.iff_of (k := [.mgmt]) (by
    unfold noteThrottling; simp +decide) w

@[simp] theorem noteTrip_keeps {k : List Part} {s : State}  (t : State) (w : within [.mb, .mem, .ctl, .rem, .launch, .mgmt, .errs, .pins] k = true) :
    Keeps k s (noteTrip t) ↔ Keeps k s t :=
  Keeps.iff_of (k := [.mb, .mem, .ctl, .rem, .launch, .mgmt, .errs, .pins]) (by
    unfold noteTrip; simp +decide) w

@[simp] theorem sensorSampleEffect_keeps {k : List Part} {s : State} (a0) (t : State) (w : within [.mb, .mem, .ctl, .rem, .launch, .mgmt, .errs, .dbg, .pins] k = true) :
    Keeps k s (sensorSampleEffect a0 t) ↔ Keeps k s t :=
  Keeps.iff_of (k := [.mb, .mem, .ctl, .rem, .launch, .mgmt, .errs, .dbg, .pins]) (by
    unfold sensorSampleEffect; simp +decide) w

@[simp] theorem takePhysId_keeps {k : List Part} {s : State} (a0) (t : State) (w : within [.fab, .time, .mgmt, .errs] k = true) :
    Keeps k s (takePhysId a0 t) ↔ Keeps k s t :=
  Keeps.iff_of (k := [.fab, .time, .mgmt, .errs]) (by
    unfold takePhysId; simp +decide) w

@[simp] theorem mgmtSetPhysId_keeps {k : List Part} {s : State} (a0) (t : State) (w : within [.fab, .time, .mgmt, .errs] k = true) :
    Keeps k s (mgmtSetPhysId a0 t).2.2 ↔ Keeps k s t :=
  Keeps.iff_of (k := [.fab, .time, .mgmt, .errs]) (by
    unfold mgmtSetPhysId; (repeat' split) <;> simp +decide) w

@[simp] theorem mgmtSetPower_keeps {k : List Part} {s : State} (a0) (t : State) (w : within [.mgmt] k = true) :
    Keeps k s (mgmtSetPower a0 t).2.2 ↔ Keeps k s t :=
  Keeps.iff_of (k := [.mgmt]) (by
    unfold mgmtSetPower; simp only []; (repeat' split) <;> simp +decide) w

@[simp] theorem mgmtSetShares_keeps {k : List Part} {s : State} (a0) (t : State) (w : within [.mgmt] k = true) :
    Keeps k s (mgmtSetShares a0 t).2.2 ↔ Keeps k s t :=
  Keeps.iff_of (k := [.mgmt]) (by
    unfold mgmtSetShares; simp only []; (repeat' split) <;> simp +decide) w

@[simp] theorem mgmtSetThermal_keeps {k : List Part} {s : State} (a0) (t : State) (w : within [.mgmt] k = true) :
    Keeps k s (mgmtSetThermal a0 t).2.2 ↔ Keeps k s t :=
  Keeps.iff_of (k := [.mgmt]) (by
    unfold mgmtSetThermal; simp only []; (repeat' split) <;> simp +decide) w

@[simp] theorem rtSpill_keeps {k : List Part} {s : State} (a0) (a1) (t : State) (w : within [.mem, .ctl, .rem, .time, .launch, .errs] k = true) :
    Keeps k s (rtSpill a0 a1 t).2 ↔ Keeps k s t :=
  Keeps.iff_of (k := [.mem, .ctl, .rem, .time, .launch, .errs]) (by
    unfold rtSpill; simp only []; (repeat' split) <;> simp +decide) w

@[simp] theorem latchAborted_keeps {k : List Part} {s : State} (a0) (t : State) (w : within [.mb, .mem, .cells, .ctr, .job, .ctl, .exch, .tier, .pools, .rem, .fab, .time, .launch, .mgmt, .errs] k = true) :
    Keeps k s (latchAborted a0 t) ↔ Keeps k s t :=
  Keeps.iff_of (k := [.mb, .mem, .cells, .ctr, .job, .ctl, .exch, .tier, .pools, .rem, .fab, .time, .launch, .mgmt, .errs]) (by
    unfold latchAborted; simp +decide) w

@[simp] theorem endStall_keeps {k : List Part} {s : State} (a0) (a1) (t : State) (w : within [.ctl] k = true) :
    Keeps k s (endStall a0 a1 t) ↔ Keeps k s t :=
  Keeps.iff_of (k := [.ctl]) (by
    unfold endStall; (repeat' split) <;> simp +decide) w

@[simp] theorem latchStalls_keeps {k : List Part} {s : State} (t : State) (w : within [.ctl] k = true) :
    Keeps k s (latchStalls t) ↔ Keeps k s t :=
  Keeps.iff_of (k := [.ctl]) (by
    unfold latchStalls
    generalize (t.cells.flatMap fun e => e.2.flight) = l
    induction l generalizing t with
    | nil => simp
    | cons x r ih => exact Keeps.trans (by simp +decide) (ih _)) w

@[simp] theorem stepAbortEffect_keeps {k : List Part} {s : State}  (t : State) (w : within [.mb, .mem, .cells, .ctr, .job, .ctl, .exch, .tier, .pools, .rem, .fab, .time, .launch, .mgmt, .errs] k = true) :
    Keeps k s (stepAbortEffect t) ↔ Keeps k s t :=
  Keeps.iff_of (k := [.mb, .mem, .cells, .ctr, .job, .ctl, .exch, .tier, .pools, .rem, .fab, .time, .launch, .mgmt, .errs]) (by
    unfold stepAbortEffect; (repeat' split) <;> simp +decide) w

theorem nextGranted_keeps {t u : State} {g : GStep} (e : nextGranted? t = some (g, u)) : Keeps [.ctl] t u := by
  unfold nextGranted? at e
  split at e
  · cases e; simp +decide
  · split at e
    · cases e; simp +decide
    · cases e

@[simp] theorem stepArmEffect_keeps {k : List Part} {s : State} (t : State) (w : within [.mb, .mem, .cells, .ctr, .ctl, .exch, .tier, .rem, .fab, .time, .launch, .mgmt, .errs] k = true) :
    Keeps k s (stepArmEffect t) ↔ Keeps k s t := by
  refine Keeps.iff_of (k := [.mb, .mem, .cells, .ctr, .ctl, .exch, .tier, .rem, .fab, .time, .launch, .mgmt, .errs]) ?_ w
  unfold stepArmEffect
  split
  · simp
  · split
    · simp
    · next g u he =>
      have h := (nextGranted_keeps he).mono (l := [.mb, .mem, .cells, .ctr, .ctl, .exch, .tier, .rem, .fab, .time, .launch, .mgmt, .errs]) (by decide)
      dsimp only
      split
      · refine Keeps.trans h ?_
        simp +decide
      · refine Keeps.trans h ?_
        simp +decide

@[simp] theorem latchBound_keeps {k : List Part} {s : State} (a0) (t : State) (w : within [.mb, .mem, .ctl, .tier, .flash, .pools, .rem, .launch, .mgmt, .errs] k = true) :
    Keeps k s (latchBound a0 t) ↔ Keeps k s t :=
  Keeps.iff_of (k := [.mb, .mem, .ctl, .tier, .flash, .pools, .rem, .launch, .mgmt, .errs]) (by
    unfold latchBound; simp +decide) w

@[simp] theorem latchCompleted_keeps {k : List Part} {s : State} (a0) (t : State) (w : within [.mb, .mem, .cells, .ctl, .tier, .flash, .pools, .rem, .fab, .time, .launch, .mgmt, .errs] k = true) :
    Keeps k s (latchCompleted a0 t) ↔ Keeps k s t :=
  Keeps.iff_of (k := [.mb, .mem, .cells, .ctl, .tier, .flash, .pools, .rem, .fab, .time, .launch, .mgmt, .errs]) (by
    unfold latchCompleted; simp +decide) w

@[simp] theorem stepCompleteEffect_keeps {k : List Part} {s : State}  (t : State) (w : within [.mb, .mem, .cells, .ctl, .tier, .flash, .pools, .rem, .fab, .time, .launch, .mgmt, .errs] k = true) :
    Keeps k s (stepCompleteEffect t) ↔ Keeps k s t :=
  Keeps.iff_of (k := [.mb, .mem, .cells, .ctl, .tier, .flash, .pools, .rem, .fab, .time, .launch, .mgmt, .errs]) (by
    unfold stepCompleteEffect; (repeat' split) <;> simp +decide) w

@[simp] theorem stepHungEffect_keeps {k : List Part} {s : State}  (t : State) (w : within [.ctl, .rem, .launch] k = true) :
    Keeps k s (stepHungEffect t) ↔ Keeps k s t :=
  Keeps.iff_of (k := [.ctl, .rem, .launch]) (by
    unfold stepHungEffect; (repeat' split) <;> simp +decide) w

@[simp] theorem stepRunEffect_keeps {k : List Part} {s : State}  (t : State) (w : within [.mem, .cells, .ctr, .job, .ctl, .exch, .rem, .time, .launch, .errs] k = true) :
    Keeps k s (stepRunEffect t) ↔ Keeps k s t :=
  Keeps.iff_of (k := [.mem, .cells, .ctr, .job, .ctl, .exch, .rem, .time, .launch, .errs]) (by
    unfold stepRunEffect; (repeat' split) <;> simp +decide) w

@[simp] theorem queueTime_keeps {k : List Part} {s : State} (a0) (a1) (t : State) (w : within [.rem] k = true) :
    Keeps k s (queueTime a0 a1 t) ↔ Keeps k s t :=
  Keeps.iff_of (k := [.rem]) (by
    unfold queueTime; simp +decide) w

@[simp] theorem syncEffect_keeps {k : List Part} {s : State} (a0) (a1) (t : State) (w : within [.rem, .time, .errs] k = true) :
    Keeps k s (syncEffect a0 a1 t) ↔ Keeps k s t :=
  Keeps.iff_of (k := [.rem, .time, .errs]) (by
    unfold syncEffect; simp +decide) w

@[simp] theorem syncSendEffect_keeps {k : List Part} {s : State}  (t : State) (w : within [.rem, .time, .errs] k = true) :
    Keeps k s (syncSendEffect t) ↔ Keeps k s t :=
  Keeps.iff_of (k := [.rem, .time, .errs]) (by
    unfold syncSendEffect; simp +decide) w

@[simp] theorem mgmtTableRead_keeps {k : List Part} {s : State} (a0) (t : State) (w : within [] k = true) :
    Keeps k s (mgmtTableRead a0 t).2.2 ↔ Keeps k s t :=
  Keeps.iff_of (k := []) (by
    unfold mgmtTableRead; simp only []; (repeat' split) <;> simp +decide) w

@[simp] theorem mgmtTableReady_keeps {k : List Part} {s : State} (a0) (t : State) (w : within [.fab, .time, .errs] k = true) :
    Keeps k s (mgmtTableReady a0 t).2.2 ↔ Keeps k s t :=
  Keeps.iff_of (k := [.fab, .time, .errs]) (by
    unfold mgmtTableReady; (repeat' split) <;> simp +decide) w

@[simp] theorem mgmtTableWrite_keeps {k : List Part} {s : State} (a0) (t : State) (w : within [.fab] k = true) :
    Keeps k s (mgmtTableWrite a0 t).2.2 ↔ Keeps k s t :=
  Keeps.iff_of (k := [.fab]) (by
    unfold mgmtTableWrite; simp only []; (repeat' split) <;> simp +decide) w

@[simp] theorem noteStall_keeps {k : List Part} {s : State} (a0) (a1) (t : State) (w : within [.cells, .ctl] k = true) :
    Keeps k s (noteStall a0 a1 t) ↔ Keeps k s t :=
  Keeps.iff_of (k := [.cells, .ctl]) (by
    unfold noteStall; (repeat' split) <;> simp +decide) w

@[simp] theorem placeHold_keeps {k : List Part} {s : State} (a0) (t : State) (w : within [.tier] k = true) :
    Keeps k s (placeHold a0 t) ↔ Keeps k s t :=
  Keeps.iff_of (k := [.tier]) (by
    unfold placeHold; (repeat' split) <;> simp +decide) w

@[simp] theorem taskCompleteEffect_keeps {k : List Part} {s : State} (a0) (a1) (t : State) (w : within [.mem, .cells, .ctr, .ctl, .tier, .rem, .time, .launch, .errs, .dbg] k = true) :
    Keeps k s (taskCompleteEffect a0 a1 t) ↔ Keeps k s t :=
  Keeps.iff_of (k := [.mem, .cells, .ctr, .ctl, .tier, .rem, .time, .launch, .errs, .dbg]) (by
    unfold taskCompleteEffect; (repeat' split) <;> simp +decide) w

@[simp] theorem freeOccupancy_keeps {k : List Part} {s : State}  (t : State) (w : within [.tier, .time] k = true) :
    Keeps k s (freeOccupancy t) ↔ Keeps k s t :=
  Keeps.iff_of (k := [.tier, .time]) (by
    unfold freeOccupancy; simp +decide) w

@[simp] theorem telUpdateEffect_keeps {k : List Part} {s : State}  (t : State) (w : within [.tier, .fab, .time, .dbg] k = true) :
    Keeps k s (telUpdateEffect t) ↔ Keeps k s t :=
  Keeps.iff_of (k := [.tier, .fab, .time, .dbg]) (by
    unfold telUpdateEffect; simp +decide) w

@[simp] theorem waitRelWork_keeps {k : List Part} {s : State} (a0) (a1) (t : State) (w : within [.cells] k = true) :
    Keeps k s (waitRelWork a0 a1 t).2 ↔ Keeps k s t :=
  Keeps.iff_of (k := [.cells]) (by
    unfold waitRelWork; simp +decide) w

@[simp] theorem wearLevelEffect_keeps {k : List Part} {s : State} (a0) (t : State) (w : within [.mb, .mem, .ctl, .flash, .rem, .launch, .mgmt, .errs] k = true) :
    Keeps k s (wearLevelEffect a0 t) ↔ Keeps k s t :=
  Keeps.iff_of (k := [.mb, .mem, .ctl, .flash, .rem, .launch, .mgmt, .errs]) (by
    unfold wearLevelEffect; simp only []; (repeat' split) <;> simp +decide) w

@[simp] theorem idleTime_keeps {k : List Part} {s : State}  (t : State) (w : within [.ctl] k = true) :
    Keeps k s (idleTime t) ↔ Keeps k s t :=
  Keeps.iff_of (k := [.ctl]) (by
    unfold idleTime; simp +decide) w

@[simp] theorem requestTick_keeps {k : List Part} {s : State}  (t : State) (w : within [.rem] k = true) :
    Keeps k s (requestTick t) ↔ Keeps k s t :=
  Keeps.iff_of (k := [.rem]) (by
    unfold requestTick; simp +decide) w

@[simp] theorem ringTick_keeps {k : List Part} {s : State}  (t : State) (w : within [.ctl] k = true) :
    Keeps k s (ringTick t) ↔ Keeps k s t :=
  Keeps.iff_of (k := [.ctl]) (by
    unfold ringTick; simp +decide) w

@[simp] theorem settleJobClose_keeps {k : List Part} {s : State}  (t : State) (w : within [.mb, .mem, .cells, .ctr, .job, .ctl, .exch, .tier, .flash, .pools, .rem, .launch, .mgmt, .errs] k = true) :
    Keeps k s (settleJobClose t) ↔ Keeps k s t :=
  Keeps.iff_of (k := [.mb, .mem, .cells, .ctr, .job, .ctl, .exch, .tier, .flash, .pools, .rem, .launch, .mgmt, .errs]) (by
    unfold settleJobClose; simp +decide) w

@[simp] theorem settleFuses_keeps {k : List Part} {s : State}  (t : State) (w : within [.boot, .time] k = true) :
    Keeps k s (settleFuses  t) ↔ Keeps k s t :=
  Keeps.iff_of (k := [.boot, .time]) (by
    unfold settleFuses; simp only []; split <;> simp +decide) w

@[simp] theorem settleLate_keeps {k : List Part} {s : State}  (t : State) (w : within [.mb] k = true) :
    Keeps k s (settleLate t) ↔ Keeps k s t :=
  Keeps.iff_of (k := [.mb]) (by
    unfold settleLate; simp +decide) w

@[simp] theorem settleLoadImage_keeps {k : List Part} {s : State}  (t : State) (w : within [.mb, .mem, .job, .ctl, .tier, .flash, .pools, .rem, .launch, .mgmt, .errs] k = true) :
    Keeps k s (settleLoadImage t) ↔ Keeps k s t :=
  Keeps.iff_of (k := [.mb, .mem, .job, .ctl, .tier, .flash, .pools, .rem, .launch, .mgmt, .errs]) (by
    unfold settleLoadImage; (repeat' split) <;> simp +decide) w

@[simp] theorem noteStalls_keeps {k : List Part} {s : State} (a0) (t : State) (w : within [.cells, .ctl] k = true) :
    Keeps k s (noteStalls a0 t) ↔ Keeps k s t :=
  Keeps.iff_of (k := [.cells, .ctl]) (by
    fun_induction noteStalls a0 t <;> first
      | (simp +decide; done)
      | (rename_i ih; exact Keeps.trans (by simp +decide) ih)) w

@[simp] theorem stallTick_keeps {k : List Part} {s : State}  (t : State) (w : within [.cells, .ctl] k = true) :
    Keeps k s (stallTick t) ↔ Keeps k s t :=
  Keeps.iff_of (k := [.cells, .ctl]) (by
    unfold stallTick; simp +decide) w

@[simp] theorem paceEvents_keeps {k : List Part} {s : State} (a0) (t : State) (w : within [.dbg] k = true) :
    Keeps k s (paceEvents a0 t) ↔ Keeps k s t :=
  Keeps.iff_of (k := [.dbg]) (by
    unfold paceEvents; simp +decide) w

@[simp] theorem paceCounts_keeps {k : List Part} {s : State}  (t : State) (w : within [.time, .dbg] k = true) :
    Keeps k s (paceCounts t) ↔ Keeps k s t :=
  Keeps.iff_of (k := [.time, .dbg]) (by
    unfold paceCounts; simp +decide) w

@[simp] theorem landPacket_keeps {k : List Part} {s : State} (a0) (t : State) (w : within [.mem, .ctr, .ctl, .exch, .rem, .fab, .launch, .errs, .dbg] k = true) :
    Keeps k s (landPacket a0 t) ↔ Keeps k s t :=
  Keeps.iff_of (k := [.mem, .ctr, .ctl, .exch, .rem, .fab, .launch, .errs, .dbg]) (by
    unfold landPacket; (repeat' split) <;> simp +decide) w

@[simp] theorem landWaiting_keeps {k : List Part} {s : State} (a0) (a1) (t : State) (w : within [.mem, .ctr, .ctl, .exch, .rem, .fab, .launch, .errs, .dbg] k = true) :
    Keeps k s (landWaiting a0 a1 t) ↔ Keeps k s t :=
  Keeps.iff_of (k := [.mem, .ctr, .ctl, .exch, .rem, .fab, .launch, .errs, .dbg]) (by
    unfold landWaiting; simp only []; (repeat' split) <;> simp +decide) w

@[simp] theorem landParked_keeps {k : List Part} {s : State} (a0) (t : State) (w : within [.mem, .ctr, .ctl, .exch, .rem, .fab, .launch, .errs, .dbg] k = true) :
    Keeps k s (landParked a0 t) ↔ Keeps k s t :=
  Keeps.iff_of (k := [.mem, .ctr, .ctl, .exch, .rem, .fab, .launch, .errs, .dbg]) (by
    fun_induction landParked a0 t <;> first
      | (simp +decide; done)
      | (rename_i ih; exact Keeps.trans (by simp +decide) ih)) w

@[simp] theorem landTick_keeps {k : List Part} {s : State} (t : State) (w : within [.mem, .ctr, .ctl, .exch, .rem, .fab, .launch, .errs, .dbg] k = true) :
    Keeps k s (landTick t) ↔ Keeps k s t :=
  Keeps.iff_of (k := [.mem, .ctr, .ctl, .exch, .rem, .fab, .launch, .errs, .dbg]) (by
    unfold landTick; simp +decide) w

@[simp] theorem telStart_keeps {k : List Part} {s : State} (t : State) (w : within [.time, .dbg] k = true) :
    Keeps k s (telStart t) ↔ Keeps k s t :=
  Keeps.iff_of (k := [.time, .dbg]) (by
    unfold telStart; simp only []; (repeat' split) <;> simp +decide) w

@[simp] theorem firmwareTouches_keeps {k : List Part} {s : State} (t : State) (w : within [.mb, .boot, .mem, .ctl, .rem, .time, .launch, .mgmt, .errs] k = true) :
    Keeps k s (firmwareTouches t) ↔ Keeps k s t :=
  Keeps.iff_of (k := [.mb, .boot, .mem, .ctl, .rem, .time, .launch, .mgmt, .errs]) (by
    unfold firmwareTouches; simp only []; (repeat' split) <;> simp +decide) w

@[simp] theorem idleTick_keeps {k : List Part} {s : State}  (t : State) (w : within [.mb, .boot, .mem, .cells, .ctr, .job, .ctl, .exch, .tier, .flash, .pools, .rem, .fab, .time, .launch, .mgmt, .errs, .dbg] k = true) :
    Keeps k s (idleTick t) ↔ Keeps k s t :=
  Keeps.iff_of (k := [.mb, .boot, .mem, .cells, .ctr, .job, .ctl, .exch, .tier, .flash, .pools, .rem, .fab, .time, .launch, .mgmt, .errs, .dbg]) (by
    unfold idleTick; simp +decide) w

@[simp] theorem writeCode_keeps {k : List Part} {s : State} (a0) (a1) (a2) (a3) (a4) (t : State) (w : within [.mem] k = true) :
    Keeps k s (writeCode a0 a1 a2 a3 a4 t) ↔ Keeps k s t :=
  Keeps.iff_of (k := [.mem]) (by
    unfold writeCode; simp +decide) w

@[simp] theorem putCodes_keeps {k : List Part} {s : State} (a0) (a1) (a2) (a3) (t : State) (w : within [.mem] k = true) :
    Keeps k s (putCodes a0 a1 a2 a3 t) ↔ Keeps k s t :=
  Keeps.iff_of (k := [.mem]) (by
    fun_induction putCodes a0 a1 a2 a3 t <;> first
      | (simp +decide; done)
      | (rename_i ih; exact Keeps.trans (by simp +decide) ih)) w

@[simp] theorem putMaskRow_keeps {k : List Part} {s : State} (a0) (a1) (a2) (t : State) (w : within [.mem, .errs] k = true) :
    Keeps k s (putMaskRow a0 a1 a2 t) ↔ Keeps k s t :=
  Keeps.iff_of (k := [.mem, .errs]) (by
    unfold putMaskRow; simp +decide) w

@[simp] theorem putScale_keeps {k : List Part} {s : State} (a0) (a1) (a2) (a3) (t : State) (w : within [.mem] k = true) :
    Keeps k s (putScale a0 a1 a2 a3 t) ↔ Keeps k s t :=
  Keeps.iff_of (k := [.mem]) (by
    unfold putScale; simp +decide) w

@[simp] theorem scanCells_keeps {k : List Part} {s : State} (a0) (t : State) (w : within [.time, .dbg] k = true) :
    Keeps k s (scanCells a0 t) ↔ Keeps k s t :=
  Keeps.iff_of (k := [.time, .dbg]) (by
    unfold scanCells; (repeat' split) <;> simp +decide) w

@[simp] theorem dieModuleFails_keeps {k : List Part} {s : State} (a0) (t : State) (w : within [.mb, .mem, .ctl, .rem, .launch, .mgmt, .errs] k = true) :
    Keeps k s (dieModuleFails a0 t) ↔ Keeps k s t :=
  Keeps.iff_of (k := [.mb, .mem, .ctl, .rem, .launch, .mgmt, .errs]) (by
    unfold dieModuleFails; (repeat' split) <;> simp +decide) w

end Sys2Proof.Machine
end

