-- ==== Sys2Proof/Laws/Memory.lean ====
section
/-! SUPPORT. Laws of memories and tables: every operation keeps the canonical form, and a read after a write. -/

namespace Sys2Proof.Machine

/-! ## The canonical form -/

/-- Every address of a memory lies above a bound. -/
def above (a : Nat) : Mem → Prop
  | [] => True
  | (k, _) :: _ => a < k

theorem memWf_cons {k : Nat} {b : Byte} {r : Mem} : memWf ((k, b) :: r) = true ↔ b ≠ 0 ∧ above k r ∧ memWf r = true := by
  cases r with
  | nil => simp [memWf, above]
  | cons e r => obtain ⟨k', b'⟩ := e; simp [memWf, above]

@[simp] theorem memWf_nil : memWf [] = true := rfl

theorem above_mono {a b : Nat} {m : Mem} (h : above b m) (g : a ≤ b) : above a m := by
  cases m with
  | nil => trivial
  | cons e r => obtain ⟨k, c⟩ := e; simp only [above] at h ⊢; omega

theorem above_memPut {a c : Nat} {b : Byte} {m : Mem} (h : above c m) (w : memWf m = true) (g : c < a) :
    above c (memPut m a b) := by
  cases m with
  | nil => unfold memPut; split <;> simp [above, g]
  | cons e r =>
    obtain ⟨k, d⟩ := e
    simp only [above] at h
    obtain ⟨_, ha, _⟩ := memWf_cons.1 w
    unfold memPut
    split
    · split <;> simp [above, g, h]
    · split
      · split
        · exact above_mono ha (by omega)
        · simp [above, g]
      · simp [above, h]

/-- Storing a byte keeps the canonical form. -/
@[simp] theorem memWf_memPut {m : Mem} {a : Nat} {b : Byte} (w : memWf m = true) : memWf (memPut m a b) = true := by
  induction m with
  | nil => unfold memPut; split <;> simp_all [memWf]
  | cons e r ih =>
    obtain ⟨k, d⟩ := e
    obtain ⟨hd, ha, hr⟩ := memWf_cons.1 w
    unfold memPut
    split
    · split
      · exact w
      · next h b0 => exact memWf_cons.2 ⟨b0, h, w⟩
    · split
      · next h =>
        split
        · exact hr
        · next b0 => subst h; exact memWf_cons.2 ⟨b0, ha, hr⟩
      · exact memWf_cons.2 ⟨hd, above_memPut ha hr (by omega), ih hr⟩

/-- Storing a byte string keeps the canonical form. -/
@[simp] theorem memWf_memWrite {m : Mem} {a : Nat} {b : List Byte} (w : memWf m = true) :
    memWf (memWrite m a b) = true := by
  induction b generalizing m a with
  | nil => exact w
  | cons x r ih => exact ih (memWf_memPut w)

@[simp] theorem memWf_memPutLe {m : Mem} {a n v : Nat} (w : memWf m = true) : memWf (memPutLe m a n v) = true :=
  memWf_memWrite w

theorem above_filter {c : Nat} {m : Mem} {f : Host.Cell → Bool} (w : memWf m = true) (h : above c m) :
    above c (m.filter f) := by
  induction m with
  | nil => trivial
  | cons e r ih =>
    obtain ⟨k, d⟩ := e
    obtain ⟨_, ha, hr⟩ := memWf_cons.1 w
    simp only [above] at h
    rw [List.filter_cons]
    split
    · exact h
    · exact ih hr (above_mono ha (by omega))

/-- Dropping listed bytes keeps the canonical form. -/
@[simp] theorem memWf_filter {m : Mem} {f : Host.Cell → Bool} (w : memWf m = true) : memWf (m.filter f) = true := by
  induction m with
  | nil => rfl
  | cons e r ih =>
    obtain ⟨k, d⟩ := e
    obtain ⟨hd, ha, hr⟩ := memWf_cons.1 w
    rw [List.filter_cons]
    split
    · exact memWf_cons.2 ⟨hd, above_filter hr ha, ih hr⟩
    · exact ih hr

@[simp] theorem memWf_memClear {m : Mem} {a n : Nat} (w : memWf m = true) : memWf (memClear m a n) = true :=
  memWf_filter w

@[simp] theorem memWf_memMerge {m : Mem} {a : Nat} {src : Mem} (w : memWf m = true) : memWf (memMerge m a src) = true := by
  induction src generalizing m with
  | nil => exact w
  | cons e r ih => exact ih (memWf_memPut w)

@[simp] theorem memWf_memCopy {m : Mem} {a n : Nat} {src : Mem} (w : memWf m = true) :
    memWf (memCopy m a n src) = true := memWf_memMerge (memWf_memClear w)

@[simp] theorem memWf_hostMemory {m : Mem} (w : memWf m = true) : memWf (hostMemory m) = true := memWf_filter w

/-! ## Reading one byte -/

@[simp] theorem memGet_nil (a : Nat) : memGet [] a = 0 := rfl

theorem memGet_above {c a : Nat} {m : Mem} (w : memWf m = true) (h : above c m) (g : a ≤ c) : memGet m a = 0 := by
  induction m with
  | nil => rfl
  | cons e r ih =>
    obtain ⟨k, d⟩ := e
    obtain ⟨_, ha, hr⟩ := memWf_cons.1 w
    simp only [above] at h
    unfold memGet
    rw [if_neg (by omega)]
    exact ih hr (above_mono ha (by omega))

/-- A byte stored is the byte read. -/
theorem memGet_memPut {m : Mem} (w : memWf m = true) (a : Nat) (b : Byte) (c : Nat) :
    memGet (memPut m a b) c = if c = a then b else memGet m c := by
  induction m with
  | nil =>
    unfold memPut
    by_cases h : c = a
    · subst h; split <;> simp_all [memGet]
    · have : ¬ a = c := fun e => h e.symm
      split <;> simp [memGet, this]
  | cons e r ih =>
    obtain ⟨k, d⟩ := e
    obtain ⟨hd, ha, hr⟩ := memWf_cons.1 w
    unfold memPut
    split
    · next hlt =>
      by_cases h : c = a
      · subst h
        have z : memGet ((k, d) :: r) c = 0 := memGet_above (c := c) w (by simpa [above] using hlt) (Nat.le_refl _)
        split
        · next hb => simp [z, hb]
        · simp [memGet]
      · have : ¬ a = c := fun e => h e.symm
        split <;> simp [memGet, this]
    · split
      · next hk =>
        subst hk
        by_cases h : c = a
        · subst h
          split
          · next hb => simp [memGet_above hr ha (Nat.le_refl _), hb]
          · simp [memGet]
        · have : ¬ a = c := fun e => h e.symm
          split <;> simp [memGet, this]
      · simp only [memGet]
        split
        · next hk => rw [if_neg (by omega)]
        · exact ih hr

/-- A byte outside a string that is stored is unchanged, and one inside it is the string's. -/
theorem memGet_memWrite {m : Mem} (w : memWf m = true) (a : Nat) (b : List Byte) (c : Nat) :
    memGet (memWrite m a b) c = if a ≤ c ∧ c < a + b.length then b.getD (c - a) 0 else memGet m c := by
  induction b generalizing m a with
  | nil => rw [if_neg (by simp only [List.length_nil]; omega)]; rfl
  | cons x r ih =>
    unfold memWrite
    rw [ih (memWf_memPut w), memGet_memPut w]
    by_cases h : c = a
    · subst h; rw [if_neg (by omega), if_pos rfl, if_pos (by simp)]; simp
    · by_cases g : a ≤ c ∧ c < a + (r.length + 1)
      · have e : c - a = (c - (a + 1)) + 1 := by omega
        rw [if_pos (by omega), if_pos (by simpa using g), e, List.getD_cons_succ]
      · rw [if_neg (by omega), if_neg h, if_neg (by simpa using g)]

@[simp] theorem length_memRead (m : Mem) (a n : Nat) : (memRead m a n).length = n := by simp [memRead]

/-- Reading back exactly the string that was stored. -/
theorem memRead_memWrite {m : Mem} (w : memWf m = true) (a : Nat) (b : List Byte) :
    memRead (memWrite m a b) a b.length = b := by
  apply List.ext_getElem
  · simp
  · intro i h1 h2
    simp only [memRead, List.getElem_map, List.getElem_range, memGet_memWrite w]
    rw [if_pos (by simp at h1; omega)]
    simp at h1
    simp [h1]

/-- Reading a range that a stored string does not touch. -/
theorem memRead_memWrite_of_disjoint {m : Mem} (w : memWf m = true) {a c n : Nat} {b : List Byte}
    (h : c + n ≤ a ∨ a + b.length ≤ c) : memRead (memWrite m a b) c n = memRead m c n := by
  apply List.ext_getElem
  · simp
  · intro i h1 h2
    simp only [memRead, List.getElem_map, List.getElem_range, memGet_memWrite w]
    simp at h1
    rw [if_neg (by omega)]

/-! ## Tables -/

@[simp] theorem kvGet_kvPut_self {α : Type} (t : KV α) (a : Nat) (v : α) : kvGet? (kvPut t a v) a = some v := by
  induction t with
  | nil => simp [kvPut, kvGet?]
  | cons e r ih =>
    obtain ⟨k, x⟩ := e
    unfold kvPut
    split
    · simp [kvGet?]
    · split
      · simp [kvGet?]
      · rw [kvGet?, if_neg (by omega)]; exact ih

theorem kvGet_kvPut_ne {α : Type} (t : KV α) {a b : Nat} (v : α) (h : b ≠ a) : kvGet? (kvPut t a v) b = kvGet? t b := by
  have h' : ¬ a = b := fun e => h e.symm
  induction t with
  | nil => simp [kvPut, kvGet?, h']
  | cons e r ih =>
    obtain ⟨k, x⟩ := e
    unfold kvPut
    split
    · simp [kvGet?, h']
    · split
      · next e => subst e; simp [kvGet?, h']
      · simp only [kvGet?, ih]

@[simp] theorem length_natLe (n v : Nat) : (natLe n v).length = n := by
  induction n generalizing v with
  | zero => rfl
  | succ n ih => simp [natLe, ih]

@[simp] theorem length_padTo (n : Nat) (b : List Byte) : (padTo n b).length = n := by
  simp [padTo]; omega

/-- A value of n bytes survives its byte order (R7). -/
theorem leNat_natLe (n v : Nat) : leNat (natLe n v) = v % 256 ^ n := by
  induction n generalizing v with
  | zero => simp [natLe, leNat, Nat.mod_one]
  | succ n ih =>
    have e : (BitVec.ofNat 8 v).toNat = v % 256 := by simp
    rw [natLe, leNat, ih, e, Nat.pow_succ, Nat.mul_comm (256 ^ n) 256, Nat.mod_mul]

end Sys2Proof.Machine
end

