-- ==== Sys2Proof/Laws/Canon.lean ====
section
/-! SUPPORT. Every operation of the model keeps the canonical form of the memories. -/

namespace Sys2Proof.Machine
theorem Canon.of_keeps {k : List Part} {s t : State} (h : Keeps k s t)
    (w : ([.mem, .tiles, .mb, .boot] : List Part).any k.contains = false) (c : Canon s) : Canon t := by
  simp only [List.any_cons, List.any_nil, Bool.or_false, Bool.or_eq_false_iff] at w
  obtain ⟨a, b, d, e⟩ := w
  unfold Canon
  rw [h.mem_eq a, h.tiles_eq b, h.mb_eq d, h.boot_eq e]
  exact c

theorem Canon.foldl {α : Type} (f : State → α → State) (h : ∀ t a, Canon t → Canon (f t a)) (l : List α) (s : State)
    (c : Canon s) : Canon (l.foldl f s) := by
  induction l generalizing s with
  | nil => exact c
  | cons a r ih => exact ih _ (h _ a c)

@[simp] theorem canon_foldl {α : Type} {f : State → α → State} {l : List α} {s : State} (c : Canon s)
    (h : ∀ t a, Canon t → Canon (f t a)) : Canon (l.foldl f s) := Canon.foldl f h l s c

@[simp] theorem canon_ite {c : Prop} [Decidable c] {a b : State} (ha : Canon a) (hb : Canon b) :
    Canon (if c then a else b) := by split <;> assumption

@[simp] theorem canon_set_pending {t : State} {x} (h : Canon t) : Canon { t with pending := x } := h

@[simp] theorem canon_set_unbacked {t : State} {x} (h : Canon t) : Canon { t with unbacked := x } := h

@[simp] theorem canon_set_cells {t : State} {x} (h : Canon t) : Canon { t with cells := x } := h

@[simp] theorem canon_set_ctr {t : State} {x} (h : Canon t) : Canon { t with ctr := x } := h

@[simp] theorem canon_set_job {t : State} {x} (h : Canon t) : Canon { t with job := x } := h

@[simp] theorem canon_set_ctl {t : State} {x} (h : Canon t) : Canon { t with ctl := x } := h

@[simp] theorem canon_set_exch {t : State} {x} (h : Canon t) : Canon { t with exch := x } := h

@[simp] theorem canon_set_tier {t : State} {x} (h : Canon t) : Canon { t with tier := x } := h

@[simp] theorem canon_set_flash {t : State} {x} (h : Canon t) : Canon { t with flash := x } := h

@[simp] theorem canon_set_pools {t : State} {x} (h : Canon t) : Canon { t with pools := x } := h

@[simp] theorem canon_set_rem {t : State} {x} (h : Canon t) : Canon { t with rem := x } := h

@[simp] theorem canon_set_fab {t : State} {x} (h : Canon t) : Canon { t with fab := x } := h

@[simp] theorem canon_set_time {t : State} {x} (h : Canon t) : Canon { t with time := x } := h

@[simp] theorem canon_set_launch {t : State} {x} (h : Canon t) : Canon { t with launch := x } := h

@[simp] theorem canon_set_mgmt {t : State} {x} (h : Canon t) : Canon { t with mgmt := x } := h

@[simp] theorem canon_set_errs {t : State} {x} (h : Canon t) : Canon { t with errs := x } := h

@[simp] theorem canon_set_dbg {t : State} {x} (h : Canon t) : Canon { t with dbg := x } := h

@[simp] theorem canon_set_pins {t : State} {x} (h : Canon t) : Canon { t with pins := x } := h

@[simp] theorem canon_set_mem {t : State} {x : Mem} (h : Canon t) (w : memWf x = true) : Canon { t with mem := x } :=
  ⟨w, h.2⟩

@[simp] theorem canon_set_tiles {t : State} {x : Mem} (h : Canon t) (w : memWf x = true) : Canon { t with tiles := x } :=
  ⟨h.1, w, h.2.2⟩

@[simp] theorem canon_set_mb {t : State} {x : Mailbox} (h : Canon t) (w : memWf x.ram = true) : Canon { t with mb := x } :=
  ⟨h.1, h.2.1, w, h.2.2.2⟩

@[simp] theorem canon_set_boot {t : State} {x : Boot} (h : Canon t) (w : memWf x.sram = true) : Canon { t with boot := x } :=
  ⟨h.1, h.2.1, h.2.2.1, w⟩

@[simp] theorem Canon.mem {t : State} (h : Canon t) : memWf t.mem = true := h.1
@[simp] theorem Canon.tiles {t : State} (h : Canon t) : memWf t.tiles = true := h.2.1
@[simp] theorem Canon.ram {t : State} (h : Canon t) : memWf t.mb.ram = true := h.2.2.1
@[simp] theorem Canon.sram {t : State} (h : Canon t) : memWf t.boot.sram = true := h.2.2.2

@[simp] theorem canon_set_boot_dbg {t : State} {x0} {x1} (h : Canon t) (w0 : memWf x0.sram = true) :
    Canon { t with boot := x0, dbg := x1 } := ⟨h.mem, h.tiles, h.ram, w0⟩

@[simp] theorem canon_set_ctl_launch {t : State} {x0} {x1} (h : Canon t)  :
    Canon { t with ctl := x0, launch := x1 } := ⟨h.mem, h.tiles, h.ram, h.sram⟩

@[simp] theorem canon_set_flash_pools {t : State} {x0} {x1} (h : Canon t)  :
    Canon { t with flash := x0, pools := x1 } := ⟨h.mem, h.tiles, h.ram, h.sram⟩

@[simp] theorem canon_set_job_tier {t : State} {x0} {x1} (h : Canon t)  :
    Canon { t with job := x0, tier := x1 } := ⟨h.mem, h.tiles, h.ram, h.sram⟩

@[simp] theorem canon_set_mb_boot {t : State} {x0} {x1} (h : Canon t) (w0 : memWf x0.ram = true) (w1 : memWf x1.sram = true) :
    Canon { t with mb := x0, boot := x1 } := ⟨h.mem, h.tiles, w0, w1⟩

@[simp] theorem canon_set_mb_errs {t : State} {x0} {x1} (h : Canon t) (w0 : memWf x0.ram = true) :
    Canon { t with mb := x0, errs := x1 } := ⟨h.mem, h.tiles, w0, h.sram⟩

@[simp] theorem canon_set_mb_mem {t : State} {x0} {x1} (h : Canon t) (w0 : memWf x0.ram = true) (w1 : memWf x1 = true) :
    Canon { t with mb := x0, mem := x1 } := ⟨w1, h.tiles, w0, h.sram⟩

@[simp] theorem canon_set_mem_exch {t : State} {x0} {x1} (h : Canon t) (w0 : memWf x0 = true) :
    Canon { t with mem := x0, exch := x1 } := ⟨w0, h.tiles, h.ram, h.sram⟩

@[simp] theorem canon_set_mem_job {t : State} {x0} {x1} (h : Canon t) (w0 : memWf x0 = true) :
    Canon { t with mem := x0, job := x1 } := ⟨w0, h.tiles, h.ram, h.sram⟩

@[simp] theorem canon_set_mem_tiles {t : State} {x0} {x1} (h : Canon t) (w0 : memWf x0 = true) (w1 : memWf x1 = true) :
    Canon { t with mem := x0, tiles := x1 } := ⟨w0, w1, h.ram, h.sram⟩

@[simp] theorem canon_set_mem_unbacked {t : State} {x0} {x1} (h : Canon t) (w0 : memWf x0 = true) :
    Canon { t with mem := x0, unbacked := x1 } := ⟨w0, h.tiles, h.ram, h.sram⟩

@[simp] theorem canon_set_mgmt_dbg {t : State} {x0} {x1} (h : Canon t)  :
    Canon { t with mgmt := x0, dbg := x1 } := ⟨h.mem, h.tiles, h.ram, h.sram⟩

@[simp] theorem canon_set_tier_pools {t : State} {x0} {x1} (h : Canon t)  :
    Canon { t with tier := x0, pools := x1 } := ⟨h.mem, h.tiles, h.ram, h.sram⟩

@[simp] theorem canon_set_tier_time {t : State} {x0} {x1} (h : Canon t)  :
    Canon { t with tier := x0, time := x1 } := ⟨h.mem, h.tiles, h.ram, h.sram⟩

@[simp] theorem canon_set_rem_fab {t : State} {x0} {x1} (h : Canon t) :
    Canon { t with rem := x0, fab := x1 } := ⟨h.mem, h.tiles, h.ram, h.sram⟩

@[simp] theorem canon_set_time_dbg {t : State} {x0} {x1} (h : Canon t) :
    Canon { t with time := x0, dbg := x1 } := ⟨h.mem, h.tiles, h.ram, h.sram⟩

@[simp] theorem canon_set_boot_time {t : State} {x0} {x1} (h : Canon t) (w0 : memWf x0.sram = true) :
    Canon { t with boot := x0, time := x1 } := ⟨h.mem, h.tiles, h.ram, w0⟩

@[simp] theorem canon_set_mb_boot_errs {t : State} {x0} {x1} {x2} (h : Canon t) (w0 : memWf x0.ram = true) (w1 : memWf x1.sram = true) :
    Canon { t with mb := x0, boot := x1, errs := x2 } := ⟨h.mem, h.tiles, w0, w1⟩

@[simp] theorem canon_set_ctr_ctl_exch {t : State} {x0} {x1} {x2} (h : Canon t)  :
    Canon { t with ctr := x0, ctl := x1, exch := x2 } := ⟨h.mem, h.tiles, h.ram, h.sram⟩

@[simp] theorem canon_set_job_ctl_errs {t : State} {x0} {x1} {x2} (h : Canon t)  :
    Canon { t with job := x0, ctl := x1, errs := x2 } := ⟨h.mem, h.tiles, h.ram, h.sram⟩

@[simp] theorem canon_set_job_ctl_exch {t : State} {x0} {x1} {x2} (h : Canon t)  :
    Canon { t with job := x0, ctl := x1, exch := x2 } := ⟨h.mem, h.tiles, h.ram, h.sram⟩

@[simp] theorem canon_set_job_pools_rem {t : State} {x0} {x1} {x2} (h : Canon t)  :
    Canon { t with job := x0, pools := x1, rem := x2 } := ⟨h.mem, h.tiles, h.ram, h.sram⟩

@[simp] theorem canon_set_cells_ctr_ctl_exch {t : State} {x0} {x1} {x2} {x3} (h : Canon t)  :
    Canon { t with cells := x0, ctr := x1, ctl := x2, exch := x3 } := ⟨h.mem, h.tiles, h.ram, h.sram⟩

@[simp] theorem canon_set_mb_ctr_job_ctl {t : State} {x0} {x1} {x2} {x3} (h : Canon t) (w0 : memWf x0.ram = true) :
    Canon { t with mb := x0, ctr := x1, job := x2, ctl := x3 } := ⟨h.mem, h.tiles, w0, h.sram⟩

@[simp] theorem canon_set_mb_boot_mem_tiles_cells_mgmt_errs {t : State} {x0} {x1} {x2} {x3} {x4} {x5} {x6} (h : Canon t) (w0 : memWf x0.ram = true) (w1 : memWf x1.sram = true) (w2 : memWf x2 = true) (w3 : memWf x3 = true) :
    Canon { t with mb := x0, boot := x1, mem := x2, tiles := x3, cells := x4, mgmt := x5, errs := x6 } := ⟨w2, w3, w0, w1⟩

@[simp] theorem canon_set_mb_boot_flash_fab_time_mgmt_errs_pins {t : State} {x0} {x1} {x2} {x3} {x4} {x5} {x6} {x7} (h : Canon t) (w0 : memWf x0.ram = true) (w1 : memWf x1.sram = true) :
    Canon { t with mb := x0, boot := x1, flash := x2, fab := x3, time := x4, mgmt := x5, errs := x6, pins := x7 } := ⟨h.mem, h.tiles, w0, w1⟩

@[simp] theorem canon_set_cells_ctr_job_ctl_exch_tier_pools_rem_launch {t : State} {x0} {x1} {x2} {x3} {x4} {x5} {x6} {x7} {x8} (h : Canon t)  :
    Canon { t with cells := x0, ctr := x1, job := x2, ctl := x3, exch := x4, tier := x5, pools := x6, rem := x7, launch := x8 } := ⟨h.mem, h.tiles, h.ram, h.sram⟩

@[simp] theorem canon_set_mb_boot_mem_flash_fab_time_mgmt_errs_dbg_pins {t : State} {x0} {x1} {x2} {x3} {x4} {x5} {x6} {x7} {x8} {x9} (h : Canon t) (w0 : memWf x0.ram = true) (w1 : memWf x1.sram = true) (w2 : memWf x2 = true) :
    Canon { t with mb := x0, boot := x1, mem := x2, flash := x3, fab := x4, time := x5, mgmt := x6, errs := x7, dbg := x8, pins := x9 } := ⟨w2, h.tiles, w0, w1⟩

@[simp] theorem memWf_putBitsAt {m : Mem} {a b c v : Nat} (w : memWf m = true) : memWf (putBitsAt m a b c v) = true := by
  unfold putBitsAt
  exact memWf_memPutLe w

@[simp] theorem memWf_planePut {base : Nat} {g : Plane} {t v : Nat} {m : Mem} (w : memWf m = true) :
    memWf (planePut base g t v m) = true := by
  unfold planePut
  dsimp only
  split <;> simp [w]

theorem memWf_foldl {α : Type} (f : Mem → α → Mem) (h : ∀ m a, memWf m = true → memWf (f m a) = true) (l : List α) (m : Mem)
    (w : memWf m = true) : memWf (l.foldl f m) = true := by
  induction l generalizing m with
  | nil => exact w
  | cons a r ih => exact ih _ (h _ a w)

theorem copySections_wf (im : Image) (l : List Section) (m : Mem) (w : memWf m = true) :
    memWf (copySections im l m) = true := by
  induction l generalizing m with
  | nil => exact w
  | cons x r ih => unfold copySections; apply ih; split <;> simp [w]

@[simp] theorem setPending_canon (a0) {t : State} (h : Canon t) : Canon (setPending a0 t) := Canon.of_keeps ((setPending_keeps a0 t (k := [.launch]) rfl).2 (Keeps.refl _ t)) rfl h

@[simp] theorem abandonLaunch_canon  {t : State} (h : Canon t) : Canon (abandonLaunch t) := Canon.of_keeps ((abandonLaunch_keeps  t (k := [.launch]) rfl).2 (Keeps.refl _ t)) rfl h

@[simp] theorem enqueueEvent_canon (a0) (a1) (a2) (a3) {t : State} (h : Canon t) : Canon (enqueueEvent a0 a1 a2 a3 t) := by
  unfold enqueueEvent; simp (maxDischargeDepth := 9) [h]

@[simp] theorem setCause_canon (a0) {t : State} (h : Canon t) : Canon (setCause a0 t) := by
  unfold setCause; simp (maxDischargeDepth := 9) [h]

@[simp] theorem postCpl_canon (a0) (a1) (a2) (a3) (a4) {t : State} (h : Canon t) : Canon (postCpl a0 a1 a2 a3 a4 t) := by
  unfold postCpl; simp (maxDischargeDepth := 9) [h]

@[simp] theorem abortCommands_canon (a0) {t : State} (h : Canon t) : Canon (abortCommands a0 t) := by
  fun_induction abortCommands a0 t <;> simp_all (maxDischargeDepth := 9)

@[simp] theorem mapRun_canon (a0) {t : State} (h : Canon t) : Canon (mapRun a0 t) := Canon.of_keeps ((mapRun_keeps a0 t (k := [.ctl]) rfl).2 (Keeps.refl _ t)) rfl h

@[simp] theorem pldmEvent_canon (a0) (a1) {t : State} (h : Canon t) : Canon (pldmEvent a0 a1 t) := Canon.of_keeps ((pldmEvent_keeps a0 a1 t (k := [.mgmt]) rfl).2 (Keeps.refl _ t)) rfl h

@[simp] theorem queueControl_canon (a0) (a1) {t : State} (h : Canon t) : Canon (queueControl a0 a1 t) := Canon.of_keeps ((queueControl_keeps a0 a1 t (k := [.rem]) rfl).2 (Keeps.refl _ t)) rfl h

@[simp] theorem queueControls_canon (a0) (a1) {t : State} (h : Canon t) : Canon (queueControls a0 a1 t) := Canon.of_keeps ((queueControls_keeps a0 a1 t (k := [.rem]) rfl).2 (Keeps.refl _ t)) rfl h

@[simp] theorem rememberGong_canon (a0) (a1) (a2) {t : State} (h : Canon t) : Canon (rememberGong a0 a1 a2 t) := Canon.of_keeps ((rememberGong_keeps a0 a1 a2 t (k := [.launch]) rfl).2 (Keeps.refl _ t)) rfl h

@[simp] theorem soundGongOn_canon (a0) (a1) (a2) (a3) {t : State} (h : Canon t) : Canon (soundGongOn a0 a1 a2 a3 t) := Canon.of_keeps ((soundGongOn_keeps a0 a1 a2 a3 t (k := [.rem, .launch]) rfl).2 (Keeps.refl _ t)) rfl h

@[simp] theorem deviceFaultCore_canon (a0) {t : State} (h : Canon t) : Canon (deviceFaultCore a0 t) := by
  unfold deviceFaultCore
  dsimp only
  refine pldmEvent_canon _ _ (canon_set_mb (abortCommands_canon _ ?_) (abortCommands_canon _ ?_).ram) <;>
  · refine setCause_canon _ (canon_set_mb_errs (mapRun_canon _ ?_) (mapRun_canon _ ?_).ram) <;>
    · split
      · exact h
      · exact soundGongOn_canon _ _ _ _ h

@[simp] theorem pushEvents_canon (l : List Event) {t : State} (h : Canon t) : Canon (pushEvents l t) := by
  induction l generalizing t with
  | nil => unfold pushEvents; simp (maxDischargeDepth := 9) [h]
  | cons e r ih =>
    unfold pushEvents
    dsimp only
    (repeat' split) <;> first
      | (simp (maxDischargeDepth := 9) [h]; done)
      | (apply ih; simp (maxDischargeDepth := 9) [h]; done)

@[simp] theorem postEvent_canon (a0) (a1) (a2) (a3) {t : State} (h : Canon t) : Canon (postEvent a0 a1 a2 a3 t) := by
  unfold postEvent; simp (maxDischargeDepth := 9) [h]

@[simp] theorem abortBound_canon  {t : State} (h : Canon t) : Canon (abortBound t) := by
  unfold abortBound; refine Canon.foldl _ (fun t a g => ?_) _ _ ?_ <;> (repeat' split) <;> simp (maxDischargeDepth := 9) [*]

@[simp] theorem residencyEvent_canon (a0) (a1) (a2) (a3) (a4) {t : State} (h : Canon t) : Canon (residencyEvent a0 a1 a2 a3 a4 t) := by
  unfold residencyEvent; simp (maxDischargeDepth := 9) [h]

@[simp] theorem residencyEvents_canon (a0) (a1) (a2) (a3) (a4) {t : State} (h : Canon t) : Canon (residencyEvents a0 a1 a2 a3 a4 t) := by
  unfold residencyEvents; refine Canon.foldl _ (fun t a g => ?_) _ _ ?_ <;> (repeat' split) <;> simp (maxDischargeDepth := 9) [*]

@[simp] theorem abortDeferred_canon {t : State} (h : Canon t) : Canon (abortDeferred t) := by
  unfold abortDeferred
  dsimp only
  exact Canon.foldl _ (fun t a g => by simp (maxDischargeDepth := 9) [g]) _ _
    (canon_set_tier (Canon.foldl _ (fun t a g => by simp (maxDischargeDepth := 9) [g]) _ _ (canon_set_tier h)))

@[simp] theorem resetPairs_canon  {t : State} (h : Canon t) : Canon (resetPairs t) := Canon.of_keeps ((resetPairs_keeps  t (k := [.rem]) rfl).2 (Keeps.refl _ t)) rfl h

@[simp] theorem readersLatched_canon (a0) {t : State} (h : Canon t) : Canon (readersLatched a0 t) := Canon.of_keeps ((readersLatched_keeps a0 t (k := [.tier]) rfl).2 (Keeps.refl _ t)) rfl h

@[simp] theorem withdrawSteps_canon  {t : State} (h : Canon t) : Canon (withdrawSteps t) := Canon.of_keeps ((withdrawSteps_keeps  t (k := [.cells, .ctr, .ctl, .exch, .tier]) rfl).2 (Keeps.refl _ t)) rfl h

@[simp] theorem abortJobStage_canon  {t : State} (h : Canon t) : Canon (abortJobStage t) := by
  unfold abortJobStage; simp (maxDischargeDepth := 9) [h]

@[simp] theorem pealDown_canon (a0) (a1) (a2) (a3) {t : State} (h : Canon t) : Canon (pealDown a0 a1 a2 a3 t) := Canon.of_keeps ((pealDown_keeps a0 a1 a2 a3 t (k := [.rem]) rfl).2 (Keeps.refl _ t)) rfl h

@[simp] theorem sendDisarm_canon (a0) (a1) {t : State} (h : Canon t) : Canon (sendDisarm a0 a1 t) := Canon.of_keeps ((sendDisarm_keeps a0 a1 t (k := [.rem, .launch]) rfl).2 (Keeps.refl _ t)) rfl h

@[simp] theorem abortLaunch_canon  {t : State} (h : Canon t) : Canon (abortLaunch t) := Canon.of_keeps ((abortLaunch_keeps  t (k := [.rem, .launch]) rfl).2 (Keeps.refl _ t)) rfl h

@[simp] theorem abortWaits_canon  {t : State} (h : Canon t) : Canon (abortWaits t) := by
  unfold abortWaits; refine Canon.foldl _ (fun t a g => ?_) _ _ ?_ <;> (repeat' split) <;> simp (maxDischargeDepth := 9) [*]

@[simp] theorem abortedLatch_canon  {t : State} (h : Canon t) : Canon (abortedLatch t) := Canon.of_keeps ((abortedLatch_keeps  t (k := [.ctr, .ctl, .exch]) rfl).2 (Keeps.refl _ t)) rfl h

@[simp] theorem engineBeat_canon  {t : State} (h : Canon t) : Canon (engineBeat t).2 := Canon.of_keeps ((engineBeat_keeps  t (k := [.time]) rfl).2 (Keeps.refl _ t)) rfl h

@[simp] theorem acceptGrant_canon (a0) (a1) {t : State} (h : Canon t) : Canon (acceptGrant a0 a1 t) := Canon.of_keeps ((acceptGrant_keeps a0 a1 t (k := [.ctl, .time]) rfl).2 (Keeps.refl _ t)) rfl h

@[simp] theorem dropArmedWindow_canon  {t : State} (h : Canon t) : Canon (dropArmedWindow t) := Canon.of_keeps ((dropArmedWindow_keeps  t (k := [.cells]) rfl).2 (Keeps.refl _ t)) rfl h

@[simp] theorem acceptReplay_canon (a0) {t : State} (h : Canon t) : Canon (acceptReplay a0 t) := Canon.of_keeps ((acceptReplay_keeps a0 t (k := [.cells, .ctl, .time]) rfl).2 (Keeps.refl _ t)) rfl h

@[simp] theorem addStepCount_canon (a0) (a1) {t : State} (h : Canon t) : Canon (addStepCount a0 a1 t) := Canon.of_keeps ((addStepCount_keeps a0 a1 t (k := [.ctl]) rfl).2 (Keeps.refl _ t)) rfl h

@[simp] theorem depSet_canon (a0) (a1) (a2) {t : State} (h : Canon t) : Canon (depSet a0 a1 a2 t) := Canon.of_keeps ((depSet_keeps a0 a1 a2 t (k := [.ctr]) rfl).2 (Keeps.refl _ t)) rfl h

@[simp] theorem putAcceptBit_canon (a0) (a1) (a2) {t : State} (h : Canon t) : Canon (putAcceptBit a0 a1 a2 t) := by
  unfold putAcceptBit; exact canon_set_mem h (by simp [h])

@[simp] theorem replaceBursts_canon (a0) (a1) {t : State} (h : Canon t) : Canon (replaceBursts a0 a1 t) := Canon.of_keeps ((replaceBursts_keeps a0 a1 t (k := [.errs]) rfl).2 (Keeps.refl _ t)) rfl h

@[simp] theorem putBytes_canon (a0) (a1) {t : State} (h : Canon t) : Canon (putBytes a0 a1 t) := by
  unfold putBytes; simp (maxDischargeDepth := 9) [h]

@[simp] theorem acceptSlot_canon (a b c q d e) {t : State} (h : Canon t) : Canon (acceptSlot a b c q d e t) := by
  unfold acceptSlot
  dsimp only
  have base : ∀ u, Canon u → Canon (if b.negotiated then
      ((sortBy bidLt (d.filter fun x => x.slot == e)).drop (b.capacity - (workOf t a.layer e).length)).foldl
        (fun t x => putAcceptBit c x false t)
        (((sortBy bidLt (d.filter fun x => x.slot == e)).take (b.capacity - (workOf t a.layer e).length)).foldl
          (fun t x => putAcceptBit c x true t) u)
      else addStepCount ccEagerDiscard (((sortBy bidLt (d.filter fun x => x.slot == e)).drop
        (b.capacity - (workOf t a.layer e).length)).filter fun x => x.bid.row).length u) := by
    intro u hu
    split
    · exact Canon.foldl _ (fun t x g => by simp [g]) _ _ (Canon.foldl _ (fun t x g => by simp [g]) _ _ hu)
    · simp [hu]
  split
  · exact Canon.foldl _ (fun t x g => by simp [g]) _ _
      (putBytes_canon _ _ (canon_set_exch (mapRun_canon _ (base t h))))
  · exact putBytes_canon _ _ (canon_set_exch (mapRun_canon _ (base t h)))

@[simp] theorem ackDeadlineEffect_canon  {t : State} (h : Canon t) : Canon (ackDeadlineEffect t) := Canon.of_keeps ((ackDeadlineEffect_keeps  t (k := [.rem, .launch]) rfl).2 (Keeps.refl _ t)) rfl h

@[simp] theorem addCount_canon (a0) (a1) {t : State} (h : Canon t) : Canon (addCount a0 a1 t) := Canon.of_keeps ((addCount_keeps a0 a1 t (k := [.errs]) rfl).2 (Keeps.refl _ t)) rfl h

@[simp] theorem setPort_canon (a0) (a1) {t : State} (h : Canon t) : Canon (setPort a0 a1 t) := Canon.of_keeps ((setPort_keeps a0 a1 t (k := [.fab]) rfl).2 (Keeps.refl _ t)) rfl h

@[simp] theorem mapPort_canon (a0) (a1) {t : State} (h : Canon t) : Canon (mapPort a0 a1 t) := Canon.of_keeps ((mapPort_keeps a0 a1 t (k := [.fab]) rfl).2 (Keeps.refl _ t)) rfl h

@[simp] theorem giveUnits_canon (a0) (a1) (a2) {t : State} (h : Canon t) : Canon (giveUnits a0 a1 a2 t) := Canon.of_keeps ((giveUnits_keeps a0 a1 a2 t (k := [.fab]) rfl).2 (Keeps.refl _ t)) rfl h

@[simp] theorem leaveBuffer_canon (a0) (a1) {t : State} (h : Canon t) : Canon (leaveBuffer a0 a1 t) := Canon.of_keeps ((leaveBuffer_keeps a0 a1 t (k := [.fab]) rfl).2 (Keeps.refl _ t)) rfl h

@[simp] theorem dispatchPacket_canon (a0) (a1) (a2) {t : State} (h : Canon t) : Canon (dispatchPacket a0 a1 a2 t) := Canon.of_keeps ((dispatchPacket_keeps a0 a1 a2 t (k := [.rem]) rfl).2 (Keeps.refl _ t)) rfl h

@[simp] theorem sendAnswer_canon (a0) (a1) (a2) (a3) (a4) (a5) (a6) (a7) (a8) {t : State} (h : Canon t) : Canon (sendAnswer a0 a1 a2 a3 a4 a5 a6 a7 a8 t) := Canon.of_keeps ((sendAnswer_keeps a0 a1 a2 a3 a4 a5 a6 a7 a8 t (k := [.rem]) rfl).2 (Keeps.refl _ t)) rfl h

@[simp] theorem sendReply_canon (a0) (a1) (a2) (a3) (a4) (a5) {t : State} (h : Canon t) : Canon (sendReply a0 a1 a2 a3 a4 a5 t) := Canon.of_keeps ((sendReply_keeps a0 a1 a2 a3 a4 a5 t (k := [.rem]) rfl).2 (Keeps.refl _ t)) rfl h

@[simp] theorem ackLanded_canon (a0) {t : State} (h : Canon t) : Canon (ackLanded a0 t) := Canon.of_keeps ((ackLanded_keeps a0 t (k := [.rem]) rfl).2 (Keeps.refl _ t)) rfl h

@[simp] theorem setPair_canon (a0) (a1) {t : State} (h : Canon t) : Canon (setPair a0 a1 t) := Canon.of_keeps ((setPair_keeps a0 a1 t (k := [.rem]) rfl).2 (Keeps.refl _ t)) rfl h

@[simp] theorem addSeen_canon (a0) {t : State} (h : Canon t) : Canon (addSeen a0 t) := Canon.of_keeps ((addSeen_keeps a0 t (k := [.rem]) rfl).2 (Keeps.refl _ t)) rfl h

@[simp] theorem answerKept_canon (a0) {t : State} (h : Canon t) : Canon (answerKept a0 t) := Canon.of_keeps ((answerKept_keeps a0 t (k := [.rem]) rfl).2 (Keeps.refl _ t)) rfl h

@[simp] theorem stepFault_canon (a0) {t : State} (h : Canon t) : Canon (stepFault a0 t) := Canon.of_keeps ((stepFault_keeps a0 t (k := [.ctl, .rem, .launch]) rfl).2 (Keeps.refl _ t)) rfl h

@[simp] theorem faultIf_canon (a0) (a1) {t : State} (h : Canon t) : Canon (faultIf a0 a1 t) := Canon.of_keeps ((faultIf_keeps a0 a1 t (k := [.ctl, .rem, .launch]) rfl).2 (Keeps.refl _ t)) rfl h

@[simp] theorem arrAdd_canon (a0) (a1) (a2) {t : State} (h : Canon t) : Canon (arrAdd a0 a1 a2 t) := Canon.of_keeps ((arrAdd_keeps a0 a1 a2 t (k := [.ctr, .ctl, .rem, .launch]) rfl).2 (Keeps.refl _ t)) rfl h

@[simp] theorem perfAdd_canon (a0) (a1) (a2) {t : State} (h : Canon t) : Canon (perfAdd a0 a1 a2 t) := Canon.of_keeps ((perfAdd_keeps a0 a1 a2 t (k := [.dbg]) rfl).2 (Keeps.refl _ t)) rfl h

@[simp] theorem progress_canon  {t : State} (h : Canon t) : Canon (progress t) := Canon.of_keeps ((progress_keeps  t (k := [.ctl]) rfl).2 (Keeps.refl _ t)) rfl h

@[simp] theorem strobe_canon (a0) {t : State} (h : Canon t) : Canon (strobe a0 t) := Canon.of_keeps ((strobe_keeps a0 t (k := [.dbg]) rfl).2 (Keeps.refl _ t)) rfl h

@[simp] theorem tallyAdd_canon (a0) (a1) (a2) {t : State} (h : Canon t) : Canon (tallyAdd a0 a1 a2 t) := Canon.of_keeps ((tallyAdd_keeps a0 a1 a2 t (k := [.ctr]) rfl).2 (Keeps.refl _ t)) rfl h

@[simp] theorem landCount_canon (a0) (a1) (a2) (a3) {t : State} (h : Canon t) : Canon (landCount a0 a1 a2 a3 t) := Canon.of_keeps ((landCount_keeps a0 a1 a2 a3 t (k := [.ctr, .ctl, .rem, .launch, .dbg]) rfl).2 (Keeps.refl _ t)) rfl h

@[simp] theorem writeLine_canon (a0) {t : State} (h : Canon t) : Canon (writeLine a0 t) := by
  unfold writeLine; refine Canon.foldl _ (fun t a g => ?_) _ _ ?_ <;> (repeat' split) <;> simp (maxDischargeDepth := 9) [*]

@[simp] theorem touchLines_canon (a0) (a1) {t : State} (h : Canon t) : Canon (touchLines a0 a1 t) := by
  unfold touchLines; refine Canon.foldl _ (fun t a g => ?_) _ _ ?_ <;> (repeat' split) <;> simp (maxDischargeDepth := 9) [*]

@[simp] theorem deviceFault_canon (a0) {t : State} (h : Canon t) : Canon (deviceFault a0 t) := by
  unfold deviceFault; simp (maxDischargeDepth := 9) [h]

@[simp] theorem sramCorrected_canon (a0) {t : State} (h : Canon t) : Canon (sramCorrected a0 t) := Canon.of_keeps ((sramCorrected_keeps a0 t (k := [.errs]) rfl).2 (Keeps.refl _ t)) rfl h

@[simp] theorem hbmCorrected_canon (a0) {t : State} (h : Canon t) : Canon (hbmCorrected a0 t) := Canon.of_keeps ((hbmCorrected_keeps a0 t (k := [.errs]) rfl).2 (Keeps.refl _ t)) rfl h

@[simp] theorem hbmUncorrectable_canon (a0) {t : State} (h : Canon t) : Canon (hbmUncorrectable a0 t) := Canon.of_keeps ((hbmUncorrectable_keeps a0 t (k := [.errs]) rfl).2 (Keeps.refl _ t)) rfl h

@[simp] theorem unitFault_canon (a0) (a1) (a2) {t : State} (h : Canon t) : Canon (unitFault a0 a1 a2 t) := Canon.of_keeps ((unitFault_keeps a0 a1 a2 t (k := [.ctl, .rem, .launch, .errs]) rfl).2 (Keeps.refl _ t)) rfl h

@[simp] theorem faultIn_canon (a0) (a1) {t : State} (h : Canon t) : Canon (faultIn a0 a1 t) := Canon.of_keeps ((faultIn_keeps a0 a1 t (k := [.ctl, .rem, .launch, .errs]) rfl).2 (Keeps.refl _ t)) rfl h

@[simp] theorem readHealth_canon (a0) (a1) (a2) {t : State} (h : Canon t) : Canon (readHealth a0 a1 a2 t).2 := by
  unfold readHealth; (repeat' split) <;> simp (maxDischargeDepth := 9) [h]

theorem windowRead_canon (a n : Nat) (f : State → State) {t : State} (c : Canon t) (h : ∀ u, Canon u → Canon (f u)) :
    Canon (windowRead a n f t) := by
  unfold windowRead
  (repeat' split) <;> first | exact h _ c | simp [c]

theorem answerLoad_canon (f : State → State) (a : Nat) (p : Packet) {t : State} (c : Canon t)
    (h : ∀ u, Canon u → Canon (f u)) : Canon (answerLoad f a p t) :=
  windowRead_canon _ _ _ (touchLines_canon _ _ c) fun u g => sendReply_canon _ _ _ _ _ _ (h u g)

@[simp] theorem answerAtomic_canon (a0) (a1) (a2) {t : State} (h : Canon t) : Canon (answerAtomic a0 a1 a2 t) := Canon.of_keeps ((answerAtomic_keeps a0 a1 a2 t (k := [.ctl, .rem]) rfl).2 (Keeps.refl _ t)) rfl h

@[simp] theorem applyAcross_canon (a0) (a1) {t : State} (h : Canon t) : Canon (applyAcross a0 a1 t) := by
  unfold applyAcross; refine Canon.foldl _ (fun t a g => ?_) _ _ ?_ <;> (repeat' split) <;> simp (maxDischargeDepth := 9) [*]

@[simp] theorem applyInLine_canon (a0) (a1) {t : State} (h : Canon t) : Canon (applyInLine a0 a1 t) := by
  unfold applyInLine; simp (maxDischargeDepth := 9) [h]

@[simp] theorem applyAtomic_canon (a0) (a1) {t : State} (h : Canon t) : Canon (applyAtomic a0 a1 t) := by
  unfold applyAtomic
  (repeat' split) <;> first
    | exact h
    | exact applyInLine_canon _ _ h
    | exact windowRead_canon _ _ _ h fun u g => by simp [g]

@[simp] theorem countLanding_canon (a0) {t : State} (h : Canon t) : Canon (countLanding a0 t) := Canon.of_keeps ((countLanding_keeps a0 t (k := [.ctr, .ctl, .rem, .launch, .dbg]) rfl).2 (Keeps.refl _ t)) rfl h

@[simp] theorem applyStore_canon (a0) (a1) {t : State} (h : Canon t) : Canon (applyStore a0 a1 t) := by
  unfold applyStore; simp (maxDischargeDepth := 9) [h]

@[simp] theorem flushLines_canon  {t : State} (h : Canon t) : Canon (flushLines t) := by
  unfold flushLines; refine Canon.foldl _ (fun t a g => ?_) _ _ ?_ <;> (repeat' split) <;> simp (maxDischargeDepth := 9) [*]

@[simp] theorem refuseRequest_canon (a0) (a1) (a2) {t : State} (h : Canon t) : Canon (refuseRequest a0 a1 a2 t) := Canon.of_keeps ((refuseRequest_keeps a0 a1 a2 t (k := [.ctl, .rem, .launch, .errs]) rfl).2 (Keeps.refl _ t)) rfl h

theorem serveRequest_canon (again apply : Nat → Packet → State → State) (p : Packet) {t : State} (c : Canon t)
    (h : ∀ a q u, Canon u → Canon (again a q u)) (g : ∀ a q u, Canon u → Canon (apply a q u)) :
    Canon (serveRequest again apply p t) := by
  unfold serveRequest
  split
  · simp [c]
  · split
    · exact h _ _ _ (by simp [c])
    · split
      · exact g _ _ _ c
      · simp [c]

@[simp] theorem tableGet_canon (a0) (a1) {t : State} (h : Canon t) : Canon (tableGet a0 a1 t) := by
  unfold tableGet; simp (maxDischargeDepth := 9) [h]

@[simp] theorem serveOp_canon (p) {t : State} (h : Canon t) : Canon (serveOp p t) := by
  unfold serveOp
  (repeat' (first | split | dsimp only)) <;>
    refine serveRequest_canon _ _ _ (by first | exact h | simp [h]) (fun a q u g => ?_) (fun a q u g => ?_) <;> first
      | (simp (maxDischargeDepth := 9) [g]; done)
      | exact answerLoad_canon _ _ _ g fun v w => by simp [w]

@[simp] theorem takeWaiting_canon (a0) (a1) {t : State} (h : Canon t) : Canon (takeWaiting a0 a1 t) := by
  unfold takeWaiting; simp (maxDischargeDepth := 9) [h]

@[simp] theorem takeLanes_canon (a0) {t : State} (h : Canon t) : Canon (takeLanes a0 t) := by
  fun_induction takeLanes a0 t <;> simp_all (maxDischargeDepth := 9)

@[simp] theorem noteKeptFull_canon {t : State} (h : Canon t) : Canon (noteKeptFull t) := Canon.of_keeps ((noteKeptFull_keeps t (k := [.rem, .errs]) rfl).2 (Keeps.refl _ t)) rfl h

@[simp] theorem settleLanes_canon {t : State} (h : Canon t) : Canon (settleLanes t) := by
  unfold settleLanes; simp (maxDischargeDepth := 9) [h]

@[simp] theorem dropRequest_canon (a0) {t : State} (h : Canon t) : Canon (dropRequest a0 t) := Canon.of_keeps ((dropRequest_keeps a0 t (k := [.rem]) rfl).2 (Keeps.refl _ t)) rfl h

@[simp] theorem markDone_canon (a0) (a1) {t : State} (h : Canon t) : Canon (markDone a0 a1 t) := Canon.of_keeps ((markDone_keeps a0 a1 t (k := [.rem]) rfl).2 (Keeps.refl _ t)) rfl h

@[simp] theorem endRequest_canon (a0) {t : State} (h : Canon t) : Canon (endRequest a0 t) := Canon.of_keeps ((endRequest_keeps a0 t (k := [.rem]) rfl).2 (Keeps.refl _ t)) rfl h

@[simp] theorem takeCum_canon (a0) (a1) {t : State} (h : Canon t) : Canon (takeCum a0 a1 t) := Canon.of_keeps ((takeCum_keeps a0 a1 t (k := [.rem]) rfl).2 (Keeps.refl _ t)) rfl h

theorem takeAnswer_canon (ops : List Nat) (f : Request → State → State) (p : Packet) {t : State} (c : Canon t)
    (h : ∀ r u, Canon u → Canon (f r u)) : Canon (takeAnswer ops f p t) := by
  unfold takeAnswer
  split
  · simp [c]
  · exact settleLanes_canon (h _ _ (by simp (maxDischargeDepth := 9) [c]))

@[simp] theorem ackEffect_canon (p) {t : State} (h : Canon t) : Canon (ackEffect p t) := by
  unfold ackEffect
  (repeat' split) <;> first
    | (simp (maxDischargeDepth := 9) [h]; done)
    | exact takeAnswer_canon _ _ _ h fun r u g => g

@[simp] theorem ackPealEffect_canon (a0) (a1) {t : State} (h : Canon t) : Canon (ackPealEffect a0 a1 t) := Canon.of_keeps ((ackPealEffect_keeps a0 a1 t (k := [.rem, .launch, .errs]) rfl).2 (Keeps.refl _ t)) rfl h

@[simp] theorem setCell_canon (a0) (a1) {t : State} (h : Canon t) : Canon (setCell a0 a1 t) := Canon.of_keeps ((setCell_keeps a0 a1 t (k := [.cells]) rfl).2 (Keeps.refl _ t)) rfl h

@[simp] theorem addFlight_canon (a0) (a1) (a2) {t : State} (h : Canon t) : Canon (addFlight a0 a1 a2 t) := Canon.of_keeps ((addFlight_keeps a0 a1 a2 t (k := [.cells]) rfl).2 (Keeps.refl _ t)) rfl h

@[simp] theorem addStallEvent_canon (a0) {t : State} (h : Canon t) : Canon (addStallEvent a0 t) := Canon.of_keeps ((addStallEvent_keeps a0 t (k := [.ctl]) rfl).2 (Keeps.refl _ t)) rfl h

@[simp] theorem addStallTicks_canon (a0) {t : State} (h : Canon t) : Canon (addStallTicks a0 t) := Canon.of_keeps ((addStallTicks_keeps a0 t (k := [.ctl]) rfl).2 (Keeps.refl _ t)) rfl h

@[simp] theorem addStepCodes_canon (a0) {t : State} (h : Canon t) : Canon (addStepCodes a0 t) := Canon.of_keeps ((addStepCodes_keeps a0 t (k := [.ctl]) rfl).2 (Keeps.refl _ t)) rfl h

@[simp] theorem takeBuffer_canon (a0) (a1) (a2) (a3) (a4) {t : State} (h : Canon t) : Canon (takeBuffer a0 a1 a2 a3 a4 t) := Canon.of_keeps ((takeBuffer_keeps a0 a1 a2 a3 a4 t (k := [.pools]) rfl).2 (Keeps.refl _ t)) rfl h

theorem allocate_canon {cl len owner h : Nat} {t u : State} (e : allocate? cl len owner t = some (h, u)) (c : Canon t) :
    Canon u := Canon.of_keeps (allocate_keeps e) rfl c

@[simp] theorem giveStage_canon (a0) (a1) (a2) {t : State} (h : Canon t) : Canon (giveStage a0 a1 a2 t) := Canon.of_keeps ((giveStage_keeps a0 a1 a2 t (k := [.flash]) rfl).2 (Keeps.refl _ t)) rfl h

@[simp] theorem grantWait_canon (a0) (a1) {t : State} (h : Canon t) : Canon (grantWait a0 a1 t) := by
  unfold grantWait; (repeat' split) <;> simp (maxDischargeDepth := 9) [h]

@[simp] theorem serveWaits_canon (l : List PoolWait) {t : State} (h : Canon t) : Canon (serveWaits l t) := by
  induction l generalizing t with
  | nil => unfold serveWaits; exact h
  | cons e r ih =>
    unfold serveWaits
    split
    · next x u he => exact ih (by simp (maxDischargeDepth := 9) [allocate_canon he h])
    · exact ih (canon_set_pools h)

@[simp] theorem runWaits_canon  {t : State} (h : Canon t) : Canon (runWaits t) := by
  unfold runWaits; simp (maxDischargeDepth := 9) [h]

@[simp] theorem freeBuffer_canon (a0) {t : State} (h : Canon t) : Canon (freeBuffer a0 t) := by
  unfold freeBuffer; simp (maxDischargeDepth := 9) [h]

@[simp] theorem mapBuffer_canon (a0) (a1) {t : State} (h : Canon t) : Canon (mapBuffer a0 a1 t) := Canon.of_keeps ((mapBuffer_keeps a0 a1 t (k := [.pools]) rfl).2 (Keeps.refl _ t)) rfl h

@[simp] theorem applyFree_canon (a b c d : Nat) {t : State} (h : Canon t) : Canon (applyFree a b c d t).2.1 :=
  Canon.of_keeps ((applyFree_keeps a b c d t (k := [.pools]) rfl).2 (Keeps.refl _ t)) rfl h

theorem applyFree_then_canon (a b c d : Nat) (t : State) {u : State} (h : Canon u) : Canon ((applyFree a b c d t).2.2 u) := by
  unfold applyFree
  (repeat' (first | split | dsimp only)) <;> simp (maxDischargeDepth := 9) [h]

@[simp] theorem applyRelease_canon (a b : Nat) {t : State} (h : Canon t) : Canon (applyRelease a b t).2.1 :=
  Canon.of_keeps ((applyRelease_keeps a b t (k := [.pools]) rfl).2 (Keeps.refl _ t)) rfl h

theorem applyRelease_then_canon (a b : Nat) (t : State) {u : State} (h : Canon u) : Canon ((applyRelease a b t).2.2 u) := by
  unfold applyRelease
  (repeat' (first | split | dsimp only)) <;> simp (maxDischargeDepth := 9) [h]

@[simp] theorem applyPool_canon (f : Bool) (a b c d : Nat) {t : State} (h : Canon t) : Canon (applyPool f a b c d t).2.1 := by
  unfold applyPool; split <;> simp [h]

@[simp] theorem applyPool_then_canon (f : Bool) (a b c d : Nat) (t : State) {u : State} (h : Canon u) :
    Canon ((applyPool f a b c d t).2.2 u) := by
  unfold applyPool
  split
  · exact applyFree_then_canon _ _ _ _ _ h
  · exact applyRelease_then_canon _ _ _ h

@[simp] theorem applyBound_canon (a) {t : State} (h : Canon t) : Canon (applyBound a t) := by
  unfold applyBound
  exact applyPool_then_canon _ _ _ _ _ _ (by simp (maxDischargeDepth := 9) [h])

@[simp] theorem writeAll_canon (a0) {t : State} (h : Canon t) : Canon (writeAll a0 t) := by
  unfold writeAll; refine Canon.foldl _ (fun t a g => ?_) _ _ ?_ <;> (repeat' split) <;> simp (maxDischargeDepth := 9) [*]

@[simp] theorem applyLanding_canon (a) {t : State} (h : Canon t) : Canon (applyLanding a t) := by
  unfold applyLanding
  dsimp only
  refine addStepCount_canon _ _ (canon_set_mem_exch (writeAll_canon _ h) ?_)
  exact memWf_foldl _ (fun m b w => by simp [w]) _ _ (writeAll_canon _ h).mem

@[simp] theorem landingFault_canon (a0) (a1) {t : State} (h : Canon t) : Canon (landingFault a0 a1 t) := Canon.of_keeps ((landingFault_keeps a0 a1 t (k := [.ctl, .rem, .launch]) rfl).2 (Keeps.refl _ t)) rfl h

@[simp] theorem applyLandings_canon (a b) {t : State} (h : Canon t) : Canon (applyLandings a b t) := by
  unfold applyLandings
  split
  · simp [h]
  · exact Canon.foldl _ (fun t x g => by simp [g]) _ _ h

@[simp] theorem applyShare_canon (a0) (a1) (a2) {t : State} (h : Canon t) : Canon (applyShare a0 a1 a2 t).2 := Canon.of_keeps ((applyShare_keeps a0 a1 a2 t (k := [.pools]) rfl).2 (Keeps.refl _ t)) rfl h

@[simp] theorem depAdd_canon (a0) (a1) (a2) {t : State} (h : Canon t) : Canon (depAdd a0 a1 a2 t) := Canon.of_keeps ((depAdd_keeps a0 a1 a2 t (k := [.ctr, .ctl, .rem, .launch]) rfl).2 (Keeps.refl _ t)) rfl h

@[simp] theorem applySignal_canon (a0) (a1) {t : State} (h : Canon t) : Canon (applySignal a0 a1 t) := Canon.of_keeps ((applySignal_keeps a0 a1 t (k := [.ctr, .ctl, .rem, .launch]) rfl).2 (Keeps.refl _ t)) rfl h

@[simp] theorem putWindow_canon (a0) (a1) {t : State} (h : Canon t) : Canon (putWindow a0 a1 t) := Canon.of_keeps ((putWindow_keeps a0 a1 t (k := [.rem]) rfl).2 (Keeps.refl _ t)) rfl h

@[simp] theorem applyWindow_canon (a0) (a1) (a2) {t : State} (h : Canon t) : Canon (applyWindow a0 a1 a2 t).endState := Canon.of_keeps ((applyWindow_keeps a0 a1 a2 t (k := [.rem]) rfl).2 (Keeps.refl _ t)) rfl h

@[simp] theorem armAcknowledgeEffect_canon  {t : State} (h : Canon t) : Canon (armAcknowledgeEffect t) := Canon.of_keeps ((armAcknowledgeEffect_keeps  t (k := [.rem, .launch]) rfl).2 (Keeps.refl _ t)) rfl h

@[simp] theorem noteForward_canon (a0) {t : State} (h : Canon t) : Canon (noteForward a0 t) := Canon.of_keeps ((noteForward_keeps a0 t (k := [.launch]) rfl).2 (Keeps.refl _ t)) rfl h

@[simp] theorem forwardPeal_canon (a0) {t : State} (h : Canon t) : Canon (forwardPeal a0 t) := Canon.of_keeps ((forwardPeal_keeps a0 t (k := [.rem, .launch]) rfl).2 (Keeps.refl _ t)) rfl h

@[simp] theorem launchEvent_canon (a0) (a1) (a2) {t : State} (h : Canon t) : Canon (launchEvent a0 a1 a2 t) := by
  unfold launchEvent; simp (maxDischargeDepth := 9) [h]

@[simp] theorem closeCommands_canon (a0) (a1) {t : State} (h : Canon t) : Canon (closeCommands a0 a1 t) := by
  fun_induction closeCommands a0 a1 t <;> simp_all (maxDischargeDepth := 9)

@[simp] theorem closeOpen_canon (a0) {t : State} (h : Canon t) : Canon (closeOpen a0 t) := by
  unfold closeOpen; simp (maxDischargeDepth := 9) [h]

@[simp] theorem latchOutcome_canon (a0) {t : State} (h : Canon t) : Canon (latchOutcome a0 t) := by
  unfold latchOutcome; simp (maxDischargeDepth := 9) [h]

@[simp] theorem armFresh_canon (a0) (a1) {t : State} (h : Canon t) : Canon (armFresh a0 a1 t) := by
  unfold armFresh; simp only []; (repeat' split) <;> simp (maxDischargeDepth := 9) [h]

@[simp] theorem armEffect_canon (a0) {t : State} (h : Canon t) : Canon (armEffect a0 t) := by
  unfold armEffect; simp only []; (repeat' split) <;> simp (maxDischargeDepth := 9) [h]

@[simp] theorem countFlits_canon (a0) (a1) {t : State} (h : Canon t) : Canon (countFlits a0 a1 t) := Canon.of_keeps ((countFlits_keeps a0 a1 t (k := [.fab]) rfl).2 (Keeps.refl _ t)) rfl h

@[simp] theorem noteLeft_canon (a0) (a1) {t : State} (h : Canon t) : Canon (noteLeft a0 a1 t) := Canon.of_keeps ((noteLeft_keeps a0 a1 t (k := [.rem, .errs]) rfl).2 (Keeps.refl _ t)) rfl h

theorem arrive_canon {f : Option Nat} {p : Packet} {t u : State} (e : arrive? f p t = some u) (c : Canon t) : Canon u :=
  Canon.of_keeps (arrive_keeps e) rfl c

@[simp] theorem freeChoice_canon  {t : State} (h : Canon t) : Canon (freeChoice t).2 := Canon.of_keeps ((freeChoice_keeps  t (k := [.time]) rfl).2 (Keeps.refl _ t)) rfl h

@[simp] theorem moveBeat_canon (a0) (a1) {t : State} (h : Canon t) : Canon (moveBeat a0 a1 t) := Canon.of_keeps ((moveBeat_keeps a0 a1 t (k := [.time]) rfl).2 (Keeps.refl _ t)) rfl h

@[simp] theorem settleOffset_canon  {t : State} (h : Canon t) : Canon (settleOffset t) := Canon.of_keeps ((settleOffset_keeps  t (k := [.time]) rfl).2 (Keeps.refl _ t)) rfl h

@[simp] theorem beatPeriod_canon  {t : State} (h : Canon t) : Canon (beatPeriod t) := Canon.of_keeps ((beatPeriod_keeps  t (k := [.time]) rfl).2 (Keeps.refl _ t)) rfl h

@[simp] theorem mapCopy_canon (a0) (a1) (a2) {t : State} (h : Canon t) : Canon (mapCopy a0 a1 a2 t) := Canon.of_keeps ((mapCopy_keeps a0 a1 a2 t (k := [.tier]) rfl).2 (Keeps.refl _ t)) rfl h

@[simp] theorem beginEvict_canon (a0) (a1) (a2) {t : State} (h : Canon t) : Canon (beginEvict a0 a1 a2 t) := Canon.of_keeps ((beginEvict_keeps a0 a1 a2 t (k := [.tier]) rfl).2 (Keeps.refl _ t)) rfl h

@[simp] theorem biasCheck_canon (a0) (a1) {t : State} (h : Canon t) : Canon (biasCheck a0 a1 t).2 := Canon.of_keeps ((biasCheck_keeps a0 a1 t (k := [.ctl]) rfl).2 (Keeps.refl _ t)) rfl h

@[simp] theorem bindImage_canon (a0) (a1) {t : State} (h : Canon t) : Canon (bindImage a0 a1 t) := by
  unfold bindImage; simp (maxDischargeDepth := 9) [h]

@[simp] theorem bootFail_canon (a0) {t : State} (h : Canon t) : Canon (bootFail a0 t) := by
  unfold bootFail; simp (maxDischargeDepth := 9) [h]

theorem bulkArrival_canon (place : Packet → State → State) (p : Packet) {t : State} (c : Canon t)
    (h : ∀ q u, Canon u → Canon (place q u)) : Canon (bulkArrival place p t) := by
  unfold bulkArrival
  split
  · exact c
  · split
    · simp (maxDischargeDepth := 9) [c]
    · exact h _ _ c

@[simp] theorem cancelEvicts_canon (a0) (a1) {t : State} (h : Canon t) : Canon (cancelEvicts a0 a1 t) := by
  unfold cancelEvicts; refine Canon.foldl _ (fun t a g => ?_) _ _ ?_ <;> (repeat' split) <;> simp (maxDischargeDepth := 9) [*]

@[simp] theorem cellFault_canon (a0) (a1) {t : State} (h : Canon t) : Canon (cellFault a0 a1 t) := Canon.of_keeps ((cellFault_keeps a0 a1 t (k := [.ctl, .rem, .launch, .errs]) rfl).2 (Keeps.refl _ t)) rfl h

@[simp] theorem changeDigest_canon  {t : State} (h : Canon t) : Canon (changeDigest t) := by
  unfold changeDigest; simp (maxDischargeDepth := 9) [h]

@[simp] theorem putMem_canon (a0) (a1) (a2) {t : State} (h : Canon t) : Canon (putMem a0 a1 a2 t) := by
  unfold putMem; simp (maxDischargeDepth := 9) [h]

@[simp] theorem dropCopy_canon (a0) (a1) {t : State} (h : Canon t) : Canon (dropCopy a0 a1 t) := by
  unfold dropCopy; (repeat' split) <;> simp (maxDischargeDepth := 9) [h]

@[simp] theorem countBadSource_canon (a0) (a1) {t : State} (h : Canon t) : Canon (countBadSource a0 a1 t) := Canon.of_keeps ((countBadSource_keeps a0 a1 t (k := [.errs]) rfl).2 (Keeps.refl _ t)) rfl h

@[simp] theorem dropBad_canon (a0) (a1) {t : State} (h : Canon t) : Canon (dropBad a0 a1 t) := by
  unfold dropBad; simp (maxDischargeDepth := 9) [h]

@[simp] theorem refillTier_canon (a0) (a1) (a2) {t : State} (h : Canon t) : Canon (refillTier? a0 a1 a2 t).2 := by
  induction a2 generalizing t with
  | zero => simpa [refillTier?] using h
  | succ n ih =>
    unfold refillTier?; dsimp only
    split
    · exact h
    · split
      · simp (maxDischargeDepth := 9) [h]
      · exact ih (by simp (maxDischargeDepth := 9) [h])

@[simp] theorem refillCopy_canon (a0) {t : State} (h : Canon t) : Canon (refillCopy t a0) := by
  unfold refillCopy; simp only []; (repeat' split) <;> simp (maxDischargeDepth := 9) [h]

@[simp] theorem wordsFrom_canon (a0) (a1) {t : State} (h : Canon t) : Canon (wordsFrom a0 a1 t) := Canon.of_keeps ((wordsFrom_keeps a0 a1 t (k := [.errs]) rfl).2 (Keeps.refl _ t)) rfl h

@[simp] theorem freshCell_canon (a0) {t : State} (h : Canon t) : Canon (freshCell a0 t) := by
  unfold freshCell; refine Canon.foldl _ (fun t a g => ?_) _ _ ?_ <;> (repeat' split) <;> simp (maxDischargeDepth := 9) [*]

@[simp] theorem takeOverCell_canon (a b : Nat) {t : State} (h : Canon t) : Canon (takeOverCell a b t) := by
  unfold takeOverCell
  dsimp only
  refine Canon.foldl _ (fun t c g => by simp (maxDischargeDepth := 9) [g]) _ _ ?_
  have g := Canon.foldl (fun t (c : Copy) => dropCopy c.obj 0 t) (fun t c g => dropCopy_canon _ _ g) (scratchCopies t b) t h
  exact ⟨memWf_memCopy g.mem, memWf_memCopy g.tiles, g.ram, g.sram⟩

@[simp] theorem retireCell_canon (a0) {t : State} (h : Canon t) : Canon (retireCell a0 t) := by
  unfold retireCell; simp only []; (repeat' split) <;> simp (maxDischargeDepth := 9) [h]

@[simp] theorem writeReport_canon (a0) {t : State} (h : Canon t) : Canon (writeReport a0 t) := by
  unfold writeReport; (repeat' split) <;> simp (maxDischargeDepth := 9) [h]

@[simp] theorem writeReports_canon (a0) {t : State} (h : Canon t) : Canon (writeReports a0 t) := by
  fun_induction writeReports a0 t <;> simp_all (maxDischargeDepth := 9)

@[simp] theorem settleReport_canon  {t : State} (h : Canon t) : Canon (settleReport t) := by
  unfold settleReport; simp (maxDischargeDepth := 9) [h]

@[simp] theorem testPhys_canon (a0) (a1) {t : State} (h : Canon t) : Canon (testPhys a0 a1 t) := by
  unfold testPhys; (repeat' split) <;> simp (maxDischargeDepth := 9) [h]

@[simp] theorem cellTestEffect_canon (a0) {t : State} (h : Canon t) : Canon (cellTestEffect a0 t) := by
  unfold cellTestEffect; (repeat' split) <;> simp (maxDischargeDepth := 9) [h]

@[simp] theorem checkpointReads_canon  {t : State} (h : Canon t) : Canon (checkpointReads t) := Canon.of_keeps ((checkpointReads_keeps  t (k := [.flash]) rfl).2 (Keeps.refl _ t)) rfl h

@[simp] theorem setParent_canon (a0) {t : State} (h : Canon t) : Canon (setParent a0 t) := Canon.of_keeps ((setParent_keeps a0 t (k := [.time, .errs]) rfl).2 (Keeps.refl _ t)) rfl h

@[simp] theorem chooseParent_canon (a0) {t : State} (h : Canon t) : Canon (chooseParent a0 t) := Canon.of_keeps ((chooseParent_keeps a0 t (k := [.time, .errs]) rfl).2 (Keeps.refl _ t)) rfl h

@[simp] theorem chooseAfterMisses_canon  {t : State} (h : Canon t) : Canon (chooseAfterMisses t) := Canon.of_keeps ((chooseAfterMisses_keeps  t (k := [.time, .errs]) rfl).2 (Keeps.refl _ t)) rfl h

@[simp] theorem clearCells_canon (a0) {t : State} (h : Canon t) : Canon (clearCells a0 t) := Canon.of_keeps ((clearCells_keeps a0 t (k := [.cells]) rfl).2 (Keeps.refl _ t)) rfl h

@[simp] theorem clearPresence_canon (a b c) {t : State} (h : Canon t) : Canon (clearPresence a b c t) := by
  unfold clearPresence
  exact canon_set_mem h (memWf_foldl _ (fun m b w => memWf_foldl _ (fun m b w => by simp [w]) _ _ w) _ _ h.mem)

@[simp] theorem requestStage_canon (a0) (a1) {t : State} (h : Canon t) : Canon (requestStage a0 a1 t) := Canon.of_keeps ((requestStage_keeps a0 a1 t (k := [.flash, .pools]) rfl).2 (Keeps.refl _ t)) rfl h

@[simp] theorem startStages_canon (a0) {t : State} (h : Canon t) : Canon (startStages a0 t) := Canon.of_keeps ((startStages_keeps a0 t (k := [.flash, .pools]) rfl).2 (Keeps.refl _ t)) rfl h

@[simp] theorem restage_canon  {t : State} (h : Canon t) : Canon (restage t) := Canon.of_keeps ((restage_keeps  t (k := [.flash, .pools]) rfl).2 (Keeps.refl _ t)) rfl h

@[simp] theorem abortFrees_canon {t : State} (h : Canon t) : Canon (abortFrees t) := by
  unfold abortFrees; refine Canon.foldl _ (fun t a g => ?_) _ _ h; split <;> simp (maxDischargeDepth := 9) [g]

@[simp] theorem closeJob_canon  {t : State} (h : Canon t) : Canon (closeJob t) := by
  unfold closeJob; simp (maxDischargeDepth := 9) [h]

@[simp] theorem closeMsg_canon (a0) {t : State} (h : Canon t) : Canon (closeMsg a0 t) := Canon.of_keeps ((closeMsg_keeps a0 t (k := [.exch]) rfl).2 (Keeps.refl _ t)) rfl h

@[simp] theorem reject_canon (a0) {t : State} (h : Canon t) : Canon (reject a0 t).endState := Canon.of_keeps ((reject_keeps a0 t (k := []) rfl).2 (Keeps.refl _ t)) rfl h

@[simp] theorem cmdAbortJob_canon (a0) {t : State} (h : Canon t) : Canon (cmdAbortJob a0 t).endState := by
  unfold cmdAbortJob; (repeat' split) <;> simp (maxDischargeDepth := 9) [h]

@[simp] theorem cmdAbortStep_canon (a0) {t : State} (h : Canon t) : Canon (cmdAbortStep a0 t).endState := Canon.of_keeps ((cmdAbortStep_keeps a0 t (k := [.ctl, .rem, .launch]) rfl).2 (Keeps.refl _ t)) rfl h

@[simp] theorem cmdAttest_canon (a0) {t : State} (h : Canon t) : Canon (cmdAttest a0 t).endState := by
  unfold cmdAttest; simp (maxDischargeDepth := 9) [h]

@[simp] theorem cmdBind_canon (a0) {t : State} (h : Canon t) : Canon (cmdBind a0 t).endState := by
  unfold cmdBind; (repeat' split) <;> simp (maxDischargeDepth := 9) [h]

@[simp] theorem memreadCorrected_canon (a0) (a1) {t : State} (h : Canon t) : Canon (memreadCorrected a0 a1 t) := Canon.of_keeps ((memreadCorrected_keeps a0 a1 t (k := [.errs]) rfl).2 (Keeps.refl _ t)) rfl h

@[simp] theorem memreadHealth_canon (a0) {t : State} (h : Canon t) : Canon (memreadHealth a0 t).2 := Canon.of_keeps ((memreadHealth_keeps a0 t (k := [.errs]) rfl).2 (Keeps.refl _ t)) rfl h

@[simp] theorem memreadFinds_canon (a0) (a1) (a2) {t : State} (h : Canon t) : Canon (memreadFinds a0 a1 a2 t).2 := Canon.of_keeps ((memreadFinds_keeps a0 a1 a2 t (k := [.errs]) rfl).2 (Keeps.refl _ t)) rfl h

@[simp] theorem cmdDebugMemread_canon (a0) (a1) {t : State} (h : Canon t) : Canon (cmdDebugMemread a0 a1 t).endState := by
  unfold cmdDebugMemread; simp (maxDischargeDepth := 9) [h]

@[simp] theorem defer_canon (a0) {t : State} (h : Canon t) : Canon (defer a0 t) := Canon.of_keeps ((defer_keeps a0 t (k := [.tier]) rfl).2 (Keeps.refl _ t)) rfl h

@[simp] theorem cmdEvict_canon (a0) {t : State} (h : Canon t) : Canon (cmdEvict a0 t).endState := Canon.of_keeps ((cmdEvict_keeps a0 t (k := [.tier]) rfl).2 (Keeps.refl _ t)) rfl h

@[simp] theorem flashEvent_canon (a0) (a1) (a2) (a3) {t : State} (h : Canon t) : Canon (flashEvent a0 a1 a2 a3 t) := by
  unfold flashEvent; simp (maxDischargeDepth := 9) [h]

@[simp] theorem updateFlash_canon (a0) {t : State} (h : Canon t) : Canon (updateFlash a0 t) := by
  unfold updateFlash; simp (maxDischargeDepth := 9) [h]

@[simp] theorem cmdExtentCreate_canon (a0) {t : State} (h : Canon t) : Canon (cmdExtentCreate a0 t).endState := by
  unfold cmdExtentCreate; simp only []; (repeat' split) <;> simp (maxDischargeDepth := 9) [h]

@[simp] theorem endStages_canon (a b) {t : State} (h : Canon t) : Canon (endStages a b t) := by
  unfold endStages
  dsimp only
  exact startStages_canon _ (Canon.foldl _ (fun t x g => by simp [g]) _ _ (by simp [h]))

@[simp] theorem dropStages_canon (a0) {t : State} (h : Canon t) : Canon (dropStages a0 t) := by
  unfold dropStages; simp (maxDischargeDepth := 9) [h]

@[simp] theorem cmdExtentDelete_canon (a0) {t : State} (h : Canon t) : Canon (cmdExtentDelete a0 t).endState := by
  unfold cmdExtentDelete; simp only []; (repeat' split) <;> simp (maxDischargeDepth := 9) [h]

@[simp] theorem cmdExtentSeal_canon (a0) {t : State} (h : Canon t) : Canon (cmdExtentSeal a0 t).endState := Canon.of_keeps ((cmdExtentSeal_keeps a0 t (k := [.flash, .pools]) rfl).2 (Keeps.refl _ t)) rfl h

@[simp] theorem stageWrite_canon (a0) (a1) (a2) {t : State} (h : Canon t) : Canon (stageWrite a0 a1 a2 t) := Canon.of_keeps ((stageWrite_keeps a0 a1 a2 t (k := [.flash, .pools]) rfl).2 (Keeps.refl _ t)) rfl h

@[simp] theorem cmdExtentWrite_canon (a0) {t : State} (h : Canon t) : Canon (cmdExtentWrite a0 t).endState := Canon.of_keeps ((cmdExtentWrite_keeps a0 t (k := [.flash, .pools]) rfl).2 (Keeps.refl _ t)) rfl h

@[simp] theorem setFlashState_canon (a0) (a1) {t : State} (h : Canon t) : Canon (setFlashState a0 a1 t) := by
  unfold setFlashState; simp (maxDischargeDepth := 9) [h]

@[simp] theorem cmdFlashFormat_canon (a0) {t : State} (h : Canon t) : Canon (cmdFlashFormat a0 t).endState := by
  unfold cmdFlashFormat; simp (maxDischargeDepth := 9) [h]

@[simp] theorem freeBytes_canon (a0) {t : State} (h : Canon t) : Canon (freeBytes a0 t).2 := Canon.of_keeps ((freeBytes_keeps a0 t (k := [.time]) rfl).2 (Keeps.refl _ t)) rfl h

@[simp] theorem flashRecord_canon  {t : State} (h : Canon t) : Canon (flashRecord t).2 := Canon.of_keeps ((flashRecord_keeps  t (k := [.time]) rfl).2 (Keeps.refl _ t)) rfl h

@[simp] theorem cmdFlashStatus_canon (a0) {t : State} (h : Canon t) : Canon (cmdFlashStatus a0 t).endState := by
  unfold cmdFlashStatus; simp (maxDischargeDepth := 9) [h]

@[simp] theorem cmdGetCaps_canon (a0) {t : State} (h : Canon t) : Canon (cmdGetCaps a0 t).endState := by
  unfold cmdGetCaps; simp (maxDischargeDepth := 9) [h]

@[simp] theorem granted_canon  {t : State} (h : Canon t) : Canon (granted t).endState := Canon.of_keeps ((granted_keeps  t (k := []) rfl).2 (Keeps.refl _ t)) rfl h

@[simp] theorem cmdGrant_canon (a0) {t : State} (h : Canon t) : Canon (cmdGrant a0 t).endState := Canon.of_keeps ((cmdGrant_keeps a0 t (k := [.cells, .ctl, .time]) rfl).2 (Keeps.refl _ t)) rfl h

@[simp] theorem cmdIdentify_canon (a0) {t : State} (h : Canon t) : Canon (cmdIdentify a0 t).endState := Canon.of_keeps ((cmdIdentify_keeps a0 t (k := []) rfl).2 (Keeps.refl _ t)) rfl h

@[simp] theorem cmdJobClose_canon (a0) {t : State} (h : Canon t) : Canon (cmdJobClose a0 t).endState := by
  unfold cmdJobClose; simp (maxDischargeDepth := 9) [h]

@[simp] theorem cmdJobOpen_canon (a0) {t : State} (h : Canon t) : Canon (cmdJobOpen a0 t).endState := Canon.of_keeps ((cmdJobOpen_keeps a0 t (k := [.job, .pools, .rem]) rfl).2 (Keeps.refl _ t)) rfl h

@[simp] theorem defineObj_canon (a0) (a1) {t : State} (h : Canon t) : Canon (defineObj a0 a1 t).2 := Canon.of_keeps ((defineObj_keeps a0 a1 t (k := [.tier]) rfl).2 (Keeps.refl _ t)) rfl h

@[simp] theorem defineManifest_canon (a0) (a1) (a2) {t : State} (h : Canon t) : Canon (defineManifest a0 a1 a2 t).2 := Canon.of_keeps ((defineManifest_keeps a0 a1 a2 t (k := [.tier]) rfl).2 (Keeps.refl _ t)) rfl h

@[simp] theorem loadImage_canon (a0) (a1) {t : State} (h : Canon t) : Canon (loadImage a0 a1 t).2.2 := by
  unfold loadImage
  dsimp only
  (repeat' split) <;> first
    | exact h
    | exact Canon.foldl _ (fun t c g => by simp (maxDischargeDepth := 9) [g]) _ _
        (canon_set_mem_job (defineManifest_canon _ _ _ h) (copySections_wf _ _ _ h.mem))

@[simp] theorem unloadImage_canon  {t : State} (h : Canon t) : Canon (unloadImage t) := by
  unfold unloadImage; refine Canon.foldl _ (fun t a g => ?_) _ _ ?_ <;> (repeat' split) <;> simp (maxDischargeDepth := 9) [*]

@[simp] theorem cmdLoadImage_canon (a0) {t : State} (h : Canon t) : Canon (cmdLoadImage a0 t).endState := by
  unfold cmdLoadImage; simp (maxDischargeDepth := 9) [h]

@[simp] theorem cmdObjDefine_canon (a0) {t : State} (h : Canon t) : Canon (cmdObjDefine a0 t).endState := Canon.of_keeps ((cmdObjDefine_keeps a0 t (k := [.tier]) rfl).2 (Keeps.refl _ t)) rfl h

@[simp] theorem cmdPeal_canon (a0) {t : State} (h : Canon t) : Canon (cmdPeal a0 t).endState := Canon.of_keeps ((cmdPeal_keeps a0 t (k := [.rem, .launch]) rfl).2 (Keeps.refl _ t)) rfl h

@[simp] theorem cmdPin_canon (a0) {t : State} (h : Canon t) : Canon (cmdPin a0 t).endState := by
  unfold cmdPin; (repeat' split) <;> simp (maxDischargeDepth := 9) [h]

@[simp] theorem cmdPoolAlloc_canon (a0) {t : State} (h : Canon t) : Canon (cmdPoolAlloc a0 t).endState := Canon.of_keeps ((cmdPoolAlloc_keeps a0 t (k := [.pools]) rfl).2 (Keeps.refl _ t)) rfl h

@[simp] theorem cmdPoolConfig_canon (a0) {t : State} (h : Canon t) : Canon (cmdPoolConfig a0 t).endState := Canon.of_keeps ((cmdPoolConfig_keeps a0 t (k := [.pools]) rfl).2 (Keeps.refl _ t)) rfl h

@[simp] theorem cmdPoolGive_canon (a b) {t : State} (h : Canon t) : Canon ((cmdPoolGive a b t).endState) := by
  unfold cmdPoolGive
  dsimp only
  (repeat' split) <;> first
    | exact h
    | exact canon_set_pools h
    | exact applyPool_then_canon _ _ _ _ _ _ (by simp [h])

@[simp] theorem cmdPoolShare_canon (a0) {t : State} (h : Canon t) : Canon (cmdPoolShare a0 t).endState := Canon.of_keeps ((cmdPoolShare_keeps a0 t (k := [.pools]) rfl).2 (Keeps.refl _ t)) rfl h

@[simp] theorem cmdPoolStatus_canon (a0) {t : State} (h : Canon t) : Canon (cmdPoolStatus a0 t).endState := by
  unfold cmdPoolStatus; simp (maxDischargeDepth := 9) [h]

@[simp] theorem hbmRoute_canon (a0) (a1) {t : State} (h : Canon t) : Canon (hbmRoute a0 a1 t).2 := Canon.of_keeps ((hbmRoute_keeps a0 a1 t (k := [.time]) rfl).2 (Keeps.refl _ t)) rfl h

@[simp] theorem displace_canon (a0) (a1) {t : State} (h : Canon t) : Canon (displace a0 a1 t) := Canon.of_keeps ((displace_keeps a0 a1 t (k := [.tier]) rfl).2 (Keeps.refl _ t)) rfl h

@[simp] theorem putCopy_canon (a0) {t : State} (h : Canon t) : Canon (putCopy a0 t) := Canon.of_keeps ((putCopy_keeps a0 t (k := [.tier]) rfl).2 (Keeps.refl _ t)) rfl h

@[simp] theorem requestBuffer_canon (a0) {t : State} (h : Canon t) : Canon (requestBuffer a0 t) := Canon.of_keeps ((requestBuffer_keeps a0 t (k := [.tier, .pools]) rfl).2 (Keeps.refl _ t)) rfl h

@[simp] theorem startCopy_canon (a0) (a1) (a2) (a3) {t : State} (h : Canon t) : Canon (startCopy a0 a1 a2 a3 t) := Canon.of_keeps ((startCopy_keeps a0 a1 a2 a3 t (k := [.tier, .pools]) rfl).2 (Keeps.refl _ t)) rfl h

@[simp] theorem startPromotion_canon (a0) (a1) (a2) (a3) {t : State} (h : Canon t) : Canon (startPromotion a0 a1 a2 a3 t) := Canon.of_keeps ((startPromotion_keeps a0 a1 a2 a3 t (k := [.tier, .pools, .errs]) rfl).2 (Keeps.refl _ t)) rfl h

@[simp] theorem cmdPromote_canon (a0) {t : State} (h : Canon t) : Canon (cmdPromote a0 t).endState := Canon.of_keeps ((cmdPromote_keeps a0 t (k := [.tier, .pools, .time, .errs]) rfl).2 (Keeps.refl _ t)) rfl h

@[simp] theorem cmdSetConfig_canon (a0) {t : State} (h : Canon t) : Canon (cmdSetConfig a0 t).endState := by
  unfold cmdSetConfig; simp (maxDischargeDepth := 9) [h]

@[simp] theorem cmdTelSnapshot_canon (a0) {t : State} (h : Canon t) : Canon (cmdTelSnapshot a0 t).endState := by
  unfold cmdTelSnapshot; simp (maxDischargeDepth := 9) [h]

@[simp] theorem cmdTraceStart_canon (a0) {t : State} (h : Canon t) : Canon (cmdTraceStart a0 t).endState := Canon.of_keeps ((cmdTraceStart_keeps a0 t (k := [.dbg]) rfl).2 (Keeps.refl _ t)) rfl h

@[simp] theorem cmdTraceStatus_canon (a0) {t : State} (h : Canon t) : Canon (cmdTraceStatus a0 t).endState := Canon.of_keeps ((cmdTraceStatus_keeps a0 t (k := []) rfl).2 (Keeps.refl _ t)) rfl h

@[simp] theorem cmdTraceStop_canon (a0) {t : State} (h : Canon t) : Canon (cmdTraceStop a0 t).endState := Canon.of_keeps ((cmdTraceStop_keeps a0 t (k := [.dbg]) rfl).2 (Keeps.refl _ t)) rfl h

@[simp] theorem cmdTreeSet_canon (a0) {t : State} (h : Canon t) : Canon (cmdTreeSet a0 t).endState := Canon.of_keeps ((cmdTreeSet_keeps a0 t (k := [.launch]) rfl).2 (Keeps.refl _ t)) rfl h

@[simp] theorem cmdUnpin_canon (a0) {t : State} (h : Canon t) : Canon (cmdUnpin a0 t).endState := by
  unfold cmdUnpin; (repeat' split) <;> simp (maxDischargeDepth := 9) [h]

@[simp] theorem cmdWinClear_canon (a0) {t : State} (h : Canon t) : Canon (cmdWinClear a0 t).endState := Canon.of_keeps ((cmdWinClear_keeps a0 t (k := [.rem]) rfl).2 (Keeps.refl _ t)) rfl h

@[simp] theorem cmdWinRead_canon (a0) {t : State} (h : Canon t) : Canon (cmdWinRead a0 t).endState := by
  unfold cmdWinRead; simp (maxDischargeDepth := 9) [h]

@[simp] theorem cmdWinSet_canon (a0) {t : State} (h : Canon t) : Canon (cmdWinSet a0 t).endState := Canon.of_keeps ((cmdWinSet_keeps a0 t (k := [.rem]) rfl).2 (Keeps.refl _ t)) rfl h

@[simp] theorem failCopy_canon (a0) (a1) {t : State} (h : Canon t) : Canon (failCopy a0 a1 t) := by
  unfold failCopy; (repeat' split) <;> simp (maxDischargeDepth := 9) [h]

@[simp] theorem failPromotion_canon (a0) (a1) {t : State} (h : Canon t) : Canon (failPromotion a0 a1 t) := by
  unfold failPromotion; refine Canon.foldl _ (fun t a g => ?_) _ _ ?_ <;> (repeat' split) <;> simp (maxDischargeDepth := 9) [*]

@[simp] theorem settlePrefetches_canon  {t : State} (h : Canon t) : Canon (settlePrefetches t) := Canon.of_keeps ((settlePrefetches_keeps  t (k := [.cells]) rfl).2 (Keeps.refl _ t)) rfl h

@[simp] theorem takeDeferred_canon (a0) (a1) {t : State} (h : Canon t) : Canon (takeDeferred a0 a1 t).2 := Canon.of_keeps ((takeDeferred_keeps a0 a1 t (k := [.tier]) rfl).2 (Keeps.refl _ t)) rfl h

@[simp] theorem tryPromote_canon (a0) (a1) {t : State} (h : Canon t) : Canon (tryPromote a0 a1 t) := Canon.of_keeps ((tryPromote_keeps a0 a1 t (k := [.ctl, .tier, .pools, .rem, .time, .launch, .errs]) rfl).2 (Keeps.refl _ t)) rfl h

@[simp] theorem retryEnsures_canon  {t : State} (h : Canon t) : Canon (retryEnsures t) := Canon.of_keeps ((retryEnsures_keeps  t (k := [.cells, .ctl, .tier, .pools, .rem, .time, .launch, .errs]) rfl).2 (Keeps.refl _ t)) rfl h

@[simp] theorem noteCauses_canon {t : State} (h : Canon t) : Canon (noteCauses t) := Canon.of_keeps ((noteCauses_keeps t (k := [.cells]) rfl).2 (Keeps.refl _ t)) rfl h

@[simp] theorem failPromotions_canon (a) {t : State} (h : Canon t) : Canon (failPromotions a t) := by
  unfold failPromotions
  split
  · exact h
  · exact retryEnsures_canon (Canon.foldl _ (fun t x g => by simp [g]) _ _ h)

@[simp] theorem retireDie_canon (a0) {t : State} (h : Canon t) : Canon (retireDie a0 t) := by
  unfold retireDie; simp (maxDischargeDepth := 9) [h]

@[simp] theorem growBad_canon (a0) {t : State} (h : Canon t) : Canon (growBad a0 t) := by
  unfold growBad; simp (maxDischargeDepth := 9) [h]

@[simp] theorem ladderEffect_canon (a0) (a1) (a2) {t : State} (h : Canon t) : Canon (ladderEffect a0 a1 a2 t) := by
  unfold ladderEffect; simp only []; (repeat' split) <;> simp (maxDischargeDepth := 9) [h]

@[simp] theorem markReaders_canon (a0) (a1) {t : State} (h : Canon t) : Canon (markReaders a0 a1 t) := Canon.of_keeps ((markReaders_keeps a0 a1 t (k := [.tier]) rfl).2 (Keeps.refl _ t)) rfl h

@[simp] theorem codewordReadEffect_canon (a0) (a1) {t : State} (h : Canon t) : Canon (codewordReadEffect a0 a1 t) := by
  unfold codewordReadEffect; simp only []; (repeat' split) <;> simp (maxDischargeDepth := 9) [h]

@[simp] theorem mapFlight_canon (a0) (a1) (a2) {t : State} (h : Canon t) : Canon (mapFlight a0 a1 a2 t) := Canon.of_keeps ((mapFlight_keeps a0 a1 a2 t (k := [.cells]) rfl).2 (Keeps.refl _ t)) rfl h

@[simp] theorem sendRequest_canon (a0) (a1) (a2) (a3) {t : State} (h : Canon t) : Canon (sendRequest a0 a1 a2 a3 t) := Canon.of_keeps ((sendRequest_keeps a0 a1 a2 a3 t (k := [.rem]) rfl).2 (Keeps.refl _ t)) rfl h

@[simp] theorem sendMessage_canon (a0) (a1) (a2) (a3) (a4) (a5) {t : State} (h : Canon t) : Canon (sendMessage a0 a1 a2 a3 a4 a5 t) := Canon.of_keeps ((sendMessage_keeps a0 a1 a2 a3 a4 a5 t (k := [.rem, .dbg]) rfl).2 (Keeps.refl _ t)) rfl h

@[simp] theorem sendRanks_canon (a0) (a1) (a2) (a3) (a4) {t : State} (h : Canon t) : Canon (sendRanks a0 a1 a2 a3 a4 t) := Canon.of_keeps ((sendRanks_keeps a0 a1 a2 a3 a4 t (k := [.rem, .dbg]) rfl).2 (Keeps.refl _ t)) rfl h

@[simp] theorem collScatter_canon (a0) (a1) {t : State} (h : Canon t) : Canon (collScatter a0 a1 t).2 := Canon.of_keeps ((collScatter_keeps a0 a1 t (k := [.cells, .rem, .dbg]) rfl).2 (Keeps.refl _ t)) rfl h

@[simp] theorem collSum_canon (a0) (a1) {t : State} (h : Canon t) : Canon (collSum a0 a1 t) := by
  unfold collSum; simp (maxDischargeDepth := 9) [h]

@[simp] theorem taskReads_canon (a0) (a1) (a2) (a3) {t : State} (h : Canon t) : Canon (taskReads a0 a1 a2 a3 t).2 := by
  unfold taskReads; dsimp only; split <;> simp (maxDischargeDepth := 9) [h]

@[simp] theorem collectiveSumEffect_canon (a0) (a1) (a2) {t : State} (h : Canon t) : Canon (collectiveSumEffect a0 a1 a2 t) := by
  unfold collectiveSumEffect; simp only []; (repeat' split) <;> simp (maxDischargeDepth := 9) [h]

@[simp] theorem raiseUnmet_canon  {t : State} (h : Canon t) : Canon (raiseUnmet t) := Canon.of_keeps ((raiseUnmet_keeps  t (k := [.mgmt]) rfl).2 (Keeps.refl _ t)) rfl h

@[simp] theorem commandVsram_canon (a0) (a1) {t : State} (h : Canon t) : Canon (commandVsram a0 a1 t) := Canon.of_keeps ((commandVsram_keeps a0 a1 t (k := [.mgmt]) rfl).2 (Keeps.refl _ t)) rfl h

@[simp] theorem commandVcore_canon (a0) (a1) {t : State} (h : Canon t) : Canon (commandVcore a0 a1 t) := Canon.of_keeps ((commandVcore_keeps a0 a1 t (k := [.mgmt]) rfl).2 (Keeps.refl _ t)) rfl h

@[simp] theorem dropFlight_canon (a0) (a1) {t : State} (h : Canon t) : Canon (dropFlight a0 a1 t) := Canon.of_keeps ((dropFlight_keeps a0 a1 t (k := [.cells]) rfl).2 (Keeps.refl _ t)) rfl h

@[simp] theorem traceEvent_canon (a0) (a1) (a2) {t : State} (h : Canon t) : Canon (traceEvent a0 a1 a2 t) := by
  unfold traceEvent; (repeat' split) <;> simp (maxDischargeDepth := 9) [h]

@[simp] theorem completeTask_canon (a0) (a1) {t : State} (h : Canon t) : Canon (completeTask a0 a1 t) := by
  unfold completeTask; (repeat' split) <;> simp (maxDischargeDepth := 9) [h]

@[simp] theorem copyUncorrectable_canon (a0) {t : State} (h : Canon t) : Canon (copyUncorrectable a0 t) := by
  unfold copyUncorrectable; (repeat' split) <;> simp (maxDischargeDepth := 9) [h]

@[simp] theorem countBodies_canon (a0) (a1) (a2) (a3) {t : State} (h : Canon t) : Canon (countBodies a0 a1 a2 a3 t) := Canon.of_keeps ((countBodies_keeps a0 a1 a2 a3 t (k := [.dbg]) rfl).2 (Keeps.refl _ t)) rfl h

@[simp] theorem countCompares_canon (a0) (a1) (a2) {t : State} (h : Canon t) : Canon (countCompares a0 a1 a2 t) := Canon.of_keeps ((countCompares_keeps a0 a1 a2 t (k := [.dbg]) rfl).2 (Keeps.refl _ t)) rfl h

@[simp] theorem countFec_canon  {t : State} (h : Canon t) : Canon (countFec t) := Canon.of_keeps ((countFec_keeps  t (k := [.fab]) rfl).2 (Keeps.refl _ t)) rfl h

@[simp] theorem countMoved_canon (a0) (a1) {t : State} (h : Canon t) : Canon (countMoved a0 a1 t) := Canon.of_keeps ((countMoved_keeps a0 a1 t (k := [.dbg]) rfl).2 (Keeps.refl _ t)) rfl h

@[simp] theorem countPeriod_canon  {t : State} (h : Canon t) : Canon (countPeriod t) := Canon.of_keeps ((countPeriod_keeps  t (k := [.time]) rfl).2 (Keeps.refl _ t)) rfl h

@[simp] theorem countTarget_canon (a0) (a1) {t : State} (h : Canon t) : Canon (countTarget a0 a1 t) := Canon.of_keeps ((countTarget_keeps a0 a1 t (k := [.ctr, .ctl, .rem, .launch, .dbg]) rfl).2 (Keeps.refl _ t)) rfl h

@[simp] theorem putAPlane_canon (a b c d e) {t : State} (h : Canon t) : Canon (putAPlane a b c d e t) := by
  unfold putAPlane
  exact Canon.foldl _ (fun t a g => Canon.foldl _ (fun t a g => canon_set_mem g (by simp [g])) _ _ g) _ _ h

@[simp] theorem putUnit_canon (a b c d e f g) {t : State} (h : Canon t) : Canon (putUnit a b c d e f g t) := by
  unfold putUnit; exact canon_set_mem h (by simp [h])

@[simp] theorem putBPlane_canon (a b c d e) {t : State} (h : Canon t) : Canon (putBPlane a b c d e t) := by
  unfold putBPlane
  exact Canon.foldl _ (fun t a g => Canon.foldl _ (fun t a g => by simp [g]) _ _ g) _ _ h

@[simp] theorem putConverted_canon (a0) (a1) (a2) {t : State} (h : Canon t) : Canon (putConverted a0 a1 a2 t) := by
  unfold putConverted; simp (maxDischargeDepth := 9) [h]

@[simp] theorem putLinear_canon (a0) (a1) (a2) {t : State} (h : Canon t) : Canon (putLinear a0 a1 a2 t) := by
  fun_induction putLinear a0 a1 a2 t <;> simp_all (maxDischargeDepth := 9)

@[simp] theorem healWhere_canon (a0) {t : State} (h : Canon t) : Canon (healWhere a0 t) := Canon.of_keeps ((healWhere_keeps a0 t (k := [.errs]) rfl).2 (Keeps.refl _ t)) rfl h

@[simp] theorem cpWork_canon (a0) (a1) {t : State} (h : Canon t) : Canon (cpWork a0 a1 t).2 := by
  unfold cpWork; simp only []; (repeat' split) <;> simp (maxDischargeDepth := 9) [h]

@[simp] theorem settleAbortJob_canon  {t : State} (h : Canon t) : Canon (settleAbortJob t) := by
  unfold settleAbortJob; simp (maxDischargeDepth := 9) [h]

@[simp] theorem decisionPointEffect_canon  {t : State} (h : Canon t) : Canon (decisionPointEffect t) := by
  unfold decisionPointEffect; simp only []; (repeat' split) <;> simp (maxDischargeDepth := 9) [h]

@[simp] theorem deferredRoute_canon (a0) {t : State} (h : Canon t) : Canon (deferredRoute a0 t).2.2 := Canon.of_keeps ((deferredRoute_keeps a0 t (k := [.time]) rfl).2 (Keeps.refl _ t)) rfl h

@[simp] theorem fetchArmed_canon (a0) (a1) (a2) {t : State} (h : Canon t) : Canon (fetchArmed a0 a1 a2 t) := Canon.of_keeps ((fetchArmed_keeps a0 a1 a2 t (k := [.cells, .ctl]) rfl).2 (Keeps.refl _ t)) rfl h

@[simp] theorem fetchRun_canon (a0) (a1) (a2) {t : State} (h : Canon t) : Canon (fetchRun a0 a1 a2 t) := Canon.of_keeps ((fetchRun_keeps a0 a1 a2 t (k := [.cells, .ctl, .rem, .launch]) rfl).2 (Keeps.refl _ t)) rfl h

@[simp] theorem settleCell_canon (a0) {t : State} (h : Canon t) : Canon (settleCell a0 t) := Canon.of_keeps ((settleCell_keeps a0 t (k := [.cells, .ctl]) rfl).2 (Keeps.refl _ t)) rfl h

@[simp] theorem settleDrain_canon  {t : State} (h : Canon t) : Canon (settleDrain t) := Canon.of_keeps ((settleDrain_keeps  t (k := [.ctl, .time]) rfl).2 (Keeps.refl _ t)) rfl h

@[simp] theorem descriptorFetchEffect_canon (a0) {t : State} (h : Canon t) : Canon (descriptorFetchEffect a0 t) := Canon.of_keeps ((descriptorFetchEffect_keeps a0 t (k := [.cells, .ctl, .rem, .time, .launch]) rfl).2 (Keeps.refl _ t)) rfl h

@[simp] theorem dieRetireEffect_canon (a0) {t : State} (h : Canon t) : Canon (dieRetireEffect a0 t) := by
  unfold dieRetireEffect; simp (maxDischargeDepth := 9) [h]

@[simp] theorem leaveService_canon (a0) (a1) (a2) {t : State} (h : Canon t) : Canon (leaveService a0 a1 a2 t) := Canon.of_keeps ((leaveService_keeps a0 a1 a2 t (k := [.fab, .errs]) rfl).2 (Keeps.refl _ t)) rfl h

@[simp] theorem disablePort_canon (a0) {t : State} (h : Canon t) : Canon (disablePort a0 t) := Canon.of_keeps ((disablePort_keeps a0 t (k := [.fab, .time, .errs]) rfl).2 (Keeps.refl _ t)) rfl h

@[simp] theorem disarmEffect_canon (a0) {t : State} (h : Canon t) : Canon (disarmEffect a0 t) := Canon.of_keeps ((disarmEffect_keeps a0 t (k := [.rem, .launch, .errs]) rfl).2 (Keeps.refl _ t)) rfl h

@[simp] theorem halfOf_canon (a0) {t : State} (h : Canon t) : Canon (halfOf a0 t).2 := Canon.of_keeps ((halfOf_keeps a0 t (k := [.time]) rfl).2 (Keeps.refl _ t)) rfl h

@[simp] theorem takeOffset_canon (a0) {t : State} (h : Canon t) : Canon (takeOffset a0 t) := Canon.of_keeps ((takeOffset_keeps a0 t (k := [.time, .errs]) rfl).2 (Keeps.refl _ t)) rfl h

@[simp] theorem disciplined_canon (a0) {t : State} (h : Canon t) : Canon (disciplined a0 t) := Canon.of_keeps ((disciplined_keeps a0 t (k := [.time, .errs]) rfl).2 (Keeps.refl _ t)) rfl h

@[simp] theorem dropDie_canon (a0) {t : State} (h : Canon t) : Canon (dropDie a0 t) := Canon.of_keeps ((dropDie_keeps a0 t (k := [.errs]) rfl).2 (Keeps.refl _ t)) rfl h

@[simp] theorem dropDoomed_canon (a0) (a1) {t : State} (h : Canon t) : Canon (dropDoomed a0 a1 t) := by
  unfold dropDoomed; simp (maxDischargeDepth := 9) [h]

@[simp] theorem dropUnsent_canon  {t : State} (h : Canon t) : Canon (dropUnsent t) := Canon.of_keeps ((dropUnsent_keeps  t (k := [.rem]) rfl).2 (Keeps.refl _ t)) rfl h

@[simp] theorem e2eRetryEffect_canon (a0) (a1) {t : State} (h : Canon t) : Canon (e2eRetryEffect a0 a1 t) := Canon.of_keeps ((e2eRetryEffect_keeps a0 a1 t (k := [.ctl, .rem, .launch, .errs]) rfl).2 (Keeps.refl _ t)) rfl h

@[simp] theorem writeBootDoorbell_canon (a0) {t : State} (h : Canon t) : Canon (writeBootDoorbell a0 t) := by
  unfold writeBootDoorbell; simp (maxDischargeDepth := 9) [h]

@[simp] theorem writeBootSram_canon (a0) (a1) {t : State} (h : Canon t) : Canon (writeBootSram a0 a1 t) := by
  unfold writeBootSram; simp (maxDischargeDepth := 9) [h]

@[simp] theorem writeClBusy_canon (a0) (a1) {t : State} (h : Canon t) : Canon (writeClBusy a0 a1 t) := by
  unfold writeClBusy; simp (maxDischargeDepth := 9) [h]

@[simp] theorem writeClPerfSel_canon (a0) (a1) {t : State} (h : Canon t) : Canon (writeClPerfSel a0 a1 t) := by
  unfold writeClPerfSel; simp (maxDischargeDepth := 9) [h]

@[simp] theorem loadRecordEffect_canon (a0) {t : State} (h : Canon t) : Canon (loadRecordEffect a0 t) := by
  unfold loadRecordEffect; simp (maxDischargeDepth := 9) [h]

@[simp] theorem writeCmdDoorbell_canon (a0) {t : State} (h : Canon t) : Canon (writeCmdDoorbell a0 t) := by
  unfold writeCmdDoorbell; simp (maxDischargeDepth := 9) [h]

@[simp] theorem writeCplHead_canon (a0) {t : State} (h : Canon t) : Canon (writeCplHead a0 t) := by
  unfold writeCplHead; simp (maxDischargeDepth := 9) [h]

@[simp] theorem writeEvtClear_canon (a0) {t : State} (h : Canon t) : Canon (writeEvtClear a0 t) := by
  unfold writeEvtClear; simp (maxDischargeDepth := 9) [h]

@[simp] theorem writeEvtEnable_canon (a0) {t : State} (h : Canon t) : Canon (writeEvtEnable a0 t) := by
  unfold writeEvtEnable; simp (maxDischargeDepth := 9) [h]

@[simp] theorem writeEvtHead_canon (a0) {t : State} (h : Canon t) : Canon (writeEvtHead a0 t) := by
  unfold writeEvtHead; simp (maxDischargeDepth := 9) [h]

@[simp] theorem fullReset_canon (a : Nat) {t : State} (h : Canon t) : Canon (fullReset a t) :=
  ⟨memWf_hostMemory h.mem, rfl, rfl, rfl⟩

@[simp] theorem requestReset_canon (a0) {t : State} (h : Canon t) : Canon (requestReset a0 t) := by
  unfold requestReset; (repeat' split) <;> simp (maxDischargeDepth := 9) [h]

@[simp] theorem writeResetCtl_canon (a0) {t : State} (h : Canon t) : Canon (writeResetCtl a0 t) := by
  unfold writeResetCtl; (repeat' split) <;> simp (maxDischargeDepth := 9) [h]

@[simp] theorem writeRptHead_canon (a0) {t : State} (h : Canon t) : Canon (writeRptHead a0 t) := by
  unfold writeRptHead; simp (maxDischargeDepth := 9) [h]

@[simp] theorem writeTmxCtl_canon (a0) {t : State} (h : Canon t) : Canon (writeTmxCtl a0 t) := by
  unfold writeTmxCtl; simp (maxDischargeDepth := 9) [h]

@[simp] theorem writeTmxSel_canon (a0) (a1) {t : State} (h : Canon t) : Canon (writeTmxSel a0 a1 t) := Canon.of_keeps ((writeTmxSel_keeps a0 a1 t (k := [.dbg]) rfl).2 (Keeps.refl _ t)) rfl h

@[simp] theorem ecsWriteWord_canon (a b) {t : State} (h : Canon t) : Canon (ecsWriteWord a b t) := by
  unfold ecsWriteWord
  exact canon_ite (writeEvtClear_canon _ h) (canon_ite (writeEvtEnable_canon _ h) (canon_ite (writeResetCtl_canon _ h)
    (canon_ite (writeBootDoorbell_canon _ h) (canon_ite (writeCmdDoorbell_canon _ h) (canon_ite (writeCplHead_canon _ h)
    (canon_ite (writeEvtHead_canon _ h) (canon_ite (writeRptHead_canon _ h) (canon_ite (writeTmxSel_canon _ _ h)
    (canon_ite (writeTmxCtl_canon _ h) (canon_ite (canon_ite (writeClPerfSel_canon _ _ h)
    (canon_ite (writeClBusy_canon _ _ h) h)) (canon_ite (writeBootSram_canon _ _ h) h)))))))))))

@[simp] theorem ecsWriteBytes_canon (a0) (a1) {t : State} (h : Canon t) : Canon (ecsWriteBytes a0 a1 t) := by
  unfold ecsWriteBytes; simp (maxDischargeDepth := 9) [h]

@[simp] theorem settlePort_canon (a0) (a2) {t : State} (h : Canon t) : Canon (settlePort a0 t a2) := Canon.of_keeps ((settlePort_keeps a0 a2 t (k := [.fab, .time, .errs]) rfl).2 (Keeps.refl _ t)) rfl h

@[simp] theorem settlePorts_canon (a0) {t : State} (h : Canon t) : Canon (settlePorts a0 t) := Canon.of_keeps ((settlePorts_keeps a0 t (k := [.fab, .time, .errs]) rfl).2 (Keeps.refl _ t)) rfl h

@[simp] theorem enterFirmwareInit_canon (a : SignedImage) {t : State} (h : Canon t) : Canon (enterFirmwareInit a t) := by
  unfold enterFirmwareInit
  exact settlePorts_canon _ (canon_set_mb (canon_set_boot h h.sram) rfl)

@[simp] theorem entryFaults_canon (a0) (a1) {t : State} (h : Canon t) : Canon (entryFaults a0 a1 t) := Canon.of_keeps ((entryFaults_keeps a0 a1 t (k := [.ctl, .rem, .launch]) rfl).2 (Keeps.refl _ t)) rfl h

@[simp] theorem openQueues_canon  {t : State} (h : Canon t) : Canon (openQueues t) := Canon.of_keeps ((openQueues_keeps  t (k := [.cells, .ctl, .time]) rfl).2 (Keeps.refl _ t)) rfl h

@[simp] theorem resetCounters_canon (a0) {t : State} (h : Canon t) : Canon (resetCounters a0 t) := Canon.of_keeps ((resetCounters_keeps a0 t (k := [.ctr, .ctl, .rem, .launch]) rfl).2 (Keeps.refl _ t)) rfl h

@[simp] theorem fillAnswers_canon (a b) {t : State} (h : Canon t) : Canon (fillAnswers a b t) := by
  unfold fillAnswers
  exact addStepCount_canon _ _ (canon_set_mem h (memWf_foldl _ (fun m b w => by simp [w]) _ _ h.mem))

@[simp] theorem tallyAnswers_canon (a0) (a1) {t : State} (h : Canon t) : Canon (tallyAnswers a0 a1 t) := by
  unfold tallyAnswers; simp (maxDischargeDepth := 9) [h]

@[simp] theorem placeMessage_canon (a) {t : State} (h : Canon t) : Canon (placeMessage a t) := by
  unfold placeMessage
  dsimp only
  split
  · simp [h]
  · exact Canon.foldl _ (fun t x g => by simp [g]) _ _ (by simp [h])

@[simp] theorem settleEarly_canon (a0) {t : State} (h : Canon t) : Canon (settleEarly a0 t) := by
  unfold settleEarly; refine Canon.foldl _ (fun t a g => ?_) _ _ ?_ <;> (repeat' split) <;> simp (maxDischargeDepth := 9) [*]

@[simp] theorem enterRunning_canon (a0) (a1) (a2) {t : State} (h : Canon t) : Canon (enterRunning a0 a1 a2 t) := by
  unfold enterRunning; simp (maxDischargeDepth := 9) [h]

theorem enterOrWait_canon (g : GStep) (f : State → Nat × State) {t : State} (c : Canon t) (h : ∀ u, Canon u → Canon (f u).2) :
    Canon (enterOrWait g f t) := by
  unfold enterOrWait
  (repeat' split) <;> first
    | exact c
    | exact enterRunning_canon _ _ _ (h _ c)
    | exact canon_set_ctl c

@[simp] theorem evictionEndEffect_canon (a0) (a1) {t : State} (h : Canon t) : Canon (evictionEndEffect a0 a1 t) := by
  unfold evictionEndEffect; (repeat' split) <;> simp (maxDischargeDepth := 9) [h]

theorem runCmd_canon (meant : Cmd → Bool) (body : Cmd → State → CmdEnd) {t : State} (c : Canon t)
    (h : ∀ c u, Canon u → Canon (body c u).endState) : Canon (runCmd meant body t) := by
  unfold runCmd
  split
  · exact c
  · next x _ =>
    split
    · have a := h x { t with mb := { t.mb with cmdHead := t.mb.cmdHead + 1 } } (canon_set_mb c c.ram)
      simp only [] at a ⊢
      split
      · next st res u e =>
        rw [e] at a
        split
        · exact c
        · exact postCpl_canon _ _ _ _ _ a
      · next o u e =>
        rw [e] at a
        exact canon_set_mb a a.ram
    · exact c

theorem runPlain_canon (op : Nat) (body : Cmd → State → CmdEnd) {t : State} (c : Canon t)
    (h : ∀ c u, Canon u → Canon (body c u).endState) : Canon (runPlain op body t) := by
  unfold runPlain
  exact runCmd_canon _ _ c h

@[simp] theorem stoppingRead_canon (a0) (a1) (a2) {t : State} (h : Canon t) : Canon (stoppingRead a0 a1 a2 t) := by
  unfold stoppingRead; (repeat' split) <;> simp (maxDischargeDepth := 9) [h]

theorem issueTask_canon (cls : Nat) (meant : Desc → Bool)
    (reads : Nat → Desc → State → Nat → Nat → Bool) (work : Nat → Desc → State → TaskEnd × State) (cell : Nat) (hl : Health) {t : State} (c : Canon t) (h : ∀ c d u, Canon u → Canon (work c d u).2) :
    Canon (issueTask cls meant reads work cell hl t) := by
  unfold issueTask
  split
  · exact stoppingRead_canon _ _ _ c
  · dsimp only
    refine settleDrain_canon (settleCell_canon _ ?_)
    split
    · simp (maxDischargeDepth := 9) [c]
    · split
      · split
        · exact mapFlight_canon _ _ _ (h _ _ _ (by simp (maxDischargeDepth := 9) [c]))
        · exact h _ _ _ (by simp (maxDischargeDepth := 9) [c])
      · simp (maxDischargeDepth := 9) [c]

@[simp] theorem rtAccept_canon (a b) {t : State} (h : Canon t) : Canon ((rtAccept a b t).2) := by
  unfold rtAccept
  dsimp only
  (repeat' split) <;> first
    | (simp [h]; done)
    | exact Canon.foldl _ (fun t x g => by simp [g]) _ _ h

@[simp] theorem park_canon (a0) (a1) {t : State} (h : Canon t) : Canon (park a0 a1 t) := Canon.of_keeps ((park_keeps a0 a1 t (k := [.fab]) rfl).2 (Keeps.refl _ t)) rfl h

theorem receive_canon (op : Nat) (ll : Bool) (f : Option Nat) (p : Packet) (g : State → State) {t : State} (c : Canon t)
    (h : ∀ u, Canon u → Canon (g u)) : Canon (receive op ll f p g t) := by
  unfold receive
  split
  · exact c
  · next u he =>
    have b := arrive_canon he c
    have a := leaveBuffer_canon f p b
    (repeat' split) <;> first | exact h _ a | exact park_canon _ _ b | exact c | exact addCount_canon _ _ a

theorem issueVx_canon (op : Nat) (f : VxRun → TaskEnd × State) (cell : Nat) (hl : Health) {t : State} (c : Canon t)
    (h : ∀ x, Canon x.s → Canon (f x).2) : Canon (issueVx op f cell hl t) :=
  issueTask_canon _ _ _ _ _ _ c fun c d u g => h ⟨c, _, u⟩ g

@[simp] theorem receiveRequest_canon (a b c) {t : State} (h : Canon t) : Canon (receiveRequest a b c t) := by
  unfold receiveRequest
  split
  · exact h
  · next u he =>
    have a := arrive_canon he h
    (repeat' split) <;> first
      | exact h
      | (simp (maxDischargeDepth := 9) [a]; done)

@[simp] theorem placeAnswer_canon (a0) (a1) {t : State} (h : Canon t) : Canon (placeAnswer a0 a1 t) := by
  unfold placeAnswer; (repeat' split) <;> simp (maxDischargeDepth := 9) [h]

theorem maybeLate_canon (e : CmdEnd) (h : Canon e.endState) : Canon (maybeLate e).endState := by
  cases e
  · unfold maybeLate
    dsimp only [endState_done] at h ⊢
    split <;> simp [h]
  · exact h
theorem runLong_canon (op : Nat) (body : Cmd → State → CmdEnd) {t : State} (c : Canon t)
    (h : ∀ c u, Canon u → Canon (body c u).endState) : Canon (runLong op body t) := by
  unfold runLong
  exact runCmd_canon _ _ c fun x u g => maybeLate_canon _ (h x u g)

@[simp] theorem refuseMgmt_canon (a0) {t : State} (h : Canon t) : Canon (refuseMgmt a0 t).2.2 := Canon.of_keeps ((refuseMgmt_keeps a0 t (k := []) rfl).2 (Keeps.refl _ t)) rfl h

@[simp] theorem mgmtAttestRead_canon (a0) {t : State} (h : Canon t) : Canon (mgmtAttestRead a0 t).2.2 := Canon.of_keeps ((mgmtAttestRead_keeps a0 t (k := []) rfl).2 (Keeps.refl _ t)) rfl h

@[simp] theorem mgmtRespond_canon (a0) (a1) (a2) {t : State} (h : Canon t) : Canon (mgmtRespond a0 a1 a2 t) := Canon.of_keeps ((mgmtRespond_keeps a0 a1 a2 t (k := [.mgmt]) rfl).2 (Keeps.refl _ t)) rfl h

theorem serveMgmt_canon (meant : Nat → Bool) (n : Nat) (body : MgmtBody) (q : MgmtReq) {t : State} (c : Canon t)
    (h : ∀ u, Canon u → Canon (body q u).2.2) : Canon (serveMgmt meant n body q t) := by
  unfold serveMgmt
  (repeat' split) <;> simp [c, h]

theorem takeFrame_canon (via : MgmtVia) (f : State → State) {t : State} (c : Canon t)
    (h : ∀ u, Canon u → Canon (f u)) : Canon (takeFrame via f t) := by
  unfold takeFrame
  (repeat' split) <;> first | exact h _ c | exact c

theorem runMgmt_canon (meant : Nat → Bool) (n : Nat) (body : MgmtBody) (q : MgmtReq) {t : State} (c : Canon t)
    (h : ∀ u, Canon u → Canon (body q u).2.2) : Canon (runMgmt meant n body q t) := by
  unfold runMgmt
  split
  · exact takeFrame_canon _ _ c fun u g => serveMgmt_canon _ _ _ _ g h
  · exact c

theorem runSerial_canon (op : Nat) (body : Cmd → State → CmdEnd) {t : State} (c : Canon t)
    (h : ∀ c u, Canon u → Canon (body c u).endState) : Canon (runSerial op body t) := by
  unfold runSerial
  split
  · exact runCmd_canon _ _ c h
  · exact c

@[simp] theorem loadIr_canon (a0) {t : State} (h : Canon t) : Canon (loadIr a0 t) := Canon.of_keeps ((loadIr_keeps a0 t (k := [.dbg]) rfl).2 (Keeps.refl _ t)) rfl h

@[simp] theorem noteEntryStep_canon (a0) {t : State} (h : Canon t) : Canon (noteEntryStep a0 t) := Canon.of_keeps ((noteEntryStep_keeps a0 t (k := [.ctl]) rfl).2 (Keeps.refl _ t)) rfl h

@[simp] theorem putMsg_canon (a0) {t : State} (h : Canon t) : Canon (putMsg a0 t) := Canon.of_keeps ((putMsg_keeps a0 t (k := [.exch]) rfl).2 (Keeps.refl _ t)) rfl h

@[simp] theorem placeCollective_canon (a0) {t : State} (h : Canon t) : Canon (placeCollective a0 t) := by
  unfold placeCollective; simp only []; (repeat' split) <;> simp (maxDischargeDepth := 9) [h]

@[simp] theorem sendCum_canon (a0) {t : State} (h : Canon t) : Canon (sendCum a0 t) := Canon.of_keeps ((sendCum_keeps a0 t (k := [.rem]) rfl).2 (Keeps.refl _ t)) rfl h

@[simp] theorem tqWork_canon (a0) (a1) {t : State} (h : Canon t) : Canon (tqWork a0 a1 t).2 := Canon.of_keeps ((tqWork_keeps a0 a1 t (k := [.cells, .ctl, .tier, .pools, .rem, .time, .launch, .errs]) rfl).2 (Keeps.refl _ t)) rfl h

@[simp] theorem placeExchange_canon (a0) {t : State} (h : Canon t) : Canon (placeExchange a0 t) := Canon.of_keeps ((placeExchange_keeps a0 t (k := [.ctl, .exch, .rem, .launch]) rfl).2 (Keeps.refl _ t)) rfl h

@[simp] theorem sealDoneEffect_canon (a0) {t : State} (h : Canon t) : Canon (sealDoneEffect a0 t) := by
  unfold sealDoneEffect; (repeat' split) <;> simp (maxDischargeDepth := 9) [h]

@[simp] theorem firmwareVerifyEffect_canon  {t : State} (h : Canon t) : Canon (firmwareVerifyEffect t) := by
  unfold firmwareVerifyEffect; simp only []; (repeat' split) <;> simp (maxDischargeDepth := 9) [h]

@[simp] theorem faultWhile_canon (a0) (a1) {t : State} (h : Canon t) : Canon (faultWhile a0 a1 t) := by
  unfold faultWhile; simp (maxDischargeDepth := 9) [h]

@[simp] theorem formatDoneEffect_canon (a0) {t : State} (h : Canon t) : Canon (formatDoneEffect a0 t) := by
  unfold formatDoneEffect; simp (maxDischargeDepth := 9) [h]

theorem fmGuard_canon (a n : Nat) (f : State → State) {t : State} (c : Canon t) (h : ∀ u, Canon u → Canon (f u)) :
    Canon (fmGuard a n f t).2 := by
  unfold fmGuard
  split
  · exact h _ c
  · simp [c]

@[simp] theorem fmAtomic_canon (a0) (a1) {t : State} (h : Canon t) : Canon (fmAtomic a0 a1 t).2 := Canon.of_keeps ((fmAtomic_keeps a0 a1 t (k := [.ctl, .rem, .launch]) rfl).2 (Keeps.refl _ t)) rfl h

theorem issueFm_canon (op : Nat) (work : Nat → Desc → State → TaskEnd × State) (cell : Nat) (hl : Health) {t : State}
    (c : Canon t) (h : ∀ c d u, Canon u → Canon (work c d u).2) : Canon (issueFm op work cell hl t) :=
  issueTask_canon _ _ _ _ _ _ c h

@[simp] theorem fmFlagStore_canon (a0) (a1) {t : State} (h : Canon t) : Canon (fmFlagStore a0 a1 t).2 := Canon.of_keeps ((fmFlagStore_keeps a0 a1 t (k := [.ctl, .rem, .launch]) rfl).2 (Keeps.refl _ t)) rfl h

@[simp] theorem sendEach_canon (a0) (a1) (a2) (a3) {t : State} (h : Canon t) : Canon (sendEach a0 a1 a2 a3 t) := Canon.of_keeps ((sendEach_keeps a0 a1 a2 a3 t (k := [.rem]) rfl).2 (Keeps.refl _ t)) rfl h

@[simp] theorem fmGet_canon (a0) (a1) {t : State} (h : Canon t) : Canon (fmGet a0 a1 t).2 := Canon.of_keeps ((fmGet_keeps a0 a1 t (k := [.ctl, .rem, .launch]) rfl).2 (Keeps.refl _ t)) rfl h

@[simp] theorem fmLoad_canon (a0) (a1) {t : State} (h : Canon t) : Canon (fmLoad a0 a1 t).2 := Canon.of_keeps ((fmLoad_keeps a0 a1 t (k := [.ctl, .rem, .launch]) rfl).2 (Keeps.refl _ t)) rfl h

@[simp] theorem fmPut_canon (a0) (a1) {t : State} (h : Canon t) : Canon (fmPut a0 a1 t).2 := Canon.of_keeps ((fmPut_keeps a0 a1 t (k := [.ctl, .rem, .launch]) rfl).2 (Keeps.refl _ t)) rfl h

@[simp] theorem fmStore_canon (a0) (a1) {t : State} (h : Canon t) : Canon (fmStore a0 a1 t).2 := Canon.of_keeps ((fmStore_keeps a0 a1 t (k := [.ctl, .rem, .launch]) rfl).2 (Keeps.refl _ t)) rfl h

@[simp] theorem noteNeighbour_canon (a0) (a1) {t : State} (h : Canon t) : Canon (noteNeighbour a0 a1 t) := Canon.of_keeps ((noteNeighbour_keeps a0 a1 t (k := [.time, .errs]) rfl).2 (Keeps.refl _ t)) rfl h

@[simp] theorem followEffect_canon (a0) (a1) {t : State} (h : Canon t) : Canon (followEffect a0 a1 t) := Canon.of_keeps ((followEffect_keeps a0 a1 t (k := [.time, .errs]) rfl).2 (Keeps.refl _ t)) rfl h

@[simp] theorem forwardEffect_canon (a0) (a1) {t : State} (h : Canon t) : Canon (forwardEffect a0 a1 t) := Canon.of_keeps ((forwardEffect_keeps a0 a1 t (k := [.rem, .fab, .errs]) rfl).2 (Keeps.refl _ t)) rfl h

@[simp] theorem placeGet_canon (a0) (a1) {t : State} (h : Canon t) : Canon (placeGet a0 a1 t) := by
  unfold placeGet; (repeat' split) <;> simp (maxDischargeDepth := 9) [h]

@[simp] theorem mgmtGetSnapshot_canon (a0) {t : State} (h : Canon t) : Canon (mgmtGetSnapshot a0 t).2.2 := Canon.of_keeps ((mgmtGetSnapshot_keeps a0 t (k := []) rfl).2 (Keeps.refl _ t)) rfl h

@[simp] theorem mgmtGetState_canon (a0) {t : State} (h : Canon t) : Canon (mgmtGetState a0 t).2.2 := Canon.of_keeps ((mgmtGetState_keeps a0 t (k := []) rfl).2 (Keeps.refl _ t)) rfl h

@[simp] theorem holdReport_canon (a0) {t : State} (h : Canon t) : Canon (holdReport a0 t) := by
  unfold holdReport; simp (maxDischargeDepth := 9) [h]

@[simp] theorem keepRun_canon (a0) (a1) {t : State} (h : Canon t) : Canon (keepRun a0 a1 t) := Canon.of_keeps ((keepRun_keeps a0 a1 t (k := [.ctl]) rfl).2 (Keeps.refl _ t)) rfl h

@[simp] theorem latchWindows_canon  {t : State} (h : Canon t) : Canon (latchWindows t) := by
  unfold latchWindows; refine Canon.foldl _ (fun t a g => ?_) _ _ ?_ <;> (repeat' split) <;> simp (maxDischargeDepth := 9) [*]

@[simp] theorem releaseHolds_canon  {t : State} (h : Canon t) : Canon (releaseHolds t) := Canon.of_keeps ((releaseHolds_keeps  t (k := [.tier]) rfl).2 (Keeps.refl _ t)) rfl h

@[simp] theorem sendCums_canon  {t : State} (h : Canon t) : Canon (sendCums t) := Canon.of_keeps ((sendCums_keeps  t (k := [.rem]) rfl).2 (Keeps.refl _ t)) rfl h

@[simp] theorem tableSwap_canon  {t : State} (h : Canon t) : Canon (tableSwap t) := Canon.of_keeps ((tableSwap_keeps  t (k := [.fab, .time, .errs]) rfl).2 (Keeps.refl _ t)) rfl h

@[simp] theorem latchEffects_canon (a0) {t : State} (h : Canon t) : Canon (latchEffects a0 t) := by
  unfold latchEffects; simp (maxDischargeDepth := 9) [h]

@[simp] theorem latchArmed_canon (a0) {t : State} (h : Canon t) : Canon (latchArmed a0 t) := by
  unfold latchArmed; (repeat' split) <;> simp (maxDischargeDepth := 9) [h]

@[simp] theorem obeyGong_canon (a0) {t : State} (h : Canon t) : Canon (obeyGong a0 t) := by
  unfold obeyGong; simp only []; (repeat' split) <;> simp (maxDischargeDepth := 9) [h]

@[simp] theorem gongEffect_canon (a0) (a1) {t : State} (h : Canon t) : Canon (gongEffect a0 a1 t) := by
  unfold gongEffect; simp (maxDischargeDepth := 9) [h]

@[simp] theorem raiseSetpoints_canon (a0) (a1) {t : State} (h : Canon t) : Canon (raiseSetpoints a0 a1 t) := Canon.of_keeps ((raiseSetpoints_keeps a0 a1 t (k := [.mgmt]) rfl).2 (Keeps.refl _ t)) rfl h

@[simp] theorem lowerSetpoints_canon (a0) (a1) {t : State} (h : Canon t) : Canon (lowerSetpoints a0 a1 t) := Canon.of_keeps ((lowerSetpoints_keeps a0 a1 t (k := [.mgmt]) rfl).2 (Keeps.refl _ t)) rfl h

@[simp] theorem governorStepEffect_canon (a0) {t : State} (h : Canon t) : Canon (governorStepEffect a0 t) := Canon.of_keeps ((governorStepEffect_keeps a0 t (k := [.mgmt]) rfl).2 (Keeps.refl _ t)) rfl h

@[simp] theorem retrain_canon (a0) {t : State} (h : Canon t) : Canon (retrain a0 t) := Canon.of_keeps ((retrain_keeps a0 t (k := [.fab, .time, .errs]) rfl).2 (Keeps.refl _ t)) rfl h

@[simp] theorem hbmScrubEffect_canon (a0) (a1) {t : State} (h : Canon t) : Canon (hbmScrubEffect a0 a1 t) := by
  unfold hbmScrubEffect; simp only []; (repeat' split) <;> simp (maxDischargeDepth := 9) [h]

@[simp] theorem strobeBeat_canon (a0) {t : State} (h : Canon t) : Canon (strobeBeat a0 t).2 := Canon.of_keeps ((strobeBeat_keeps a0 t (k := [.time]) rfl).2 (Keeps.refl _ t)) rfl h

@[simp] theorem launchStrobeEffect_canon  {t : State} (h : Canon t) : Canon (launchStrobeEffect t) := by
  unfold launchStrobeEffect
  dsimp only
  (repeat' split) <;> first
    | exact h
    | exact canon_set_launch h
    | (refine enterOrWait_canon _ _ (canon_set_launch h) fun u g => ?_; first | exact engineBeat_canon g | exact strobeBeat_canon _ g)
    | (refine enterOrWait_canon _ _ (canon_set_launch h) fun u g => ?_; split <;> simp [g])

@[simp] theorem lineWriteBackEffect_canon (a0) {t : State} (h : Canon t) : Canon (lineWriteBackEffect a0 t) := by
  unfold lineWriteBackEffect; (repeat' split) <;> simp (maxDischargeDepth := 9) [h]

@[simp] theorem linkReplayEffect_canon (a0) (a1) {t : State} (h : Canon t) : Canon (linkReplayEffect a0 a1 t) := Canon.of_keeps ((linkReplayEffect_keeps a0 a1 t (k := [.fab, .time, .errs]) rfl).2 (Keeps.refl _ t)) rfl h

@[simp] theorem markWork_canon (a0) (a1) {t : State} (h : Canon t) : Canon (markWork a0 a1 t).2 := by
  unfold markWork; simp only []; (repeat' split) <;> simp (maxDischargeDepth := 9) [h]

@[simp] theorem mgmtSend_canon (a0) (a1) (a2) {t : State} (h : Canon t) : Canon (mgmtSend a0 a1 a2 t) := Canon.of_keeps ((mgmtSend_keeps a0 a1 a2 t (k := [.mgmt]) rfl).2 (Keeps.refl _ t)) rfl h

@[simp] theorem nextFree_canon  {t : State} (h : Canon t) : Canon (nextFree t) := Canon.of_keeps ((nextFree_keeps  t (k := [.time]) rfl).2 (Keeps.refl _ t)) rfl h

@[simp] theorem hostData_canon (a0) (a1) {t : State} (h : Canon t) : Canon (hostData a0 a1 t) := by
  unfold hostData; simp (maxDischargeDepth := 9) [h]

@[simp] theorem unbackedOutcome_canon (a0) {t : State} (h : Canon t) : Canon (unbackedOutcome a0 t) := by
  unfold unbackedOutcome; (repeat' split) <;> simp (maxDischargeDepth := 9) [h]

@[simp] theorem memCplEffect_canon (a0) (a1) (a2) {t : State} (h : Canon t) : Canon (memCplEffect a0 a1 a2 t) := by
  unfold memCplEffect; (repeat' split) <;> simp (maxDischargeDepth := 9) [h]

@[simp] theorem landAgain_canon (a0) {t : State} (h : Canon t) : Canon (landAgain a0 t) := by
  unfold landAgain; simp only []; (repeat' split) <;> simp (maxDischargeDepth := 9) [h]

@[simp] theorem landCollective_canon (a0) {t : State} (h : Canon t) : Canon (landCollective a0 t) := Canon.of_keeps ((landCollective_keeps a0 t (k := [.ctr, .ctl, .exch, .rem, .launch, .dbg]) rfl).2 (Keeps.refl _ t)) rfl h

@[simp] theorem landExchange_canon (a) {t : State} (h : Canon t) : Canon (landExchange a t) := by
  unfold landExchange
  dsimp only
  (repeat' split) <;> first
    | (simp (maxDischargeDepth := 9) [h]; done)
    | exact Canon.foldl _ (fun t x g => by simp [g]) _ _ (by simp (maxDischargeDepth := 9) [h])

@[simp] theorem messageLandedEffect_canon (a0) {t : State} (h : Canon t) : Canon (messageLandedEffect a0 t) := by
  unfold messageLandedEffect; (repeat' split) <;> simp (maxDischargeDepth := 9) [h]

@[simp] theorem mgmtAttestBody_canon (a0) {t : State} (h : Canon t) : Canon (mgmtAttestBody a0 t).2.2 := Canon.of_keeps ((mgmtAttestBody_keeps a0 t (k := [.mgmt]) rfl).2 (Keeps.refl _ t)) rfl h

@[simp] theorem failFlashPromotions_canon  {t : State} (h : Canon t) : Canon (failFlashPromotions t) := by
  unfold failFlashPromotions; simp (maxDischargeDepth := 9) [h]

@[simp] theorem mountFailed_canon (a0) (a1) {t : State} (h : Canon t) : Canon (mountFailed a0 a1 t) := by
  unfold mountFailed; simp (maxDischargeDepth := 9) [h]

@[simp] theorem mountUnformatted_canon (a0) {t : State} (h : Canon t) : Canon (mountUnformatted a0 t) := by
  unfold mountUnformatted; simp (maxDischargeDepth := 9) [h]

theorem mountDecided_canon {r : MountResult} {g : FlashGeometry} {s t : State} (e : mountDecided? r g s = some t)
    (h : Canon s) : Canon t := by
  unfold mountDecided? at e
  (repeat' split at e) <;> simp only [Option.some.injEq, reduceCtorEq] at e <;> subst e <;> simp [h]

theorem mountDecided_getD_canon {r : MountResult} {g : FlashGeometry} {s d : State} (h : Canon s) (w : Canon d) :
    Canon ((mountDecided? r g s).getD d) := by
  cases e : mountDecided? r g s with
  | none => exact w
  | some t => exact mountDecided_canon e h

@[simp] theorem recoverExtents_canon (a0) {t : State} (h : Canon t) : Canon (recoverExtents a0 t).2 := Canon.of_keeps ((recoverExtents_keeps a0 t (k := [.time]) rfl).2 (Keeps.refl _ t)) rfl h

@[simp] theorem mountOnline_canon (a0) (a1) {t : State} (h : Canon t) : Canon (mountOnline a0 a1 t) := by
  unfold mountOnline; simp (maxDischargeDepth := 9) [h]

@[simp] theorem mountEndEffect_canon (a) {t : State} (h : Canon t) : Canon (mountEndEffect a t) := by
  unfold mountEndEffect
  (repeat' split) <;> first
    | (simp (maxDischargeDepth := 9) [h]; done)
    | exact mountDecided_getD_canon h (by first | (simp (maxDischargeDepth := 9) [h]; done) | (split <;> simp (maxDischargeDepth := 9) [h]))

@[simp] theorem mxDrain_canon (a0) (a1) {t : State} (h : Canon t) : Canon (mxDrain a0 a1 t) := by
  unfold mxDrain; refine Canon.foldl _ (fun t a g => ?_) _ _ ?_ <;> (repeat' split) <;> simp (maxDischargeDepth := 9) [*]

@[simp] theorem mxProduct_canon (cell : Nat) (x : Mx) (steps : List KStep) {t : State} (c : Canon t) :
    Canon (mxProduct cell x steps t).1 := by
  unfold mxProduct
  have inner : ∀ (b : Nat) (l : List Nat) (a : State × Nat), Canon a.1 → Canon (l.foldl (fun a p =>
      let r := elementResult t cell x steps b p
      ({ a.1 with tiles := memPutLe a.1.tiles (tileAddr cell (x.tile + b) p) 4 r.1 }, a.2 + r.2)) a).1 := by
    intro b l
    induction l with
    | nil => intro a h; exact h
    | cons p q ih => intro a h; exact ih _ (canon_set_tiles h (memWf_memPutLe h.tiles))
  have outer : ∀ (m l : List Nat) (a : State × Nat), Canon a.1 → Canon (l.foldl (fun a b =>
      m.foldl (fun a p =>
        let r := elementResult t cell x steps b p
        ({ a.1 with tiles := memPutLe a.1.tiles (tileAddr cell (x.tile + b) p) 4 r.1 }, a.2 + r.2)) a) a).1 := by
    intro m l
    induction l with
    | nil => intro a h; exact h
    | cons b r ih => intro a h; exact ih _ (inner b m a h)
  exact outer _ _ _ c

@[simp] theorem mxWork_canon (a0) (a1) {t : State} (h : Canon t) : Canon (mxWork a0 a1 t).2 := by
  unfold mxWork; simp (maxDischargeDepth := 9) [h]

@[simp] theorem nandEraseEndEffect_canon (a0) (a1) {t : State} (h : Canon t) : Canon (nandEraseEndEffect a0 a1 t) := by
  unfold nandEraseEndEffect; simp (maxDischargeDepth := 9) [h]

@[simp] theorem pageProgrammed_canon (a0) {t : State} (h : Canon t) : Canon (pageProgrammed a0 t) := by
  unfold pageProgrammed; (repeat' split) <;> simp (maxDischargeDepth := 9) [h]

@[simp] theorem nandProgramEndEffect_canon (a0) (a1) {t : State} (h : Canon t) : Canon (nandProgramEndEffect a0 a1 t) := by
  unfold nandProgramEndEffect; simp (maxDischargeDepth := 9) [h]

@[simp] theorem getBackground_canon (a0) {t : State} (h : Canon t) : Canon (getBackground a0 t).2 := Canon.of_keeps ((getBackground_keeps a0 t (k := [.time]) rfl).2 (Keeps.refl _ t)) rfl h

@[simp] theorem serveGet_canon (a0) (a1) {t : State} (h : Canon t) : Canon (serveGet a0 a1 t) :=
  windowRead_canon _ _ _ (canon_set_rem (touchLines_canon _ _ (getBackground_canon _ h))) fun u g =>
    sendAnswer_canon _ _ _ _ _ _ _ _ _ g

@[simp] theorem startOn_canon (a0) (a1) {t : State} (h : Canon t) : Canon (startOn a0 a1 t) := Canon.of_keeps ((startOn_keeps a0 a1 t (k := [.rem, .fab, .errs]) rfl).2 (Keeps.refl _ t)) rfl h

@[simp] theorem leaveCredit_canon (a0) {t : State} (h : Canon t) : Canon (leaveCredit a0 t) := Canon.of_keeps ((leaveCredit_keeps a0 t (k := [.fab]) rfl).2 (Keeps.refl _ t)) rfl h

@[simp] theorem unqueue_canon (a0) (a1) {t : State} (h : Canon t) : Canon (unqueue a0 a1 t) := Canon.of_keeps ((unqueue_keeps a0 a1 t (k := [.rem, .fab]) rfl).2 (Keeps.refl _ t)) rfl h

@[simp] theorem dropBuffered_canon (a0) {t : State} (h : Canon t) : Canon (dropBuffered a0 t) := Canon.of_keeps ((dropBuffered_keeps a0 t (k := [.rem, .fab]) rfl).2 (Keeps.refl _ t)) rfl h

@[simp] theorem markWord_canon (a0) (a1) {t : State} (h : Canon t) : Canon (markWord a0 a1 t) := Canon.of_keeps ((markWord_keeps a0 a1 t (k := [.errs]) rfl).2 (Keeps.refl _ t)) rfl h

@[simp] theorem sramScrubEffect_canon (a0) {t : State} (h : Canon t) : Canon (sramScrubEffect a0 t) := by
  unfold sramScrubEffect; (repeat' split) <;> simp (maxDischargeDepth := 9) [h]

@[simp] theorem serveItem_canon (a0) (a1) (a2) (a3) {t : State} (h : Canon t) : Canon (serveItem a0 a1 a2 a3 t) := Canon.of_keeps ((serveItem_keeps a0 a1 a2 a3 t (k := [.rem, .fab, .errs]) rfl).2 (Keeps.refl _ t)) rfl h

@[simp] theorem unroutable_canon (a0) {t : State} (h : Canon t) : Canon (unroutable a0 t) := Canon.of_keeps ((unroutable_keeps a0 t (k := [.ctl, .rem, .launch, .errs]) rfl).2 (Keeps.refl _ t)) rfl h

@[simp] theorem startItem_canon (a0) (a1) {t : State} (h : Canon t) : Canon (startItem a0 a1 t) := Canon.of_keeps ((startItem_keeps a0 a1 t (k := [.ctl, .rem, .fab, .launch, .errs]) rfl).2 (Keeps.refl _ t)) rfl h

@[simp] theorem takeViews_canon (a0) {t : State} (h : Canon t) : Canon (takeViews a0 t) := Canon.of_keeps ((takeViews_keeps a0 t (k := [.fab]) rfl).2 (Keeps.refl _ t)) rfl h

@[simp] theorem packetSendEffect_canon (a0) (a1) {t : State} (h : Canon t) : Canon (packetSendEffect a0 a1 t) := by
  unfold packetSendEffect; simp only []; (repeat' split) <;> simp (maxDischargeDepth := 9) [h]

theorem receivePeal_canon (kind port : Nat) (p : Packet) (f : State → State) {t : State} (c : Canon t)
    (h : ∀ u, Canon u → Canon (f u)) : Canon (receivePeal kind port p f t) := by
  unfold receivePeal
  refine receive_canon _ _ _ _ _ c fun u a => ?_
  (repeat' split) <;> first | exact h u a | exact c | simp [a]

@[simp] theorem pldmEffect_canon (a0) (a1) (a2) {t : State} (h : Canon t) : Canon (pldmEffect a0 a1 a2 t) := Canon.of_keeps ((pldmEffect_keeps a0 a1 a2 t (k := [.time, .mgmt]) rfl).2 (Keeps.refl _ t)) rfl h

@[simp] theorem retrainEnabled_canon (a0) {t : State} (h : Canon t) : Canon (retrainEnabled a0 t) := Canon.of_keeps ((retrainEnabled_keeps a0 t (k := [.fab, .time, .errs]) rfl).2 (Keeps.refl _ t)) rfl h

@[simp] theorem mgmtPortConfig_canon (a0) {t : State} (h : Canon t) : Canon (mgmtPortConfig a0 t).2.2 := Canon.of_keeps ((mgmtPortConfig_keeps a0 t (k := [.fab, .time, .errs]) rfl).2 (Keeps.refl _ t)) rfl h

@[simp] theorem portDieLost_canon (a0) {t : State} (h : Canon t) : Canon (portDieLost a0 t) := by
  unfold portDieLost; simp (maxDischargeDepth := 9) [h]

@[simp] theorem trainedUp_canon (a0) (a1) (a2) (a3) {t : State} (h : Canon t) : Canon (trainedUp a0 a1 a2 a3 t) := Canon.of_keeps ((trainedUp_keeps a0 a1 a2 a3 t (k := [.fab]) rfl).2 (Keeps.refl _ t)) rfl h

@[simp] theorem probeEffect_canon (a0) {t : State} (h : Canon t) : Canon (probeEffect a0 t) := Canon.of_keeps ((probeEffect_keeps a0 t (k := [.fab]) rfl).2 (Keeps.refl _ t)) rfl h

@[simp] theorem finishCopy_canon (a0) (a1) {t : State} (h : Canon t) : Canon (finishCopy a0 a1 t) := by
  unfold finishCopy; (repeat' split) <;> simp (maxDischargeDepth := 9) [h]

@[simp] theorem promotionEndEffect_canon (a0) (a1) (a2) {t : State} (h : Canon t) : Canon (promotionEndEffect a0 a1 a2 t) := by
  unfold promotionEndEffect; (repeat' split) <;> simp (maxDischargeDepth := 9) [h]

@[simp] theorem runDeferred_canon (a0) (a1) {t : State} (h : Canon t) : Canon (runDeferred a0 a1 t) := by
  unfold runDeferred; (repeat' split) <;> simp (maxDischargeDepth := 9) [h]

@[simp] theorem promotionStartEffect_canon (a0) (a1) {t : State} (h : Canon t) : Canon (promotionStartEffect a0 a1 t) := by
  unfold promotionStartEffect; (repeat' split) <;> simp (maxDischargeDepth := 9) [h]

@[simp] theorem powerOn_canon {t : State} (_h : Canon t) : Canon (powerOn t) := ⟨rfl, rfl, rfl, rfl⟩

@[simp] theorem powerOff_canon  {t : State} (h : Canon t) : Canon (powerOff t) := by
  unfold powerOff; simp (maxDischargeDepth := 9) [h]

@[simp] theorem readyEffect_canon (a) {t : State} (h : Canon t) : Canon (readyEffect a t) := by
  unfold readyEffect
  split
  · refine pldmEvent_canon _ _ ⟨memWf_hostMemory h.mem, rfl, h.ram, ?_⟩
    exact h.sram
  · exact h

@[simp] theorem portLosesClock_canon (a1) {t : State} (h : Canon t) : Canon (portLosesClock t a1) := Canon.of_keeps ((portLosesClock_keeps a1 t (k := [.fab, .time, .errs]) rfl).2 (Keeps.refl _ t)) rfl h

@[simp] theorem loseStack_canon {t : State} (h : Canon t) : Canon (loseStack t) := Canon.of_keeps ((loseStack_keeps t (k := [.errs]) rfl).2 (Keeps.refl _ t)) rfl h

@[simp] theorem faultNow_canon (a0) {t : State} (h : Canon t) : Canon (faultNow a0 t) := by
  unfold faultNow; (repeat' split) <;> simp (maxDischargeDepth := 9) [h]

@[simp] theorem refclkLossEffect_canon (a) {t : State} (h : Canon t) : Canon (refclkLossEffect a t) := by
  unfold refclkLossEffect
  (repeat' (first | split | dsimp only)) <;> first
    | (simp (maxDischargeDepth := 9) [h]; done)
    | exact Canon.foldl _ (fun t x g => by simp [g]) _ _ h

@[simp] theorem refuseEffect_canon (p) {t : State} (h : Canon t) : Canon (refuseEffect p t) := by
  unfold refuseEffect
  exact takeAnswer_canon _ _ _ h fun r u g => stepFault_canon _ (canon_set_rem g)

@[simp] theorem relocationEndEffect_canon (a0) {t : State} (h : Canon t) : Canon (relocationEndEffect a0 t) := by
  unfold relocationEndEffect; (repeat' split) <;> simp (maxDischargeDepth := 9) [h]

@[simp] theorem replayWindowEffect_canon (a0) {t : State} (h : Canon t) : Canon (replayWindowEffect a0 t) := Canon.of_keeps ((replayWindowEffect_keeps a0 t (k := [.rem, .fab]) rfl).2 (Keeps.refl _ t)) rfl h

@[simp] theorem mgmtReset_canon (a0) {t : State} (h : Canon t) : Canon (mgmtReset a0 t).2.2 := by
  unfold mgmtReset; (repeat' split) <;> simp (maxDischargeDepth := 9) [h]

@[simp] theorem retentionPatrolEffect_canon (a0) {t : State} (h : Canon t) : Canon (retentionPatrolEffect a0 t) := by
  unfold retentionPatrolEffect; simp only []; (repeat' split) <;> simp (maxDischargeDepth := 9) [h]

@[simp] theorem romVerifyEffect_canon  {t : State} (h : Canon t) : Canon (romVerifyEffect t) := by
  unfold romVerifyEffect; (repeat' split) <;> simp (maxDischargeDepth := 9) [h]

@[simp] theorem writeSome_canon (a0) {t : State} (h : Canon t) : Canon (writeSome a0 t) := by
  unfold writeSome; refine Canon.foldl _ (fun t a g => ?_) _ _ ?_ <;> (repeat' split) <;> simp (maxDischargeDepth := 9) [*]

@[simp] theorem finishLists_canon (a0) (a1) (a2) (a3) (a4) (a5) (a6) {t : State} (h : Canon t) : Canon (finishLists a0 a1 a2 a3 a4 a5 a6 t).2 := by
  unfold finishLists; (repeat' split) <;> simp (maxDischargeDepth := 9) [h]

@[simp] theorem rtRoute_canon (a0) (a1) {t : State} (h : Canon t) : Canon (rtRoute a0 a1 t).2 := by
  unfold rtRoute; simp only []; (repeat' split) <;> simp (maxDischargeDepth := 9) [h]

@[simp] theorem routePartEffect_canon (a0) {t : State} (h : Canon t) : Canon (routePartEffect a0 t) := Canon.of_keeps ((routePartEffect_keeps a0 t (k := [.cells]) rfl).2 (Keeps.refl _ t)) rfl h

@[simp] theorem sendMessages_canon (a0) (a1) (a2) (a3) {t : State} (h : Canon t) : Canon (sendMessages a0 a1 a2 a3 t) := Canon.of_keeps ((sendMessages_keeps a0 a1 a2 a3 t (k := [.rem, .dbg]) rfl).2 (Keeps.refl _ t)) rfl h

@[simp] theorem xcHome_canon (a0) (a1) (a2) {t : State} (h : Canon t) : Canon (xcHome a0 a1 a2 t).2 := Canon.of_keeps ((xcHome_keeps a0 a1 a2 t (k := [.ctl, .rem, .launch, .dbg]) rfl).2 (Keeps.refl _ t)) rfl h

@[simp] theorem xcSource_canon (a0) (a1) (a2) {t : State} (h : Canon t) : Canon (xcSource a0 a1 a2 t).2 := by
  unfold xcSource; simp only []; (repeat' split) <;> simp (maxDischargeDepth := 9) [h]

@[simp] theorem noteThrottling_canon  {t : State} (h : Canon t) : Canon (noteThrottling t) := Canon.of_keeps ((noteThrottling_keeps  t (k := [.mgmt]) rfl).2 (Keeps.refl _ t)) rfl h

@[simp] theorem noteTrip_canon  {t : State} (h : Canon t) : Canon (noteTrip t) := by
  unfold noteTrip; simp (maxDischargeDepth := 9) [h]

@[simp] theorem sensorSampleEffect_canon (a0) {t : State} (h : Canon t) : Canon (sensorSampleEffect a0 t) := by
  unfold sensorSampleEffect; simp (maxDischargeDepth := 9) [h]

@[simp] theorem takePhysId_canon (a0) {t : State} (h : Canon t) : Canon (takePhysId a0 t) := Canon.of_keeps ((takePhysId_keeps a0 t (k := [.fab, .time, .mgmt, .errs]) rfl).2 (Keeps.refl _ t)) rfl h

@[simp] theorem mgmtSetPhysId_canon (a0) {t : State} (h : Canon t) : Canon (mgmtSetPhysId a0 t).2.2 := Canon.of_keeps ((mgmtSetPhysId_keeps a0 t (k := [.fab, .time, .mgmt, .errs]) rfl).2 (Keeps.refl _ t)) rfl h

@[simp] theorem mgmtSetPower_canon (a0) {t : State} (h : Canon t) : Canon (mgmtSetPower a0 t).2.2 := Canon.of_keeps ((mgmtSetPower_keeps a0 t (k := [.mgmt]) rfl).2 (Keeps.refl _ t)) rfl h

@[simp] theorem mgmtSetShares_canon (a0) {t : State} (h : Canon t) : Canon (mgmtSetShares a0 t).2.2 := Canon.of_keeps ((mgmtSetShares_keeps a0 t (k := [.mgmt]) rfl).2 (Keeps.refl _ t)) rfl h

@[simp] theorem mgmtSetThermal_canon (a0) {t : State} (h : Canon t) : Canon (mgmtSetThermal a0 t).2.2 := Canon.of_keeps ((mgmtSetThermal_keeps a0 t (k := [.mgmt]) rfl).2 (Keeps.refl _ t)) rfl h

@[simp] theorem rtSpill_canon (a0) (a1) {t : State} (h : Canon t) : Canon (rtSpill a0 a1 t).2 := by
  unfold rtSpill; simp only []; (repeat' split) <;> simp (maxDischargeDepth := 9) [h]

@[simp] theorem latchAborted_canon (a) {t : State} (h : Canon t) : Canon (latchAborted a t) := by
  unfold latchAborted
  dsimp only
  have e := engineBeat_canon h
  refine settleAbortJob_canon (holdReport_canon _ ?_)
  (repeat' split) <;> simp (maxDischargeDepth := 9) [h]

@[simp] theorem latchStalls_canon {t : State} (h : Canon t) : Canon (latchStalls t) := Canon.of_keeps ((latchStalls_keeps t (k := [.ctl]) rfl).2 (Keeps.refl _ t)) rfl h

@[simp] theorem stepAbortEffect_canon  {t : State} (h : Canon t) : Canon (stepAbortEffect t) := by
  unfold stepAbortEffect; (repeat' split) <;> simp (maxDischargeDepth := 9) [h]

theorem nextGranted_canon {t u : State} {g : GStep} (e : nextGranted? t = some (g, u)) (c : Canon t) : Canon u :=
  Canon.of_keeps (nextGranted_keeps e) rfl c

@[simp] theorem stepArmEffect_canon {t : State} (h : Canon t) : Canon (stepArmEffect t) := by
  unfold stepArmEffect
  split
  · exact h
  · split
    · exact h
    · next g u he =>
      have a := nextGranted_canon he h
      dsimp only
      split <;> simp (maxDischargeDepth := 9) [a]

@[simp] theorem latchBound_canon (a0) {t : State} (h : Canon t) : Canon (latchBound a0 t) := by
  unfold latchBound; refine Canon.foldl _ (fun t a g => ?_) _ _ ?_ <;> (repeat' split) <;> simp (maxDischargeDepth := 9) [*]

@[simp] theorem latchCompleted_canon (a0) {t : State} (h : Canon t) : Canon (latchCompleted a0 t) := by
  unfold latchCompleted; simp (maxDischargeDepth := 9) [h]

@[simp] theorem stepCompleteEffect_canon  {t : State} (h : Canon t) : Canon (stepCompleteEffect t) := by
  unfold stepCompleteEffect; (repeat' split) <;> simp (maxDischargeDepth := 9) [h]

@[simp] theorem stepHungEffect_canon  {t : State} (h : Canon t) : Canon (stepHungEffect t) := Canon.of_keeps ((stepHungEffect_keeps  t (k := [.ctl, .rem, .launch]) rfl).2 (Keeps.refl _ t)) rfl h

@[simp] theorem stepRunEffect_canon  {t : State} (h : Canon t) : Canon (stepRunEffect t) := by
  unfold stepRunEffect
  (repeat' split) <;> first | exact h | exact enterOrWait_canon _ _ h fun u g => engineBeat_canon g

@[simp] theorem queueTime_canon (a0) (a1) {t : State} (h : Canon t) : Canon (queueTime a0 a1 t) := Canon.of_keeps ((queueTime_keeps a0 a1 t (k := [.rem]) rfl).2 (Keeps.refl _ t)) rfl h

@[simp] theorem syncEffect_canon (a0) (a1) {t : State} (h : Canon t) : Canon (syncEffect a0 a1 t) := Canon.of_keeps ((syncEffect_keeps a0 a1 t (k := [.rem, .time, .errs]) rfl).2 (Keeps.refl _ t)) rfl h

@[simp] theorem syncSendEffect_canon  {t : State} (h : Canon t) : Canon (syncSendEffect t) := Canon.of_keeps ((syncSendEffect_keeps  t (k := [.rem, .time, .errs]) rfl).2 (Keeps.refl _ t)) rfl h

@[simp] theorem mgmtTableRead_canon (a0) {t : State} (h : Canon t) : Canon (mgmtTableRead a0 t).2.2 := Canon.of_keeps ((mgmtTableRead_keeps a0 t (k := []) rfl).2 (Keeps.refl _ t)) rfl h

@[simp] theorem mgmtTableReady_canon (a0) {t : State} (h : Canon t) : Canon (mgmtTableReady a0 t).2.2 := Canon.of_keeps ((mgmtTableReady_keeps a0 t (k := [.fab, .time, .errs]) rfl).2 (Keeps.refl _ t)) rfl h

@[simp] theorem mgmtTableWrite_canon (a0) {t : State} (h : Canon t) : Canon (mgmtTableWrite a0 t).2.2 := Canon.of_keeps ((mgmtTableWrite_keeps a0 t (k := [.fab]) rfl).2 (Keeps.refl _ t)) rfl h

@[simp] theorem noteStall_canon (a0) (a1) {t : State} (h : Canon t) : Canon (noteStall a0 a1 t) := Canon.of_keeps ((noteStall_keeps a0 a1 t (k := [.cells, .ctl]) rfl).2 (Keeps.refl _ t)) rfl h

@[simp] theorem placeHold_canon (a0) {t : State} (h : Canon t) : Canon (placeHold a0 t) := Canon.of_keeps ((placeHold_keeps a0 t (k := [.tier]) rfl).2 (Keeps.refl _ t)) rfl h

@[simp] theorem endStall_canon (a0) (a1) {t : State} (h : Canon t) : Canon (endStall a0 a1 t) := Canon.of_keeps ((endStall_keeps a0 a1 t (k := [.ctl]) rfl).2 (Keeps.refl _ t)) rfl h

@[simp] theorem taskCompleteEffect_canon (a0) (a1) {t : State} (h : Canon t) : Canon (taskCompleteEffect a0 a1 t) := by
  unfold taskCompleteEffect; (repeat' split) <;> simp (maxDischargeDepth := 9) [h]

@[simp] theorem freeOccupancy_canon  {t : State} (h : Canon t) : Canon (freeOccupancy t) := Canon.of_keeps ((freeOccupancy_keeps  t (k := [.tier, .time]) rfl).2 (Keeps.refl _ t)) rfl h

@[simp] theorem telUpdateEffect_canon  {t : State} (h : Canon t) : Canon (telUpdateEffect t) := Canon.of_keeps ((telUpdateEffect_keeps  t (k := [.tier, .fab, .time, .dbg]) rfl).2 (Keeps.refl _ t)) rfl h

@[simp] theorem waitRelWork_canon (a0) (a1) {t : State} (h : Canon t) : Canon (waitRelWork a0 a1 t).2 := Canon.of_keeps ((waitRelWork_keeps a0 a1 t (k := [.cells]) rfl).2 (Keeps.refl _ t)) rfl h

@[simp] theorem wearLevelEffect_canon (a0) {t : State} (h : Canon t) : Canon (wearLevelEffect a0 t) := by
  unfold wearLevelEffect; simp only []; (repeat' split) <;> simp (maxDischargeDepth := 9) [h]

@[simp] theorem idleTime_canon  {t : State} (h : Canon t) : Canon (idleTime t) := Canon.of_keeps ((idleTime_keeps  t (k := [.ctl]) rfl).2 (Keeps.refl _ t)) rfl h

@[simp] theorem requestTick_canon  {t : State} (h : Canon t) : Canon (requestTick t) := Canon.of_keeps ((requestTick_keeps  t (k := [.rem]) rfl).2 (Keeps.refl _ t)) rfl h

@[simp] theorem ringTick_canon  {t : State} (h : Canon t) : Canon (ringTick t) := Canon.of_keeps ((ringTick_keeps  t (k := [.ctl]) rfl).2 (Keeps.refl _ t)) rfl h

@[simp] theorem settleJobClose_canon  {t : State} (h : Canon t) : Canon (settleJobClose t) := by
  unfold settleJobClose; simp (maxDischargeDepth := 9) [h]

@[simp] theorem revokeSlots_sram (b : Boot) : (revokeSlots b).sram = b.sram := by
  unfold revokeSlots; split <;> rfl

@[simp] theorem raiseRollback_sram (b : Boot) : (raiseRollback b).sram = b.sram := by
  unfold raiseRollback; (repeat' split) <;> rfl

@[simp] theorem settleFuses_canon {t : State} (h : Canon t) : Canon (settleFuses t) := by
  unfold settleFuses
  split
  · refine ⟨h.mem, h.tiles, h.ram, ?_⟩
    dsimp only
    (repeat' split) <;> simp [h.sram]
  · exact h

@[simp] theorem settleLate_canon  {t : State} (h : Canon t) : Canon (settleLate t) := by
  unfold settleLate; simp (maxDischargeDepth := 9) [h]

@[simp] theorem settleLoadImage_canon  {t : State} (h : Canon t) : Canon (settleLoadImage t) := by
  unfold settleLoadImage; (repeat' split) <;> simp (maxDischargeDepth := 9) [h]

@[simp] theorem noteStalls_canon (a0) {t : State} (h : Canon t) : Canon (noteStalls a0 t) := Canon.of_keeps ((noteStalls_keeps a0 t (k := [.cells, .ctl]) rfl).2 (Keeps.refl _ t)) rfl h

@[simp] theorem stallTick_canon  {t : State} (h : Canon t) : Canon (stallTick t) := Canon.of_keeps ((stallTick_keeps  t (k := [.cells, .ctl]) rfl).2 (Keeps.refl _ t)) rfl h

@[simp] theorem paceCounts_canon  {t : State} (h : Canon t) : Canon (paceCounts t) := Canon.of_keeps ((paceCounts_keeps  t (k := [.time, .dbg]) rfl).2 (Keeps.refl _ t)) rfl h

@[simp] theorem landPacket_canon (a0) {t : State} (h : Canon t) : Canon (landPacket a0 t) := by
  unfold landPacket; dsimp only
  (repeat' split) <;> first
    | exact bulkArrival_canon _ _ h fun q u g => by simp [g]
    | exact takeAnswer_canon _ _ _ h fun r u g => by simp [g]
    | exact probeEffect_canon _ h
    | exact ackEffect_canon _ h
    | exact refuseEffect_canon _ h
    | exact h

@[simp] theorem landWaiting_canon (a0) (a1) {t : State} (h : Canon t) : Canon (landWaiting a0 a1 t) := by
  unfold landWaiting; simp only []; (repeat' split) <;> simp (maxDischargeDepth := 9) [h]

@[simp] theorem landParked_canon (a0) {t : State} (h : Canon t) : Canon (landParked a0 t) := by
  fun_induction landParked a0 t <;> simp_all (maxDischargeDepth := 9) [h]

@[simp] theorem landTick_canon {t : State} (h : Canon t) : Canon (landTick t) := by
  unfold landTick; simp (maxDischargeDepth := 9) [h]

@[simp] theorem telStart_canon {t : State} (h : Canon t) : Canon (telStart t) := Canon.of_keeps ((telStart_keeps t (k := [.time, .dbg]) rfl).2 (Keeps.refl _ t)) rfl h

@[simp] theorem firmwareTouches_canon {t : State} (h : Canon t) : Canon (firmwareTouches t) := by
  unfold firmwareTouches; simp only []; (repeat' split) <;> simp (maxDischargeDepth := 9) [h]

@[simp] theorem idleTick_canon  {t : State} (h : Canon t) : Canon (idleTick t) := by
  unfold idleTick
  split
  · exact firmwareTouches_canon (telStart_canon (settleLoadImage_canon (settleJobClose_canon (settleAbortJob_canon
      (settleLate_canon (settleReport_canon (settleFuses_canon (landTick_canon (paceCounts_canon (requestTick_canon
        (ringTick_canon (stallTick_canon (idleTime_canon (countPeriod_canon (beatPeriod_canon h)))))))))))))))
  · exact h

@[simp] theorem writeCode_canon (a b c d e) {t : State} (h : Canon t) : Canon (writeCode a b c d e t) := by
  unfold writeCode; exact canon_set_mem h (by simp [h])

@[simp] theorem putCodes_canon (a0) (a1) (a2) (a3) {t : State} (h : Canon t) : Canon (putCodes a0 a1 a2 a3 t) := by
  fun_induction putCodes a0 a1 a2 a3 t <;> simp_all (maxDischargeDepth := 9)

@[simp] theorem putMaskRow_canon (a0) (a1) (a2) {t : State} (h : Canon t) : Canon (putMaskRow a0 a1 a2 t) := by
  unfold putMaskRow; refine Canon.foldl _ (fun t a g => ?_) _ _ ?_ <;> (repeat' split) <;> simp (maxDischargeDepth := 9) [*]

@[simp] theorem putScale_canon (a0) (a1) (a2) (a3) {t : State} (h : Canon t) : Canon (putScale a0 a1 a2 a3 t) := by
  unfold putScale; simp (maxDischargeDepth := 9) [h]

@[simp] theorem noteLanding_canon (a0) {t : State} (h : Canon t) : Canon (noteLanding a0 t) := Canon.of_keeps ((noteLanding_keeps a0 t (k := [.ctl, .dbg]) rfl).2 (Keeps.refl _ t)) rfl h

@[simp] theorem scanCells_canon (a0) {t : State} (h : Canon t) : Canon (scanCells a0 t) := Canon.of_keeps ((scanCells_keeps a0 t (k := [.time, .dbg]) rfl).2 (Keeps.refl _ t)) rfl h

@[simp] theorem stageRest_canon (a0) {t : State} (h : Canon t) : Canon (stageRest a0 t) := Canon.of_keeps ((stageRest_keeps a0 t (k := [.flash, .pools]) rfl).2 (Keeps.refl _ t)) rfl h

@[simp] theorem discardHeld_canon (w) {t u : State} (h : Canon t) (g : Canon u) : Canon (discardHeld w u t) := by
  unfold discardHeld; split <;> simp [*]

@[simp] theorem dieModuleFails_canon (a0) {t : State} (h : Canon t) : Canon (dieModuleFails a0 t) := by
  unfold dieModuleFails; (repeat' split) <;> simp (maxDischargeDepth := 9) [h]

end Sys2Proof.Machine
end

