-- ==== Sys2Proof/WellFormed.lean ====
section
/-! DEFINITION. The ranges that the manual gives the operands of a command or event. -/

namespace Sys2Proof

/-- A logical cell id (R14). -/
def wfCell (c : Nat) : Bool := decide (c < 512)

/-- A cluster (R14). -/
def wfCluster (c : Nat) : Bool := decide (c < 16)

/-- A fabric port (R310). -/
def wfPort (p : Nat) : Bool := decide (p < 128)

/-- A DATA or IDLE trailer whose fields fit their widths (R308). -/
def wfTrailer (t : Trailer) : Bool :=
  decide (t.kind ≤ 1) && (decide (t.laneA < 18) && (decide (t.countA < 64) && (decide (t.laneB < 18) && decide (t.countB < 64))))

/-- A memory that the SRAM scrub reads. -/
def wfSite (x : SramSite) : Bool :=
  match x with
  | .cluster k _ => wfCluster k
  | .conductor | .portDie _ => true

/-- A tier in which a copy may reside (R253). -/
def wfTier (t : Nat) : Bool := decide (t < 3)

/-- A packet as it can arrive: its payload has the length that its header gives, at most 4,096 bytes (R323). -/
def wfPacket (p : Packet) : Bool := decide (p.payload.length = p.length.toNat % 8192) && decide (p.payload.length ≤ 4096)

/-- A packet and the port it arrives on, or none for loopback (R51). -/
def wfArrival (f : Option Nat) (p : Packet) : Bool := f.all wfPort && wfPacket p

/-- A management request: at most 1,088 bytes of ARGS (R476). -/
def wfMgmt (q : MgmtReq) : Bool := decide (q.args.length ≤ 1088)

/-- The operands of the command lie in the ranges that the manual gives them. -/
def Instr.wf : Instr → Bool
  | .identify | .getCaps | .setConfig | .jobOpen | .jobClose | .loadImage | .bind | .grant | .abortStep | .abortJob
  | .treeSet | .peal | .objDefine | .promote | .evict | .pin | .unpin | .poolConfig | .poolAlloc | .poolShare
  | .poolRelease | .poolFree | .poolStatus | .winSet | .winClear | .winRead | .flashStatus | .flashFormat
  | .flashFormatDone _ | .extentCreate | .extentWrite | .extentSeal | .extentDelete | .telSnapshot | .attest
  | .debugTraceStart | .debugTraceStop | .debugTraceStatus | .reservedOpcode => true
  | .extentSealDone e => decide (e < 2 ^ 32)
  | .debugMemread _ => true
  | .cmdDoorbell _ | .loadRecord _ | .cplHead _ | .evtHead _ | .rptHead _ | .evtClear _ | .evtEnable _ | .resetCtl _ => true
  | .bootSramWrite o _ => decide (o % 4 = 0) && decide (o < 262144)
  | .bootDoorbell _ | .tmxCtl _ => true
  | .tmxSel i _ => decide (i < 16)
  | .clPerfSel c _ => wfCluster c
  | .ecsWrite o d => decide (o < 2 ^ 21) && decide (d.length ≤ 64)
  | .memCpl _ _ _ => true
  | .hostModuleFail | .pwrgdRise | .pwrgdFall | .romWait | .romVerify | .firmwareVerify => true
  | .ready bad => bad.all fun p => decide (p < 544)
  | .firmwareInitFail c => decide (0x401 ≤ c ∧ c ≤ 0x403)
  | .mountEnd _ => true
  | .stepArm | .stepRun | .launchStrobe | .stepComplete | .stepAbort | .stepHung => true
  | .descriptorFetch c => wfCell c
  | .taskComplete c i => wfCell c && decide (i < 65536)
  | .mx c _ | .cp c _ | .add c _ | .sub c _ | .mul c _ | .fma c _ | .div c _ | .max c _ | .min c _ | .unary c _
  | .cmp c _ | .select c _ | .reduce c _ | .scan c _ | .table c _ | .rmsnorm c _ | .layernorm c _ | .softmax c _
  | .convert c _ | .compress c _ | .expand c _ | .compress24 c _ | .gather c _ | .scatter c _ | .scatterAdd c _
  | .route c _ | .accept c _ | .spill c _ => wfCell c
  | .routePart c => wfCluster c
  | .sendBids c _ | .sendAccepts c _ | .sendRows c _ | .sendEager c _ | .sendAnswers c _ | .allReduce c _
  | .reduceScatter c _ => wfCell c
  | .collectiveSum c i _ => wfCell c && decide (i < 65536)
  | .fmLoad c _ | .fmStore c _ | .fmAtomic c _ | .fmPut c _ | .fmGet c _ | .fmFlagStore c _ | .waitRel c _ | .mark c _
  | .ensure c _ | .prefetch c _ => wfCell c
  | .promotionStart _ t | .promotionEnd _ t _ | .evictionEnd _ t => wfTier t
  | .exchange f p | .collective f p | .load f p | .store f p | .flagStore f p | .atomic f p | .put f p | .get f p
  | .loadResp f p | .atomicResp f p | .getData f p | .ack f p | .refuse f p | .probe f p => wfArrival f p
  | .messageLanded _ => true
  | .lineWriteBack _ => true
  | .e2eRetry d _ | .cumAck d => decide (d < 2 ^ 20)
  | .packetSend _ v => v.all fun x => wfPort x.port && x.trailers.all wfTrailer
  | .forward f p | .pealArm f p | .pealAck f p | .pealDisarm f p | .gong f p | .sync f p | .follow f p =>
    wfPort f && wfPacket p
  | .linkReplay f _ | .replayWindowExpiry f | .laneFail f _ | .portTrained f _ | .portRetry f | .halfRetrain f => wfPort f
  | .armAcknowledge | .ackDeadline | .decisionPoint | .syncSend => true
  | .codewordRead _ _ | .relocationEnd _ | .readCountCheckpoint | .retentionPatrol _ | .wearLevel _ | .dieRetire _ => true
  | .hbmScrub a _ => decide (a < 618475290624)
  | .sramScrub f => wfSite f.site
  | .hbmRetrain k _ | .hbmStackLost k => decide (k < 16)
  | .cellTest e => e.second.all fun x => wfCell x.1
  | .firmwareWatchdog | .portDieLost _ | .portDieModuleFail _ | .adapterRetry => true
  | .refclkLoss c =>
    match c with
    | .core _ => true
    | .ser _ q => decide (q < 4)
    | .hbm i => decide (i < 4)
  | .sensorSample x => decide (x.hbmTemp.length = 16) && (decide (x.pace.length = 16) &&
      (decide (x.junctions.length = 56) && decide (x.rails.length ≤ 6)))
  | .governorStep _ | .telUpdate => true
  | .getState q | .setPhysId q | .tableWrite q | .tableReady q | .tableRead q | .setPower q | .setThermal q
  | .setShares q | .getSnapshot q | .mgmtAttest q | .attestRead q | .reset q | .portConfig q
  | .mgmtReservedCommand q => wfMgmt q
  | .mctpControl _ _ | .pldmRequest _ _ => true
  | .extest _ | .samplePreload _ | .idcode | .clamp | .highz | .ijtag | .bypass _ | .testLogicReset | .vccqNandLoss => true
  | .nandProgramEnd _ _ | .nandEraseEnd _ _ => true

end Sys2Proof
end

