-- ==== Sys2Proof/Laws/PerInstr.lean ====
section
/-! SUPPORT. Per command: a well-formed command names a cell, cluster or port that exists, carries packets and requests as long
as their headers say. -/

namespace Sys2Proof.Laws.Shape

set_option Elab.async false

/-- The logical cell that a command names. -/
def cell? : Instr → Option Nat
  | .descriptorFetch x => some x
  | .taskComplete x _ => some x
  | .mx x _ => some x
  | .cp x _ => some x
  | .add x _ => some x
  | .sub x _ => some x
  | .mul x _ => some x
  | .fma x _ => some x
  | .div x _ => some x
  | .max x _ => some x
  | .min x _ => some x
  | .unary x _ => some x
  | .cmp x _ => some x
  | .select x _ => some x
  | .reduce x _ => some x
  | .scan x _ => some x
  | .table x _ => some x
  | .rmsnorm x _ => some x
  | .layernorm x _ => some x
  | .softmax x _ => some x
  | .convert x _ => some x
  | .compress x _ => some x
  | .expand x _ => some x
  | .compress24 x _ => some x
  | .gather x _ => some x
  | .scatter x _ => some x
  | .scatterAdd x _ => some x
  | .route x _ => some x
  | .accept x _ => some x
  | .spill x _ => some x
  | .sendBids x _ => some x
  | .sendAccepts x _ => some x
  | .sendRows x _ => some x
  | .sendEager x _ => some x
  | .sendAnswers x _ => some x
  | .allReduce x _ => some x
  | .reduceScatter x _ => some x
  | .collectiveSum x _ _ => some x
  | .fmLoad x _ => some x
  | .fmStore x _ => some x
  | .fmAtomic x _ => some x
  | .fmPut x _ => some x
  | .fmGet x _ => some x
  | .fmFlagStore x _ => some x
  | .waitRel x _ => some x
  | .mark x _ => some x
  | .ensure x _ => some x
  | .prefetch x _ => some x
  | _ => none

/-- The cluster that a command names. -/
def cluster? : Instr → Option Nat
  | .clPerfSel x _ => some x
  | .routePart x => some x
  | .sramScrub ⟨.cluster x _, _⟩ => some x
  | _ => none

/-- The fabric port that a command names. -/
def port? : Instr → Option Nat
  | .forward x _ => some x
  | .linkReplay x _ => some x
  | .replayWindowExpiry x => some x
  | .laneFail x _ => some x
  | .portTrained x _ => some x
  | .portRetry x => some x
  | .halfRetrain x => some x
  | .pealArm x _ => some x
  | .pealAck x _ => some x
  | .pealDisarm x _ => some x
  | .gong x _ => some x
  | .sync x _ => some x
  | .follow x _ => some x
  | _ => none

/-- The packet that a command carries. -/
def packet? : Instr → Option Packet
  | .exchange _ x => some x
  | .collective _ x => some x
  | .load _ x => some x
  | .store _ x => some x
  | .flagStore _ x => some x
  | .atomic _ x => some x
  | .put _ x => some x
  | .get _ x => some x
  | .loadResp _ x => some x
  | .atomicResp _ x => some x
  | .getData _ x => some x
  | .ack _ x => some x
  | .refuse _ x => some x
  | .forward _ x => some x
  | .pealArm _ x => some x
  | .pealAck _ x => some x
  | .pealDisarm _ x => some x
  | .gong _ x => some x
  | .sync _ x => some x
  | .follow _ x => some x
  | .probe _ x => some x
  | _ => none

/-- The management request that a command carries. -/
def request? : Instr → Option MgmtReq
  | .getState x => some x
  | .setPhysId x => some x
  | .tableWrite x => some x
  | .tableReady x => some x
  | .tableRead x => some x
  | .setPower x => some x
  | .setThermal x => some x
  | .setShares x => some x
  | .getSnapshot x => some x
  | .mgmtAttest x => some x
  | .attestRead x => some x
  | .reset x => some x
  | .portConfig x => some x
  | .mgmtReservedCommand x => some x
  | _ => none

/-- The shape of a well-formed command: a cell of the 512, a cluster of the 16, a port of the 128 (R14, R310), a packet whose
payload has its header's length and at most 4,096 bytes (R323), a management request of at most 1,088 argument bytes (R476). -/
def Statement (i : Instr) : Prop :=
  i.wf = true →
    (∀ c, cell? i = some c → c < 512) ∧ (∀ c, cluster? i = some c → c < 16) ∧ (∀ p, port? i = some p → p < 128) ∧
    (∀ p, packet? i = some p → p.payload.length = p.length.toNat % 8192 ∧ p.payload.length ≤ 4096) ∧
    (∀ q, request? i = some q → q.args.length ≤ 1088)


/-- A command that names none of them. -/
theorem plain {i : Instr} (a : cell? i = none) (b : cluster? i = none) (c : port? i = none) (d : packet? i = none)
    (e : request? i = none) : Statement i := by
  intro _
  simp [a, b, c, d, e]

/-- A command that names a cell. -/
theorem ofCell {i : Instr} {x : Nat} (a : cell? i = some x) (b : cluster? i = none) (c : port? i = none) (d : packet? i = none)
    (e : request? i = none) (w : i.wf = true → wfCell x = true) : Statement i := by
  intro h
  have := of_decide_eq_true (w h)
  simp [a, b, c, d, e, this]

/-- A command that names a cluster. -/
theorem ofCluster {i : Instr} {x : Nat} (a : cell? i = none) (b : cluster? i = some x) (c : port? i = none)
    (d : packet? i = none) (e : request? i = none) (w : i.wf = true → wfCluster x = true) : Statement i := by
  intro h
  have := of_decide_eq_true (w h)
  simp [a, b, c, d, e, this]

/-- A command that names a port. -/
theorem ofPort {i : Instr} {x : Nat} (a : cell? i = none) (b : cluster? i = none) (c : port? i = some x)
    (d : packet? i = none) (e : request? i = none) (w : i.wf = true → wfPort x = true) : Statement i := by
  intro h
  have := of_decide_eq_true (w h)
  simp [a, b, c, d, e, this]

/-- A command that carries a packet. -/
theorem ofPacket {i : Instr} {p : Packet} (a : cell? i = none) (b : cluster? i = none) (c : port? i = none)
    (d : packet? i = some p) (e : request? i = none) (w : i.wf = true → wfPacket p = true) : Statement i := by
  intro h
  have := w h
  simp only [wfPacket, Bool.and_eq_true, decide_eq_true_eq] at this
  simp [a, b, c, d, e, this.1, this.1 ▸ this.2]

/-- A command that names a port and carries a packet. -/
theorem ofHop {i : Instr} {x : Nat} {p : Packet} (a : cell? i = none) (b : cluster? i = none) (c : port? i = some x)
    (d : packet? i = some p) (e : request? i = none) (w : i.wf = true → wfPort x = true ∧ wfPacket p = true) :
    Statement i := by
  intro h
  have := w h
  simp only [wfPort, wfPacket, Bool.and_eq_true, decide_eq_true_eq] at this
  simp [a, b, c, d, e, this.1, this.2.1, this.2.1 ▸ this.2.2]

/-- A command that carries a management request. -/
theorem ofRequest {i : Instr} {q : MgmtReq} (a : cell? i = none) (b : cluster? i = none) (c : port? i = none)
    (d : packet? i = none) (e : request? i = some q) (w : i.wf = true → wfMgmt q = true) : Statement i := by
  intro h
  have := of_decide_eq_true (w h)
  simp [a, b, c, d, e, this]

theorem identify : Statement .identify := plain rfl rfl rfl rfl rfl
theorem getCaps : Statement .getCaps := plain rfl rfl rfl rfl rfl
theorem setConfig : Statement .setConfig := plain rfl rfl rfl rfl rfl
theorem jobOpen : Statement .jobOpen := plain rfl rfl rfl rfl rfl
theorem jobClose : Statement .jobClose := plain rfl rfl rfl rfl rfl
theorem loadImage : Statement .loadImage := plain rfl rfl rfl rfl rfl
theorem bind : Statement .bind := plain rfl rfl rfl rfl rfl
theorem grant : Statement .grant := plain rfl rfl rfl rfl rfl
theorem abortStep : Statement .abortStep := plain rfl rfl rfl rfl rfl
theorem abortJob : Statement .abortJob := plain rfl rfl rfl rfl rfl
theorem treeSet : Statement .treeSet := plain rfl rfl rfl rfl rfl
theorem peal : Statement .peal := plain rfl rfl rfl rfl rfl
theorem objDefine : Statement .objDefine := plain rfl rfl rfl rfl rfl
theorem promote : Statement .promote := plain rfl rfl rfl rfl rfl
theorem evict : Statement .evict := plain rfl rfl rfl rfl rfl
theorem pin : Statement .pin := plain rfl rfl rfl rfl rfl
theorem unpin : Statement .unpin := plain rfl rfl rfl rfl rfl
theorem poolConfig : Statement .poolConfig := plain rfl rfl rfl rfl rfl
theorem poolAlloc : Statement .poolAlloc := plain rfl rfl rfl rfl rfl
theorem poolShare : Statement .poolShare := plain rfl rfl rfl rfl rfl
theorem poolRelease : Statement .poolRelease := plain rfl rfl rfl rfl rfl
theorem poolFree : Statement .poolFree := plain rfl rfl rfl rfl rfl
theorem poolStatus : Statement .poolStatus := plain rfl rfl rfl rfl rfl
theorem winSet : Statement .winSet := plain rfl rfl rfl rfl rfl
theorem winClear : Statement .winClear := plain rfl rfl rfl rfl rfl
theorem winRead : Statement .winRead := plain rfl rfl rfl rfl rfl
theorem flashStatus : Statement .flashStatus := plain rfl rfl rfl rfl rfl
theorem flashFormat : Statement .flashFormat := plain rfl rfl rfl rfl rfl
theorem flashFormatDone (factoryBad : List Nat) : Statement (.flashFormatDone factoryBad) := plain rfl rfl rfl rfl rfl
theorem extentCreate : Statement .extentCreate := plain rfl rfl rfl rfl rfl
theorem extentWrite : Statement .extentWrite := plain rfl rfl rfl rfl rfl
theorem extentSeal : Statement .extentSeal := plain rfl rfl rfl rfl rfl
theorem extentSealDone (extent : Nat) : Statement (.extentSealDone extent) := plain rfl rfl rfl rfl rfl
theorem extentDelete : Statement .extentDelete := plain rfl rfl rfl rfl rfl
theorem telSnapshot : Statement .telSnapshot := plain rfl rfl rfl rfl rfl
theorem attest : Statement .attest := plain rfl rfl rfl rfl rfl
theorem debugTraceStart : Statement .debugTraceStart := plain rfl rfl rfl rfl rfl
theorem debugTraceStop : Statement .debugTraceStop := plain rfl rfl rfl rfl rfl
theorem debugTraceStatus : Statement .debugTraceStatus := plain rfl rfl rfl rfl rfl
theorem debugMemread (h : Health) : Statement (.debugMemread h) := plain rfl rfl rfl rfl rfl
theorem reservedOpcode : Statement .reservedOpcode := plain rfl rfl rfl rfl rfl
theorem cmdDoorbell (v : Word) : Statement (.cmdDoorbell v) := plain rfl rfl rfl rfl rfl
theorem loadRecord (v : Word) : Statement (.loadRecord v) := plain rfl rfl rfl rfl rfl
theorem cplHead (v : Word) : Statement (.cplHead v) := plain rfl rfl rfl rfl rfl
theorem evtHead (v : Word) : Statement (.evtHead v) := plain rfl rfl rfl rfl rfl
theorem rptHead (v : Word) : Statement (.rptHead v) := plain rfl rfl rfl rfl rfl
theorem evtClear (v : Word) : Statement (.evtClear v) := plain rfl rfl rfl rfl rfl
theorem evtEnable (v : Word) : Statement (.evtEnable v) := plain rfl rfl rfl rfl rfl
theorem resetCtl (v : Word) : Statement (.resetCtl v) := plain rfl rfl rfl rfl rfl
theorem bootSramWrite (ofs : Nat) (v : Word) : Statement (.bootSramWrite ofs v) := plain rfl rfl rfl rfl rfl
theorem bootDoorbell (v : Word) : Statement (.bootDoorbell v) := plain rfl rfl rfl rfl rfl
theorem tmxSel (i : Nat) (v : Word) : Statement (.tmxSel i v) := plain rfl rfl rfl rfl rfl
theorem tmxCtl (v : Word) : Statement (.tmxCtl v) := plain rfl rfl rfl rfl rfl
theorem clPerfSel (cluster : Nat) (v : Word) : Statement (.clPerfSel cluster v) := ofCluster rfl rfl rfl rfl rfl id
theorem ecsWrite (ofs : Nat) (data : List Byte) : Statement (.ecsWrite ofs data) := plain rfl rfl rfl rfl rfl
theorem memCpl (addr : Nat) (user : MemUser) (answer : MemAnswer) : Statement (.memCpl addr user answer) :=
  plain rfl rfl rfl rfl rfl
theorem hostModuleFail : Statement .hostModuleFail := plain rfl rfl rfl rfl rfl
theorem pwrgdRise : Statement .pwrgdRise := plain rfl rfl rfl rfl rfl
theorem pwrgdFall : Statement .pwrgdFall := plain rfl rfl rfl rfl rfl
theorem romWait : Statement .romWait := plain rfl rfl rfl rfl rfl
theorem romVerify : Statement .romVerify := plain rfl rfl rfl rfl rfl
theorem firmwareVerify : Statement .firmwareVerify := plain rfl rfl rfl rfl rfl
theorem ready (badCells : List Nat) : Statement (.ready badCells) := plain rfl rfl rfl rfl rfl
theorem firmwareInitFail (code : Nat) : Statement (.firmwareInitFail code) := plain rfl rfl rfl rfl rfl
theorem mountEnd (r : MountResult) : Statement (.mountEnd r) := plain rfl rfl rfl rfl rfl
theorem stepArm : Statement .stepArm := plain rfl rfl rfl rfl rfl
theorem stepRun : Statement .stepRun := plain rfl rfl rfl rfl rfl
theorem launchStrobe : Statement .launchStrobe := plain rfl rfl rfl rfl rfl
theorem stepComplete : Statement .stepComplete := plain rfl rfl rfl rfl rfl
theorem stepAbort : Statement .stepAbort := plain rfl rfl rfl rfl rfl
theorem stepHung : Statement .stepHung := plain rfl rfl rfl rfl rfl
theorem descriptorFetch (cell : Nat) : Statement (.descriptorFetch cell) := ofCell rfl rfl rfl rfl rfl id
theorem taskComplete (cell : Nat) (index : Nat) : Statement (.taskComplete cell index) :=
  ofCell rfl rfl rfl rfl rfl fun h => (Bool.and_eq_true_iff.1 h).1
theorem mx (cell : Nat) (h : Health) : Statement (.mx cell h) := ofCell rfl rfl rfl rfl rfl id
theorem cp (cell : Nat) (h : Health) : Statement (.cp cell h) := ofCell rfl rfl rfl rfl rfl id
theorem add (cell : Nat) (h : Health) : Statement (.add cell h) := ofCell rfl rfl rfl rfl rfl id
theorem sub (cell : Nat) (h : Health) : Statement (.sub cell h) := ofCell rfl rfl rfl rfl rfl id
theorem mul (cell : Nat) (h : Health) : Statement (.mul cell h) := ofCell rfl rfl rfl rfl rfl id
theorem fma (cell : Nat) (h : Health) : Statement (.fma cell h) := ofCell rfl rfl rfl rfl rfl id
theorem div (cell : Nat) (h : Health) : Statement (.div cell h) := ofCell rfl rfl rfl rfl rfl id
theorem max (cell : Nat) (h : Health) : Statement (.max cell h) := ofCell rfl rfl rfl rfl rfl id
theorem min (cell : Nat) (h : Health) : Statement (.min cell h) := ofCell rfl rfl rfl rfl rfl id
theorem unary (cell : Nat) (h : Health) : Statement (.unary cell h) := ofCell rfl rfl rfl rfl rfl id
theorem cmp (cell : Nat) (h : Health) : Statement (.cmp cell h) := ofCell rfl rfl rfl rfl rfl id
theorem select (cell : Nat) (h : Health) : Statement (.select cell h) := ofCell rfl rfl rfl rfl rfl id
theorem reduce (cell : Nat) (h : Health) : Statement (.reduce cell h) := ofCell rfl rfl rfl rfl rfl id
theorem scan (cell : Nat) (h : Health) : Statement (.scan cell h) := ofCell rfl rfl rfl rfl rfl id
theorem table (cell : Nat) (h : Health) : Statement (.table cell h) := ofCell rfl rfl rfl rfl rfl id
theorem rmsnorm (cell : Nat) (h : Health) : Statement (.rmsnorm cell h) := ofCell rfl rfl rfl rfl rfl id
theorem layernorm (cell : Nat) (h : Health) : Statement (.layernorm cell h) := ofCell rfl rfl rfl rfl rfl id
theorem softmax (cell : Nat) (h : Health) : Statement (.softmax cell h) := ofCell rfl rfl rfl rfl rfl id
theorem convert (cell : Nat) (h : Health) : Statement (.convert cell h) := ofCell rfl rfl rfl rfl rfl id
theorem compress (cell : Nat) (h : Health) : Statement (.compress cell h) := ofCell rfl rfl rfl rfl rfl id
theorem expand (cell : Nat) (h : Health) : Statement (.expand cell h) := ofCell rfl rfl rfl rfl rfl id
theorem compress24 (cell : Nat) (h : Health) : Statement (.compress24 cell h) := ofCell rfl rfl rfl rfl rfl id
theorem gather (cell : Nat) (h : Health) : Statement (.gather cell h) := ofCell rfl rfl rfl rfl rfl id
theorem scatter (cell : Nat) (h : Health) : Statement (.scatter cell h) := ofCell rfl rfl rfl rfl rfl id
theorem scatterAdd (cell : Nat) (h : Health) : Statement (.scatterAdd cell h) := ofCell rfl rfl rfl rfl rfl id
theorem route (cell : Nat) (h : Health) : Statement (.route cell h) := ofCell rfl rfl rfl rfl rfl id
theorem accept (cell : Nat) (h : Health) : Statement (.accept cell h) := ofCell rfl rfl rfl rfl rfl id
theorem spill (cell : Nat) (h : Health) : Statement (.spill cell h) := ofCell rfl rfl rfl rfl rfl id
theorem routePart (cluster : Nat) : Statement (.routePart cluster) := ofCluster rfl rfl rfl rfl rfl id
theorem sendBids (cell : Nat) (h : Health) : Statement (.sendBids cell h) := ofCell rfl rfl rfl rfl rfl id
theorem sendAccepts (cell : Nat) (h : Health) : Statement (.sendAccepts cell h) := ofCell rfl rfl rfl rfl rfl id
theorem sendRows (cell : Nat) (h : Health) : Statement (.sendRows cell h) := ofCell rfl rfl rfl rfl rfl id
theorem sendEager (cell : Nat) (h : Health) : Statement (.sendEager cell h) := ofCell rfl rfl rfl rfl rfl id
theorem sendAnswers (cell : Nat) (h : Health) : Statement (.sendAnswers cell h) := ofCell rfl rfl rfl rfl rfl id
theorem allReduce (cell : Nat) (h : Health) : Statement (.allReduce cell h) := ofCell rfl rfl rfl rfl rfl id
theorem reduceScatter (cell : Nat) (h : Health) : Statement (.reduceScatter cell h) := ofCell rfl rfl rfl rfl rfl id
theorem collectiveSum (cell : Nat) (index : Nat) (h : Health) : Statement (.collectiveSum cell index h) :=
  ofCell rfl rfl rfl rfl rfl fun h => (Bool.and_eq_true_iff.1 h).1
theorem fmLoad (cell : Nat) (h : Health) : Statement (.fmLoad cell h) := ofCell rfl rfl rfl rfl rfl id
theorem fmStore (cell : Nat) (h : Health) : Statement (.fmStore cell h) := ofCell rfl rfl rfl rfl rfl id
theorem fmAtomic (cell : Nat) (h : Health) : Statement (.fmAtomic cell h) := ofCell rfl rfl rfl rfl rfl id
theorem fmPut (cell : Nat) (h : Health) : Statement (.fmPut cell h) := ofCell rfl rfl rfl rfl rfl id
theorem fmGet (cell : Nat) (h : Health) : Statement (.fmGet cell h) := ofCell rfl rfl rfl rfl rfl id
theorem fmFlagStore (cell : Nat) (h : Health) : Statement (.fmFlagStore cell h) := ofCell rfl rfl rfl rfl rfl id
theorem waitRel (cell : Nat) (h : Health) : Statement (.waitRel cell h) := ofCell rfl rfl rfl rfl rfl id
theorem mark (cell : Nat) (h : Health) : Statement (.mark cell h) := ofCell rfl rfl rfl rfl rfl id
theorem ensure (cell : Nat) (h : Health) : Statement (.ensure cell h) := ofCell rfl rfl rfl rfl rfl id
theorem prefetch (cell : Nat) (h : Health) : Statement (.prefetch cell h) := ofCell rfl rfl rfl rfl rfl id
theorem promotionStart (obj : Nat) (tier : Nat) : Statement (.promotionStart obj tier) := plain rfl rfl rfl rfl rfl
theorem promotionEnd (obj : Nat) (tier : Nat) (r : PromoteResult) : Statement (.promotionEnd obj tier r) :=
  plain rfl rfl rfl rfl rfl
theorem evictionEnd (obj : Nat) (tier : Nat) : Statement (.evictionEnd obj tier) := plain rfl rfl rfl rfl rfl
theorem exchange (from? : Option Nat) (p : Packet) : Statement (.exchange from? p) :=
  ofPacket rfl rfl rfl rfl rfl fun h => (Bool.and_eq_true_iff.1 h).2
theorem messageLanded (m : MsgKey) : Statement (.messageLanded m) := plain rfl rfl rfl rfl rfl
theorem collective (from? : Option Nat) (p : Packet) : Statement (.collective from? p) :=
  ofPacket rfl rfl rfl rfl rfl fun h => (Bool.and_eq_true_iff.1 h).2
theorem load (from? : Option Nat) (p : Packet) : Statement (.load from? p) :=
  ofPacket rfl rfl rfl rfl rfl fun h => (Bool.and_eq_true_iff.1 h).2
theorem store (from? : Option Nat) (p : Packet) : Statement (.store from? p) :=
  ofPacket rfl rfl rfl rfl rfl fun h => (Bool.and_eq_true_iff.1 h).2
theorem flagStore (from? : Option Nat) (p : Packet) : Statement (.flagStore from? p) :=
  ofPacket rfl rfl rfl rfl rfl fun h => (Bool.and_eq_true_iff.1 h).2
theorem atomic (from? : Option Nat) (p : Packet) : Statement (.atomic from? p) :=
  ofPacket rfl rfl rfl rfl rfl fun h => (Bool.and_eq_true_iff.1 h).2
theorem put (from? : Option Nat) (p : Packet) : Statement (.put from? p) :=
  ofPacket rfl rfl rfl rfl rfl fun h => (Bool.and_eq_true_iff.1 h).2
theorem get (from? : Option Nat) (p : Packet) : Statement (.get from? p) :=
  ofPacket rfl rfl rfl rfl rfl fun h => (Bool.and_eq_true_iff.1 h).2
theorem loadResp (from? : Option Nat) (p : Packet) : Statement (.loadResp from? p) :=
  ofPacket rfl rfl rfl rfl rfl fun h => (Bool.and_eq_true_iff.1 h).2
theorem atomicResp (from? : Option Nat) (p : Packet) : Statement (.atomicResp from? p) :=
  ofPacket rfl rfl rfl rfl rfl fun h => (Bool.and_eq_true_iff.1 h).2
theorem getData (from? : Option Nat) (p : Packet) : Statement (.getData from? p) :=
  ofPacket rfl rfl rfl rfl rfl fun h => (Bool.and_eq_true_iff.1 h).2
theorem ack (from? : Option Nat) (p : Packet) : Statement (.ack from? p) :=
  ofPacket rfl rfl rfl rfl rfl fun h => (Bool.and_eq_true_iff.1 h).2
theorem refuse (from? : Option Nat) (p : Packet) : Statement (.refuse from? p) :=
  ofPacket rfl rfl rfl rfl rfl fun h => (Bool.and_eq_true_iff.1 h).2
theorem lineWriteBack (line : Nat) : Statement (.lineWriteBack line) := plain rfl rfl rfl rfl rfl
theorem e2eRetry (dst : Nat) (psn : BitVec 32) : Statement (.e2eRetry dst psn) := plain rfl rfl rfl rfl rfl
theorem cumAck (dst : Nat) : Statement (.cumAck dst) := plain rfl rfl rfl rfl rfl
theorem packetSend (i : Nat) (views : List LinkView) : Statement (.packetSend i views) := plain rfl rfl rfl rfl rfl
theorem forward (port : Nat) (p : Packet) : Statement (.forward port p) :=
  ofHop rfl rfl rfl rfl rfl fun h => Bool.and_eq_true_iff.1 h
theorem linkReplay (port : Nat) (e : LinkError) : Statement (.linkReplay port e) := ofPort rfl rfl rfl rfl rfl id
theorem replayWindowExpiry (port : Nat) : Statement (.replayWindowExpiry port) := ofPort rfl rfl rfl rfl rfl id
theorem laneFail (port : Nat) (partial? : Bool) : Statement (.laneFail port partial?) := ofPort rfl rfl rfl rfl rfl id
theorem portTrained (port : Nat) (r : Training) : Statement (.portTrained port r) := ofPort rfl rfl rfl rfl rfl id
theorem portRetry (port : Nat) : Statement (.portRetry port) := ofPort rfl rfl rfl rfl rfl id
theorem halfRetrain (port : Nat) : Statement (.halfRetrain port) := ofPort rfl rfl rfl rfl rfl id
theorem pealArm (port : Nat) (p : Packet) : Statement (.pealArm port p) :=
  ofHop rfl rfl rfl rfl rfl fun h => Bool.and_eq_true_iff.1 h
theorem pealAck (port : Nat) (p : Packet) : Statement (.pealAck port p) :=
  ofHop rfl rfl rfl rfl rfl fun h => Bool.and_eq_true_iff.1 h
theorem pealDisarm (port : Nat) (p : Packet) : Statement (.pealDisarm port p) :=
  ofHop rfl rfl rfl rfl rfl fun h => Bool.and_eq_true_iff.1 h
theorem armAcknowledge : Statement .armAcknowledge := plain rfl rfl rfl rfl rfl
theorem ackDeadline : Statement .ackDeadline := plain rfl rfl rfl rfl rfl
theorem decisionPoint : Statement .decisionPoint := plain rfl rfl rfl rfl rfl
theorem gong (port : Nat) (p : Packet) : Statement (.gong port p) :=
  ofHop rfl rfl rfl rfl rfl fun h => Bool.and_eq_true_iff.1 h
theorem syncSend : Statement .syncSend := plain rfl rfl rfl rfl rfl
theorem sync (port : Nat) (p : Packet) : Statement (.sync port p) :=
  ofHop rfl rfl rfl rfl rfl fun h => Bool.and_eq_true_iff.1 h
theorem follow (port : Nat) (p : Packet) : Statement (.follow port p) :=
  ofHop rfl rfl rfl rfl rfl fun h => Bool.and_eq_true_iff.1 h
theorem probe (from? : Option Nat) (p : Packet) : Statement (.probe from? p) :=
  ofPacket rfl rfl rfl rfl rfl fun h => (Bool.and_eq_true_iff.1 h).2
theorem codewordRead (w : CodewordAt) (result : Ladder) : Statement (.codewordRead w result) :=
  plain rfl rfl rfl rfl rfl
theorem relocationEnd (block : Nat) : Statement (.relocationEnd block) := plain rfl rfl rfl rfl rfl
theorem readCountCheckpoint : Statement .readCountCheckpoint := plain rfl rfl rfl rfl rfl
theorem retentionPatrol (finding : PatrolFinding) : Statement (.retentionPatrol finding) := plain rfl rfl rfl rfl rfl
theorem wearLevel (die : Nat) : Statement (.wearLevel die) := plain rfl rfl rfl rfl rfl
theorem dieRetire (die : Nat) : Statement (.dieRetire die) := plain rfl rfl rfl rfl rfl
theorem hbmScrub (addr : Nat) (found : ScrubFinding) : Statement (.hbmScrub addr found) := plain rfl rfl rfl rfl rfl
theorem sramScrub (finding : SramFinding) : Statement (.sramScrub finding) := by
  obtain ⟨site, found⟩ := finding
  cases site with
  | cluster k => exact ofCluster (x := k) rfl rfl rfl rfl rfl id
  | conductor => exact plain rfl rfl rfl rfl rfl
  | portDie n => exact plain rfl rfl rfl rfl rfl
theorem hbmRetrain (stack : Nat) (ok : Bool) : Statement (.hbmRetrain stack ok) := plain rfl rfl rfl rfl rfl
theorem cellTest (e : TestEnd) : Statement (.cellTest e) := plain rfl rfl rfl rfl rfl
theorem firmwareWatchdog : Statement .firmwareWatchdog := plain rfl rfl rfl rfl rfl
theorem refclkLoss (clk : RefClk) : Statement (.refclkLoss clk) := plain rfl rfl rfl rfl rfl
theorem hbmStackLost (stack : Nat) : Statement (.hbmStackLost stack) := plain rfl rfl rfl rfl rfl
theorem portDieLost (dieB : Bool) : Statement (.portDieLost dieB) := plain rfl rfl rfl rfl rfl
theorem sensorSample (x : Sample) : Statement (.sensorSample x) := plain rfl rfl rfl rfl rfl
theorem governorStep (acked : AvsAck) : Statement (.governorStep acked) := plain rfl rfl rfl rfl rfl
theorem telUpdate : Statement .telUpdate := plain rfl rfl rfl rfl rfl
theorem getState (q : MgmtReq) : Statement (.getState q) := ofRequest rfl rfl rfl rfl rfl id
theorem setPhysId (q : MgmtReq) : Statement (.setPhysId q) := ofRequest rfl rfl rfl rfl rfl id
theorem tableWrite (q : MgmtReq) : Statement (.tableWrite q) := ofRequest rfl rfl rfl rfl rfl id
theorem tableReady (q : MgmtReq) : Statement (.tableReady q) := ofRequest rfl rfl rfl rfl rfl id
theorem tableRead (q : MgmtReq) : Statement (.tableRead q) := ofRequest rfl rfl rfl rfl rfl id
theorem setPower (q : MgmtReq) : Statement (.setPower q) := ofRequest rfl rfl rfl rfl rfl id
theorem setThermal (q : MgmtReq) : Statement (.setThermal q) := ofRequest rfl rfl rfl rfl rfl id
theorem setShares (q : MgmtReq) : Statement (.setShares q) := ofRequest rfl rfl rfl rfl rfl id
theorem getSnapshot (q : MgmtReq) : Statement (.getSnapshot q) := ofRequest rfl rfl rfl rfl rfl id
theorem mgmtAttest (q : MgmtReq) : Statement (.mgmtAttest q) := ofRequest rfl rfl rfl rfl rfl id
theorem attestRead (q : MgmtReq) : Statement (.attestRead q) := ofRequest rfl rfl rfl rfl rfl id
theorem reset (q : MgmtReq) : Statement (.reset q) := ofRequest rfl rfl rfl rfl rfl id
theorem portConfig (q : MgmtReq) : Statement (.portConfig q) := ofRequest rfl rfl rfl rfl rfl id
theorem mgmtReservedCommand (q : MgmtReq) : Statement (.mgmtReservedCommand q) := ofRequest rfl rfl rfl rfl rfl id
theorem mctpControl (sender : MgmtSender) (code : Nat) : Statement (.mctpControl sender code) :=
  plain rfl rfl rfl rfl rfl
theorem pldmRequest (sender : MgmtSender) (q : PldmReq) : Statement (.pldmRequest sender q) :=
  plain rfl rfl rfl rfl rfl
theorem extest (drive : List Bool) : Statement (.extest drive) := plain rfl rfl rfl rfl rfl
theorem samplePreload (preload : List Bool) : Statement (.samplePreload preload) := plain rfl rfl rfl rfl rfl
theorem idcode : Statement .idcode := plain rfl rfl rfl rfl rfl
theorem clamp : Statement .clamp := plain rfl rfl rfl rfl rfl
theorem highz : Statement .highz := plain rfl rfl rfl rfl rfl
theorem ijtag : Statement .ijtag := plain rfl rfl rfl rfl rfl
theorem bypass (code : BitVec 8) : Statement (.bypass code) := plain rfl rfl rfl rfl rfl
theorem testLogicReset : Statement .testLogicReset := plain rfl rfl rfl rfl rfl
theorem vccqNandLoss : Statement .vccqNandLoss := plain rfl rfl rfl rfl rfl
theorem nandProgramEnd (block : Nat) (ok : Bool) : Statement (.nandProgramEnd block ok) := plain rfl rfl rfl rfl rfl
theorem nandEraseEnd (block : Nat) (ok : Bool) : Statement (.nandEraseEnd block ok) := plain rfl rfl rfl rfl rfl
theorem portDieModuleFail (dieB : Bool) : Statement (.portDieModuleFail dieB) := plain rfl rfl rfl rfl rfl
theorem adapterRetry : Statement .adapterRetry := plain rfl rfl rfl rfl rfl

end Sys2Proof.Laws.Shape
end

