-- ==== Sys2Proof/Laws/State.lean ====
section
/-! SUPPORT. State's named updates, field by field: what each writes, and that it leaves every other field alone. -/

namespace Sys2Proof.Machine

@[simp] theorem setCell_pending (c : Nat) (x : Cell) (s : State) :
    (setCell c x s).pending = s.pending := rfl
@[simp] theorem setCell_mb (c : Nat) (x : Cell) (s : State) :
    (setCell c x s).mb = s.mb := rfl
@[simp] theorem setCell_boot (c : Nat) (x : Cell) (s : State) :
    (setCell c x s).boot = s.boot := rfl
@[simp] theorem setCell_mem (c : Nat) (x : Cell) (s : State) :
    (setCell c x s).mem = s.mem := rfl
@[simp] theorem setCell_unbacked (c : Nat) (x : Cell) (s : State) :
    (setCell c x s).unbacked = s.unbacked := rfl
@[simp] theorem setCell_tiles (c : Nat) (x : Cell) (s : State) :
    (setCell c x s).tiles = s.tiles := rfl
@[simp] theorem setCell_ctr (c : Nat) (x : Cell) (s : State) :
    (setCell c x s).ctr = s.ctr := rfl
@[simp] theorem setCell_job (c : Nat) (x : Cell) (s : State) :
    (setCell c x s).job = s.job := rfl
@[simp] theorem setCell_ctl (c : Nat) (x : Cell) (s : State) :
    (setCell c x s).ctl = s.ctl := rfl
@[simp] theorem setCell_exch (c : Nat) (x : Cell) (s : State) :
    (setCell c x s).exch = s.exch := rfl
@[simp] theorem setCell_tier (c : Nat) (x : Cell) (s : State) :
    (setCell c x s).tier = s.tier := rfl
@[simp] theorem setCell_flash (c : Nat) (x : Cell) (s : State) :
    (setCell c x s).flash = s.flash := rfl
@[simp] theorem setCell_pools (c : Nat) (x : Cell) (s : State) :
    (setCell c x s).pools = s.pools := rfl
@[simp] theorem setCell_rem (c : Nat) (x : Cell) (s : State) :
    (setCell c x s).rem = s.rem := rfl
@[simp] theorem setCell_fab (c : Nat) (x : Cell) (s : State) :
    (setCell c x s).fab = s.fab := rfl
@[simp] theorem setCell_time (c : Nat) (x : Cell) (s : State) :
    (setCell c x s).time = s.time := rfl
@[simp] theorem setCell_launch (c : Nat) (x : Cell) (s : State) :
    (setCell c x s).launch = s.launch := rfl
@[simp] theorem setCell_mgmt (c : Nat) (x : Cell) (s : State) :
    (setCell c x s).mgmt = s.mgmt := rfl
@[simp] theorem setCell_errs (c : Nat) (x : Cell) (s : State) :
    (setCell c x s).errs = s.errs := rfl
@[simp] theorem setCell_dbg (c : Nat) (x : Cell) (s : State) :
    (setCell c x s).dbg = s.dbg := rfl
@[simp] theorem setCell_pins (c : Nat) (x : Cell) (s : State) :
    (setCell c x s).pins = s.pins := rfl

@[simp] theorem depSet_pending (cell ctr v : Nat) (s : State) :
    (depSet cell ctr v s).pending = s.pending := rfl
@[simp] theorem depSet_mb (cell ctr v : Nat) (s : State) :
    (depSet cell ctr v s).mb = s.mb := rfl
@[simp] theorem depSet_boot (cell ctr v : Nat) (s : State) :
    (depSet cell ctr v s).boot = s.boot := rfl
@[simp] theorem depSet_mem (cell ctr v : Nat) (s : State) :
    (depSet cell ctr v s).mem = s.mem := rfl
@[simp] theorem depSet_unbacked (cell ctr v : Nat) (s : State) :
    (depSet cell ctr v s).unbacked = s.unbacked := rfl
@[simp] theorem depSet_tiles (cell ctr v : Nat) (s : State) :
    (depSet cell ctr v s).tiles = s.tiles := rfl
@[simp] theorem depSet_cells (cell ctr v : Nat) (s : State) :
    (depSet cell ctr v s).cells = s.cells := rfl
@[simp] theorem depSet_job (cell ctr v : Nat) (s : State) :
    (depSet cell ctr v s).job = s.job := rfl
@[simp] theorem depSet_ctl (cell ctr v : Nat) (s : State) :
    (depSet cell ctr v s).ctl = s.ctl := rfl
@[simp] theorem depSet_exch (cell ctr v : Nat) (s : State) :
    (depSet cell ctr v s).exch = s.exch := rfl
@[simp] theorem depSet_tier (cell ctr v : Nat) (s : State) :
    (depSet cell ctr v s).tier = s.tier := rfl
@[simp] theorem depSet_flash (cell ctr v : Nat) (s : State) :
    (depSet cell ctr v s).flash = s.flash := rfl
@[simp] theorem depSet_pools (cell ctr v : Nat) (s : State) :
    (depSet cell ctr v s).pools = s.pools := rfl
@[simp] theorem depSet_rem (cell ctr v : Nat) (s : State) :
    (depSet cell ctr v s).rem = s.rem := rfl
@[simp] theorem depSet_fab (cell ctr v : Nat) (s : State) :
    (depSet cell ctr v s).fab = s.fab := rfl
@[simp] theorem depSet_time (cell ctr v : Nat) (s : State) :
    (depSet cell ctr v s).time = s.time := rfl
@[simp] theorem depSet_launch (cell ctr v : Nat) (s : State) :
    (depSet cell ctr v s).launch = s.launch := rfl
@[simp] theorem depSet_mgmt (cell ctr v : Nat) (s : State) :
    (depSet cell ctr v s).mgmt = s.mgmt := rfl
@[simp] theorem depSet_errs (cell ctr v : Nat) (s : State) :
    (depSet cell ctr v s).errs = s.errs := rfl
@[simp] theorem depSet_dbg (cell ctr v : Nat) (s : State) :
    (depSet cell ctr v s).dbg = s.dbg := rfl
@[simp] theorem depSet_pins (cell ctr v : Nat) (s : State) :
    (depSet cell ctr v s).pins = s.pins := rfl

@[simp] theorem tallyAdd_pending (cl ctr n : Nat) (s : State) :
    (tallyAdd cl ctr n s).pending = s.pending := rfl
@[simp] theorem tallyAdd_mb (cl ctr n : Nat) (s : State) :
    (tallyAdd cl ctr n s).mb = s.mb := rfl
@[simp] theorem tallyAdd_boot (cl ctr n : Nat) (s : State) :
    (tallyAdd cl ctr n s).boot = s.boot := rfl
@[simp] theorem tallyAdd_mem (cl ctr n : Nat) (s : State) :
    (tallyAdd cl ctr n s).mem = s.mem := rfl
@[simp] theorem tallyAdd_unbacked (cl ctr n : Nat) (s : State) :
    (tallyAdd cl ctr n s).unbacked = s.unbacked := rfl
@[simp] theorem tallyAdd_tiles (cl ctr n : Nat) (s : State) :
    (tallyAdd cl ctr n s).tiles = s.tiles := rfl
@[simp] theorem tallyAdd_cells (cl ctr n : Nat) (s : State) :
    (tallyAdd cl ctr n s).cells = s.cells := rfl
@[simp] theorem tallyAdd_job (cl ctr n : Nat) (s : State) :
    (tallyAdd cl ctr n s).job = s.job := rfl
@[simp] theorem tallyAdd_ctl (cl ctr n : Nat) (s : State) :
    (tallyAdd cl ctr n s).ctl = s.ctl := rfl
@[simp] theorem tallyAdd_exch (cl ctr n : Nat) (s : State) :
    (tallyAdd cl ctr n s).exch = s.exch := rfl
@[simp] theorem tallyAdd_tier (cl ctr n : Nat) (s : State) :
    (tallyAdd cl ctr n s).tier = s.tier := rfl
@[simp] theorem tallyAdd_flash (cl ctr n : Nat) (s : State) :
    (tallyAdd cl ctr n s).flash = s.flash := rfl
@[simp] theorem tallyAdd_pools (cl ctr n : Nat) (s : State) :
    (tallyAdd cl ctr n s).pools = s.pools := rfl
@[simp] theorem tallyAdd_rem (cl ctr n : Nat) (s : State) :
    (tallyAdd cl ctr n s).rem = s.rem := rfl
@[simp] theorem tallyAdd_fab (cl ctr n : Nat) (s : State) :
    (tallyAdd cl ctr n s).fab = s.fab := rfl
@[simp] theorem tallyAdd_time (cl ctr n : Nat) (s : State) :
    (tallyAdd cl ctr n s).time = s.time := rfl
@[simp] theorem tallyAdd_launch (cl ctr n : Nat) (s : State) :
    (tallyAdd cl ctr n s).launch = s.launch := rfl
@[simp] theorem tallyAdd_mgmt (cl ctr n : Nat) (s : State) :
    (tallyAdd cl ctr n s).mgmt = s.mgmt := rfl
@[simp] theorem tallyAdd_errs (cl ctr n : Nat) (s : State) :
    (tallyAdd cl ctr n s).errs = s.errs := rfl
@[simp] theorem tallyAdd_dbg (cl ctr n : Nat) (s : State) :
    (tallyAdd cl ctr n s).dbg = s.dbg := rfl
@[simp] theorem tallyAdd_pins (cl ctr n : Nat) (s : State) :
    (tallyAdd cl ctr n s).pins = s.pins := rfl

@[simp] theorem addCount_pending (i n : Nat) (s : State) :
    (addCount i n s).pending = s.pending := rfl
@[simp] theorem addCount_mb (i n : Nat) (s : State) :
    (addCount i n s).mb = s.mb := rfl
@[simp] theorem addCount_boot (i n : Nat) (s : State) :
    (addCount i n s).boot = s.boot := rfl
@[simp] theorem addCount_mem (i n : Nat) (s : State) :
    (addCount i n s).mem = s.mem := rfl
@[simp] theorem addCount_unbacked (i n : Nat) (s : State) :
    (addCount i n s).unbacked = s.unbacked := rfl
@[simp] theorem addCount_tiles (i n : Nat) (s : State) :
    (addCount i n s).tiles = s.tiles := rfl
@[simp] theorem addCount_cells (i n : Nat) (s : State) :
    (addCount i n s).cells = s.cells := rfl
@[simp] theorem addCount_ctr (i n : Nat) (s : State) :
    (addCount i n s).ctr = s.ctr := rfl
@[simp] theorem addCount_job (i n : Nat) (s : State) :
    (addCount i n s).job = s.job := rfl
@[simp] theorem addCount_ctl (i n : Nat) (s : State) :
    (addCount i n s).ctl = s.ctl := rfl
@[simp] theorem addCount_exch (i n : Nat) (s : State) :
    (addCount i n s).exch = s.exch := rfl
@[simp] theorem addCount_tier (i n : Nat) (s : State) :
    (addCount i n s).tier = s.tier := rfl
@[simp] theorem addCount_flash (i n : Nat) (s : State) :
    (addCount i n s).flash = s.flash := rfl
@[simp] theorem addCount_pools (i n : Nat) (s : State) :
    (addCount i n s).pools = s.pools := rfl
@[simp] theorem addCount_rem (i n : Nat) (s : State) :
    (addCount i n s).rem = s.rem := rfl
@[simp] theorem addCount_fab (i n : Nat) (s : State) :
    (addCount i n s).fab = s.fab := rfl
@[simp] theorem addCount_time (i n : Nat) (s : State) :
    (addCount i n s).time = s.time := rfl
@[simp] theorem addCount_launch (i n : Nat) (s : State) :
    (addCount i n s).launch = s.launch := rfl
@[simp] theorem addCount_mgmt (i n : Nat) (s : State) :
    (addCount i n s).mgmt = s.mgmt := rfl
@[simp] theorem addCount_dbg (i n : Nat) (s : State) :
    (addCount i n s).dbg = s.dbg := rfl
@[simp] theorem addCount_pins (i n : Nat) (s : State) :
    (addCount i n s).pins = s.pins := rfl

@[simp] theorem setPort_pending (p : Nat) (q : Port) (s : State) :
    (setPort p q s).pending = s.pending := rfl
@[simp] theorem setPort_mb (p : Nat) (q : Port) (s : State) :
    (setPort p q s).mb = s.mb := rfl
@[simp] theorem setPort_boot (p : Nat) (q : Port) (s : State) :
    (setPort p q s).boot = s.boot := rfl
@[simp] theorem setPort_mem (p : Nat) (q : Port) (s : State) :
    (setPort p q s).mem = s.mem := rfl
@[simp] theorem setPort_unbacked (p : Nat) (q : Port) (s : State) :
    (setPort p q s).unbacked = s.unbacked := rfl
@[simp] theorem setPort_tiles (p : Nat) (q : Port) (s : State) :
    (setPort p q s).tiles = s.tiles := rfl
@[simp] theorem setPort_cells (p : Nat) (q : Port) (s : State) :
    (setPort p q s).cells = s.cells := rfl
@[simp] theorem setPort_ctr (p : Nat) (q : Port) (s : State) :
    (setPort p q s).ctr = s.ctr := rfl
@[simp] theorem setPort_job (p : Nat) (q : Port) (s : State) :
    (setPort p q s).job = s.job := rfl
@[simp] theorem setPort_ctl (p : Nat) (q : Port) (s : State) :
    (setPort p q s).ctl = s.ctl := rfl
@[simp] theorem setPort_exch (p : Nat) (q : Port) (s : State) :
    (setPort p q s).exch = s.exch := rfl
@[simp] theorem setPort_tier (p : Nat) (q : Port) (s : State) :
    (setPort p q s).tier = s.tier := rfl
@[simp] theorem setPort_flash (p : Nat) (q : Port) (s : State) :
    (setPort p q s).flash = s.flash := rfl
@[simp] theorem setPort_pools (p : Nat) (q : Port) (s : State) :
    (setPort p q s).pools = s.pools := rfl
@[simp] theorem setPort_rem (p : Nat) (q : Port) (s : State) :
    (setPort p q s).rem = s.rem := rfl
@[simp] theorem setPort_time (p : Nat) (q : Port) (s : State) :
    (setPort p q s).time = s.time := rfl
@[simp] theorem setPort_launch (p : Nat) (q : Port) (s : State) :
    (setPort p q s).launch = s.launch := rfl
@[simp] theorem setPort_mgmt (p : Nat) (q : Port) (s : State) :
    (setPort p q s).mgmt = s.mgmt := rfl
@[simp] theorem setPort_errs (p : Nat) (q : Port) (s : State) :
    (setPort p q s).errs = s.errs := rfl
@[simp] theorem setPort_dbg (p : Nat) (q : Port) (s : State) :
    (setPort p q s).dbg = s.dbg := rfl
@[simp] theorem setPort_pins (p : Nat) (q : Port) (s : State) :
    (setPort p q s).pins = s.pins := rfl

@[simp] theorem putMsg_pending (m : Msg) (s : State) :
    (putMsg m s).pending = s.pending := rfl
@[simp] theorem putMsg_mb (m : Msg) (s : State) :
    (putMsg m s).mb = s.mb := rfl
@[simp] theorem putMsg_boot (m : Msg) (s : State) :
    (putMsg m s).boot = s.boot := rfl
@[simp] theorem putMsg_mem (m : Msg) (s : State) :
    (putMsg m s).mem = s.mem := rfl
@[simp] theorem putMsg_unbacked (m : Msg) (s : State) :
    (putMsg m s).unbacked = s.unbacked := rfl
@[simp] theorem putMsg_tiles (m : Msg) (s : State) :
    (putMsg m s).tiles = s.tiles := rfl
@[simp] theorem putMsg_cells (m : Msg) (s : State) :
    (putMsg m s).cells = s.cells := rfl
@[simp] theorem putMsg_ctr (m : Msg) (s : State) :
    (putMsg m s).ctr = s.ctr := rfl
@[simp] theorem putMsg_job (m : Msg) (s : State) :
    (putMsg m s).job = s.job := rfl
@[simp] theorem putMsg_ctl (m : Msg) (s : State) :
    (putMsg m s).ctl = s.ctl := rfl
@[simp] theorem putMsg_tier (m : Msg) (s : State) :
    (putMsg m s).tier = s.tier := rfl
@[simp] theorem putMsg_flash (m : Msg) (s : State) :
    (putMsg m s).flash = s.flash := rfl
@[simp] theorem putMsg_pools (m : Msg) (s : State) :
    (putMsg m s).pools = s.pools := rfl
@[simp] theorem putMsg_rem (m : Msg) (s : State) :
    (putMsg m s).rem = s.rem := rfl
@[simp] theorem putMsg_fab (m : Msg) (s : State) :
    (putMsg m s).fab = s.fab := rfl
@[simp] theorem putMsg_time (m : Msg) (s : State) :
    (putMsg m s).time = s.time := rfl
@[simp] theorem putMsg_launch (m : Msg) (s : State) :
    (putMsg m s).launch = s.launch := rfl
@[simp] theorem putMsg_mgmt (m : Msg) (s : State) :
    (putMsg m s).mgmt = s.mgmt := rfl
@[simp] theorem putMsg_errs (m : Msg) (s : State) :
    (putMsg m s).errs = s.errs := rfl
@[simp] theorem putMsg_dbg (m : Msg) (s : State) :
    (putMsg m s).dbg = s.dbg := rfl
@[simp] theorem putMsg_pins (m : Msg) (s : State) :
    (putMsg m s).pins = s.pins := rfl

@[simp] theorem closeMsg_pending (k : MsgKey) (s : State) :
    (closeMsg k s).pending = s.pending := rfl
@[simp] theorem closeMsg_mb (k : MsgKey) (s : State) :
    (closeMsg k s).mb = s.mb := rfl
@[simp] theorem closeMsg_boot (k : MsgKey) (s : State) :
    (closeMsg k s).boot = s.boot := rfl
@[simp] theorem closeMsg_mem (k : MsgKey) (s : State) :
    (closeMsg k s).mem = s.mem := rfl
@[simp] theorem closeMsg_unbacked (k : MsgKey) (s : State) :
    (closeMsg k s).unbacked = s.unbacked := rfl
@[simp] theorem closeMsg_tiles (k : MsgKey) (s : State) :
    (closeMsg k s).tiles = s.tiles := rfl
@[simp] theorem closeMsg_cells (k : MsgKey) (s : State) :
    (closeMsg k s).cells = s.cells := rfl
@[simp] theorem closeMsg_ctr (k : MsgKey) (s : State) :
    (closeMsg k s).ctr = s.ctr := rfl
@[simp] theorem closeMsg_job (k : MsgKey) (s : State) :
    (closeMsg k s).job = s.job := rfl
@[simp] theorem closeMsg_ctl (k : MsgKey) (s : State) :
    (closeMsg k s).ctl = s.ctl := rfl
@[simp] theorem closeMsg_tier (k : MsgKey) (s : State) :
    (closeMsg k s).tier = s.tier := rfl
@[simp] theorem closeMsg_flash (k : MsgKey) (s : State) :
    (closeMsg k s).flash = s.flash := rfl
@[simp] theorem closeMsg_pools (k : MsgKey) (s : State) :
    (closeMsg k s).pools = s.pools := rfl
@[simp] theorem closeMsg_rem (k : MsgKey) (s : State) :
    (closeMsg k s).rem = s.rem := rfl
@[simp] theorem closeMsg_fab (k : MsgKey) (s : State) :
    (closeMsg k s).fab = s.fab := rfl
@[simp] theorem closeMsg_time (k : MsgKey) (s : State) :
    (closeMsg k s).time = s.time := rfl
@[simp] theorem closeMsg_launch (k : MsgKey) (s : State) :
    (closeMsg k s).launch = s.launch := rfl
@[simp] theorem closeMsg_mgmt (k : MsgKey) (s : State) :
    (closeMsg k s).mgmt = s.mgmt := rfl
@[simp] theorem closeMsg_errs (k : MsgKey) (s : State) :
    (closeMsg k s).errs = s.errs := rfl
@[simp] theorem closeMsg_dbg (k : MsgKey) (s : State) :
    (closeMsg k s).dbg = s.dbg := rfl
@[simp] theorem closeMsg_pins (k : MsgKey) (s : State) :
    (closeMsg k s).pins = s.pins := rfl

@[simp] theorem putCopy_pending (c : Copy) (s : State) :
    (putCopy c s).pending = s.pending := rfl
@[simp] theorem putCopy_mb (c : Copy) (s : State) :
    (putCopy c s).mb = s.mb := rfl
@[simp] theorem putCopy_boot (c : Copy) (s : State) :
    (putCopy c s).boot = s.boot := rfl
@[simp] theorem putCopy_mem (c : Copy) (s : State) :
    (putCopy c s).mem = s.mem := rfl
@[simp] theorem putCopy_unbacked (c : Copy) (s : State) :
    (putCopy c s).unbacked = s.unbacked := rfl
@[simp] theorem putCopy_tiles (c : Copy) (s : State) :
    (putCopy c s).tiles = s.tiles := rfl
@[simp] theorem putCopy_cells (c : Copy) (s : State) :
    (putCopy c s).cells = s.cells := rfl
@[simp] theorem putCopy_ctr (c : Copy) (s : State) :
    (putCopy c s).ctr = s.ctr := rfl
@[simp] theorem putCopy_job (c : Copy) (s : State) :
    (putCopy c s).job = s.job := rfl
@[simp] theorem putCopy_ctl (c : Copy) (s : State) :
    (putCopy c s).ctl = s.ctl := rfl
@[simp] theorem putCopy_exch (c : Copy) (s : State) :
    (putCopy c s).exch = s.exch := rfl
@[simp] theorem putCopy_flash (c : Copy) (s : State) :
    (putCopy c s).flash = s.flash := rfl
@[simp] theorem putCopy_pools (c : Copy) (s : State) :
    (putCopy c s).pools = s.pools := rfl
@[simp] theorem putCopy_rem (c : Copy) (s : State) :
    (putCopy c s).rem = s.rem := rfl
@[simp] theorem putCopy_fab (c : Copy) (s : State) :
    (putCopy c s).fab = s.fab := rfl
@[simp] theorem putCopy_time (c : Copy) (s : State) :
    (putCopy c s).time = s.time := rfl
@[simp] theorem putCopy_launch (c : Copy) (s : State) :
    (putCopy c s).launch = s.launch := rfl
@[simp] theorem putCopy_mgmt (c : Copy) (s : State) :
    (putCopy c s).mgmt = s.mgmt := rfl
@[simp] theorem putCopy_errs (c : Copy) (s : State) :
    (putCopy c s).errs = s.errs := rfl
@[simp] theorem putCopy_dbg (c : Copy) (s : State) :
    (putCopy c s).dbg = s.dbg := rfl
@[simp] theorem putCopy_pins (c : Copy) (s : State) :
    (putCopy c s).pins = s.pins := rfl

@[simp] theorem mapCopy_pending (obj tier : Nat) (f : Copy → Copy) (s : State) :
    (mapCopy obj tier f s).pending = s.pending := rfl
@[simp] theorem mapCopy_mb (obj tier : Nat) (f : Copy → Copy) (s : State) :
    (mapCopy obj tier f s).mb = s.mb := rfl
@[simp] theorem mapCopy_boot (obj tier : Nat) (f : Copy → Copy) (s : State) :
    (mapCopy obj tier f s).boot = s.boot := rfl
@[simp] theorem mapCopy_mem (obj tier : Nat) (f : Copy → Copy) (s : State) :
    (mapCopy obj tier f s).mem = s.mem := rfl
@[simp] theorem mapCopy_unbacked (obj tier : Nat) (f : Copy → Copy) (s : State) :
    (mapCopy obj tier f s).unbacked = s.unbacked := rfl
@[simp] theorem mapCopy_tiles (obj tier : Nat) (f : Copy → Copy) (s : State) :
    (mapCopy obj tier f s).tiles = s.tiles := rfl
@[simp] theorem mapCopy_cells (obj tier : Nat) (f : Copy → Copy) (s : State) :
    (mapCopy obj tier f s).cells = s.cells := rfl
@[simp] theorem mapCopy_ctr (obj tier : Nat) (f : Copy → Copy) (s : State) :
    (mapCopy obj tier f s).ctr = s.ctr := rfl
@[simp] theorem mapCopy_job (obj tier : Nat) (f : Copy → Copy) (s : State) :
    (mapCopy obj tier f s).job = s.job := rfl
@[simp] theorem mapCopy_ctl (obj tier : Nat) (f : Copy → Copy) (s : State) :
    (mapCopy obj tier f s).ctl = s.ctl := rfl
@[simp] theorem mapCopy_exch (obj tier : Nat) (f : Copy → Copy) (s : State) :
    (mapCopy obj tier f s).exch = s.exch := rfl
@[simp] theorem mapCopy_flash (obj tier : Nat) (f : Copy → Copy) (s : State) :
    (mapCopy obj tier f s).flash = s.flash := rfl
@[simp] theorem mapCopy_pools (obj tier : Nat) (f : Copy → Copy) (s : State) :
    (mapCopy obj tier f s).pools = s.pools := rfl
@[simp] theorem mapCopy_rem (obj tier : Nat) (f : Copy → Copy) (s : State) :
    (mapCopy obj tier f s).rem = s.rem := rfl
@[simp] theorem mapCopy_fab (obj tier : Nat) (f : Copy → Copy) (s : State) :
    (mapCopy obj tier f s).fab = s.fab := rfl
@[simp] theorem mapCopy_time (obj tier : Nat) (f : Copy → Copy) (s : State) :
    (mapCopy obj tier f s).time = s.time := rfl
@[simp] theorem mapCopy_launch (obj tier : Nat) (f : Copy → Copy) (s : State) :
    (mapCopy obj tier f s).launch = s.launch := rfl
@[simp] theorem mapCopy_mgmt (obj tier : Nat) (f : Copy → Copy) (s : State) :
    (mapCopy obj tier f s).mgmt = s.mgmt := rfl
@[simp] theorem mapCopy_errs (obj tier : Nat) (f : Copy → Copy) (s : State) :
    (mapCopy obj tier f s).errs = s.errs := rfl
@[simp] theorem mapCopy_dbg (obj tier : Nat) (f : Copy → Copy) (s : State) :
    (mapCopy obj tier f s).dbg = s.dbg := rfl
@[simp] theorem mapCopy_pins (obj tier : Nat) (f : Copy → Copy) (s : State) :
    (mapCopy obj tier f s).pins = s.pins := rfl

@[simp] theorem defer_pending (d : Deferred) (s : State) :
    (defer d s).pending = s.pending := rfl
@[simp] theorem defer_mb (d : Deferred) (s : State) :
    (defer d s).mb = s.mb := rfl
@[simp] theorem defer_boot (d : Deferred) (s : State) :
    (defer d s).boot = s.boot := rfl
@[simp] theorem defer_mem (d : Deferred) (s : State) :
    (defer d s).mem = s.mem := rfl
@[simp] theorem defer_unbacked (d : Deferred) (s : State) :
    (defer d s).unbacked = s.unbacked := rfl
@[simp] theorem defer_tiles (d : Deferred) (s : State) :
    (defer d s).tiles = s.tiles := rfl
@[simp] theorem defer_cells (d : Deferred) (s : State) :
    (defer d s).cells = s.cells := rfl
@[simp] theorem defer_ctr (d : Deferred) (s : State) :
    (defer d s).ctr = s.ctr := rfl
@[simp] theorem defer_job (d : Deferred) (s : State) :
    (defer d s).job = s.job := rfl
@[simp] theorem defer_ctl (d : Deferred) (s : State) :
    (defer d s).ctl = s.ctl := rfl
@[simp] theorem defer_exch (d : Deferred) (s : State) :
    (defer d s).exch = s.exch := rfl
@[simp] theorem defer_flash (d : Deferred) (s : State) :
    (defer d s).flash = s.flash := rfl
@[simp] theorem defer_pools (d : Deferred) (s : State) :
    (defer d s).pools = s.pools := rfl
@[simp] theorem defer_rem (d : Deferred) (s : State) :
    (defer d s).rem = s.rem := rfl
@[simp] theorem defer_fab (d : Deferred) (s : State) :
    (defer d s).fab = s.fab := rfl
@[simp] theorem defer_time (d : Deferred) (s : State) :
    (defer d s).time = s.time := rfl
@[simp] theorem defer_launch (d : Deferred) (s : State) :
    (defer d s).launch = s.launch := rfl
@[simp] theorem defer_mgmt (d : Deferred) (s : State) :
    (defer d s).mgmt = s.mgmt := rfl
@[simp] theorem defer_errs (d : Deferred) (s : State) :
    (defer d s).errs = s.errs := rfl
@[simp] theorem defer_dbg (d : Deferred) (s : State) :
    (defer d s).dbg = s.dbg := rfl
@[simp] theorem defer_pins (d : Deferred) (s : State) :
    (defer d s).pins = s.pins := rfl

@[simp] theorem setPair_pending (d : Nat) (q : Pair) (s : State) :
    (setPair d q s).pending = s.pending := rfl
@[simp] theorem setPair_mb (d : Nat) (q : Pair) (s : State) :
    (setPair d q s).mb = s.mb := rfl
@[simp] theorem setPair_boot (d : Nat) (q : Pair) (s : State) :
    (setPair d q s).boot = s.boot := rfl
@[simp] theorem setPair_mem (d : Nat) (q : Pair) (s : State) :
    (setPair d q s).mem = s.mem := rfl
@[simp] theorem setPair_unbacked (d : Nat) (q : Pair) (s : State) :
    (setPair d q s).unbacked = s.unbacked := rfl
@[simp] theorem setPair_tiles (d : Nat) (q : Pair) (s : State) :
    (setPair d q s).tiles = s.tiles := rfl
@[simp] theorem setPair_cells (d : Nat) (q : Pair) (s : State) :
    (setPair d q s).cells = s.cells := rfl
@[simp] theorem setPair_ctr (d : Nat) (q : Pair) (s : State) :
    (setPair d q s).ctr = s.ctr := rfl
@[simp] theorem setPair_job (d : Nat) (q : Pair) (s : State) :
    (setPair d q s).job = s.job := rfl
@[simp] theorem setPair_ctl (d : Nat) (q : Pair) (s : State) :
    (setPair d q s).ctl = s.ctl := rfl
@[simp] theorem setPair_exch (d : Nat) (q : Pair) (s : State) :
    (setPair d q s).exch = s.exch := rfl
@[simp] theorem setPair_tier (d : Nat) (q : Pair) (s : State) :
    (setPair d q s).tier = s.tier := rfl
@[simp] theorem setPair_flash (d : Nat) (q : Pair) (s : State) :
    (setPair d q s).flash = s.flash := rfl
@[simp] theorem setPair_pools (d : Nat) (q : Pair) (s : State) :
    (setPair d q s).pools = s.pools := rfl
@[simp] theorem setPair_fab (d : Nat) (q : Pair) (s : State) :
    (setPair d q s).fab = s.fab := rfl
@[simp] theorem setPair_time (d : Nat) (q : Pair) (s : State) :
    (setPair d q s).time = s.time := rfl
@[simp] theorem setPair_launch (d : Nat) (q : Pair) (s : State) :
    (setPair d q s).launch = s.launch := rfl
@[simp] theorem setPair_mgmt (d : Nat) (q : Pair) (s : State) :
    (setPair d q s).mgmt = s.mgmt := rfl
@[simp] theorem setPair_errs (d : Nat) (q : Pair) (s : State) :
    (setPair d q s).errs = s.errs := rfl
@[simp] theorem setPair_dbg (d : Nat) (q : Pair) (s : State) :
    (setPair d q s).dbg = s.dbg := rfl
@[simp] theorem setPair_pins (d : Nat) (q : Pair) (s : State) :
    (setPair d q s).pins = s.pins := rfl

@[simp] theorem dropRequest_pending (r : Request) (s : State) :
    (dropRequest r s).pending = s.pending := rfl
@[simp] theorem dropRequest_mb (r : Request) (s : State) :
    (dropRequest r s).mb = s.mb := rfl
@[simp] theorem dropRequest_boot (r : Request) (s : State) :
    (dropRequest r s).boot = s.boot := rfl
@[simp] theorem dropRequest_mem (r : Request) (s : State) :
    (dropRequest r s).mem = s.mem := rfl
@[simp] theorem dropRequest_unbacked (r : Request) (s : State) :
    (dropRequest r s).unbacked = s.unbacked := rfl
@[simp] theorem dropRequest_tiles (r : Request) (s : State) :
    (dropRequest r s).tiles = s.tiles := rfl
@[simp] theorem dropRequest_cells (r : Request) (s : State) :
    (dropRequest r s).cells = s.cells := rfl
@[simp] theorem dropRequest_ctr (r : Request) (s : State) :
    (dropRequest r s).ctr = s.ctr := rfl
@[simp] theorem dropRequest_job (r : Request) (s : State) :
    (dropRequest r s).job = s.job := rfl
@[simp] theorem dropRequest_ctl (r : Request) (s : State) :
    (dropRequest r s).ctl = s.ctl := rfl
@[simp] theorem dropRequest_exch (r : Request) (s : State) :
    (dropRequest r s).exch = s.exch := rfl
@[simp] theorem dropRequest_tier (r : Request) (s : State) :
    (dropRequest r s).tier = s.tier := rfl
@[simp] theorem dropRequest_flash (r : Request) (s : State) :
    (dropRequest r s).flash = s.flash := rfl
@[simp] theorem dropRequest_pools (r : Request) (s : State) :
    (dropRequest r s).pools = s.pools := rfl
@[simp] theorem dropRequest_fab (r : Request) (s : State) :
    (dropRequest r s).fab = s.fab := rfl
@[simp] theorem dropRequest_time (r : Request) (s : State) :
    (dropRequest r s).time = s.time := rfl
@[simp] theorem dropRequest_launch (r : Request) (s : State) :
    (dropRequest r s).launch = s.launch := rfl
@[simp] theorem dropRequest_mgmt (r : Request) (s : State) :
    (dropRequest r s).mgmt = s.mgmt := rfl
@[simp] theorem dropRequest_errs (r : Request) (s : State) :
    (dropRequest r s).errs = s.errs := rfl
@[simp] theorem dropRequest_dbg (r : Request) (s : State) :
    (dropRequest r s).dbg = s.dbg := rfl
@[simp] theorem dropRequest_pins (r : Request) (s : State) :
    (dropRequest r s).pins = s.pins := rfl

@[simp] theorem keepRun_pending (r : Run) (completed : Bool) (s : State) :
    (keepRun r completed s).pending = s.pending := rfl
@[simp] theorem keepRun_mb (r : Run) (completed : Bool) (s : State) :
    (keepRun r completed s).mb = s.mb := rfl
@[simp] theorem keepRun_boot (r : Run) (completed : Bool) (s : State) :
    (keepRun r completed s).boot = s.boot := rfl
@[simp] theorem keepRun_mem (r : Run) (completed : Bool) (s : State) :
    (keepRun r completed s).mem = s.mem := rfl
@[simp] theorem keepRun_unbacked (r : Run) (completed : Bool) (s : State) :
    (keepRun r completed s).unbacked = s.unbacked := rfl
@[simp] theorem keepRun_tiles (r : Run) (completed : Bool) (s : State) :
    (keepRun r completed s).tiles = s.tiles := rfl
@[simp] theorem keepRun_cells (r : Run) (completed : Bool) (s : State) :
    (keepRun r completed s).cells = s.cells := rfl
@[simp] theorem keepRun_ctr (r : Run) (completed : Bool) (s : State) :
    (keepRun r completed s).ctr = s.ctr := rfl
@[simp] theorem keepRun_job (r : Run) (completed : Bool) (s : State) :
    (keepRun r completed s).job = s.job := rfl
@[simp] theorem keepRun_exch (r : Run) (completed : Bool) (s : State) :
    (keepRun r completed s).exch = s.exch := rfl
@[simp] theorem keepRun_tier (r : Run) (completed : Bool) (s : State) :
    (keepRun r completed s).tier = s.tier := rfl
@[simp] theorem keepRun_flash (r : Run) (completed : Bool) (s : State) :
    (keepRun r completed s).flash = s.flash := rfl
@[simp] theorem keepRun_pools (r : Run) (completed : Bool) (s : State) :
    (keepRun r completed s).pools = s.pools := rfl
@[simp] theorem keepRun_rem (r : Run) (completed : Bool) (s : State) :
    (keepRun r completed s).rem = s.rem := rfl
@[simp] theorem keepRun_fab (r : Run) (completed : Bool) (s : State) :
    (keepRun r completed s).fab = s.fab := rfl
@[simp] theorem keepRun_time (r : Run) (completed : Bool) (s : State) :
    (keepRun r completed s).time = s.time := rfl
@[simp] theorem keepRun_launch (r : Run) (completed : Bool) (s : State) :
    (keepRun r completed s).launch = s.launch := rfl
@[simp] theorem keepRun_mgmt (r : Run) (completed : Bool) (s : State) :
    (keepRun r completed s).mgmt = s.mgmt := rfl
@[simp] theorem keepRun_errs (r : Run) (completed : Bool) (s : State) :
    (keepRun r completed s).errs = s.errs := rfl
@[simp] theorem keepRun_dbg (r : Run) (completed : Bool) (s : State) :
    (keepRun r completed s).dbg = s.dbg := rfl
@[simp] theorem keepRun_pins (r : Run) (completed : Bool) (s : State) :
    (keepRun r completed s).pins = s.pins := rfl

@[simp] theorem mapBuffer_pending (h : Nat) (f : Buffer → Buffer) (s : State) :
    (mapBuffer h f s).pending = s.pending := rfl
@[simp] theorem mapBuffer_mb (h : Nat) (f : Buffer → Buffer) (s : State) :
    (mapBuffer h f s).mb = s.mb := rfl
@[simp] theorem mapBuffer_boot (h : Nat) (f : Buffer → Buffer) (s : State) :
    (mapBuffer h f s).boot = s.boot := rfl
@[simp] theorem mapBuffer_mem (h : Nat) (f : Buffer → Buffer) (s : State) :
    (mapBuffer h f s).mem = s.mem := rfl
@[simp] theorem mapBuffer_unbacked (h : Nat) (f : Buffer → Buffer) (s : State) :
    (mapBuffer h f s).unbacked = s.unbacked := rfl
@[simp] theorem mapBuffer_tiles (h : Nat) (f : Buffer → Buffer) (s : State) :
    (mapBuffer h f s).tiles = s.tiles := rfl
@[simp] theorem mapBuffer_cells (h : Nat) (f : Buffer → Buffer) (s : State) :
    (mapBuffer h f s).cells = s.cells := rfl
@[simp] theorem mapBuffer_ctr (h : Nat) (f : Buffer → Buffer) (s : State) :
    (mapBuffer h f s).ctr = s.ctr := rfl
@[simp] theorem mapBuffer_job (h : Nat) (f : Buffer → Buffer) (s : State) :
    (mapBuffer h f s).job = s.job := rfl
@[simp] theorem mapBuffer_ctl (h : Nat) (f : Buffer → Buffer) (s : State) :
    (mapBuffer h f s).ctl = s.ctl := rfl
@[simp] theorem mapBuffer_exch (h : Nat) (f : Buffer → Buffer) (s : State) :
    (mapBuffer h f s).exch = s.exch := rfl
@[simp] theorem mapBuffer_tier (h : Nat) (f : Buffer → Buffer) (s : State) :
    (mapBuffer h f s).tier = s.tier := rfl
@[simp] theorem mapBuffer_flash (h : Nat) (f : Buffer → Buffer) (s : State) :
    (mapBuffer h f s).flash = s.flash := rfl
@[simp] theorem mapBuffer_rem (h : Nat) (f : Buffer → Buffer) (s : State) :
    (mapBuffer h f s).rem = s.rem := rfl
@[simp] theorem mapBuffer_fab (h : Nat) (f : Buffer → Buffer) (s : State) :
    (mapBuffer h f s).fab = s.fab := rfl
@[simp] theorem mapBuffer_time (h : Nat) (f : Buffer → Buffer) (s : State) :
    (mapBuffer h f s).time = s.time := rfl
@[simp] theorem mapBuffer_launch (h : Nat) (f : Buffer → Buffer) (s : State) :
    (mapBuffer h f s).launch = s.launch := rfl
@[simp] theorem mapBuffer_mgmt (h : Nat) (f : Buffer → Buffer) (s : State) :
    (mapBuffer h f s).mgmt = s.mgmt := rfl
@[simp] theorem mapBuffer_errs (h : Nat) (f : Buffer → Buffer) (s : State) :
    (mapBuffer h f s).errs = s.errs := rfl
@[simp] theorem mapBuffer_dbg (h : Nat) (f : Buffer → Buffer) (s : State) :
    (mapBuffer h f s).dbg = s.dbg := rfl
@[simp] theorem mapBuffer_pins (h : Nat) (f : Buffer → Buffer) (s : State) :
    (mapBuffer h f s).pins = s.pins := rfl

@[simp] theorem mgmtSend_pending (via : MgmtVia) (endpoint : Nat) (b : List Byte) (s : State) :
    (mgmtSend via endpoint b s).pending = s.pending := rfl
@[simp] theorem mgmtSend_mb (via : MgmtVia) (endpoint : Nat) (b : List Byte) (s : State) :
    (mgmtSend via endpoint b s).mb = s.mb := rfl
@[simp] theorem mgmtSend_boot (via : MgmtVia) (endpoint : Nat) (b : List Byte) (s : State) :
    (mgmtSend via endpoint b s).boot = s.boot := rfl
@[simp] theorem mgmtSend_mem (via : MgmtVia) (endpoint : Nat) (b : List Byte) (s : State) :
    (mgmtSend via endpoint b s).mem = s.mem := rfl
@[simp] theorem mgmtSend_unbacked (via : MgmtVia) (endpoint : Nat) (b : List Byte) (s : State) :
    (mgmtSend via endpoint b s).unbacked = s.unbacked := rfl
@[simp] theorem mgmtSend_tiles (via : MgmtVia) (endpoint : Nat) (b : List Byte) (s : State) :
    (mgmtSend via endpoint b s).tiles = s.tiles := rfl
@[simp] theorem mgmtSend_cells (via : MgmtVia) (endpoint : Nat) (b : List Byte) (s : State) :
    (mgmtSend via endpoint b s).cells = s.cells := rfl
@[simp] theorem mgmtSend_ctr (via : MgmtVia) (endpoint : Nat) (b : List Byte) (s : State) :
    (mgmtSend via endpoint b s).ctr = s.ctr := rfl
@[simp] theorem mgmtSend_job (via : MgmtVia) (endpoint : Nat) (b : List Byte) (s : State) :
    (mgmtSend via endpoint b s).job = s.job := rfl
@[simp] theorem mgmtSend_ctl (via : MgmtVia) (endpoint : Nat) (b : List Byte) (s : State) :
    (mgmtSend via endpoint b s).ctl = s.ctl := rfl
@[simp] theorem mgmtSend_exch (via : MgmtVia) (endpoint : Nat) (b : List Byte) (s : State) :
    (mgmtSend via endpoint b s).exch = s.exch := rfl
@[simp] theorem mgmtSend_tier (via : MgmtVia) (endpoint : Nat) (b : List Byte) (s : State) :
    (mgmtSend via endpoint b s).tier = s.tier := rfl
@[simp] theorem mgmtSend_flash (via : MgmtVia) (endpoint : Nat) (b : List Byte) (s : State) :
    (mgmtSend via endpoint b s).flash = s.flash := rfl
@[simp] theorem mgmtSend_pools (via : MgmtVia) (endpoint : Nat) (b : List Byte) (s : State) :
    (mgmtSend via endpoint b s).pools = s.pools := rfl
@[simp] theorem mgmtSend_rem (via : MgmtVia) (endpoint : Nat) (b : List Byte) (s : State) :
    (mgmtSend via endpoint b s).rem = s.rem := rfl
@[simp] theorem mgmtSend_fab (via : MgmtVia) (endpoint : Nat) (b : List Byte) (s : State) :
    (mgmtSend via endpoint b s).fab = s.fab := rfl
@[simp] theorem mgmtSend_time (via : MgmtVia) (endpoint : Nat) (b : List Byte) (s : State) :
    (mgmtSend via endpoint b s).time = s.time := rfl
@[simp] theorem mgmtSend_launch (via : MgmtVia) (endpoint : Nat) (b : List Byte) (s : State) :
    (mgmtSend via endpoint b s).launch = s.launch := rfl
@[simp] theorem mgmtSend_errs (via : MgmtVia) (endpoint : Nat) (b : List Byte) (s : State) :
    (mgmtSend via endpoint b s).errs = s.errs := rfl
@[simp] theorem mgmtSend_dbg (via : MgmtVia) (endpoint : Nat) (b : List Byte) (s : State) :
    (mgmtSend via endpoint b s).dbg = s.dbg := rfl
@[simp] theorem mgmtSend_pins (via : MgmtVia) (endpoint : Nat) (b : List Byte) (s : State) :
    (mgmtSend via endpoint b s).pins = s.pins := rfl

@[simp] theorem mgmtRespond_pending (q : MgmtReq) (status : Nat) (result : List Byte) (s : State) :
    (mgmtRespond q status result s).pending = s.pending := rfl
@[simp] theorem mgmtRespond_mb (q : MgmtReq) (status : Nat) (result : List Byte) (s : State) :
    (mgmtRespond q status result s).mb = s.mb := rfl
@[simp] theorem mgmtRespond_boot (q : MgmtReq) (status : Nat) (result : List Byte) (s : State) :
    (mgmtRespond q status result s).boot = s.boot := rfl
@[simp] theorem mgmtRespond_mem (q : MgmtReq) (status : Nat) (result : List Byte) (s : State) :
    (mgmtRespond q status result s).mem = s.mem := rfl
@[simp] theorem mgmtRespond_unbacked (q : MgmtReq) (status : Nat) (result : List Byte) (s : State) :
    (mgmtRespond q status result s).unbacked = s.unbacked := rfl
@[simp] theorem mgmtRespond_tiles (q : MgmtReq) (status : Nat) (result : List Byte) (s : State) :
    (mgmtRespond q status result s).tiles = s.tiles := rfl
@[simp] theorem mgmtRespond_cells (q : MgmtReq) (status : Nat) (result : List Byte) (s : State) :
    (mgmtRespond q status result s).cells = s.cells := rfl
@[simp] theorem mgmtRespond_ctr (q : MgmtReq) (status : Nat) (result : List Byte) (s : State) :
    (mgmtRespond q status result s).ctr = s.ctr := rfl
@[simp] theorem mgmtRespond_job (q : MgmtReq) (status : Nat) (result : List Byte) (s : State) :
    (mgmtRespond q status result s).job = s.job := rfl
@[simp] theorem mgmtRespond_ctl (q : MgmtReq) (status : Nat) (result : List Byte) (s : State) :
    (mgmtRespond q status result s).ctl = s.ctl := rfl
@[simp] theorem mgmtRespond_exch (q : MgmtReq) (status : Nat) (result : List Byte) (s : State) :
    (mgmtRespond q status result s).exch = s.exch := rfl
@[simp] theorem mgmtRespond_tier (q : MgmtReq) (status : Nat) (result : List Byte) (s : State) :
    (mgmtRespond q status result s).tier = s.tier := rfl
@[simp] theorem mgmtRespond_flash (q : MgmtReq) (status : Nat) (result : List Byte) (s : State) :
    (mgmtRespond q status result s).flash = s.flash := rfl
@[simp] theorem mgmtRespond_pools (q : MgmtReq) (status : Nat) (result : List Byte) (s : State) :
    (mgmtRespond q status result s).pools = s.pools := rfl
@[simp] theorem mgmtRespond_rem (q : MgmtReq) (status : Nat) (result : List Byte) (s : State) :
    (mgmtRespond q status result s).rem = s.rem := rfl
@[simp] theorem mgmtRespond_fab (q : MgmtReq) (status : Nat) (result : List Byte) (s : State) :
    (mgmtRespond q status result s).fab = s.fab := rfl
@[simp] theorem mgmtRespond_time (q : MgmtReq) (status : Nat) (result : List Byte) (s : State) :
    (mgmtRespond q status result s).time = s.time := rfl
@[simp] theorem mgmtRespond_launch (q : MgmtReq) (status : Nat) (result : List Byte) (s : State) :
    (mgmtRespond q status result s).launch = s.launch := rfl
@[simp] theorem mgmtRespond_errs (q : MgmtReq) (status : Nat) (result : List Byte) (s : State) :
    (mgmtRespond q status result s).errs = s.errs := rfl
@[simp] theorem mgmtRespond_dbg (q : MgmtReq) (status : Nat) (result : List Byte) (s : State) :
    (mgmtRespond q status result s).dbg = s.dbg := rfl
@[simp] theorem mgmtRespond_pins (q : MgmtReq) (status : Nat) (result : List Byte) (s : State) :
    (mgmtRespond q status result s).pins = s.pins := rfl

@[simp] theorem nextFree_pending (s : State) :
    (nextFree s).pending = s.pending := rfl
@[simp] theorem nextFree_mb (s : State) :
    (nextFree s).mb = s.mb := rfl
@[simp] theorem nextFree_boot (s : State) :
    (nextFree s).boot = s.boot := rfl
@[simp] theorem nextFree_mem (s : State) :
    (nextFree s).mem = s.mem := rfl
@[simp] theorem nextFree_unbacked (s : State) :
    (nextFree s).unbacked = s.unbacked := rfl
@[simp] theorem nextFree_tiles (s : State) :
    (nextFree s).tiles = s.tiles := rfl
@[simp] theorem nextFree_cells (s : State) :
    (nextFree s).cells = s.cells := rfl
@[simp] theorem nextFree_ctr (s : State) :
    (nextFree s).ctr = s.ctr := rfl
@[simp] theorem nextFree_job (s : State) :
    (nextFree s).job = s.job := rfl
@[simp] theorem nextFree_ctl (s : State) :
    (nextFree s).ctl = s.ctl := rfl
@[simp] theorem nextFree_exch (s : State) :
    (nextFree s).exch = s.exch := rfl
@[simp] theorem nextFree_tier (s : State) :
    (nextFree s).tier = s.tier := rfl
@[simp] theorem nextFree_flash (s : State) :
    (nextFree s).flash = s.flash := rfl
@[simp] theorem nextFree_pools (s : State) :
    (nextFree s).pools = s.pools := rfl
@[simp] theorem nextFree_rem (s : State) :
    (nextFree s).rem = s.rem := rfl
@[simp] theorem nextFree_fab (s : State) :
    (nextFree s).fab = s.fab := rfl
@[simp] theorem nextFree_launch (s : State) :
    (nextFree s).launch = s.launch := rfl
@[simp] theorem nextFree_mgmt (s : State) :
    (nextFree s).mgmt = s.mgmt := rfl
@[simp] theorem nextFree_errs (s : State) :
    (nextFree s).errs = s.errs := rfl
@[simp] theorem nextFree_dbg (s : State) :
    (nextFree s).dbg = s.dbg := rfl
@[simp] theorem nextFree_pins (s : State) :
    (nextFree s).pins = s.pins := rfl

@[simp] theorem moveBeat_pending (n : Nat) (phase : Nat) (s : State) :
    (moveBeat n phase s).pending = s.pending := rfl
@[simp] theorem moveBeat_mb (n : Nat) (phase : Nat) (s : State) :
    (moveBeat n phase s).mb = s.mb := rfl
@[simp] theorem moveBeat_boot (n : Nat) (phase : Nat) (s : State) :
    (moveBeat n phase s).boot = s.boot := rfl
@[simp] theorem moveBeat_mem (n : Nat) (phase : Nat) (s : State) :
    (moveBeat n phase s).mem = s.mem := rfl
@[simp] theorem moveBeat_unbacked (n : Nat) (phase : Nat) (s : State) :
    (moveBeat n phase s).unbacked = s.unbacked := rfl
@[simp] theorem moveBeat_tiles (n : Nat) (phase : Nat) (s : State) :
    (moveBeat n phase s).tiles = s.tiles := rfl
@[simp] theorem moveBeat_cells (n : Nat) (phase : Nat) (s : State) :
    (moveBeat n phase s).cells = s.cells := rfl
@[simp] theorem moveBeat_ctr (n : Nat) (phase : Nat) (s : State) :
    (moveBeat n phase s).ctr = s.ctr := rfl
@[simp] theorem moveBeat_job (n : Nat) (phase : Nat) (s : State) :
    (moveBeat n phase s).job = s.job := rfl
@[simp] theorem moveBeat_ctl (n : Nat) (phase : Nat) (s : State) :
    (moveBeat n phase s).ctl = s.ctl := rfl
@[simp] theorem moveBeat_exch (n : Nat) (phase : Nat) (s : State) :
    (moveBeat n phase s).exch = s.exch := rfl
@[simp] theorem moveBeat_tier (n : Nat) (phase : Nat) (s : State) :
    (moveBeat n phase s).tier = s.tier := rfl
@[simp] theorem moveBeat_flash (n : Nat) (phase : Nat) (s : State) :
    (moveBeat n phase s).flash = s.flash := rfl
@[simp] theorem moveBeat_pools (n : Nat) (phase : Nat) (s : State) :
    (moveBeat n phase s).pools = s.pools := rfl
@[simp] theorem moveBeat_rem (n : Nat) (phase : Nat) (s : State) :
    (moveBeat n phase s).rem = s.rem := rfl
@[simp] theorem moveBeat_fab (n : Nat) (phase : Nat) (s : State) :
    (moveBeat n phase s).fab = s.fab := rfl
@[simp] theorem moveBeat_launch (n : Nat) (phase : Nat) (s : State) :
    (moveBeat n phase s).launch = s.launch := rfl
@[simp] theorem moveBeat_mgmt (n : Nat) (phase : Nat) (s : State) :
    (moveBeat n phase s).mgmt = s.mgmt := rfl
@[simp] theorem moveBeat_errs (n : Nat) (phase : Nat) (s : State) :
    (moveBeat n phase s).errs = s.errs := rfl
@[simp] theorem moveBeat_dbg (n : Nat) (phase : Nat) (s : State) :
    (moveBeat n phase s).dbg = s.dbg := rfl
@[simp] theorem moveBeat_pins (n : Nat) (phase : Nat) (s : State) :
    (moveBeat n phase s).pins = s.pins := rfl

@[simp] theorem setPending_pending (q : Pending) (s : State) :
    (setPending q s).pending = s.pending := rfl
@[simp] theorem setPending_mb (q : Pending) (s : State) :
    (setPending q s).mb = s.mb := rfl
@[simp] theorem setPending_boot (q : Pending) (s : State) :
    (setPending q s).boot = s.boot := rfl
@[simp] theorem setPending_mem (q : Pending) (s : State) :
    (setPending q s).mem = s.mem := rfl
@[simp] theorem setPending_unbacked (q : Pending) (s : State) :
    (setPending q s).unbacked = s.unbacked := rfl
@[simp] theorem setPending_tiles (q : Pending) (s : State) :
    (setPending q s).tiles = s.tiles := rfl
@[simp] theorem setPending_cells (q : Pending) (s : State) :
    (setPending q s).cells = s.cells := rfl
@[simp] theorem setPending_ctr (q : Pending) (s : State) :
    (setPending q s).ctr = s.ctr := rfl
@[simp] theorem setPending_job (q : Pending) (s : State) :
    (setPending q s).job = s.job := rfl
@[simp] theorem setPending_ctl (q : Pending) (s : State) :
    (setPending q s).ctl = s.ctl := rfl
@[simp] theorem setPending_exch (q : Pending) (s : State) :
    (setPending q s).exch = s.exch := rfl
@[simp] theorem setPending_tier (q : Pending) (s : State) :
    (setPending q s).tier = s.tier := rfl
@[simp] theorem setPending_flash (q : Pending) (s : State) :
    (setPending q s).flash = s.flash := rfl
@[simp] theorem setPending_pools (q : Pending) (s : State) :
    (setPending q s).pools = s.pools := rfl
@[simp] theorem setPending_rem (q : Pending) (s : State) :
    (setPending q s).rem = s.rem := rfl
@[simp] theorem setPending_fab (q : Pending) (s : State) :
    (setPending q s).fab = s.fab := rfl
@[simp] theorem setPending_time (q : Pending) (s : State) :
    (setPending q s).time = s.time := rfl
@[simp] theorem setPending_mgmt (q : Pending) (s : State) :
    (setPending q s).mgmt = s.mgmt := rfl
@[simp] theorem setPending_errs (q : Pending) (s : State) :
    (setPending q s).errs = s.errs := rfl
@[simp] theorem setPending_dbg (q : Pending) (s : State) :
    (setPending q s).dbg = s.dbg := rfl
@[simp] theorem setPending_pins (q : Pending) (s : State) :
    (setPending q s).pins = s.pins := rfl

@[simp] theorem noteForward_pending (key : Word × Nat × Nat × Nat) (s : State) :
    (noteForward key s).pending = s.pending := rfl
@[simp] theorem noteForward_mb (key : Word × Nat × Nat × Nat) (s : State) :
    (noteForward key s).mb = s.mb := rfl
@[simp] theorem noteForward_boot (key : Word × Nat × Nat × Nat) (s : State) :
    (noteForward key s).boot = s.boot := rfl
@[simp] theorem noteForward_mem (key : Word × Nat × Nat × Nat) (s : State) :
    (noteForward key s).mem = s.mem := rfl
@[simp] theorem noteForward_unbacked (key : Word × Nat × Nat × Nat) (s : State) :
    (noteForward key s).unbacked = s.unbacked := rfl
@[simp] theorem noteForward_tiles (key : Word × Nat × Nat × Nat) (s : State) :
    (noteForward key s).tiles = s.tiles := rfl
@[simp] theorem noteForward_cells (key : Word × Nat × Nat × Nat) (s : State) :
    (noteForward key s).cells = s.cells := rfl
@[simp] theorem noteForward_ctr (key : Word × Nat × Nat × Nat) (s : State) :
    (noteForward key s).ctr = s.ctr := rfl
@[simp] theorem noteForward_job (key : Word × Nat × Nat × Nat) (s : State) :
    (noteForward key s).job = s.job := rfl
@[simp] theorem noteForward_ctl (key : Word × Nat × Nat × Nat) (s : State) :
    (noteForward key s).ctl = s.ctl := rfl
@[simp] theorem noteForward_exch (key : Word × Nat × Nat × Nat) (s : State) :
    (noteForward key s).exch = s.exch := rfl
@[simp] theorem noteForward_tier (key : Word × Nat × Nat × Nat) (s : State) :
    (noteForward key s).tier = s.tier := rfl
@[simp] theorem noteForward_flash (key : Word × Nat × Nat × Nat) (s : State) :
    (noteForward key s).flash = s.flash := rfl
@[simp] theorem noteForward_pools (key : Word × Nat × Nat × Nat) (s : State) :
    (noteForward key s).pools = s.pools := rfl
@[simp] theorem noteForward_rem (key : Word × Nat × Nat × Nat) (s : State) :
    (noteForward key s).rem = s.rem := rfl
@[simp] theorem noteForward_fab (key : Word × Nat × Nat × Nat) (s : State) :
    (noteForward key s).fab = s.fab := rfl
@[simp] theorem noteForward_time (key : Word × Nat × Nat × Nat) (s : State) :
    (noteForward key s).time = s.time := rfl
@[simp] theorem noteForward_mgmt (key : Word × Nat × Nat × Nat) (s : State) :
    (noteForward key s).mgmt = s.mgmt := rfl
@[simp] theorem noteForward_errs (key : Word × Nat × Nat × Nat) (s : State) :
    (noteForward key s).errs = s.errs := rfl
@[simp] theorem noteForward_dbg (key : Word × Nat × Nat × Nat) (s : State) :
    (noteForward key s).dbg = s.dbg := rfl
@[simp] theorem noteForward_pins (key : Word × Nat × Nat × Nat) (s : State) :
    (noteForward key s).pins = s.pins := rfl

/-! Reads after writes of the tables by number. -/

@[simp] theorem cellOf_setCell (c : Nat) (x : Cell) (s : State) : cellOf (setCell c x s) c = x := by
  simp [cellOf, setCell, kvGetD]

theorem cellOf_setCell_ne {b c : Nat} (x : Cell) (s : State) (h : b ≠ c) : cellOf (setCell c x s) b = cellOf s b := by
  simp [cellOf, setCell, kvGetD, kvGet_kvPut_ne _ _ h]

@[simp] theorem portOf_setPort (p : Nat) (q : Port) (s : State) : portOf (setPort p q s) p = q := by
  simp [portOf, setPort, kvGetD]

theorem portOf_setPort_ne {b p : Nat} (q : Port) (s : State) (h : b ≠ p) : portOf (setPort p q s) b = portOf s b := by
  simp [portOf, setPort, kvGetD, kvGet_kvPut_ne _ _ h]

@[simp] theorem pairOf_setPair (d : Nat) (q : Pair) (s : State) : pairOf (setPair d q s) d = q := by
  simp [pairOf, setPair, kvGetD]

theorem pairOf_setPair_ne {b d : Nat} (q : Pair) (s : State) (h : b ≠ d) : pairOf (setPair d q s) b = pairOf s b := by
  simp [pairOf, setPair, kvGetD, kvGet_kvPut_ne _ _ h]

@[simp] theorem depGet_depSet (cell ctr v : Nat) (s : State) : depGet (depSet cell ctr v s) cell ctr = v := by
  simp [depGet, depSet]

@[simp] theorem copyOf_putCopy (c : Copy) (s : State) : copyOf? (putCopy c s) c.obj c.tier = some c := by
  simp [copyOf?, putCopy]

end Sys2Proof.Machine
end

