-- ==== Sys2Proof/Tests/Slice0.lean ====
section
/-! SUPPORT. Our own tests: ill-formed terms that the checks refuse, small steps whose results the manual gives, and for every
statement with hypotheses a state and operands that meet them, clause by clause. -/

namespace Sys2Proof.Tests

open Sys2Proof.Machine Sys2Proof.Claims

-- Kernel evaluations one after another: each needs every earlier proof to be checked.
set_option Elab.async false

/-! ## Small states -/

/-- Memory that holds little-endian fields, each an address, a size and a value. -/
def fields (l : List (Nat × Nat × Nat)) : Mem := l.foldl (fun m f => memWrite m f.1 (natLe f.2.1 f.2.2)) []

/-- A device in normal service with logical cell 0 on physical cell 0. -/
def up : State :=
  let r := State.reset
  { r with
    boot := { r.boot with stage := .ready, romUp := true }
    mb := { r.mb with ready := true }
    errs := { r.errs with mapUp := true, unit := [(0, 0)] } }

/-- The device with one command entry in the ring: its opcode, TAG 7 and argument fields. -/
def host (op : Nat) (args : List (Nat × Nat × Nat)) (s : State) : State :=
  { s with mb := { s.mb with ram := fields ((0, 2, op) :: (2, 2, 7) :: args), cmdDoorbell := 1 } }

/-- The command entry at CMD_HEAD. -/
def headOf (s : State) : Cmd := (headCmd? s).getD ⟨0, 0, 0, []⟩

/-- A job is open: JOB 1. -/
def withJob (s : State) : State := { s with job := { s.job with opened := true, id := 1 } }

/-- A bound image of one schedule and the given sections. -/
def imageWith (secs : List Section) : Image where
  bytes := []
  length := 0
  imageId := 5
  digest := 0
  schedules := 1
  layers := 1
  seqSlots := 4
  expertSlots := 4
  stepTokens := 16
  expertsMax := 4
  kMax := 2
  idleLimit := 100
  sections := secs
  meas := 0
  bound := true

/-- A job is open with that image. -/
def withImage (secs : List Section) (s : State) : State :=
  { s with job := { (withJob s).job with image := some (imageWith secs) } }

/-- An ordinary granted step. -/
def gstep (n : Nat) : GStep :=
  ⟨BitVec.ofNat 32 n, 0, false, ⟨BitVec.ofNat 32 n, none, 0, [], [], none⟩, false, 0, 0⟩

/-- A run of a step with nothing counted yet. -/
def runOf (n : Nat) : Run where
  g := gstep n
  imageId := 5
  draining := false
  tArmed := 0
  tRunning := 0
  tDraining := 0
  fault := none
  voids := 0
  stallTicks := []
  stallEvents := []
  counts := []
  offered := []
  accepted := []
  overflow := []
  saved := Lasting.init
  idle := 0

/-- Step 3 is running on a bound image, with these descriptors in cell 0's store. -/
def running (ds : List Desc) : State :=
  let s := withImage [] up
  { s with
    ctl := { s.ctl with run := some (runOf 3), noCurrent := false }
    ctr := { s.ctr with sched := some 0 }
    cells := [(0, { Cell.init with window := ds, fetched := ds.length })] }

/-- A descriptor of step 3: its index, its first two header words, its signal and fields of its 64 bytes. -/
def desc (index taskId signal : Nat) (l : List (Nat × Nat × Nat)) : Desc where
  step := 3
  index := index
  taskId := BitVec.ofNat 32 taskId
  waitA := 0
  waitB := 0
  signal := BitVec.ofNat 32 signal
  body := memRead (fields l) 16 48
  issued := false

/-- A step fault of this device. -/
def localFault : StepFault := ⟨0x01, true, 0⟩

/-- A bound image with one CELL_LISTS section and one PRESETS section. -/
def bound : State := withImage [] up

/-- What a command's next state answers to a question. -/
def after (c : Instr) (s : State) (p : State → Bool) : Bool := match exec c s with | .next t => p t | _ => false

/-! ## Yopin commands: states that meet the clauses -/

def wIdentify : State := host 0x0101 [] up
def wGetCaps : State := host 0x0102 [(8, 8, hostBase)] up
def wSetConfig : State := host 0x0103 [(16, 8, hostBase), (24, 4, 64), (32, 8, hostBase + 65536), (40, 8, 65536)] up
def wReserved : State := host 0x0B03 [] up

theorem meets_identityCommands :
    (AtHead 0x0101 (headOf wIdentify) wIdentify) ∧
    (AtHead 0x0102 (headOf wGetCaps) wGetCaps ∧ argOk (headOf wGetCaps) 64 wGetCaps = true) ∧
    (AtHead 0x0103 (headOf wSetConfig) wSetConfig ∧ wSetConfig.mb.opened = [] ∧ wSetConfig.job.opened = false ∧
      cmdField (headOf wSetConfig) 16 8 % 4096 = 0 ∧ cmdField (headOf wSetConfig) 32 8 % 4096 = 0 ∧
      eventEntriesOk (cmdField (headOf wSetConfig) 24 4) = true ∧
      hostOk wSetConfig (cmdField (headOf wSetConfig) 16 8) (32 * cmdField (headOf wSetConfig) 24 4) = true ∧
      hostOk wSetConfig (cmdField (headOf wSetConfig) 32 8) (cmdField (headOf wSetConfig) 40 8) = true) ∧
    (headCmd? wReserved = some (headOf wReserved) ∧ (headOf wReserved).op ∉ knownOpcodes) := by decide +kernel

/-- GET_CAPS stands open with its end settled. -/
def lateOpen : OpenCmd := ⟨0x0102, 7, 0, .late stOk [], []⟩
def wLate : State := { up with mb := { up.mb with cmdDoorbell := 1, cmdHead := 1, opened := [lateOpen] } }

theorem meets_lateEnd : wLate.mb.opened = [lateOpen] ∧ lateOpen.kind = .late stOk [] := by decide +kernel

def wJobOpen : State := host 0x0201 [(16, 2, 1), (20, 2, 9)] up
def wLoadImage : State := host 0x0301 [(16, 8, hostBase), (24, 8, 128)] (withJob up)
def wBind : State :=
  let s := host 0x0302 [] bound
  { s with
    job := { s.job with image := some { imageWith [] with bound := false } }
    mb := { s.mb with rptRing := some (hostBase, 65536) } }
def wJobClose : State := host 0x0202 [] bound

theorem meets_jobCommands :
    (AtHead 0x0201 (headOf wJobOpen) wJobOpen ∧ wJobOpen.mb.opened = [] ∧ wJobOpen.job.opened = false ∧
      cmdField (headOf wJobOpen) 16 2 ≠ 0 ∧ cmdField (headOf wJobOpen) 16 2 ≠ 0xFFFF) ∧
    (AtHead 0x0301 (headOf wLoadImage) wLoadImage ∧ wLoadImage.job.opened = true ∧ wLoadImage.job.image = none ∧
      wLoadImage.tier.objs = [] ∧ wLoadImage.tier.copies = [] ∧
      hostOk wLoadImage (cmdField (headOf wLoadImage) 16 8) (cmdField (headOf wLoadImage) 24 8) = true ∧
      128 ≤ cmdField (headOf wLoadImage) 24 8) ∧
    (AtHead 0x0302 (headOf wBind) wBind ∧ wBind.job.image = some { imageWith [] with bound := false } ∧
      (imageWith []).digest = wBind.boot.digest ∧ 2 ≤ reportEntries wBind { imageWith [] with bound := false }) ∧
    (AtHead 0x0202 (headOf wJobClose) wJobClose ∧ wJobClose.job.opened = true ∧ stepHeld wJobClose = false ∧
      wJobClose.launch.pend = none ∧ anyPromoting wJobClose = false ∧ wJobClose.tier.deferred = [] ∧
      wJobClose.tier.copies = [] ∧ wJobClose.pools.waits = [] ∧ wJobClose.pools.bound = [] ∧ wJobClose.mb.evtRing = none ∧
      ∀ b ∈ wJobClose.pools.buffers, b.freePending = none) := by decide +kernel

/-- A grant of steps 3 and 4. -/
def wGrant : State :=
  { host 0x0401 [(8, 8, hostBase)] bound with mem := fields [(hostBase, 4, 3), (hostBase + 4, 1, 2)] }
def wGrantRec : GrantRec := grantRec (getBytes wGrant hostBase 64)

theorem meets_grant :
    AtHead 0x0401 (headOf wGrant) wGrant ∧ boundImage? wGrant = some (imageWith []) ∧ argOk (headOf wGrant) 64 wGrant = true ∧
    wGrantRec = grantRec (getBytes wGrant (argAddr (headOf wGrant)) 64) ∧ isReplay wGrantRec = false ∧
    (wGrant.ctl.nextStep.all fun n => n == BitVec.ofNat 32 wGrantRec.first) = true ∧
    grantFieldsOk wGrant (imageWith []) wGrantRec = true ∧ grantBiasOk wGrant (imageWith []) wGrantRec = true ∧
    (changesOf wGrant wGrantRec).all (changeTargetOk wGrant (imageWith [])) = true ∧
    grantSlotsOk wGrant (imageWith []) wGrantRec = true ∧
    admitsOk (stagedLasting wGrant) (changesOf wGrant wGrantRec) = true ∧
    wGrant.ctl.granted.length + wGrantRec.count ≤ 8 := by decide +kernel

def wAbortRun : State := host 0x0402 [(16, 4, 3)] (running [])
def wAbortPast : State :=
  let s := host 0x0402 [(16, 4, 2)] bound
  { s with ctl := { s.ctl with past := [⟨gstep 2, true, 0, true⟩] } }
def wAbortJobNone : State := host 0x0403 [] (withJob up)
def wAbortJobRun : State := host 0x0403 [] (running [])
def wAbortJobIdle : State :=
  let s := host 0x0403 [] bound
  { s with ctl := { s.ctl with granted := [gstep 3] } }

theorem meets_aborts :
    (AtHead 0x0402 (headOf wAbortRun) wAbortRun ∧ wAbortRun.ctl.run = some (runOf 3) ∧ (runOf 3).fault = none ∧
      (runOf 3).g.step = BitVec.ofNat 32 (cmdField (headOf wAbortRun) 16 4)) ∧
    (AtHead 0x0402 (headOf wAbortPast) wAbortPast ∧ wAbortPast.ctl.run = none ∧
      stepQueued wAbortPast (BitVec.ofNat 32 (cmdField (headOf wAbortPast) 16 4)) = false) ∧
    (AtHead 0x0403 (headOf wAbortJobNone) wAbortJobNone ∧ wAbortJobNone.mb.opened = [] ∧ wAbortJobNone.job.image = none) ∧
    (AtHead 0x0403 (headOf wAbortJobRun) wAbortJobRun ∧ wAbortJobRun.mb.opened = [] ∧
      wAbortJobRun.job.image = some (imageWith []) ∧ wAbortJobRun.ctl.run = some (runOf 3)) ∧
    (AtHead 0x0403 (headOf wAbortJobIdle) wAbortJobIdle ∧ wAbortJobIdle.mb.opened = [] ∧
      wAbortJobIdle.job.image = some (imageWith []) ∧ wAbortJobIdle.ctl.run = none ∧
      wAbortJobIdle.pools.bound = []) := by decide +kernel

/-- The tree record of a launch root with no child. -/
def rootTree : Tree := ⟨0, 1, none, none, 0, 0, 0⟩
def wTreeSet : State := host 0x0404 [(20, 4, 1), (24, 2, 0xFFFF)] bound
def wPeal : State :=
  let s := host 0x0405 [(16, 8, 1000000), (24, 4, 3)] bound
  { s with launch := { s.launch with tree := some rootTree }, time := { s.time with state := .locked } }

theorem meets_launchCommands :
    (AtHead 0x0404 (headOf wTreeSet) wTreeSet ∧ wTreeSet.job.opened = true ∧ wTreeSet.launch.pend = none ∧
      treeRecordOk (headOf wTreeSet).bytes = true) ∧
    (AtHead 0x0405 (headOf wPeal) wPeal ∧ wPeal.launch.tree = some rootTree ∧ rootTree.pParent = none ∧
      rootTree.sParent = none ∧ wPeal.time.state = .locked ∧ wPeal.launch.pend = none ∧
      wPeal.time.beat + max 50000 (guardTicks + 3 * (1250 * rootTree.depth)) ≤ cmdField (headOf wPeal) 16 8) := by
  decide +kernel

/-- An object of 64 bytes at home in host-die memory, with an HBM frame. -/
def anObj : Obj := ⟨1, 4, false, false, false, 0, 64, hostBase + 4096, some 8192, none, none, false⟩
/-- Its copy in HBM. -/
def aCopy (st : Residency) : Copy := ⟨1, 2, st, 4, [], [], [], false, false, none, false, false, false⟩
/-- The device with that object and these copies. -/
def withObj (cs : List Copy) (s : State) : State := { s with tier := { s.tier with objs := [anObj], copies := cs } }
/-- A command that names the object and HBM. -/
def onCopy (op : Nat) (cs : List Copy) : State := host op [(16, 4, 1), (20, 1, 2)] (withObj cs bound)

def wObjDefine : State :=
  { host 0x0501 [(8, 8, hostBase)] bound with mem := fields [(hostBase, 4, 1), (hostBase + 4, 1, 4), (hostBase + 8, 8, 64),
      (hostBase + 16, 8, hostBase + 4096), (hostBase + 24, 8, 8192), (hostBase + 32, 8, noneAddr), (hostBase + 40, 8, noneAddr)] }
def wPromote : State := onCopy 0x0502 []
def wEvict : State := onCopy 0x0503 [aCopy .resident]
def wPin : State := onCopy 0x0504 [aCopy .resident]
def wUnpin : State := onCopy 0x0505 [aCopy .pinned]

theorem meets_residencyCommands :
    (AtHead 0x0501 (headOf wObjDefine) wObjDefine ∧ argOk (headOf wObjDefine) 64 wObjDefine = true ∧
      objRecordOk wObjDefine (getBytes wObjDefine (argAddr (headOf wObjDefine)) 64) = true ∧
      objOf? wObjDefine (objFrom (getBytes wObjDefine (argAddr (headOf wObjDefine)) 64) false).id = none ∧
      wObjDefine.tier.objs.length < 1048576) ∧
    (copyNamed? (headOf wPromote) wPromote = some (anObj, 2) ∧ AtHead 0x0502 (headOf wPromote) wPromote ∧
      copyOf? wPromote 1 2 = none ∧ occupant? wPromote anObj 2 = none) ∧
    (copyNamed? (headOf wEvict) wEvict = some (anObj, 2) ∧ AtHead 0x0503 (headOf wEvict) wEvict ∧
      copyOf? wEvict 1 2 = some (aCopy .resident) ∧ grantedReaders wEvict 1 2 = []) ∧
    (copyNamed? (headOf wPin) wPin = some (anObj, 2) ∧ AtHead 0x0504 (headOf wPin) wPin ∧
      copyOf? wPin 1 2 = some (aCopy .resident) ∧ wPin.tier.deferred = []) ∧
    (copyNamed? (headOf wUnpin) wUnpin = some (anObj, 2) ∧ AtHead 0x0505 (headOf wUnpin) wUnpin ∧
      copyOf? wUnpin 1 2 = some (aCopy .pinned)) := by decide +kernel

/-- Cluster 0 has eight 256-byte buffers in HBM; owner 5 holds these. -/
def withPool (bs : List Buffer) (s : State) : State :=
  { s with pools := { s.pools with classes := [(0, ⟨true, 4096, 8⟩)], buffers := bs } }

def wPoolConfig : State := host 0x0601 [(18, 1, 1), (20, 4, 8), (24, 8, 4096)] bound
def wPoolAlloc : State := host 0x0602 [(18, 2, 5), (20, 4, 256)] (withPool [⟨0, 5, 0, none, 0⟩] bound)
def wPoolShare : State := host 0x0603 [(20, 2, 5), (22, 2, 2)] (withPool [⟨0, 5, 65533, none, 0⟩] bound)
def wPoolRelease : State := host 0x0604 [(20, 2, 6)] (withPool [⟨0, 5, 2, none, 0⟩] bound)
def wPoolFree : State := host 0x0605 [(20, 2, 5)] (withPool [⟨0, 5, 0, none, 0⟩] bound)
def wPoolStatus : State := host 0x0606 [(8, 8, hostBase), (16, 1, 15)] (withPool [] bound)

theorem meets_poolCommands :
    (AtHead 0x0601 (headOf wPoolConfig) wPoolConfig ∧ wPoolConfig.job.opened = true ∧
      cmdField (headOf wPoolConfig) 16 1 < 16 ∧ cmdField (headOf wPoolConfig) 17 1 < 8 ∧
      cmdField (headOf wPoolConfig) 18 1 < 2 ∧ cmdField (headOf wPoolConfig) 20 4 ≤ 1048576 ∧
      cmdField (headOf wPoolConfig) 24 8 % (if cmdField (headOf wPoolConfig) 17 1 ≤ 1
        then classBytes (cmdField (headOf wPoolConfig) 17 1) else 4096) = 0 ∧
      poolRegionOk wPoolConfig 0 0 ⟨true, 4096, 8⟩ = true ∧ usedIndices wPoolConfig 0 0 = [] ∧ wPoolConfig.pools.waits = []) ∧
    (AtHead 0x0602 (headOf wPoolAlloc) wPoolAlloc ∧ wPoolAlloc.job.opened = true ∧ cmdField (headOf wPoolAlloc) 16 1 < 16 ∧
      0 < cmdField (headOf wPoolAlloc) 20 4 ∧ cmdField (headOf wPoolAlloc) 20 4 ≤ 4194304 ∧
      cmdField (headOf wPoolAlloc) 18 2 < 0xFFF0 ∧ fitClass (cmdField (headOf wPoolAlloc) 20 4) = 0 ∧
      freeIndex? wPoolAlloc (cmdField (headOf wPoolAlloc) 16 1) 0 = some 1) ∧
    (AtHead 0x0603 (headOf wPoolShare) wPoolShare ∧ handleValid wPoolShare (cmdField (headOf wPoolShare) 16 4) = true ∧
      bufferOf? wPoolShare (handleNamed (cmdField (headOf wPoolShare) 16 4)) = some ⟨0, 5, 65533, none, 0⟩ ∧
      cmdField (headOf wPoolShare) 20 2 = 5 ∧ 0 < cmdField (headOf wPoolShare) 22 2 ∧
      65533 + cmdField (headOf wPoolShare) 22 2 ≤ 65535) ∧
    (AtHead 0x0604 (headOf wPoolRelease) wPoolRelease ∧
      handleValid wPoolRelease (cmdField (headOf wPoolRelease) 16 4) = true ∧
      bufferOf? wPoolRelease (handleNamed (cmdField (headOf wPoolRelease) 16 4)) = some ⟨0, 5, 2, none, 0⟩ ∧
      bitOf (cmdField (headOf wPoolRelease) 22 1) 0 = false ∧ cmdField (headOf wPoolRelease) 20 2 = 6) ∧
    (AtHead 0x0605 (headOf wPoolFree) wPoolFree ∧ handleValid wPoolFree (cmdField (headOf wPoolFree) 16 4) = true ∧
      bufferOf? wPoolFree (handleNamed (cmdField (headOf wPoolFree) 16 4)) = some ⟨0, 5, 0, none, 0⟩ ∧
      bitOf (cmdField (headOf wPoolFree) 22 1) 0 = false ∧ cmdField (headOf wPoolFree) 20 2 = 5 ∧
      wPoolFree.pools.waits = []) ∧
    (AtHead 0x0606 (headOf wPoolStatus) wPoolStatus ∧ cmdField (headOf wPoolStatus) 16 1 < 16 ∧
      argOk (headOf wPoolStatus) 128 wPoolStatus = true) := by decide +kernel

/-- A valid window of 64 bytes of HBM for job 1 and every group. -/
def aWindow : Window := ⟨143, 0, 1, 0, 4095, 4096, 64⟩
def wWinSet : State := host 0x0701 [(16, 2, 4095), (32, 1, 15), (34, 2, 1), (38, 2, 4095), (40, 8, 4096), (48, 4, 64)] bound
def wWinClear : State :=
  let s := host 0x0702 [] bound
  { s with rem := { s.rem with windows := [(0, aWindow)] } }
def wWinRead : State := { host 0x0703 [(8, 8, hostBase)] bound with rem := wWinClear.rem }

theorem meets_windowCommands :
    (wWinSet.job.opened = true ∧ cmdField (headOf wWinSet) 16 2 < 4096 ∧ AtHead 0x0701 (headOf wWinSet) wWinSet ∧
      wWinSet.ctl.run = none ∧ windowReservedOk (headOf wWinSet).bytes 32 = true ∧
      (windowFrom (headOf wWinSet).bytes 32).job = wWinSet.job.id.toNat ∧
      (windowFrom (headOf wWinSet).bytes 32).groupLo ≤ (windowFrom (headOf wWinSet).bytes 32).groupHi ∧
      windowRangeOk (windowFrom (headOf wWinSet).bytes 32) = true) ∧
    (wWinClear.job.opened = true ∧ cmdField (headOf wWinClear) 16 2 < 4096 ∧ AtHead 0x0702 (headOf wWinClear) wWinClear ∧
      wWinClear.ctl.run = none) ∧
    (wWinRead.job.opened = true ∧ cmdField (headOf wWinRead) 16 2 < 4096 ∧ AtHead 0x0703 (headOf wWinRead) wWinRead ∧
      argOk (headOf wWinRead) 32 wWinRead = true) := by decide +kernel

/-- A small NAND population of the part of R271's example: one die of 16 blocks a channel. -/
def smallNand : FlashGeometry where
  targets := 1
  dies := 1
  partEntry := 0x0213
  planes := 4
  blocksPerDie := 16
  pagesPerBlock := 1536
  rdLimit := 500000
  retMargin := 96
  endurance := 3000
  retryEntries := 12
  alike := true
  cellBits := 3
  spare := 2048
  tR := 45000
  tProg := 900000
/-- An extent of 4,096 bytes, nothing of it written, on its 48 blocks. -/
def anExtent : Extent := ⟨1, 4096, false, false, 0, [], (List.range 48).map (16 * ·)⟩
/-- The tier is ONLINE with these extents. -/
def online (xs : List Extent) (s : State) : State :=
  { s with flash := { s.flash with
      state := .online
      geom := smallNand
      extents := xs
      nextExtent := 2
      blocks := xs.flatMap fun x => x.blocks.map fun b => (b, ⟨0, 0, false, true, none, false, none⟩) } }

def wFlashStatus : State := host 0x0801 [(8, 8, hostBase)] (online [] up)
def wFlashFormat : State := host 0x0802 [(16, 4, 0x46424D54)] (online [] up)
def wExtentCreate : State := host 0x0803 [(16, 8, 4096)] (online [] up)
def wExtentWrite : State := host 0x0804 [(16, 4, 1), (40, 8, 4096)] (online [anExtent] up)
def wExtentSeal : State := host 0x0805 [(16, 4, 1)] (online [anExtent] up)
def wExtentDelete : State := host 0x0806 [(16, 4, 1)] (online [anExtent] up)

theorem ringBacked_none {s : State} (h : s.mb.evtRing = none) : RingBacked s := by
  intro b n hr
  rw [h] at hr
  cases hr

theorem meets_flashCommands :
    (wFlashStatus.flash.state = .online ∧ AtHead 0x0801 (headOf wFlashStatus) wFlashStatus ∧
      argOk (headOf wFlashStatus) 128 wFlashStatus = true) ∧
    (AtHead 0x0802 (headOf wFlashFormat) wFlashFormat ∧ cmdField (headOf wFlashFormat) 16 4 = 0x46424D54 ∧
      wFlashFormat.flash.formatting = false ∧ wFlashFormat.flash.extents = [] ∧ wFlashFormat.mb.evtRing = none) ∧
    (AtHead 0x0803 (headOf wExtentCreate) wExtentCreate ∧ extentLenOk (cmdField (headOf wExtentCreate) 16 8) = true ∧
      wExtentCreate.flash.lowReserve = false ∧
      stripesOf (cmdField (headOf wExtentCreate) 16 8) ≤ freeStripes wExtentCreate.flash ∧
      wExtentCreate.flash.nextExtent ≤ 0xFFFFFFFE ∧
      (drawGroups (ceilDiv (stripesOf (cmdField (headOf wExtentCreate) 16 8)) (groupStripes wExtentCreate.flash.geom))
        wExtentCreate.flash).isSome = true) ∧
    (AtHead 0x0804 (headOf wExtentWrite) wExtentWrite ∧
      extentOf? wExtentWrite.flash (cmdField (headOf wExtentWrite) 16 4) = some anExtent ∧
      cmdField (headOf wExtentWrite) 24 8 = anExtent.writePoint ∧ cmdField (headOf wExtentWrite) 40 8 % 4096 = 0 ∧
      cmdField (headOf wExtentWrite) 24 8 + cmdField (headOf wExtentWrite) 40 8 ≤ anExtent.length ∧
      writeSourceOk wExtentWrite (cmdField (headOf wExtentWrite) 32 8) (cmdField (headOf wExtentWrite) 40 8) = true) ∧
    (AtHead 0x0805 (headOf wExtentSeal) wExtentSeal ∧
      extentOf? wExtentSeal.flash (cmdField (headOf wExtentSeal) 16 4) = some anExtent ∧ anExtent.sealedExt = false) ∧
    (AtHead 0x0806 (headOf wExtentDelete) wExtentDelete ∧
      extentOf? wExtentDelete.flash (cmdField (headOf wExtentDelete) 16 4) = some anExtent ∧
      (wExtentDelete.tier.objs.any fun o => o.homeTier == 3 && o.homeAddr == cmdField (headOf wExtentDelete) 16 4) = false ∧
      wExtentDelete.mb.opened = []) := by decide +kernel

/-- A capture that is running with 64 KiB of room. -/
def aCapture : Capture := ⟨0, 65536, true, false, 2, 1, true⟩
def withCapture (s : State) : State := { s with dbg := { s.dbg with capture := some aCapture } }

def wTelSnapshot : State := host 0x0901 [(8, 8, hostBase)] up
def wAttest : State := host 0x0A01 [(8, 8, hostBase)] up
def wTraceStart : State := host 0x0B01 [(32, 4, 65536), (36, 1, 3)] up
def wTraceStop : State := host 0x0B01 [(16, 1, 1)] (withCapture up)
def wTraceStatus : State := host 0x0B01 [(16, 1, 2)] (withCapture up)
def wMemread : State :=
  { host 0x0B02 [(8, 8, hostBase), (16, 8, 4096), (24, 8, 64)] up with mem := fields [(4096, 8, 0x1122334455667788)] }

theorem meets_snapshotAndReport :
    (AtHead 0x0901 (headOf wTelSnapshot) wTelSnapshot ∧ argOk (headOf wTelSnapshot) 9216 wTelSnapshot = true) ∧
    (AtHead 0x0A01 (headOf wAttest) wAttest ∧ argOk (headOf wAttest) 32768 wAttest = true) := by decide +kernel

/-- The burst that DEBUG_MEMREAD reads is known to be uncorrectable. -/
def wMemreadBad : State := { wMemread with errs := { wMemread.errs with badBursts := [4096] } }
/-- The device with debug locked. -/
def debugLocked (s : State) : State := { s with boot := { s.boot with locks := 0x08 } }

theorem meets_debugCommands :
    (wTraceStart.boot.locks.getLsbD 3 = false ∧ AtHead 0x0B01 (headOf wTraceStart) wTraceStart ∧
      traceAction (headOf wTraceStart) = 0 ∧ capturing wTraceStart = false ∧ cmdField (headOf wTraceStart) 24 8 % 4096 = 0 ∧
      cmdField (headOf wTraceStart) 32 4 % 4096 = 0 ∧ 65536 ≤ cmdField (headOf wTraceStart) 32 4 ∧
      cmdField (headOf wTraceStart) 32 4 ≤ 1073741824 ∧
      hbmRange (cmdField (headOf wTraceStart) 24 8) (cmdField (headOf wTraceStart) 32 4) = true ∧
      overlapsImage wTraceStart (cmdField (headOf wTraceStart) 24 8) (cmdField (headOf wTraceStart) 32 4) = false) ∧
    (wTraceStop.boot.locks.getLsbD 3 = false ∧ AtHead 0x0B01 (headOf wTraceStop) wTraceStop ∧ traceAction (headOf wTraceStop) = 1 ∧
      wTraceStop.dbg.capture = some aCapture ∧ aCapture.running = true) ∧
    (wTraceStatus.boot.locks.getLsbD 3 = false ∧ AtHead 0x0B01 (headOf wTraceStatus) wTraceStatus ∧ traceAction (headOf wTraceStatus) = 2 ∧
      wTraceStatus.dbg.capture = some aCapture) ∧
    (wMemread.boot.locks.getLsbD 3 = false ∧ AtHead 0x0B02 (headOf wMemread) wMemread ∧ 64 ≤ cmdField (headOf wMemread) 24 8 ∧
      cmdField (headOf wMemread) 24 8 ≤ 1048576 ∧ cmdField (headOf wMemread) 24 8 % 64 = 0 ∧
      memreadSource wMemread (cmdField (headOf wMemread) 16 8) (cmdField (headOf wMemread) 24 8) = true ∧
      argOk (headOf wMemread) (cmdField (headOf wMemread) 24 8) wMemread = true ∧ wMemread.ctl.run = none ∧
      badRead? (cmdField (headOf wMemread) 16 8) (cmdField (headOf wMemread) 24 8) wMemread = none ∧
      AtHead 0x0B02 (headOf wMemread) wMemreadBad ∧
      (badRead? (cmdField (headOf wMemread) 16 8) (cmdField (headOf wMemread) 24 8) wMemreadBad).isSome = true) ∧
    (∀ e ∈ [(wTraceStart, 0), (wTraceStop, 1), (wTraceStatus, 2)], (debugLocked e.1).boot.locks.getLsbD 3 = true ∧
      AtHead 0x0B01 (headOf (debugLocked e.1)) (debugLocked e.1) ∧ traceAction (headOf (debugLocked e.1)) = e.2) ∧
    ((debugLocked wMemread).boot.locks.getLsbD 3 = true ∧ AtHead 0x0B02 (headOf (debugLocked wMemread)) (debugLocked wMemread)) := by
  decide +kernel

/-! ## Engine control space, power and boot -/

def wRegs : State := { up with mb := { up.mb with cplTail := 4, rptTail := 4, evtTail := 4, evtSeq := 9, evtCause := 5 } }

theorem meets_mailboxRegisters :
    wRegs.boot.stage = .ready ∧ hostLink wRegs = true ∧ ((4 : Word) - wRegs.mb.evtHead).toNat ≤ (wRegs.mb.evtTail - wRegs.mb.evtHead).toNat ∧
      wRegs.mb.queue = [] ∧
      (wRegs.mb.evtTail - wRegs.mb.evtHead).toNat < ((5 : Word) - wRegs.mb.evtHead).toNat := by decide +kernel

/-- ROM_WAIT with the boot window open. -/
def romWait : State := { State.reset with boot := { State.reset.boot with romUp := true } }
/-- The monitor runs, and a load record names 64 bytes at the first host-die address. -/
def monitorRun (magic : Nat) : State :=
  { State.reset with
    boot := { State.reset.boot with romUp := true, stage := .monitorRun }
    mb := { State.reset.mb with ram := fields [(0, 4, magic), (4, 4, 8192), (8, 8, hostBase)] } }

/-- No host module is in service. -/
def noHost : State := { romWait with errs := { romWait.errs with hostModules := 0 } }

theorem meets_bootWindow :
    (romWait.pins.pwrgd = true ∧ romWait.boot.romUp = true ∧ hostLink romWait = true ∧ romWait.boot.stage = .romWait ∧
      romWait.boot.locks.getLsbD 4 = false ∧ 262140 % 4 = 0 ∧ (262144 : Word).toNat % 2 ^ 19 ≤ 262144) ∧
    ((monitorRun 0).pins.pwrgd = true ∧ hostLink (monitorRun 0) = true ∧ (monitorRun 0).boot.stage ≠ .romWait ∧ hostLink noHost = false) ∧
    ((0 : Word).toNat % 2 ^ 19 = 0 ∧ 262144 < (262145 : Word).toNat % 2 ^ 19) ∧
    ((monitorRun 0x46574C44).boot.stage = .monitorRun ∧
      loadRecordBad (memRead (monitorRun 0x46574C44).mb.ram 0 64) = false) ∧
    ((monitorRun 0).boot.stage = .monitorRun ∧ loadRecordBad (memRead (monitorRun 0).mb.ram 0 64) = true) := by
  decide +kernel

theorem meets_hostLink :
    (up.pins.pwrgd = true ∧ hostLink up = true ∧ hostLink noHost = false ∧ (((List.replicate 64 (1 : Byte)).length = 4 ∧ 0x1DFC0 % 4 = 0) ∨
      ((List.replicate 64 (1 : Byte)).length = 64 ∧ 0x1DFC0 % 64 = 0)) ∧ 0x18000 ≤ 0x1DFC0 ∧
      0x1DFC0 + (List.replicate 64 (1 : Byte)).length ≤ 0x1E000) ∧
    ¬ ((([1, 2] : List Byte).length = 4 ∧ 0x18000 % 4 = 0) ∨ (([1, 2] : List Byte).length = 64 ∧ 0x18000 % 64 = 0)) ∧
    hostBase ≤ windowBase - 2 ∧ windowBase - 2 + ([1, 2] : List Byte).length ≤ windowBase := by decide +kernel

def wPowerOff : State := { up with pins := { up.pins with pwrgd := false, nandProtect := true } }

theorem meets_powerPins :
    (up.pins.pwrgd = true ∧ wPowerOff.pins.pwrgd = false) ∧
    (up.boot.resetting = false ∧ ({ up with boot := { up.boot with resetting := true } } : State).boot.resetting = true) ∧ (romWait.pins.pwrgd = true ∧ romWait.boot.stage = .romWait) ∧
    (up.pins.pwrgd = true ∧ hostLink up = true ∧ (0xA5C30001 : Word).toNat / 65536 = 0xA5C3 ∧ (0xA5C30001 : Word).getLsbD 0 = true) := by
  decide +kernel

def atStage (st : Stage) : State := { State.reset with boot := { State.reset.boot with romUp := true, stage := st } }
def wFirmwareVerify : State :=
  let s := atStage .firmwareVerify
  { s with boot := { s.boot with loadSrc := hostBase, loadLen := 8192 } }
def wFirmwareUnbacked : State := { wFirmwareVerify with unbacked := [(hostBase, 4096)] }

theorem meets_verifies :
    ((atStage .romVerify).boot.stage = .romVerify ∧ (atStage .romVerify).pins.pwrgd = true ∧
      (atStage .romVerify).errs.deviceFault = false) ∧
    (wFirmwareVerify.boot.stage = .firmwareVerify ∧ wFirmwareVerify.pins.pwrgd = true ∧
      wFirmwareVerify.errs.deviceFault = false ∧
      hostOk wFirmwareVerify wFirmwareVerify.boot.loadSrc wFirmwareVerify.boot.loadLen = true) ∧
    (wFirmwareUnbacked.boot.stage = .firmwareVerify ∧
      hostOk wFirmwareUnbacked wFirmwareUnbacked.boot.loadSrc wFirmwareUnbacked.boot.loadLen = false) := by decide +kernel

def wInit : State :=
  let s := atStage .firmwareInit
  { s with mgmt := { s.mgmt with powerNext := some (600, 700) }, mem := fields [(64, 8, 5), (hostBase, 8, 6)] }

theorem meets_firmwareInit :
    wInit.boot.stage = .firmwareInit ∧ wInit.pins.pwrgd = true ∧ wInit.errs.deviceFault = false ∧
      portsSettled wInit = true ∧ clustersAlive [0, 1, 2] = true ∧ wInit.mgmt.powerNext = some (600, 700) ∧
      0 < wInit.errs.dieModulesA ∧ 0 < wInit.errs.dieModulesB ∧ wInit.errs.hbmLost = false ∧
      (∀ e ∈ [{ wInit.errs with dieModulesA := 0 }, { wInit.errs with dieModulesB := 0 }, { wInit.errs with hbmLost := true }],
        ({ wInit with errs := e } : State).errs.dieModulesA = 0 ∨ ({ wInit with errs := e } : State).errs.dieModulesB = 0 ∨
          ({ wInit with errs := e } : State).errs.hbmLost = true) := by decide +kernel

/-- Flash is MOUNTING, with a medium of which this much is known. -/
def wMounting (m : Medium) : State := { up with flash := { up.flash with state := .mounting, medium := m, mediumGeom := smallNand } }
/-- A medium with one extent of 4,096 bytes, all 0, on the first blocks of its channels. -/
def aMedium : FlashMedium where
  extents := [⟨1, 4096, [], (List.range 48).map (16 * ·)⟩]
  nextExtent := 2
  reads := []
  readDefault := 0
  erases := []
  eraseDefault := 0
  patrols := []
  bad := []
  retired := []
  superSeq := 5
  superCopy := 0
/-- EXTENT_SEAL of the extent is open, and the seal goes on. -/
def wSealing : State :=
  let s := online [{ anExtent with sealing := true }] up
  { s with mb := { s.mb with cmdDoorbell := 1, cmdHead := 1, opened := [⟨0x0805, 7, 0, .extentSeal 1, []⟩] } }
/-- The same with a stripe in flight, and with a page that waits for one. -/
def wSealingStaged : State := { wSealing with flash := { wSealing.flash with stages := [⟨1, 0, none, none, [0]⟩] } }
def wSealingQueued : State := { wSealing with flash := { wSealing.flash with stageQueue := [(1, 0)] } }
/-- FLASH_FORMAT is open, and the format goes on. -/
def wFormatting : State :=
  let s := online [] up
  { s with
    flash := { s.flash with state := .unformatted, formatting := true }
    mb := { s.mb with cmdDoorbell := 1, cmdHead := 1, opened := [⟨0x0802, 7, 0, .flashFormat, []⟩] } }

theorem meets_flashMounts :
    (∀ m ∈ [Medium.unknown, .blank, .cut, .formatted], (wMounting m).flash.state = .mounting ∧
      (wMounting m).boot.stage = .ready ∧ (wMounting m).tier.copies = [] ∧ (wMounting m).flash.medium = m) ∧
    (populationOk smallNand = true ∧ partQualified smallNand = true) ∧
    populationOk { smallNand with targets := 3 } = false ∧
    (populationOk { smallNand with spare := 575 } = true ∧ partQualified { smallNand with spare := 575 } = false) ∧
    (∀ m ∈ [Medium.unknown, .formatted], channelsUp (wMounting m) = true ∧ (wMounting m).flash.mediumGeom = smallNand) ∧
    mediumOk smallNand aMedium = true := by
  decide +kernel

theorem meets_sealsAndFormats :
    (wSealing.mb.opened = [⟨0x0805, 7, 0, .extentSeal 1, []⟩] ∧ wSealing.mb.evtRing = none ∧ wSealing.flash.state = .online ∧
      extentOf? wSealing.flash 1 = some { anExtent with sealing := true } ∧ wSealing.flash.stages = [] ∧
      wSealing.flash.stageQueue = [] ∧ (wSealingStaged.flash.stages.any fun g => g.ext == 1) = true ∧
      (wSealingQueued.flash.stageQueue.any fun e => e.1 == 1) = true) ∧
    channelsUp wFormatting = true ∧
    (wFormatting.mb.opened = [⟨0x0802, 7, 0, .flashFormat, []⟩] ∧ wFormatting.mb.evtRing = none ∧
      wFormatting.flash.formatting = true ∧ wFormatting.boot.stage = .ready) := by decide +kernel

/-! ## Steps and tasks -/

/-- A bound image with step 3 ARMED, one report entry free, and no step run yet. -/
def armedStep (launch : Bool) : State :=
  let s := bound
  { s with
    ctl := { s.ctl with armed := some { gstep 3 with launch := launch } }
    mb := { s.mb with rptRing := some (hostBase, 8192), rptSize := 4096, rptEntries := 2 }
    time := { s.time with beat := 2000 }
    launch := { s.launch with strobe := if launch then some (3, 2000) else none } }
def wGranted : State := { bound with ctl := { bound.ctl with granted := [gstep 3, gstep 4] } }

/-- The same with a report that waits for the report ring, and with a launch that had to wait for it. -/
def ringFull (launch : Bool) : State :=
  let s := armedStep launch
  { s with ctl := { s.ctl with reportsHeld := [[]] } }
def strobeWaited (launch : Bool) : State :=
  let s := armedStep launch
  { s with launch := { s.launch with strobeLate := true } }

theorem meets_stepsArmAndRun :
    (wGranted.ctl.armed = none ∧ wGranted.errs.deviceFault = false ∧ wGranted.ctl.replay = [] ∧
      wGranted.ctl.granted = [gstep 3, gstep 4] ∧ wGranted.ctl.gongPending = none) ∧
    ((armedStep false).ctl.armed = some (gstep 3) ∧ boundImage? (armedStep false) = some (imageWith []) ∧
      entryReady (armedStep false) (gstep 3) = true ∧ entryFree (armedStep false) = true ∧ (gstep 3).launch = false) ∧
    ((armedStep true).ctl.armed = some { gstep 3 with launch := true } ∧
      boundImage? (armedStep true) = some (imageWith []) ∧
      entryReady (armedStep true) { gstep 3 with launch := true } = true ∧ entryFree (armedStep true) = true ∧
      (armedStep true).launch.strobe = some (3, 2000) ∧ 2000 ≤ (armedStep true).time.beat ∧
      (armedStep true).launch.strobeLate = false ∧ (strobeWaited true).launch.strobeLate = true) ∧
    (∀ l ∈ [false, true], (ringFull l).ctl.armed = some { gstep 3 with launch := l } ∧
      boundImage? (ringFull l) = some (imageWith []) ∧ entryReady (ringFull l) { gstep 3 with launch := l } = true ∧
      entryFree (ringFull l) = false ∧ (ringFull l).errs.testing = none) := by decide +kernel

/-- The run of step 3 with a drained list, or stopping, or idle for long. -/
def inRun (r : Run) : State :=
  let s := armedStep false
  { s with ctl := { s.ctl with run := some r, armed := none } }
def draining : Run := { runOf 3 with draining := true }
def stopping : Run := { runOf 3 with fault := some localFault }
def hung : Run := { runOf 3 with idle := 125000 }

theorem meets_stepsLatch :
    ((inRun draining).ctl.run = some draining ∧ draining.draining = true ∧ draining.fault = none ∧
      runFinished (inRun draining) = true ∧ (inRun draining).errs.testing = none ∧ (inRun draining).ctl.reportsHeld = [] ∧ ringRoom (inRun draining) = true ∧
      hostOk (inRun draining) (((inRun draining).mb.rptRing.map (·.1)).getD 0 +
        (inRun draining).mb.rptTail.toNat % (inRun draining).mb.rptEntries * (inRun draining).mb.rptSize)
        (inRun draining).mb.rptSize = true) ∧
    ((inRun stopping).ctl.run = some stopping ∧ stopping.fault = some localFault ∧ allAnswered (inRun stopping) = true ∧
      (inRun stopping).mb.opened.any isAbortJob = false ∧ (inRun stopping).errs.faultCell = none ∧
      (inRun stopping).errs.testing = none ∧ (inRun stopping).ctl.reportsHeld = [] ∧ ringRoom (inRun stopping) = true ∧
      hostOk (inRun stopping) (((inRun stopping).mb.rptRing.map (·.1)).getD 0 +
        (inRun stopping).mb.rptTail.toNat % (inRun stopping).mb.rptEntries * (inRun stopping).mb.rptSize)
        (inRun stopping).mb.rptSize = true) ∧
    ((inRun hung).ctl.run = some hung ∧ hung.fault = none ∧ (inRun hung).job.image = some (imageWith []) ∧
      1250 * (imageWith []).idleLimit ≤ hung.idle) := by decide +kernel

/-- An image whose one list, of cell 0 at HBM address 4,096, has two descriptors: an ADD and HALT. -/
def listImage : Image := imageWith [⟨1, 0, 0, 8192, 4096⟩]
def listMem (index : Nat) : Mem :=
  fields [(4096, 6, 4096), (4102, 2, 1), (8192, 4, 2), (8256, 4, 0xF + 65536 * index)]
def wFetchArmed (index : Nat) : State :=
  let s := armedStep false
  { s with job := { s.job with image := some listImage }, mem := listMem index }
def wFetchRun (index : Nat) : State :=
  { wFetchArmed index with ctl := (inRun (runOf 3)).ctl }

theorem meets_descriptorsFetched :
    boundImage? (wFetchArmed 1) = some listImage ∧ cellEnabled (wFetchArmed 1) 0 = true ∧
    (cellOf (wFetchArmed 1) 0).window.length + 32 ≤ 4096 ∧ (wFetchArmed 1).ctl.run = none ∧
    (wFetchArmed 1).ctl.armed = some (gstep 3) ∧ (wFetchArmed 1).ctl.heldBad = false ∧
    min 32 (memListCount (wFetchArmed 1) listImage 0 0 - 0) = 2 ∧
    (∀ i : Nat, i < 2 → ((readDescs (wFetchArmed 1) listImage (gstep 3) 0 0 2)[i]?).any (descHeadOk i) = true) ∧
    ((readDescs (wFetchArmed 5) listImage (gstep 3) 0 0 2)[1]?).any (descHeadOk 1) = false ∧
    boundImage? (wFetchRun 1) = some listImage ∧ (wFetchRun 1).ctl.run = some (runOf 3) ∧ (runOf 3).fault = none ∧
    (∀ i : Nat, i < 2 → ((readDescs (wFetchRun 1) listImage (gstep 3) 0 0 2)[i]?).any (descHeadOk i) = true) ∧
    ((readDescs (wFetchRun 5) listImage (gstep 3) 0 0 2)[1]?).any (descHeadOk 1) = false := by decide +kernel

/-- A task in flight whose own work is done. -/
def flightOf (d : Desc) : Flight := ⟨d.index, queueOf (dClass d), d, [], true, none, none, false, none, false⟩
def inFlight (f : Flight) : State :=
  let s := running []
  { s with
    ctr := { s.ctr with dep := [(5, 0xFFFFFFFE)], arr := [(5, 1)] }
    cells := [(0, { Cell.init with flight := [f] })] }
/-- A vector task whose signal adds 2 to dependence counter 5, to arrival counter 5, or nothing. -/
def sigDep : Flight := flightOf (desc 1 2 0x00500002 [])
def sigArr : Flight := flightOf (desc 1 0x2002 0x00500002 [])
def sigNone : Flight := flightOf (desc 1 2 0 [])

theorem meets_tasksComplete :
    ∀ f ∈ [sigDep, sigArr, sigNone], flight? (inFlight f) 0 1 = some f ∧ stepActive (inFlight f) = true ∧
      taskReady (inFlight f) 0 f = true ∧ (inFlight f).dbg.capture = none := by decide +kernel

theorem meets_signals : (0 < sigIncrement sigDep.desc ∧ dSigArr sigDep.desc = false) ∧
    (0 < sigIncrement sigArr.desc ∧ dSigArr sigArr.desc = true) ∧ sigIncrement sigNone.desc = 0 := by decide +kernel

/-- A voidable task of a class and operation whose count counter 1 reads 1; its signal adds 1 to counter 2. -/
def voidTask (cls opWord : Nat) : Desc :=
  { desc 0 (cls + 0x8000) 0x00200001 [(16, 4, opWord)] with waitB := 0x00400001 }
def voidState (d : Desc) : State := { running [d] with ctr := { (running [d]).ctr with dep := [(1, 1)] } }

theorem meets_voids :
    (∀ e ∈ [(1, 0), (2, 0x01000000), (3, 0), (6, 0), (8, 0x10000000)],
      isVoid (voidState (voidTask e.1 e.2)) 0 (voidTask e.1 e.2) = true ∧
      (voidState (voidTask e.1 e.2)).dbg.capture = none ∧
      (voidState (voidTask e.1 e.2)).ctl.run = some (runOf 3) ∧
      0 < sigIncrement (voidTask e.1 e.2) ∧ dSigArr (voidTask e.1 e.2) = false) ∧
    issuable? (voidState (voidTask 1 0)) 0 1 (fun _ => true) = some (voidTask 1 0) ∧
    issuable? (voidState (voidTask 2 0x01000000)) 0 2 (fun x => bodyOp x == 0x01) = some (voidTask 2 0x01000000) ∧
    issuable? (voidState (voidTask 3 0)) 0 3 (fun _ => true) = some (voidTask 3 0) ∧
    issuable? (voidState (voidTask 6 0)) 0 6 (fun x => bodyOp x == 0 && (isVoid (voidState (voidTask 6 0)) 0 x ||
        requestRoom (voidState (voidTask 6 0)) 0)) = some (voidTask 6 0) ∧
    issuable? (voidState (voidTask 8 0x10000000)) 0 8 (fun x => bodyOp x == 1) = some (voidTask 8 0x10000000) := by
  decide +kernel

/-! ## Matrix, copy and vector tasks -/

/-- Little-endian fields, joined. -/
def bytesLe (l : List (Nat × Nat)) : List Byte := l.flatMap fun f => natLe f.1 f.2

/-- A VX task of one row of two FP32 elements: SRC0 at scratchpad offset 0, SRC1 at 64, DST at 128. -/
def vxTask (op func : Nat) : Desc :=
  desc 0 2 0 [(16, 4, op * 2 ^ 24 + func * 2 ^ 16), (20, 4, 1), (24, 4, 0x40000000), (28, 4, 0x40001000),
    (36, 4, 0x40002000), (48, 4, 0xBBBB0000), (52, 4, 0xFFFFFFFF)]
/-- The streams' elements: 1.0 and 2.0, and 3.0 and −1.0. -/
def vxMem : Mem := fields [(scratchBase, 4, 0x3F800000), (scratchBase + 4, 4, 0x40000000),
  (scratchBase + 64, 4, 0x40400000), (scratchBase + 68, 4, 0xBF800000)]
def vxState (d : Desc) : State := { running [d] with mem := vxMem }

/-- A word of SRC0 of that task is known to be uncorrectable, and none of HBM. -/
def wordBad : State := { vxState (vxTask 0x01 0) with errs := { up.errs with badWords := [scratchBase] } }

theorem meets_readErrors :
    Issues 2 (fun x => bodyOp x == 0x01) 0 (vxTask 0x01 0) (vxState (vxTask 0x01 0)) ∧
    (issuable? wordBad 0 2 (fun x => bodyOp x == 0x01) = some (vxTask 0x01 0) ∧ isVoid wordBad 0 (vxTask 0x01 0) = false ∧
      wordBad.dbg.capture = none ∧
      badMet? (vxTakes (vxView wordBad 0 (vxTask 0x01 0)) (auxDesc wordBad)) wordBad = some (.sram scratchBase)) := by
  decide +kernel

theorem meets_vectorTasks : ∀ e ∈ vectorOps 0,
    Issues 2 (fun x => bodyOp x == e.1) 0 (vxTask e.1 1) (vxState (vxTask e.1 1)) ∧
    badRow? (vxView (vxState (vxTask e.1 1)) 0 (vxTask e.1 1)) = none ∧
    bitOf (vxView (vxState (vxTask e.1 1)) 0 (vxTask e.1 1)).v.func 2 = false := by decide +kernel

/-- The same tasks meet what the result statements ask; a func of its own for each unary operation, and for an index out of
range an IMM0 of 0. -/
def badIndex (op : Nat) : Desc := { vxTask op 0 with body := (vxTask op 0).body.take 36 ++ List.replicate 12 0 }

/-- CONVERT into MXFP8 with its scales in AUX, and COMPRESS24 into it. -/
def blockTask (op : Nat) : Desc := desc 0 2 0 [(16, 4, op * 2 ^ 24), (20, 4, 1 + 2 ^ 31), (24, 4, 0x40000000),
  (36, 4, 0x40002000), (40, 4, 0x40004000), (44, 4, 0x40003000), (48, 4, 0xBBB20000), (52, 4, 0xFFFFFFFF)]
/-- EXPAND with a map in AUX of this length: COUNT 1, and bit 1 set. -/
def mapTask : Desc := desc 0 2 0 [(16, 4, 0x31 * 2 ^ 24), (20, 4, 1 + 2 ^ 31), (24, 4, 0x40000000), (36, 4, 0x40002000),
  (44, 4, 0x40003000), (48, 4, 0xBBBB0000)]
def mapState (n : Nat) : State :=
  { vxState mapTask with mem := memWrite vxMem (scratchBase + 192) (bytesLe [(4, 1), (4, n), (1, 2)]) }

theorem meets_blockResults :
    ((vxView (vxState (blockTask 0x28)) 0 (blockTask 0x28)).v.dst.fmt = .elem (.mx .e4m3) ∧ hasScale (.mx .e4m3) = true ∧
      issuable? (vxState (blockTask 0x28)) 0 2 (fun x => bodyOp x == 0x28) = some (blockTask 0x28)) ∧
    (issuable? (vxState (blockTask 0x32)) 0 2 (fun x => bodyOp x == 0x32) = some (blockTask 0x32) ∧
      bitOf (vxView (vxState (blockTask 0x32)) 0 (blockTask 0x32)).v.func 2 = false) ∧
    (∀ n ∈ [2, 3], issuable? (mapState n) 0 2 (fun x => bodyOp x == 0x31) = some mapTask ∧
      zmapLength (mapState n).mem (auxAddr (vxView (mapState n) 0 mapTask)) = n) ∧
    (vxView (mapState 2) 0 mapTask).v.rowLen = 2 := by decide +kernel

theorem meets_vectorResults :
    (∀ e ∈ vectorOps 0, (vxState (vxTask e.1 0)).dbg.capture = none ∧
      isVoid (vxState (vxTask e.1 0)) 0 (vxTask e.1 0) = false ∧ wordsGood (vxState (vxTask e.1 0)) = true ∧
      issuable? (vxState (vxTask e.1 0)) 0 2 (fun x => bodyOp x == e.1) = some (vxTask e.1 0)) ∧
    (∀ f ∈ [0, 1, 2, 3, 4], (vxView (vxState (vxTask 0x08 f)) 0 (vxTask 0x08 f)).v.func = f ∧
      issuable? (vxState (vxTask 0x08 f)) 0 2 (fun x => bodyOp x == 0x08) = some (vxTask 0x08 f)) ∧
    sHasScale (vxView (vxState (vxTask 0x28 0)) 0 (vxTask 0x28 0)).v.dst.fmt = false ∧
    (∀ op ∈ [0x38, 0x39, 0x3A], badRow? (vxView (vxState (badIndex op)) 0 (badIndex op)) = some 0 ∧
      issuable? (vxState (badIndex op)) 0 2 (fun x => bodyOp x == op) = some (badIndex op)) := by decide +kernel

/-- An MX task of K = 1 in BF16 with an FP32 drain, and a copy of two rows of 64 bytes from HBM into the scratchpad. -/
def mxTask : Desc :=
  desc 0 1 0 [(16, 4, 0x07700400 + 11 * 8), (20, 4, 0), (24, 4, 64 * 4096), (36, 8, scratchBase + 0x100000), (44, 4, 128)]
def mxState : State :=
  { running [mxTask] with mem := fields [(scratchBase, 2, 0x4000), (scratchBase + 64 * 2048, 2, 0x4040)] }
def cpTask (layout : Nat) : Desc :=
  desc 0 3 0 [(16, 8, 4096), (24, 8, scratchBase), (32, 4, 65536 + 63), (36, 4, 64), (40, 4, 128),
    (44, 4, layout * 2 ^ 28 + 0x009F9000)]
def cpState (d : Desc) : State := { running [d] with mem := fields [(4096, 8, 0x0102030405060708), (4200, 8, 0x1112131415161718)] }
/-- A copy whose source lies in no memory. -/
def cpBad : Desc := desc 0 3 0 [(16, 8, 0xFFFFFFFF00), (24, 8, scratchBase), (32, 4, 63), (36, 4, 64), (40, 4, 64), (44, 4, 0x009F9000)]

theorem meets_matrixTask : Issues 1 (fun _ => true) 0 mxTask mxState ∧ mxState.ctl.run = some (runOf 3) := by decide +kernel

theorem meets_copyTask :
    (∀ l ∈ [0, 1, 3], Issues 3 (fun _ => true) 0 (cpTask l) (cpState (cpTask l)) ∧ (cpOf (cpTask l)).layout = l ∧
      (cpOf (cpTask l)).zsel = false ∧ cpConverts (cpOf (cpTask l)) = false ∧
      cpAccessOk (cpState (cpTask l)) (cpOf (cpTask l)) (selectedRows (cpState (cpTask l)) 0 (cpOf (cpTask l))) = true ∧
      cpSelfOverlap 0 (cpOf (cpTask l)) (selectedRows (cpState (cpTask l)) 0 (cpOf (cpTask l))) = false) ∧
    (cpState (cpTask 0)).ctl.run = some (runOf 3) ∧ ((cpOf (cpTask 0)).rows = 2 ∧ overlaps (dstRowAddr (cpOf (cpTask 0)) 0) 64 (dstRowAddr (cpOf (cpTask 0)) 1) 64 = false) ∧
    (Issues 3 (fun _ => true) 0 cpBad (cpState cpBad) ∧
      cpAccessOk (cpState cpBad) (cpOf cpBad) (selectedRows (cpState cpBad) 0 (cpOf cpBad)) = false) := by decide +kernel

/-! ## Routing, exchange, collectives, remote memory, time and tiers -/

/-- Two layers of two experts: layer 0 with POLICY 0 and layer 1 with SPILL_TOPK and one spill round. -/
def routingMem : Mem := fields [(64, 2, 2), (66, 1, 2), (68, 1, 1), (69, 1, 1), (71, 1, 2), (76, 4, 4), (80, 4, 0x3F800000),
  (128, 2, 2), (130, 1, 2), (131, 1, 3), (132, 1, 1), (133, 1, 1), (134, 1, 1), (135, 1, 2), (140, 4, 4), (144, 4, 0x3F800000)]
/-- Exchange plan 0, of two destinations and one sender, and collective plan 1, of rank 0 of two members. -/
def planMem : Mem := fields [(1024, 4, 2), (1028, 2, 1), (1030, 2, 4096), (1032, 8, storeBase), (1040, 8, storeBase + 0x1000),
  (1048, 4, 8), (1054, 2, 3), (1056, 8, storeBase + 0x2000), (1064, 8, storeBase + 0x2800), (1080, 8, storeBase + 0x3000),
  (1096, 4, 1), (1104, 8, storeBase + 0x10), (1112, 8, storeBase + 0x3800), (1120, 4, 8), (1126, 2, 3),
  (1128, 8, storeBase + 0x8000), (1136, 4, 8), (1140, 2, 64), (1142, 2, 64), (1144, 8, storeBase + 0x7000),
  (1152, 4, 2), (1160, 8, storeBase), (1168, 4, 4), (1176, 8, storeBase + 0x4000), (1184, 8, storeBase + 0x5000),
  (1192, 8, storeBase + 0x6000), (1200, 2, 7)]
/-- The destination and source tables, two FP32 logits, a bid list of one bid for expert 0, and a landed bid. -/
def storeMem : Mem := fields [(storeBase, 4, 256), (storeBase + 4, 4, 512), (storeBase + 0x10, 4, 512),
  (storeBase + 0x100, 4, 0x3F800000), (storeBase + 0x104, 4, 0x40000000),
  (storeBase + 0x1000, 4, 1), (storeBase + 0x1014, 4, 0x3F800000), (storeBase + 0x3804, 4, 0x3F800000),
  (storeBase + 0x4000, 4, 9), (storeBase + 0x4020, 4, 8)]
/-- Logical id 256, with those tables and this task to issue. Expert 0 lives here, and expert 1 on device 512. -/
def netState (d : Desc) : State :=
  let s := running [d]
  { s with
    mem := storeMem
    job := { s.job with
      routing := routingMem, plans := planMem,
      lasting := { s.job.lasting with place :=
        [(0, 0x100000100), (1, 0x100000200), (16384, 0x100000100), (16385, 0x100000200)] } }
    exch := { s.exch with bids := [(bidKey 3 0 0 0, 1)] }
    fab := { s.fab with hasActive := true, active := fields [(0, 4, 256)] } }

def routeTask (op layer round plan : Nat) : Desc :=
  desc 0 4 0 [(16, 4, op * 2 ^ 28 + layer * 2 ^ 20 + round * 2 ^ 16), (24, 8, storeBase + 0x100), (32, 4, 64),
    (36, 8, storeBase + 0x2000), (44, 4, plan * 2 ^ 16 + 3)]
def wRoute : State := netState (routeTask 0 0 0 0)
/-- Expert 1 of layer 0 on a device that the plan does not name. -/
def wRouteSkew : State :=
  { wRoute with job := { wRoute.job with lasting := { wRoute.job.lasting with place := [(0, 0x100000300), (1, 0x100000300)] } } }
def wAccept : State := netState (routeTask 1 0 0 0)
def wAcceptSkew : State := { wAccept with job := wRouteSkew.job }
def wSpillEnd : State := netState (routeTask 2 0 1 0)
def wSpill : State := netState (routeTask 2 1 1 0)
/-- A ROUTE in flight that waits for the borrowed engine of cluster 1. -/
def wRoutePart : State :=
  let d := routeTask 0 0 0 0
  { netState d with cells := [(0, { Cell.init with flight := [{ flightOf d with parts := [1, 2] }] })] }

/-- The plan, the layer and the bids of a state's routing task. -/
def bidsOf (s : State) (d : Desc) (spill : Bool) : Option Nat × List (Nat × Bid) :=
  sortBids s (rtOf d).layer (layerOf s (rtOf d).layer) (xplanOf s (rtOf d).plan) spill
    (sortBy propLt (if spill then spillProposals s 0 (rtOf d) else routeProposals s (rtOf d))) []
def landedOf (s : State) (d : Desc) : List Landed :=
  (List.range (xplanOf s (rtOf d).plan).fwdSenders).flatMap fun k => landedBids s (rtOf d).layer (rtOf d).plan (rtOf d).round k

theorem meets_routing :
    (Issues 4 (fun z => bodyOp z == 0) 0 (routeTask 0 0 0 0) wRoute ∧ parityAdmits (xplanOf wRoute 0) (runStep wRoute) = true ∧
      rtAccess wRoute (routeSpans wRoute (rtOf (routeTask 0 0 0 0))) = true ∧
      (bidsOf wRoute (routeTask 0 0 0 0) false).1 = none) ∧
    (Issues 4 (fun z => bodyOp z == 0) 0 (routeTask 0 0 0 0) wRouteSkew ∧
      rtAccess wRouteSkew (routeSpans wRouteSkew (rtOf (routeTask 0 0 0 0))) = true ∧
      (bidsOf wRouteSkew (routeTask 0 0 0 0) false).1 ≠ none) ∧
    (∀ s ∈ [wAccept, wAcceptSkew], Issues 4 (fun z => bodyOp z == 1) 0 (routeTask 1 0 0 0) s ∧
      parityAdmits (xplanOf s 0) (runStep s) = true ∧
      accessOk s (rtOf (routeTask 1 0 0 0)).out ((rtOf (routeTask 1 0 0 0)).slotCount * workBytes (layerOf s 0)) = true ∧
      (acceptFault? s 0 (layerOf s 0) (xplanOf s 0) (landedOf s (routeTask 1 0 0 0)) = none ↔ s = wAccept)) ∧
    (Issues 4 (fun z => bodyOp z == 2) 0 (routeTask 2 0 1 0) wSpillEnd ∧ parityAdmits (xplanOf wSpillEnd 0) (runStep wSpillEnd) = true ∧
      accessOk wSpillEnd (rtOf (routeTask 2 0 1 0)).out ((rtOf (routeTask 2 0 1 0)).count * recordBytes (layerOf wSpillEnd 0)) = true ∧
      (rtOf (routeTask 2 0 1 0)).round = (layerOf wSpillEnd 0).spillRounds + 1) ∧
    (Issues 4 (fun z => bodyOp z == 2) 0 (routeTask 2 1 1 0) wSpill ∧
      accessOk wSpill (rtOf (routeTask 2 1 1 0)).out ((rtOf (routeTask 2 1 1 0)).count * recordBytes (layerOf wSpill 1)) = true ∧
      (rtOf (routeTask 2 1 1 0)).round ≠ (layerOf wSpill 1).spillRounds + 1 ∧
      (bidsOf wSpill (routeTask 2 1 1 0) true).1 = none) ∧
    ((wRoutePart.cells.find? fun y => y.2.flight.any (waitsPart 1)).isSome = true) := by decide +kernel

def xcTask (op : Nat) : Desc :=
  desc 0 5 0 [(16, 4, op * 2 ^ 28), (28, 8, storeBase + 0x2400), (36, 8, storeBase + 0x100), (44, 4, 64)]
/-- The sections of a source message of the task. -/
def sectionsOf (s : State) (op : Nat) : Option (List (Nat × List Sect)) :=
  let f := xcOf (xcTask op)
  sections (sourceSection s 0 op f (layerOf s 0) (xplanOf s 0)) (xplanOf s 0) (List.range (xplanOf s 0).destCount)

theorem meets_exchange :
    (∀ op ∈ [0, 2, 3], Issues 5 (fun z => bodyOp z == op) 0 (xcTask op) (netState (xcTask op)) ∧
      parityAdmits (xplanOf (netState (xcTask op)) 0) 3 = true ∧
      beyondMask (netState (xcTask op)) (xcOf (xcTask op)) (xplanOf (netState (xcTask op)) 0) = false ∧
      accessOk (netState (xcTask op)) (xcOf (xcTask op)).data 64 = true ∧
      (sectionsOf (if op = 2 then netState (xcTask op)
        else clearPresence (xcOf (xcTask op)) (layerOf (netState (xcTask op)) 0) (xplanOf (netState (xcTask op)) 0)
          (netState (xcTask op))) op).isSome = true) ∧
    (∀ op ∈ [1, 4], Issues 5 (fun z => bodyOp z == op) 0 (xcTask op) (netState (xcTask op)) ∧
      accessOk (netState (xcTask op)) (xcOf (xcTask op)).work
        ((xcOf (xcTask op)).slotCount * workBytes (layerOf (netState (xcTask op)) 0)) = true ∧
      accessOk (netState (xcTask op)) (xcOf (xcTask op)).data
        (((xcOf (xcTask op)).slotCount * 8 - 1) * (xcOf (xcTask op)).stride + 64) = true) := by decide +kernel

def collTask (op : Nat) : Desc := desc 0 5 0 [(16, 4, op * 2 ^ 28), (24, 2, 1)]
/-- The collective task in flight, with the other rank's chunk landed. -/
def wCollSum (op : Nat) : State :=
  let d := collTask op
  let s := netState d
  { s with
    cells := [(0, { Cell.init with flight := [{ flightOf d with parts := [0], finished := false }] })]
    ctr := { s.ctr with arr := [(7, 1)] } }

theorem meets_collectives :
    (∀ op ∈ [8, 9], Issues 5 (fun z => bodyOp z == op) 0 (collTask op) (netState (collTask op))) ∧
    (∀ op ∈ [8, 9], (flight? (wCollSum op) 0 0).map (·.desc) = some (collTask op) ∧
      (flight? (wCollSum op) 0 0).map (·.parts) = some [0] ∧ stepActive (wCollSum op) = true ∧ dClass (collTask op) = 5 ∧
      (cplanOf (wCollSum op) (collPlan (collTask op))).members - 1 ≤
        arrGet (wCollSum op) (clusterOf 0) (cplanOf (wCollSum op) (collPlan (collTask op))).ctr ∧
      wordsGood (wCollSum op) = true) := by decide +kernel

def fmTask (op loc : Nat) : Desc :=
  desc 0 6 0 [(16, 4, op * 2 ^ 28), (20, 4, 512), (24, 8, 0x1000), (32, 8, loc), (40, 8, noneAddr), (48, 4, 8)]

theorem meets_remoteTasks : ∀ op ∈ [0, 1, 2, 3, 4, 5], ∀ loc ∈ [storeBase + 0x100, 0xFFFFFF0000],
    Issues 6 (fun z => bodyOp z == op && (isVoid (netState (fmTask op loc)) 0 z || requestRoom (netState (fmTask op loc)) 0)) 0 (fmTask op loc) (netState (fmTask op loc)) ∧
    (accessOk (netState (fmTask op loc)) (fmOf (fmTask op loc)).loc 8 = true ↔ loc = storeBase + 0x100) := by decide +kernel

def waitTask : Desc := desc 0 7 0 [(24, 8, 100)]
def markTask (a : Nat) : Desc := desc 0 7 0 [(16, 4, 0x10000000), (32, 8, a)]
def tqTask (op word id slot : Nat) : Desc := desc 0 8 0 [(16, 4, op * 2 ^ 28 + word), (20, 4, id), (24, 4, slot)]
/-- The object is defined, with these copies. -/
def tierState (d : Desc) (cs : List Copy) : State := withObj cs (netState d)
/-- Both experts of layer 0 on slot 0 of this device. -/
def skewed (d : Desc) : State :=
  let s := tierState d []
  { s with job := { s.job with lasting := { s.job.lasting with place := [(0, 0x100000100), (1, 0x100000100)] } } }

theorem meets_timeAndTierTasks :
    (Issues 7 (fun z => bodyOp z == 0) 0 waitTask (netState waitTask) ∧ (netState waitTask).ctl.run = some (runOf 3)) ∧
    (∀ a ∈ [storeBase, 0xFFFFFF0000], Issues 7 (fun z => bodyOp z == 1) 0 (markTask a) (netState (markTask a)) ∧
      (accessOk (netState (markTask a)) (bodyField (markTask a) 32 8) 8 = true ↔ a = storeBase)) ∧
    (∀ op ∈ [0, 1],
      (∀ cs ∈ [[], [aCopy .resident]], Issues 8 (fun z => bodyOp z == op) 0 (tqTask op 0x4000000 1 0) (tierState (tqTask op 0x4000000 1 0) cs) ∧
        tqObjects (tierState (tqTask op 0x4000000 1 0) cs) (tqOf (tqTask op 0x4000000 1 0)) = [1] ∧
        objOf? (tierState (tqTask op 0x4000000 1 0) cs) 1 = some anObj ∧ hasFrame anObj 2 = true ∧
        occupant? (tierState (tqTask op 0x4000000 1 0) cs) anObj 2 = none ∧
        residency (tierState (tqTask op 0x4000000 1 0) cs) anObj 2 = (if cs = [] then .absent else .resident)) ∧
      (Issues 8 (fun z => bodyOp z == op) 0 (tqTask op 0x5000000 1 2) (tierState (tqTask op 0x5000000 1 2) []) ∧
        tqObjects (tierState (tqTask op 0x5000000 1 2) []) (tqOf (tqTask op 0x5000000 1 2)) = []) ∧
      (Issues 8 (fun z => bodyOp z == op) 0 (tqTask op 0x5000000 1 0) (skewed (tqTask op 0x5000000 1 0)) ∧
        (tqObjects (skewed (tqTask op 0x5000000 1 0)) (tqOf (tqTask op 0x5000000 1 0))).length = 2)) := by decide +kernel

/-- A deferred PROMOTE of the object into HBM that may start. -/
def wDeferred : State :=
  { withObj [] bound with tier := { (withObj [] bound).tier with deferred := [⟨false, 1, 2, 7, [], 0⟩] } }
/-- A copy being promoted from HBM into a scratch frame, with its HBM copy there. -/
def scratchObj : Obj := { anObj with scratchFrame := some scratchBase }
def scratchCopy : Copy := { aCopy .promoting with tier := 0, source := 2 }
def wPromoting : State := withObj [aCopy .promoting] bound
/-- The same with the object's home not backed by the host. -/
def wUnbacked : State := { wPromoting with unbacked := [(hostBase + 4096, 64)] }
def wPromotingFast : State :=
  { bound with tier := { bound.tier with objs := [scratchObj], copies := [scratchCopy, aCopy .resident] } }
/-- A burst of the HBM copy that is read is known to be uncorrectable. -/
def wPromotingBad : State := { wPromotingFast with errs := { wPromotingFast.errs with badBursts := [8192] } }
def wEvicting : State := withObj [aCopy .evicting] bound

theorem meets_promotions :
    (stepActive wDeferred = false ∧ (wDeferred.tier.deferred.find? fun z =>
        z.obj == 1 && (z.tier == 2 && deferredReady wDeferred z)) = some ⟨false, 1, 2, 7, [], 0⟩ ∧
      objOf? wDeferred 1 = some anObj ∧ residency wDeferred anObj 2 = .absent ∧ occupant? wDeferred anObj 2 = none) ∧
    (stepActive wPromoting = false ∧ objOf? wPromoting 1 = some anObj ∧ copyOf? wPromoting 1 2 = some (aCopy .promoting) ∧
      promotionWaits wPromoting anObj (aCopy .promoting) = false ∧ promotionBarred wPromoting anObj (aCopy .promoting) = false ∧
      sourceReadable wPromoting anObj 4 = true ∧ sourceWord? wPromoting anObj (aCopy .promoting) = none ∧
      (aCopy .promoting).doomed = false ∧
      copyAddr? wPromoting anObj (aCopy .promoting) = some 8192 ∧ (aCopy .promoting).source = anObj.homeTier) ∧
    (objOf? wUnbacked 1 = some anObj ∧ copyOf? wUnbacked 1 2 = some (aCopy .promoting) ∧
      promotionWaits wUnbacked anObj (aCopy .promoting) = false ∧ promotionBarred wUnbacked anObj (aCopy .promoting) = true ∧
      sourceWord? wUnbacked anObj (aCopy .promoting) = none) ∧
    (objOf? wPromotingBad 1 = some scratchObj ∧ copyOf? wPromotingBad 1 0 = some scratchCopy ∧
      promotionWaits wPromotingBad scratchObj scratchCopy = false ∧
      sourceWord? wPromotingBad scratchObj scratchCopy = some (.burst 8192)) ∧
    (objOf? wPromotingFast 1 = some scratchObj ∧ copyOf? wPromotingFast 1 0 = some scratchCopy ∧
      promotionWaits wPromotingFast scratchObj scratchCopy = false ∧ scratchCopy.source ≠ scratchObj.homeTier ∧
      scratchCopy.source ≠ 0) ∧
    (copyOf? wEvicting 1 2 = some (aCopy .evicting) ∧ isRead wEvicting 1 2 = false) := by decide +kernel

/-! ## Packets, ports, time and launches -/

/-- A port that is up. -/
def upPort : Port := { Port.init with state := .upFull, trained := true }
/-- A packet from a device to a device, for JOB 1, with its HCRC. -/
def packet (dst src op vc psn addr : Nat) (payload : List Byte) : Packet :=
  let p : Packet := { dst := BitVec.ofNat 32 dst, src := BitVec.ofNat 32 src, job := 1, vcop := BitVec.ofNat 8 (32 * vc + op)
                      flags := 0x20, addr := BitVec.ofNat 64 addr, length := BitVec.ofNat 16 payload.length, arr := 0
                      psn := BitVec.ofNat 32 psn, hcrc := 0, payload := payload }
  { p with hcrc := hcrcOf p }
/-- The device of `netState` with port 0 up and window 0 on the 64 bytes of its store from 0x100 on. -/
def linked : State :=
  let s := netState waitTask
  { s with
    fab := { s.fab with ports := [(0, upPort)] }
    rem := { s.rem with windows := [(0, ⟨143, 0, 1, 0, 4094, storeBase + 0x100, 64⟩)] } }

/-- A request of each operation from device 512 into window 0. -/
def request (op : Nat) : Packet :=
  packet 256 512 op (if op = 7 then 2 else if op = 0x0A then 4 else 3) 7 0
    (if op = 4 ∨ op = 0x0B then bytesLe [(2, 8), (6, 0)] else if op = 8 then bytesLe [(16, 0), (8, 5)]
     else bytesLe [(8, 0x1122334455667788)])
/-- The same requests when window 0 does not admit them, and when their PSN has been applied. -/
def noWindow : State := { linked with rem := { linked.rem with windows := [] } }
def seenState : State := { linked with rem := { linked.rem with pairs := [(512, { Pair.init with seen := [7] })] } }
/-- A combining line that has taken 255 operations. -/
def fullLine : State :=
  { linked with rem := { linked.rem with lines := [⟨(storeBase + 0x100) / 64, List.replicate 64 1, 255, []⟩] } }

/-- A request that came in by port 0 waits in the answer queue of its port die, as many as it has room for. -/
def answered (n : Nat) : State :=
  let a : TxItem := ⟨packet 512 256 5 1 0 0 [], false, none, false, 144, none⟩
  { linked with rem := { linked.rem with tx := List.replicate n a } }
/-- Window 0 begins 4 bytes off a multiple of 8, so that the target of an atomic crosses a line. -/
def crossed : State :=
  { linked with rem := { linked.rem with windows := [(0, ⟨143, 0, 1, 0, 4094, storeBase + 0x13C, 64⟩)] } }

/-- A full answer queue: whatever its size is, it holds no more than that. -/
theorem meets_answerQueueFull : answerRoom (answered (Config.answerExtra + 1)) (some 0) = false := by
  have e : ((answered (Config.answerExtra + 1)).rem.tx.filter fun t => t.source == answerQueue 0) =
      (answered (Config.answerExtra + 1)).rem.tx :=
    List.filter_eq_self.2 fun t m => by rw [List.eq_of_mem_replicate m]; rfl
  simp only [answerRoom, e]
  simp [answered]

/-- Nothing in transit waits, so that nothing crosses a port die. -/
theorem crossing_answered (s : State) (n die : Nat) (h : s.rem.tx = (answered n).rem.tx) : crossing s die = false := by
  rw [crossing, h, List.any_eq_false]
  intro t m
  rw [List.eq_of_mem_replicate m]
  simp

theorem held_answered (s : State) (n : Nat) (p : Packet) (h : s.rem.tx = (answered n).rem.tx) (k : s.fab.parked = []) :
    landingHeld s (some 0) p = false := by
  simp [landingHeld, crossing_answered s n _ h, landingWaits, k]

theorem meets_requestWaits (n : Nat) : ∀ op ∈ [4, 6, 7, 8, 0x0A],
    Arrives op false (some 0) (request op) (answered n) ∧ (answered n).rem.lanes = [] := by
  have f : ∀ op ∈ [4, 6, 7, 8, 0x0A], forMe linked (request op) = true ∧ headerOk (request op) = true ∧ opOf (request op) = op ∧
    ((request op).dst.toNat % 2 ^ 20 == 0xFFFFF) = false := by decide +kernel
  refine fun op m => ⟨⟨?_, f op m⟩, rfl⟩
  let u := countFlits 0 (request op) { answered n with rem := { (answered n).rem with arrival := some 0 } }
  have e : arrive? (some 0) (request op) (answered n) = some u := rfl
  rw [e, Option.any_some, held_answered u n (request op) rfl rfl]
  rfl

/-- The word that a LOAD reads is known to be uncorrectable. -/
def badLinked : State := { linked with errs := { linked.errs with badWords := [storeBase + 0x100] } }

theorem meets_badLoad :
    (refusal? badLinked (request 4) = none ∧ isSeen badLinked (request 4) = false ∧
      accessOk badLinked (requestAddr badLinked (request 4)) (requestLen (request 4)) = true ∧
      answerRoom badLinked (some 0) = true ∧ badLinked.rem.lines = [] ∧ badLinked.rem.lanes = [] ∧
      Arrives 4 false (some 0) (request 4) badLinked ∧ stepActive badLinked = true ∧
      badRead? (requestAddr badLinked (request 4)) (requestLen (request 4)) badLinked = some (.sram (storeBase + 0x100))) := by
  decide +kernel

theorem meets_requests :
    linked.rem.lanes = [] ∧ answerRoom linked (some 0) = true ∧ oneLine (requestAddr linked (request 8)) (requestLen (request 8)) = true ∧
    (Served (request 8) crossed ∧ Arrives 8 false (some 0) (request 8) crossed ∧ discarding crossed (request 8) = false ∧
      keptCount crossed < 262144 ∧ oneLine (requestAddr crossed (request 8)) (requestLen (request 8)) = false) ∧
    (∀ op ∈ [4, 6, 7, 8, 0x0A, 0x0B], Served (request op) linked ∧ Arrives op false (some 0) (request op) linked ∧
      discarding linked (request op) = false) ∧
    keptCount linked < 262144 ∧ lineRoom linked (requestAddr linked (request 8) / 64) = true ∧
    (Served (request 8) fullLine ∧ Arrives 8 false (some 0) (request 8) fullLine ∧
      lineRoom fullLine (requestAddr fullLine (request 8) / 64) = true) ∧
    (∀ op ∈ [4, 6, 7, 8, 0x0A, 0x0B], Arrives op false (some 0) (request op) noWindow ∧
      refusal? noWindow (request op) = some (2, stBadArg)) ∧
    (∀ op ∈ [6, 7, 0x0A], Arrives op false (some 0) (request op) seenState ∧ refusal? seenState (request op) = none ∧
      isSeen seenState (request op) = true) := by decide +kernel

/-- A request of this device to device 512 with PSN 0, sent once. -/
def sentRequest (op : Nat) (answerAt : Option Nat) (timer sent : Nat) : Request :=
  ⟨512, packet 512 256 op 3 0 0 [], 0, 0, 0, 3, answerAt, none, false, timer, sent, some 0⟩
def waiting (op : Nat) (answerAt : Option Nat) : State :=
  { linked with rem := { linked.rem with requests := [sentRequest op answerAt 0 1] } }
/-- Its answer: a response head for PSN 0, of a kind, and 8 bytes of data. -/
def answer (op kind : Nat) : Packet :=
  packet 256 512 op (if op = 0x0C then 4 else 1) 0 0 (bytesLe [(4, 0), (2, 1), (1, 2), (1, kind), (4, 0), (4, 0), (8, 9)])

/-- An ACK of kind CUM. -/
def cumPacket (cum : Nat) : Packet := packet 256 512 0x0D 1 0 0 (bytesLe [(4, 0), (2, 0), (1, 0), (1, 1), (4, cum), (4, 0)])

theorem meets_answers :
    (∀ e ∈ [(0x05, 0x04), (0x09, 0x08), (0x0C, 0x0B)], ∀ a ∈ [some storeBase, none],
      Arrives e.1 false (some 0) (answer e.1 0) (waiting e.2 a) ∧
      answered? (waiting e.2 a) (answer e.1 0) [e.2] = some (sentRequest e.2 a 0 1) ∧
      accessOk (waiting e.2 a) storeBase ((answer e.1 0).payload.length - 16) = true) ∧
    (Arrives 0x0D false (some 0) (answer 0x0D 0) (waiting 6 none) ∧ fieldOf (answer 0x0D 0).payload 7 1 ≠ 1 ∧
      answered? (waiting 6 none) (answer 0x0D 0) [0x01, 0x02, 0x06, 0x07, 0x0A] = some (sentRequest 6 none 0 1)) ∧
    (Arrives 0x0D false (some 0) (answer 0x0D 1) linked ∧ fieldOf (answer 0x0D 1).payload 7 1 = 1 ∧
      (answer 0x0D 1).job = linked.job.id ∧ linked.job.opened = true ∧
      headCum (answer 0x0D 1) = 0 ∧ linked.rem.lanes = []) ∧
    (Arrives 0x0D false (some 0) (cumPacket 6) linked ∧ fieldOf (cumPacket 6).payload 7 1 = 1 ∧
      (cumPacket 6).job = linked.job.id ∧ headCum (cumPacket 6) ≠ 0 ∧
      (headCum (cumPacket 6) + 1 - (pairOf linked (srcOf (cumPacket 6))).peerCum).toNat < 2 ^ 31) ∧
    (Arrives 0x0E false (some 0) (answer 0x0E 2) (waiting 6 none) ∧ stepActive (waiting 6 none) = true ∧
      answered? (waiting 6 none) (answer 0x0E 2) [0x04, 0x06, 0x07, 0x08, 0x0A, 0x0B] = some (sentRequest 6 none 0 1) ∧
      (waiting 6 none).rem.firstRefuse = none) := by decide +kernel

theorem meets_strayResponses : ∀ op ∈ [0x05, 0x09, 0x0C, 0x0D, 0x0E],
    Arrives op false (some 0) (answer op 0) linked ∧ linked.rem.requests = [] ∧ fieldOf (answer op 0).payload 7 1 ≠ 1 ∧
    (Arrives op false (some 0) (answer op 1) { linked with job := { linked.job with id := 2 } } ∧
      (answer op 1).job ≠ ({ linked with job := { linked.job with id := 2 } } : State).job.id) := by decide +kernel

/-- An image whose list of cell 0 names exchange plan 0 and collective plan 1. -/
def xImage : Image :=
  { imageWith [⟨1, 0, 0, 8192, 4096⟩] with
    bytes := fields [(0, 6, 4096), (6, 2, 2), (4096, 4, 4), (4112, 4, 0x10000000), (4160, 4, 0x10005), (4176, 4, 0x80000000),
      (4184, 2, 1)] }
def xState : State := { linked with job := { linked.job with image := some xImage } }
/-- BIDS of device 512 with no bid, and chunk 0 of rank 1 with 8 bytes of its 32. -/
def exchangePacket : Packet := packet 256 512 1 4 7 0 (bytesLe [(4, 3), (4, 5), (4, 0), (1, 0), (1, 0), (1, 0), (1, 0), (2, 1), (2, 0),
  (4, 8), (4, 0), (4, 0), (8, 0)])
def collectivePacket : Packet := packet 256 512 2 4 7 0 (bytesLe [(4, 3), (4, 5), (2, 1), (1, 0), (1, 0), (2, 1), (2, 0),
  (4, 32), (4, 24), (8, 0), (8, 77)])
def targetsOf : List Target := (messageTargets? xState 512 (xheadOf exchangePacket.payload)).getD []
/-- A collective message of 8 bytes that has landed whole, new or again. -/
def wholeMsg : Msg := ⟨⟨512, true, 3, 1, 0, 1, 0⟩, 8, [(0, 8)], []⟩
def landedState (again : Bool) : State :=
  { xState with exch := { xState.exch with msgs := [wholeMsg], landed := if again then [wholeMsg.key] else [] } }

theorem meets_bulkTraffic :
    (Arrives 1 false (some 0) exchangePacket xState ∧ discarding xState exchangePacket = false ∧
      isSeen xState exchangePacket = false ∧ 32 ≤ exchangePacket.payload.length ∧
      stepSkewed xState (xheadOf exchangePacket.payload).step = false ∧
      imageMatches xState (xheadOf exchangePacket.payload).imageId = true ∧
      (biasCheck (xheadOf exchangePacket.payload).step (xheadOf exchangePacket.payload).digest xState).1 = false ∧
      messageTargets? xState 512 (xheadOf exchangePacket.payload) = some targetsOf ∧
      roomOk xState (xheadOf exchangePacket.payload) targetsOf ⟨keyOf 512 (xheadOf exchangePacket.payload), 8, [(0, 8)], []⟩ = true) ∧
    (Arrives 2 false (some 0) collectivePacket xState ∧ discarding xState collectivePacket = false ∧
      isSeen xState collectivePacket = false ∧ stepSkewed xState (cheadOf collectivePacket.payload).step = false ∧
      imageMatches xState (cheadOf collectivePacket.payload).imageId = true ∧
      collSenderOk xState 512 (cheadOf collectivePacket.payload) = true ∧
      (cheadOf collectivePacket.payload).ofs + 8 ≤ (cheadOf collectivePacket.payload).bodyLen ∧
      (cheadOf collectivePacket.payload).bodyLen ≤ chunkPitch (cplanOf xState 1) ∧
      (cheadOf collectivePacket.payload).window = (cplanOf xState 1).window) ∧
    (((landedState true).exch.msgs.find? fun z => z.key == wholeMsg.key) = some wholeMsg ∧
      hasBytes wholeMsg wholeMsg.bodyLen = true ∧ wholeMsg.key ∈ (landedState true).exch.landed) ∧
    (wholeMsg.key ∉ (landedState false).exch.landed ∧ wholeMsg.key.collective = true ∧
      collCluster? (landedState false) wholeMsg.key.layer = some 0 ∧
      landRule (landedState false) wholeMsg.key.step.toNat = .counter) := by decide +kernel

/-- Device 512's member of the group is reached by port 0: the routes of the active table. -/
def routed : State :=
  { linked with fab := { linked.fab with active := fields [(0, 4, 256), (9216 + 64, 16, 1)] } }
def view : LinkView := ⟨0, [⟨1, 0xFFF, 0, 0, 1, 3, 0⟩]⟩
def outgoing (x : TxItem) (s : State) : State := { s with rem := { s.rem with tx := [x] } }
def loadItem : TxItem := ⟨packet 512 256 4 3 0 0 (bytesLe [(2, 8), (6, 0)]), false, none, false, 128, none⟩
/-- The same on channel 0 for its port, on channel 4 from another cluster, and on channel 5. -/
def otherItem (vc source : Nat) : TxItem := ⟨packet 512 256 0x0A vc 0 0 (bytesLe [(8, 9)]), false, some 0, false, source, none⟩
def getEntry : GetEntry := ⟨request 0x0B, storeBase + 0x100, 8⟩
def wGetTable : State := { routed with rem := { routed.rem with getTable := [getEntry] } }
/-- A packet for device 512 that has crossed a number of links. -/
def passing (hops : Nat) : Packet :=
  let p := { packet 512 257 4 3 0 0 (bytesLe [(2, 8), (6, 0)]) with flags := BitVec.ofNat 8 (64 * hops) }
  { p with hcrc := hcrcOf p }

/-- A GET of the device's own waits in the GET table, with its task's BG, and its request awaits the answer. -/
def ownGet : Packet := packet 256 256 0x0B 3 0 0 (bytesLe [(8, 8)])
def wOwnGet (bg : Bool) : State :=
  { routed with rem := { routed.rem with
      getTable := [⟨ownGet, storeBase + 0x100, 8⟩]
      requests := [⟨256, ownGet, 0, 0, 0, 3, none, none, bg, 0, 1, none⟩] } }
/-- Transit from port die B crosses port die A on its way to port 0; a data packet arrives by port 0. -/
def wCrossing : State := { routed with rem := { routed.rem with tx := [⟨passing 0, false, none, true, 64, none⟩] } }

theorem meets_landingHeld : ∀ op ∈ [0x05, 0x09, 0x0C, 0x0D, 0x0E],
    let p := answer op 0
    (arrive? (some 0) p wCrossing).isSome = true ∧ forMe wCrossing p = true ∧ headerOk p = true ∧ opOf p = op ∧
    ((arrive? (some 0) p wCrossing).all fun v => landingHeld v (some 0) p) = true := by decide +kernel

theorem meets_ownGet : ∀ bg ∈ [false, true],
    (wOwnGet bg).rem.tx[0]? = none ∧ accessOk (wOwnGet bg) (storeBase + 0x100) 8 = true ∧ wordsGood (wOwnGet bg) = true ∧
    srcOf ownGet = selfId (wOwnGet bg) ∧
    ((wOwnGet bg).rem.requests.find? (carries ownGet)).map (·.bg) = some bg := by decide +kernel

theorem meets_packets :
    (let s := outgoing loadItem routed
     s.rem.tx[0]? = some loadItem ∧ loadItem.port = none ∧ stoppedRequest s loadItem = false ∧
      mayLeave s loadItem.packet = true ∧ choosePort (takeViews [view] s) loadItem.packet = .port 0 false ∧
      servedNext (takeViews [view] s) 0 0 = true ∧ s.rem.lanes = []) ∧
    (∀ e ∈ [(otherItem 0 146, otherItem 4 129), (otherItem 3 128, otherItem 4 129), (otherItem 4 129, otherItem 4 130),
        (otherItem 5 130, otherItem 4 129)],
      let s : State := { routed with
        rem := { routed.rem with tx := [e.1, e.2] }, fab := { routed.fab with ports := [(0, { upPort with shareAll := 1000 })] } }
      servedNext (takeViews [view] s) 0 0 = true ∧ e.2 ∈ (readyList (takeViews [view] s) 0).map (·.2)) ∧
    (∀ transit ∈ [true, false],
      let s := outgoing { loadItem with transit := transit } linked
      s.rem.tx[0]? = some { loadItem with transit := transit } ∧ stoppedRequest s { loadItem with transit := transit } = false ∧
      mayLeave s loadItem.packet = true ∧ choosePort (takeViews [view] s) loadItem.packet = .unroutable ∧
      stepActive s = true) ∧
    (wGetTable.rem.tx[0]? = none ∧ wGetTable.rem.getTable[0 - wGetTable.rem.tx.length]? = some getEntry) ∧
    (∀ h ∈ [0, 3], portUp routed 0 = true ∧ dieAlive routed 0 = true ∧ forMe routed (passing h) = false ∧ (passing h).hcrc = hcrcOf (passing h) ∧
      hopsOf (passing h) = h) ∧ choosePort routed (passing 0) = .port 0 false := by decide +kernel

def timedOut (timer sent : Nat) (active : Bool) : State :=
  let s := { linked with rem := { linked.rem with requests := [sentRequest 6 none timer sent] } }
  if active then s else { s with ctl := { s.ctl with run := none } }
/-- An atomic for the held line waits for an entry that its answer needs. -/
def awaited : State := { fullLine with rem := { fullLine.rem with lanes := [⟨some 0, request 8, true, false⟩] } }
def cumState : State := { linked with rem := { linked.rem with pairs := [(512, { Pair.init with doneTo := 5 })] } }
def probePacket : Packet := packet 256 512 0x13 5 0 0 []

theorem meets_remoteTimers :
    ((fullLine.rem.lines.find? fun z => z.line == (storeBase + 0x100) / 64) =
      some ⟨(storeBase + 0x100) / 64, List.replicate 64 1, 255, []⟩) ∧
    (∀ e ∈ [(7, true), (8, true), (1, false)],
      ((timedOut 62500 e.1 e.2).rem.requests.find? fun z => z.dst == 512 && z.packet.psn == (sentRequest 6 none 62500 e.1).packet.psn) =
        some (sentRequest 6 none 62500 e.1) ∧ ofRun (timedOut 62500 e.1 e.2) (sentRequest 6 none 62500 e.1) = e.2) ∧
    (fullLine.rem.lanes = [] ∧ lineAwaited awaited ((storeBase + 0x100) / 64) = true) ∧
    (pairOf cumState 512).doneTo ≠ (pairOf cumState 512).sentCum ∧ Arrives 0x13 false (some 0) probePacket linked := by
  decide +kernel

def portState (st : PortState) : State :=
  { linked with fab := { linked.fab with ports := [(0, { upPort with state := st, naks := 31 })] } }

theorem meets_ports : (portUp linked 0 = true ∧ portUp (portState .upFull) 0 = true ∧ (portOf (portState .upFull) 0).naks + 1 = 32) ∧
    portUp (portState .down) 0 = false ∧ (portOf (portState .training) 0).state = .training ∧
    (portOf (portState .down) 0).state = .down ∧ (portOf (portState .upHalf) 0).state = .upHalf := by decide +kernel

def timed (st : TimeState) : State :=
  { linked with time := { linked.time with beat := 5000, parent := some 0, state := st } }
def linkLocal (op : Nat) (payload : List Byte) : Packet := packet 0xFFFFF 512 op 0 0 0 payload
def syncPacket : Packet := linkLocal 0x12 (bytesLe [(1, 0), (1, 1), (1, 2), (1, 0), (8, 77), (4, 9), (8, 4000), (24, 0)])
def followPacket (t2 : Nat) : Packet :=
  linkLocal 0x12 (bytesLe [(1, 1), (1, 1), (1, 2), (1, 0), (8, 77), (4, 9), (8, 4000), (8, t2), (8, 4600), (8, 0)])

/-- The reference of port die A has stopped. -/
def halted : State := { timed .locked with time := { (timed .locked).time with stopped := true } }

theorem meets_stoppedTime : Arrives 0x12 true (some 0) (followPacket 4501) halted ∧ fieldOf (followPacket 4501).payload 0 1 = 1 ∧
    halted.time.stopped = true ∧ (timed .locked).time.stopped = false := by decide +kernel

theorem meets_timeMessages :
    (linked.boot.stage = .ready ∧ linked.time.stopped = false ∧ linked.time.missed < 3 ∧ portUp linked 0 = true ∧
      outQueueLen linked 0 < 32) ∧
    (Arrives 0x12 true (some 0) syncPacket (timed .locked) ∧
      fieldOf syncPacket.payload 0 1 = 0 ∧ outQueueLen (timed .locked) 0 < 32) ∧
    (∀ t2 ∈ [4501, 4502], Arrives 0x12 true (some 0) (followPacket t2) (timed .unlocked) ∧
      Arrives 0x12 true (some 0) (followPacket t2) (timed .locked) ∧ fieldOf (followPacket t2).payload 0 1 = 1 ∧

      (noteNeighbour 0 (followPacket t2) (timed .locked)).time.parent = some 0 ∧
      (noteNeighbour 0 (followPacket t2) (timed .locked)).time.state ≠ .unlocked ∧
      (noteNeighbour 0 (followPacket t2) (timed .unlocked)).time.parent = some 0 ∧
      (noteNeighbour 0 (followPacket t2) (timed .unlocked)).time.state = .unlocked) := by decide +kernel

/-- A tree with one child on port 0, as root and as an inner device; and a launch of step 3 at 1,000,000 ticks. -/
def childTree : Tree := ⟨0, 2, none, none, 1, 1, 0⟩
def innerTree : Tree := ⟨1, 3, some 2, some 3, 0, 1, 0⟩
def aPend : Pending := ⟨4, 1000000, 3, true, false, false, false, false, [], false⟩
def launchState (tr : Tree) (q : Option Pending) (beat : Nat) : State :=
  { linked with
    launch := { linked.launch with tree := some tr, pend := q }
    time := { linked.time with beat := beat, state := .locked }
    ctl := { linked.ctl with run := none, armed := some (gstep 3) } }
def pealPacket (kind : Nat) : Packet :=
  linkLocal 0x10 (bytesLe [(1, kind), (1, 0), (2, 0), (4, 4), (8, 1000000), (4, 3), (2, 1), (10, 0), (2, 1), (30, 0)])

/-- A launch of another id pends, armed or not. -/
theorem meets_otherLaunch : ∀ a ∈ [true, false],
    let s := launchState childTree (some { aPend with id := 5, armed := a }) 0
    Arrives 0x10 true (some 0) (pealPacket 0) s ∧ s.job.opened = true ∧ (pealPacket 0).job = s.job.id ∧
    pealKind (pealPacket 0) = 0 ∧ (5 : Word) ≠ pealId (pealPacket 0) ∧ pastDecision s (pealD (pealPacket 0)) = false := by
  decide +kernel

theorem meets_launchMessages :
    (∀ k ∈ [0, 1, 2], Arrives 0x10 true (some 0) (pealPacket k) (launchState childTree (some aPend) 0) ∧
      pealTree (pealPacket k) = 0 ∧ pealKind (pealPacket k) = k ∧ pealId (pealPacket k) = aPend.id ∧
      (pealPacket k).job = linked.job.id ∧ linked.job.opened = true) ∧
    (Arrives 0x10 true (some 0) (pealPacket 0) (launchState childTree none 0) ∧
      pastDecision (launchState childTree none 0) (pealD (pealPacket 0)) = false ∧
      pealKey (pealPacket 0) ∉ (launchState childTree none 0).launch.fwd) ∧
    (0 ∈ treeChildren childTree 0 ∧ treeParent childTree 0 = none ∧ 0 + guardTicks + 1250 * childTree.depth < aPend.downbeat) ∧
    (Arrives 0x10 true (some 0) (pealPacket 1) (launchState innerTree (some aPend) 0) ∧ 0 ∈ treeChildren innerTree 0 ∧
      treeParent innerTree 0 = some 2) ∧
    (mayAcknowledge aPend (launchState innerTree (some aPend) 0) = true ∧ isRoot innerTree = false ∧ innerTree.pParent = some 2) ∧
    (mayAcknowledge aPend (launchState childTree (some aPend) 0) = true ∧ isRoot childTree = true) ∧
    (aPend.downbeat ≤ 999000 + guardTicks + 1250 * childTree.depth ∧ aPend.acks.length < childTree.members) := by
  decide +kernel

def gongPacket : Packet := linkLocal 0x11 (bytesLe [(4, 512), (4, 3), (4, 0), (2, 5), (2, 0)])
/-- Ports 0 and 1 are up; a step runs, is ARMED, or neither. -/
def gongState (c : Ctl) : State :=
  { linked with ctl := c, fab := { linked.fab with ports := [(0, upPort), (1, upPort)] } }
def knownGong : State := { gongState linked.ctl with launch := { linked.launch with gongs := [⟨512, 3, 0, 0⟩] } }

theorem meets_decisionAndGong :
    ((ackDeadlineEffect (launchState innerTree (some aPend) 1000000)).launch.pend = some aPend ∧
      pastDecision (launchState innerTree (some aPend) 1000000) aPend.downbeat = true ∧
      (launchState innerTree (some aPend) 1000000).mb.opened.any isAbortJob = false) ∧
    (∀ c ∈ [linked.ctl, (launchState innerTree none 0).ctl, bound.ctl], Arrives 0x11 true (some 0) gongPacket (gongState c) ∧
      portUp (gongState c) 1 = true ∧ liveGongs (gongState c) = [] ∧ gongPacket.job = (gongState c).job.id) ∧
    (Arrives 0x11 true (some 0) gongPacket knownGong ∧ (liveGongs knownGong).length = 1) ∧
    linked.ctl.run = some (runOf 3) ∧ (launchState innerTree none 0).ctl.armed.isSome = true ∧ linked.errs.testing = none ∧
    (bound.ctl.run = none ∧ bound.ctl.armed = none ∧ waitingGong? (gongState bound.ctl) = none) := by decide +kernel

/-! ## Flash, errors, management and test -/

/-- The extent of `anExtent`, sealed. -/
def sealedExtent : Extent := { anExtent with sealedExt := true }
/-- The tier is ONLINE with a sealed extent; block 16 is as given, and the other blocks of the extent have been erased 0 times. -/
def flashWith (b : Block) : State :=
  let s := online [sealedExtent] up
  { s with flash := { s.flash with blocks := kvPut s.flash.blocks 16 b } }
def usedBlock : Block := ⟨5, 0, false, true, none, false, none⟩
/-- A block of die 1 has been erased 50,000 times, and the used block of that die never. -/
def wornDie : State :=
  let s := flashWith usedBlock
  { s with flash := { s.flash with blocks := kvPut s.flash.blocks 17 ⟨0, 50000, false, false, none, false, none⟩ } }

/-- A die of another channel is retired. -/
def twoLost : State := { flashWith usedBlock with flash := { (flashWith usedBlock).flash with retiredDies := [2] } }
/-- Every other block has been patrolled since the mount. -/
def patrolLast : State :=
  let s := flashWith usedBlock
  { s with flash := { s.flash with patrolled := ((List.range 768).filter fun b => b != 16).map fun b => (b, 1) } }
/-- An extent whose one stripe is whole and waits for its programs. -/
def anExtentWhole : Extent := { anExtent with writePoint := 4096, sealing := true }
def aStage : Staged := ⟨1, 0, none, none, [0]⟩
def wStaged : State :=
  let s := online [anExtentWhole] up
  { s with flash := { s.flash with stages := [aStage] } }

theorem meets_codewords :
    ((flashWith usedBlock).flash.state = .online ∧ extentOfBlock? (flashWith usedBlock).flash 16 = some sealedExtent ∧
      hasCodeword (flashWith usedBlock).flash sealedExtent ⟨16, 0, true⟩ = true ∧
      hasCodeword (flashWith usedBlock).flash sealedExtent ⟨16, 1, true⟩ = false ∧
      absent (flashWith usedBlock) 16 = false ∧ neededCopies (flashWith usedBlock) = []) ∧
    (lostOthers (flashWith usedBlock) 16 (some 3) = 1 ∧ lostOthers twoLost 16 (some 3) = 2) ∧
    (∀ r ∈ [Ladder.hard, .soft, .retry 1, .retry 12, .failure], (ladderResult? (flashWith usedBlock) 16 r).isSome = true) ∧
    (blockUp (flashWith usedBlock) 16 = true ∧ patrolDue patrolLast.flash 16 = true ∧ isBlock patrolLast.flash 16 = true ∧
      channelUp wornDie (dieChannel wornDie.flash.geom 1) = true) := by decide +kernel

theorem meets_flashBackground :
    (wStaged.flash.state = .online ∧ (blockOf wStaged.flash 16).used = true ∧ (blockOf wStaged.flash 16).bad = false ∧
      wStaged.flash.extents.find? (fun x => !x.sealedExt && x.blocks.contains 16) = some anExtentWhole ∧
      wStaged.flash.stages.find? (awaitsProgram wStaged.flash anExtentWhole 16) = some aStage ∧ wStaged.flash.stageQueue = [] ∧
      (∀ k ∈ wStaged.flash.stages, k.programmed.length < 47)) ∧
    (isBlock (flashWith usedBlock).flash 767 = true ∧ isBlock (flashWith usedBlock).flash 768 = false) ∧
    (blockOf (flashWith { usedBlock with moving := some 18 }).flash 16).moving = some 18 ∧
    (wornDie.flash.state = .online ∧ wornDie.flash.worn = false ∧
      leastErased wornDie.flash ((dieBlocks wornDie.flash.geom 1).filter fun z => !(blockOf wornDie.flash z).bad) = some 16 ∧
      wornDie.flash.geom.endurance < 10 * (maxErases wornDie.flash ((dieBlocks wornDie.flash.geom 1).filter fun z =>
        !(blockOf wornDie.flash z).bad) - (blockOf wornDie.flash 16).erases) ∧
      (blockOf wornDie.flash 16).used = true ∧ (blockOf wornDie.flash 16).moving = none ∧
      drawBlock? wornDie.flash (channelOf wornDie.flash.geom 16) none = some 18) ∧
    (47 < 48 * diesPerChannel wornDie.flash.geom) ∧
    (blockOf (flashWith { usedBlock with erasing := true }).flash 16).erasing = true := by decide +kernel

/-- A copy of an object lies in HBM, whole. -/
def scrubbed : State := withObj [aCopy .resident] bound
/-- The cell of a fault is being tested. -/
def tested (n : Nat) : State := { up with errs := { up.errs with testing := some 0, cellFaults := List.replicate n (0, 0) } }

/-- Logical cells 0 and 1 are physical cells 0 and 2, and cell 0 is being tested. -/
def twoCells : State := { tested 2 with errs := { (tested 2).errs with unit := [(0, 0), (1, 2)] } }

theorem meets_cellTests :
    twoCells.errs.testing = some 0 ∧ cellEnabled twoCells 0 = true ∧ cellEnabled twoCells 1 = true ∧
    clusterOf 1 = clusterOf 0 ∧ physOf twoCells 0 < physOf twoCells 1 ∧
    twoCells.errs.unit.Pairwise (fun a b => a.1 < b.1 ∧ a.2 ≠ b.2) ∧ inCluster 0 ((storeBase + 12) / 8 * 8) = true ∧
    inCluster 0 (scratchBase / 8 * 8) = true := by decide +kernel

theorem meets_scrubs :
    (firmwareRuns scrubbed = true ∧ stepActive scrubbed = false ∧ copyAt? scrubbed (8192 / 64 * 64) = some (aCopy .resident) ∧
      isThere (aCopy .resident).state = true ∧ (aCopy .resident).tier = 2 ∧
      (∀ x ∈ scrubbed.tier.copies, ¬ (x.obj = (aCopy .resident).obj ∧ x.state = .promoting))) ∧
    (∀ transit ∈ [true, false], let s := outgoing { loadItem with transit := transit } linked
      firmwareRuns s = true ∧ s.rem.tx[0]? = some { loadItem with transit := transit }) ∧
    (reserveBase ≤ (hbmBytes - 1) / 64 * 64 ∧ hbmBytes - 1 < hbmBytes) ∧ scrubbed.boot.scrubHold.getLsbD 15 = false ∧
    ((tested 2).errs.testing = some 0 ∧ recentFaults (tested 2) (physOf (tested 2) 0) < 3 ∧
      ¬ recentFaults (tested 3) (physOf (tested 3) 0) < 3) := by decide +kernel

theorem meets_deviceFaults :
    (firmwareRuns up = true ∧ up.pins.pwrgd = true) ∧ (engineRuns up = true ∧ engineRuns State.reset = true) ∧
    (∀ e ∈ [{ up.errs with dieModulesA := 1 }, { up.errs with dieModulesB := 1 }],
      ({ up with errs := e } : State).errs.dieModulesA = 1 ∨ ({ up with errs := e } : State).errs.dieModulesB = 1) ∧
    (portOf (portState .miscabled) 0).state ≠ .disabled ∧
    (portUp (gongState linked.ctl) 0 = true ∧ (if false then 64 else 0) + 16 * 0 ≤ 0) ∧
    (up.pins.pwrgd = true ∧ 1 < up.errs.dieModulesA ∧ 1 < up.errs.dieModulesB) := by decide +kernel

def ask (code : Nat) (l : List (Nat × Nat)) : MgmtReq := ⟨9, BitVec.ofNat 8 code, 0, 0, bytesLe l, .i3c⟩

/-- A request over I3C is heard. -/
theorem asks_i3c (q : MgmtReq) (code n : Nat) (s : State) (h : q.via = .i3c ∧ s.pins.pwrgd = true ∧ q.command.toNat = code ∧
    q.flags.getLsbD 7 = false ∧ q.reserved = 0 ∧ n ≤ q.args.length) : Asks q code n s := ⟨.inl h.1, h.2⟩

/-- So are a frame for the device and a broadcast one. -/
theorem meets_heard : Heard .i3c ∧ Heard (.ethernet Config.macAddress 5 0x88B5 true) ∧ Heard (.ethernet broadcastMac 5 0x88B5 true) :=
  ⟨.inl rfl, .inr ⟨_, _, rfl, .inl rfl⟩, .inr ⟨_, _, rfl, .inr rfl⟩⟩
def wReport : State := { up with mgmt := { up.mgmt with report := some (fields [(0, 8, 5)]), reportLen := 8192 } }
/-- A shadow table for device 256 with port 0 enabled, and one whose SELF_ID is of group 0xFFF. -/
def shadowed (self : Nat) (s : State) : State :=
  { s with fab := { s.fab with shadow := fields [(0, 4, self), (8, 1, 1)] } }
def lanesWord : List (Nat × Nat) := [(1, 0), (1, 0), (1, 0), (1, 40), (1, 0), (1, 0), (2, 0)]

theorem meets_management :
    Asks (ask 1 []) 1 0 up ∧ (Asks (ask 2 [(4, 0xFFFFFF)]) 2 4 up ∧ arg (ask 2 [(4, 0xFFFFFF)]) 0 4 < 2 ^ 24) ∧
    (Asks (ask 3 [(4, 140284), (2, 4), (2, 0), (4, 7)]) 3 8 up ∧ arg (ask 3 [(4, 140284), (2, 4), (2, 0), (4, 7)]) 0 4 + 4 ≤ 140288) ∧
    Asks (ask 4 []) 4 0 (shadowed 256 up) ∧ (shadowed 256 bound).ctl.run = none ∧ (shadowed 256 (running [])).ctl.run.isSome = true ∧
    Asks (ask 5 [(1, 1), (3, 0), (4, 140284), (2, 4)]) 5 10 up ∧
    (Asks (ask 6 [(2, 600), (2, 2400)]) 6 4 up ∧ up.boot.stage = .ready ∧ wInit.boot.stage ≠ .ready) ∧
    Asks (ask 7 [(2, 1020), (2, 1100)]) 7 4 up ∧ Asks (ask 8 [(4, 1000), (4, 250000), (4, 50000)]) 8 12 up :=
  ⟨asks_i3c _ _ _ _ (by decide), ⟨asks_i3c _ _ _ _ (by decide), by decide⟩, ⟨asks_i3c _ _ _ _ (by decide), by decide⟩,
    asks_i3c _ _ _ _ (by decide), rfl, rfl, asks_i3c _ _ _ _ (by decide), ⟨asks_i3c _ _ _ _ (by decide), rfl, by decide⟩,
    asks_i3c _ _ _ _ (by decide), asks_i3c _ _ _ _ (by decide)⟩

/-- A full reset is under way. -/
def wResetting : State := { State.reset with boot := { State.reset.boot with resetting := true } }

theorem meets_management2 :
    Asks (ask 9 [(4, 8192), (2, 1024)]) 9 6 up ∧ Asks (ask 10 [(32, 77)]) 10 32 up ∧
    (Asks (ask 11 [(4, 7168), (2, 1024)]) 11 6 wReport ∧ wReport.mgmt.reportLen = 8192) ∧
    (Asks (ask 12 [(2, 0xA5C3)]) 12 2 up ∧ up.boot.resetting = false ∧ Asks (ask 12 [(2, 0xA5C3)]) 12 2 State.reset ∧
      State.reset.boot.resetting = false ∧ Asks (ask 12 [(2, 0xA5C3)]) 12 2 wResetting ∧ wResetting.boot.resetting = true) ∧
    Asks (ask 12 [(2, 0)]) 12 2 up ∧ up.dbg.telWriting = false ∧
    (∀ action ∈ [0, 1], Asks (ask 13 ([(1, 0), (1, 2), (1, action), (1, 0)] ++ lanesWord ++ lanesWord ++ [(4, 0)])) 13 24 linked ∧
      portConfigOk (ask 13 ([(1, 0), (1, 2), (1, action), (1, 0)] ++ lanesWord ++ lanesWord ++ [(4, 0)])) = true) ∧
    (Asks (ask 0 []) 0 0 up ∧ Asks (ask 0x0E []) 0x0E 0 up) ∧ (up.pins.pwrgd = true ∧ sensorValue? up 22 = some 2400) := by
  have a : ∀ action : Nat, Asks (ask 13 ([(1, 0), (1, 2), (1, action), (1, 0)] ++ lanesWord ++ lanesWord ++ [(4, 0)])) 13 24 linked :=
    fun _ => asks_i3c _ _ _ _ ⟨rfl, rfl, rfl, by simp [ask], rfl, by simp [ask, bytesLe, lanesWord, natLe]⟩
  exact ⟨asks_i3c _ _ _ _ (by decide), asks_i3c _ _ _ _ (by decide), ⟨asks_i3c _ _ _ _ (by decide), rfl⟩,
    ⟨asks_i3c _ _ _ _ (by decide), rfl, asks_i3c _ _ _ _ (by decide), rfl, asks_i3c _ _ _ _ (by decide), rfl⟩,
    asks_i3c _ _ _ _ (by decide), rfl, fun x m => ⟨a x, by revert x; decide +kernel⟩,
    ⟨asks_i3c _ _ _ _ (by decide), asks_i3c _ _ _ _ (by decide)⟩, by decide +kernel⟩

/-- A frame of the plane for another device, with these bytes good or bad. -/
def wrongFrame (good : Bool) : MgmtReq := { ask 1 [] with via := .ethernet (Config.macAddress ^^^ 0x1) 5 0x88B5 good }

/-- A frame for the device of another EtherType. -/
def otherFrame : MgmtReq := { ask 1 [] with via := .ethernet Config.macAddress 5 0x0800 true }

theorem meets_frames : (wrongFrame false).via = .ethernet (Config.macAddress ^^^ 0x1) 5 0x88B5 false ∧
    otherFrame.via = .ethernet Config.macAddress 5 0x0800 true ∧ (0x0800 : BitVec 16) ≠ 0x88B5 ∧
    otherFrame.command.toNat = 1 ∧ up.pins.pwrgd = true := ⟨rfl, rfl, by decide, rfl, rfl⟩

/-- A refused table, and a good one. -/
theorem meets_tableRefused : tableRefused (shadowed 0xFFF00 up).fab.shadow = true := by decide +kernel

theorem leNat_map_zero (f : Nat → Byte) (l : List Nat) (h : ∀ i ∈ l, f i = 0) : leNat (l.map f) = 0 := by
  induction l with
  | nil => rfl
  | cons a l ih => simp [leNat, h a (by simp), ih fun i m => h i (by simp [m])]

/-- Of a small table, every field past its second byte is 0. -/
theorem memLe_shadow (o n : Nat) (h : 9 ≤ o) : memLe (shadowed 256 up).fab.shadow o n = 0 := by
  have e : (shadowed 256 up).fab.shadow = [(1, 1), (8, 1)] := by decide +kernel
  rw [e, memLe, memRead]
  refine leNat_map_zero _ _ fun i _ => ?_
  rw [memGet, if_neg (by omega), memGet, if_neg (by omega)]
  rfl

theorem meets_tableTaken : tableRefused (shadowed 256 up).fab.shadow = false := by
  have e : (shadowed 256 up).fab.shadow = [(1, 1), (8, 1)] := by decide +kernel
  have z : ∀ o n, 9 ≤ o → (memSlice (shadowed 256 up).fab.shadow o n).isEmpty = true := by
    intro o n h
    rw [e]
    simp [memSlice]
    omega
  have l := memLe_shadow
  have y : (memSlice (shadowed 256 up).fab.shadow 4 4).isEmpty = true := by decide +kernel
  have s : memLe (shadowed 256 up).fab.shadow 0 4 = 256 := by decide +kernel
  generalize (shadowed 256 up).fab.shadow = m at *
  simp (disch := omega) [tableRefused, s, l, y, z, groupOf, memberOf]

/-- The governor's setpoint lies inside its range, with the package hotter than its throttle point or well inside it. -/
def governed (tj : Int) (inside : Nat) : State :=
  { up with mgmt := { up.mgmt with sample := { up.mgmt.sample with junctions := List.replicate 56 tj }, insideRun := inside, vcoreSet := 700 } }

theorem meets_governor :
    (up.pins.pwrgd = true ∧ up.mgmt.vsramMisses < 3 ∧ up.mgmt.vcoreMisses < 3 ∧
      ({ governed 1100 0 with mgmt := { (governed 1100 0).mgmt with vcoreMisses := 2 } } : State).mgmt.vcoreMisses = 2 ∧ up.pins.thermtrip = false) ∧
    ((up.mgmt.trip : Int) ≤ 1100 ∧ 1100 ∈ (governed 1100 0).mgmt.sample.junctions) ∧
    (figureAbove 100 (governed 1100 0) = true ∧ 600 < (governed 1100 0).mgmt.vcoreSet) ∧
    (figureAbove 100 (governed 300 100) = false ∧ 100 ≤ (governed 300 100).mgmt.insideRun ∧
      (governed 300 100).mgmt.vcoreSet < 900) := by decide +kernel

/-- The test port holds an instruction, with JTAG_LOCK set or clear. -/
def testing (i : JtagIr) (locks : BitVec 5) : State :=
  { up with dbg := { up.dbg with ir := i }, boot := { up.boot with locks := locks } }

theorem meets_testPort : (testing .idcode 0).dbg.ir = .idcode ∧ (testing .bypass 0).dbg.ir = .bypass ∧
    (testing .ijtag 4).dbg.ir = .ijtag ∧ (testing .ijtag 4).boot.locks.getLsbD 2 = true ∧
    (testing .ijtag 0).dbg.ir = .ijtag ∧ (testing .ijtag 0).boot.locks.getLsbD 2 = false := by decide

theorem meets_testAccess :
    (up.pins.pwrgd = true ∧ namedIr 0xFE = false ∧ up.boot.stage ≠ .romWait ∧ up.boot.stage ≠ .failed ∧ up.pins.floated = false) ∧
    up.boot.stage = .ready := by decide +kernel

/-- TMX_OUT[0] is driven with this PROBE value. -/
def probed (v : Nat) (s : State) : State := { s with dbg := { s.dbg with tmxDrive := true, tmxSel := [(0, v)] } }

theorem meets_probes : up.dbg.tmxDrive = false ∧ (probed 0xA00 up).dbg.tmxDrive = true ∧
    hostLink up = true ∧ pinSource (probed 0xA00 up) = .device ∧ pinSource { up with pins := { up.pins with floated := true } } ≠ .device ∧
    (∀ v ∈ [0xA00, 0xA02, 0xA04], tblGet (probed v up).dbg.tmxSel 0 = v) ∧
    (probed 0xA02 (inRun stopping)).ctl.run = some stopping ∧ stopping.fault.isSome = true ∧ (probed 0xA02 up).ctl.run = none := by
  decide +kernel

/-! ## Every state, every step -/

theorem meets_steps : ({ up with pending := [.telUpdate] } : State).pending = .telUpdate :: [] ∧ up.pending = [] ∧
    memWf [] = true := by decide

/-- The memories of the states that meet the statements' other hypotheses are canonical. -/
theorem meets_canon : ∀ s ∈ [wIdentify, wGetCaps, wSetConfig, wReserved, wLate, wJobOpen, wLoadImage, wBind, wJobClose, wGrant,
    wAbortRun, wAbortPast, wAbortJobNone, wAbortJobRun, wAbortJobIdle, wTreeSet, wPeal, wObjDefine, wPromote, wEvict, wPin,
    wUnpin, wPoolConfig, wPoolAlloc, wPoolShare, wPoolRelease, wPoolFree, wPoolStatus, wWinSet, wWinClear, wWinRead,
    wFlashStatus, wFlashFormat, wExtentCreate, wExtentWrite, wExtentSeal, wExtentDelete, wTelSnapshot, wAttest, wTraceStart,
    wTraceStop, wTraceStatus, wMemread, romWait, up, wSealing, wFormatting, mxState, cpState (cpTask 0)], Canon s := by
  unfold Canon
  decide +kernel

theorem meets_everyStep : ∃ s t : State, Canon s ∧ step s = .next t :=
  ⟨State.reset, _, by unfold Canon; decide +kernel, rfl⟩

theorem meets_becomesReady : ∃ t : State, exec (.ready []) (atStage .firmwareInit) = .next t ∧
    (atStage .firmwareInit).boot.stage ≠ .ready ∧ t.boot.stage = .ready := ⟨_, rfl, by decide, by decide +kernel⟩

/-! ## Worked examples of the manual, and small results -/

/-- "Number formats", steps 3 to 5: the three partial sums of the forecast reduction in ESF-128 with w = -80. -/
theorem test_esf_converts :
    toEsf (-80) (ofF32 0x4B800000) = (2 ^ 104, []) ∧ toEsf (-80) (ofF32 0x3DCCCCCD) = (13421773 * 2 ^ 53, []) ∧
      toF32 (ofEsf (-80) (2 ^ 104 + 13421773 * 2 ^ 53 - 2 ^ 104)).1 = 0x3DCCCCCD := by decide +kernel
/-- Step 2: in FP32 the order (a + b) + c gives 0. -/
theorem test_fp32_order : toF32 (fAdd (rnd32 (fAdd (ofF32 0x4B800000) (ofF32 0x3DCCCCCD))) (ofF32 0xCB800000)) = 0 := by
  decide +kernel
/-- Step 6: a contribution of 2^-100 is dropped and counted once. -/
theorem test_esf_lost : (toEsf (-80) (.fin false 1 (-100))).1 = 0 ∧ (toEsf (-80) (.fin false 1 (-100))).2.length = 1 := by
  decide +kernel
/-- R88: an infinity saturates at the largest magnitude, and NaN converts to 0; each is counted. -/
theorem test_esf_saturates : toEsf 0 (.inf true) = (-(2 ^ 111 - 1), [ccEsfSaturate]) ∧ toEsf 0 .nan = (0, [ccEsfNan]) := by
  decide +kernel
/-- R71: 1.0 in each floating-point format, with the exponent biases of the table. -/
theorem test_ones : fEncode .fp32 .rne (.fin false 1 0) = (0x3F800000, false) ∧ fEncode .bf16 .rne (.fin false 1 0) = (0x3F80, false) ∧
    fEncode .fp16 .rne (.fin false 1 0) = (0x3C00, false) := by decide +kernel
/-- R74: the E8M0 codes. -/
theorem test_e8m0 : scaleVal 0 = .fin false 1 (-127) ∧ scaleVal 0xFE = .fin false 1 127 ∧ scaleVal 0xFF = .nan := by decide +kernel
/-- The gated activation of "The vector engine", step 5: 1.5 lies 140.0 segments above -16.0. -/
theorem test_table_index : toF32 (fMul (fAdd (ofF32 0x3FC00000) (ofF32 0x41800000)) (ofF32 0x41000000)) = 0x430C0000 := by
  decide +kernel
/-- "Host interface", step 1: 72 routing layers and 104 expert slots make an entry of 61,440 bytes, 17 in 1,048,576. -/
theorem test_reportSize : reportSize { imageWith [] with layers := 72, expertSlots := 104 } = 61440 ∧
    reportEntries { bound with mb := { bound.mb with rptRing := some (hostBase, 1048576) } }
      { imageWith [] with layers := 72, expertSlots := 104 } = 17 := by decide +kernel
/-- "Buffer pools", step 1: the handle of buffer 37 of class K256 in cluster 5, and its address. -/
theorem test_poolHandle : handleOf 5 5 37 = 0x5A000025 ∧ classBytes 5 = 262144 ∧
    0x4000000000 + 37 * classBytes 5 = 0x4000940000 ∧ fitClass 65536 = 4 := by decide +kernel
/-- "Remote memory", step 2: REMOTE_ADDR 0x0400_9000_0040 names window 9, offset 0x40. -/
theorem test_windowOf : 0x04009000_0040 / 2 ^ 28 % 2 ^ 12 = 9 ∧ 0x040090000040 % 2 ^ 28 = 0x40 := by decide
/-- R433, as the host of the example meets it: a clear with the SEQ of before is ignored, one with EVT_SEQ clears. -/
theorem test_evtClear : after (.evtClear 8) wRegs (fun t => decide (t.mb.evtCause = 5)) = true ∧
    after (.evtClear 9) wRegs (fun t => decide (t.mb.evtCause = 0)) = true := by decide +kernel
/-- R430: DEV_IDENT from power good on, and nothing of the other blocks before READY. -/
theorem test_identBeforeReady : ecsRead State.reset 0 = 0x4B4D5808 ∧ ecsRead { wRegs with boot := State.reset.boot } 0x3000 = 0 := by
  decide +kernel
/-- R323 and R326: a packet whose header has lost a bit fails its HCRC. -/
theorem test_headerCrc : headerOk (request 4) = true ∧ headerOk { request 4 with addr := 1 } = false := by decide +kernel
/-- R51 and R343: a store of 8 bytes lands in its window. -/
theorem test_storeLands : after (.store (some 0) (request 6)) linked
    (fun t => decide (memLe t.mem (storeBase + 0x100) 8 = 0x1122334455667788)) = true := by
  decide +kernel
/-- R344: without the window it is refused, and memory keeps its bytes. -/
theorem test_storeRefused : after (.store (some 0) (request 6)) noWindow
    (fun t => decide (memLe t.mem (storeBase + 0x100) 8 = memLe noWindow.mem (storeBase + 0x100) 8)) = true := by
  decide +kernel
/-- R349: a request that has been applied is not applied again. -/
theorem test_duplicateStore : after (.store (some 0) (request 6)) seenState
    (fun t => decide (memLe t.mem (storeBase + 0x100) 8 = memLe seenState.mem (storeBase + 0x100) 8)) = true := by
  decide +kernel
/-- R477: SET_POWER's sustained power has to lie between 600 and 2,400 W. -/
theorem test_setPowerBad : after (.setPower (ask 6 [(2, 599), (2, 2400)])) up (fun t => decide (t.mgmt.sustainedW = 2400)) = true := by
  decide +kernel
/-- R482: a governor step that is not acknowledged leaves the setpoint. -/
theorem test_avsMiss : after (.governorStep ⟨true, false⟩) (governed 1100 0) (fun t => decide (t.mgmt.vcoreSet = 700)) = true := by
  decide +kernel
/-- R508: with PIN_LOOP every pin shows the probe of TMX_SEL0; BEAT_DIV is low in the first 1,024 ticks (R503). -/
theorem test_pinLoop : pinProbe { probed 0xA00 up with boot := { up.boot with pinLoop := true } } 15 = 0xA00 ∧
    pinProbe (probed 0xA00 up) 15 = 0 := by decide +kernel
/-- R447 and R448, as the power-on example has them: SVN 7 raises the counter from 6, and a slot at or above the monitor's
own is not revoked. -/
theorem test_fuses :
    let b := { Boot.init with mon := some ⟨1, 7, 0, true, 0b0011, 0⟩, rollback := 6 }
    (raiseRollback b).rollback = 7 ∧ (raiseRollback b).raisesLeft = 254 ∧ (revokeSlots b).revoked = 1 := by decide
/-- R505: after test-logic reset the instruction is IDCODE. -/
theorem test_logicReset : after .testLogicReset { up with dbg := { up.dbg with ir := .highz } }
    (fun t => decide (t.dbg.ir = .idcode)) = true := by
  decide +kernel
/-- FIPS 202: SHA3-256 of no bytes begins A7 FF C6 F8 (R392, log 6). -/
theorem test_sha3 : keccak 136 0x06 [] 4 = [0xA7, 0xFF, 0xC6, 0xF8] := by decide +kernel
/-- The command table names no word, and placing one changes nothing. -/
theorem test_noWords : decodeTableWord 32 0xFFFFFFFF = none ∧ State.reset.withFetchWord 32 1 = State.reset := ⟨rfl, rfl⟩

/-! ## Operands that the checks refuse -/

theorem test_wf_cell : (Instr.mx 511 .clean).wf = true ∧ (Instr.mx 512 .clean).wf = false ∧ (Instr.descriptorFetch 512).wf = false ∧
    (Instr.taskComplete 0 65536).wf = false ∧ (Instr.collectiveSum 512 0 .clean).wf = false := by decide
theorem test_wf_cluster : (Instr.routePart 15).wf = true ∧ (Instr.routePart 16).wf = false ∧ (Instr.sramScrub ⟨.cluster 16 none, .clean⟩).wf = false ∧
    (Instr.clPerfSel 16 0).wf = false ∧ (Instr.tmxSel 16 0).wf = false := by decide
theorem test_wf_port : (Instr.portRetry 127).wf = true ∧ (Instr.portRetry 128).wf = false ∧
    (Instr.forward 128 (request 4)).wf = false ∧ (Instr.load (some 128) (request 4)).wf = false ∧
    (Instr.packetSend 0 [⟨128, []⟩]).wf = false ∧ (Instr.packetSend 0 [⟨0, [⟨0, 0, 0, 18, 0, 0, 0⟩]⟩]).wf = false ∧
    (Instr.packetSend 0 [⟨0, [⟨0, 0, 0, 17, 63, 17, 63⟩]⟩]).wf = true := by decide +kernel
theorem test_wf_packet : (Instr.load none (request 4)).wf = true ∧ (Instr.load none { request 4 with length := 7 }).wf = false := by
  decide +kernel
theorem test_wf_longPacket : wfPacket { request 4 with length := 4097, payload := List.replicate 4097 0 } = false := by
  decide +kernel
theorem test_wf_tier : (Instr.promotionStart 0 2).wf = true ∧ (Instr.promotionStart 0 3).wf = false ∧
    (Instr.promotionEnd 0 3 .done).wf = false ∧ (Instr.evictionEnd 0 3).wf = false := by decide
theorem test_wf_request : (Instr.getState ⟨0, 1, 0, 0, List.replicate 1088 0, .i3c⟩).wf = true ∧
    (Instr.getState ⟨0, 1, 0, 0, List.replicate 1089 0, .i3c⟩).wf = false := by decide +kernel
theorem test_wf_registers : (Instr.bootSramWrite 2 0).wf = false ∧ (Instr.bootSramWrite 262144 0).wf = false ∧
    (Instr.ecsWrite (2 ^ 21) []).wf = false ∧ (Instr.ecsWrite 0 (List.replicate 65 0)).wf = false := by decide +kernel
theorem test_wf_boot : (Instr.ready [543]).wf = true ∧ (Instr.ready [544]).wf = false ∧ (Instr.firmwareInitFail 0x400).wf = false ∧
    (Instr.firmwareInitFail 0x404).wf = false := by decide
theorem test_wf_parts : (Instr.extentSealDone (2 ^ 32)).wf = false ∧ (Instr.hbmScrub 618475290624 .clean).wf = false ∧
    (Instr.hbmRetrain 16 true).wf = false ∧ (Instr.hbmStackLost 16).wf = false ∧ (Instr.refclkLoss (.ser true 4)).wf = false ∧
    (Instr.refclkLoss (.hbm 4)).wf = false ∧ (Instr.e2eRetry (2 ^ 20) 0).wf = false ∧ (Instr.cumAck (2 ^ 20)).wf = false := by decide
theorem test_wf_sample : (Instr.sensorSample { up.mgmt.sample with hbmTemp := [] }).wf = false ∧
    (Instr.sensorSample { up.mgmt.sample with pace := [] }).wf = false ∧
    (Instr.sensorSample { up.mgmt.sample with junctions := [] }).wf = false ∧
    (Instr.sensorSample { up.mgmt.sample with rails := List.replicate 7 (0, 0) }).wf = false := by decide +kernel
theorem test_wf_tests : (Instr.cellTest ⟨true, some (511, true)⟩).wf = true ∧ (Instr.cellTest ⟨true, some (512, true)⟩).wf = false := by
  decide

end Sys2Proof.Tests
end

section
/-! SUPPORT. Stray responses (R353): what an arrival leaves of the requests that wait, and how an answer that none of them
awaits is discarded and counted. -/

namespace Sys2Proof.Machine

open Sys2Proof.Claims

/-- A packet that leaves marks the requests that it carries, and no other. -/
theorem noteLeft_requests (port : Option Nat) (p : Packet) (s : State) :
    (noteLeft port p s).rem.requests = s.rem.requests.map fun r =>
      if carries p r then { r with sent := r.sent + 1, timer := 0, port := port } else r := by
  unfold noteLeft
  split
  · dsimp only [setPair]
    split <;> rfl
  · next uncarried =>
    have same : ∀ r ∈ s.rem.requests, carries p r = false := by simpa using uncarried
    rw [List.map_congr_left (g := id) fun r m => by simp [same r m], List.map_id]
    split <;> rfl

theorem opOf_eq_of_carries {p : Packet} {r : Request} (h : carries p r = true) : opOf p = opOf r.packet := by
  simp only [carries, Bool.and_eq_true, beq_iff_eq] at h
  obtain ⟨_, _, _, op⟩ := h
  exact op

/-- The requests of other operations than the packet's are as they were before its arrival: by a port it changes none, and by
loopback it leaves this device. -/
theorem mem_requests_of_arrive {f : Option Nat} {p : Packet} {s u : State} {r : Request} (e : arrive? f p s = some u)
    (m : r ∈ u.rem.requests) (n : opOf p ≠ opOf r.packet) : r ∈ s.rem.requests := by
  unfold arrive? at e
  split at e
  · obtain ⟨_, e⟩ := Option.ite_none_right_eq_some.1 e
    cases e
    exact m
  · obtain ⟨_, e⟩ := Option.ite_none_right_eq_some.1 e
    cases e
    rw [noteLeft_requests] at m
    obtain ⟨q, old, rfl⟩ := List.mem_map.1 m
    split at n
    · next own => exact absurd (opOf_eq_of_carries own) n
    · next own => simpa [own] using old

/-- The response p finds no request that awaits it, or is not of the open job (R353). -/
theorem answered_eq_none_iff {s : State} {p : Packet} {ops : List Nat} :
    answered? s p ops = none ↔ p.job ≠ s.job.id ∨ s.job.opened = false ∨
      ∀ r ∈ s.rem.requests, r.dst = srcOf p → r.packet.psn = reqPsn p → opOf r.packet ∈ ops → r.sent = 0 := by
  unfold answered?
  by_cases j : p.job = s.job.id <;> by_cases o : s.job.opened = true <;> simp [j, o]

@[simp] theorem leaveBuffer_rem (f : Option Nat) (p : Packet) (s : State) : (leaveBuffer f p s).rem = s.rem :=
  ((leaveBuffer_keeps f p s (k := [.fab]) rfl).2 (.refl _ s)).rem_eq rfl

theorem leaveBuffer_job_of_arrive {f : Option Nat} {p : Packet} {s u : State} (e : arrive? f p s = some u) :
    (leaveBuffer f p u).job = s.job :=
  ((leaveBuffer_keeps f p u rfl).2 (arrive_keeps e)).job_eq rfl

/-- A response that is stray before its arrival is stray when it has left its buffer: an arrival changes neither the job nor
a request that a response of this operation could answer. -/
theorem answered_arrived_eq_none {f : Option Nat} {p : Packet} {ops : List Nat} {s u : State} (e : arrive? f p s = some u)
    (n : opOf p ∉ ops) (h : answered? s p ops = none) : answered? (leaveBuffer f p u) p ops = none := by
  rw [answered_eq_none_iff] at h ⊢
  rw [leaveBuffer_job_of_arrive e, leaveBuffer_rem]
  refine h.imp_right (.imp_right fun unsent r m dst psn op => ?_)
  exact unsent r (mem_requests_of_arrive e m fun same => n (same ▸ op)) dst psn op

/-- A packet that arrives and need not wait is handled as it leaves its buffer. -/
theorem receive_of_arrives {op : Nat} {l : Bool} {f : Option Nat} {p : Packet} {s : State} (a : Arrives op l f p s) :
    ∃ u, arrive? f p s = some u ∧ ∀ k, receive op l f p k s = k (leaveBuffer f p u) := by
  obtain ⟨came, me, header, isOp, link⟩ := a
  obtain ⟨u, e, free⟩ := (Option.any_eq_true _ _).1 came
  rw [Bool.not_eq_true'] at free
  exact ⟨u, e, fun k => by
    simp only [receive, e, me, header, isOp, link, free, and_self, if_true, Bool.false_eq_true, if_false]⟩

theorem takeAnswer_of_stray {ops : List Nat} {g : Request → State → State} {p : Packet} {s : State}
    (h : answered? s p ops = none) : takeAnswer ops g p s = addCount tcStrayResponse 1 s := by
  rw [takeAnswer, h]

/-- An ACK of kind CUM answers no request: it is stray if it is not of the open job. -/
theorem ackEffect_of_stray {p : Packet} {s : State}
    (c : fieldOf p.payload 7 1 = 1 → p.job ≠ s.job.id ∨ s.job.opened = false)
    (h : answered? s p [0x01, 0x02, 0x06, 0x07, 0x0A] = none) : ackEffect p s = addCount tcStrayResponse 1 s := by
  unfold ackEffect
  split
  · next cum =>
    refine if_neg fun ⟨id, opened⟩ => ?_
    obtain other | closed := c cum
    · exact other id
    · simp [closed] at opened
  · exact takeAnswer_of_stray h

/-- A stray response that need not wait is only counted once it has left its buffer, whatever the handler k of its operation
does with others: k counts a response that is stray when it is handled, and this one is. -/
theorem receive_of_stray {op : Nat} {l : Bool} {f : Option Nat} {p : Packet} {s : State} {ops : List Nat} {k : State → State}
    (a : Arrives op l f p s) (n : op ∉ ops) (h : answered? s p ops = none)
    (stray : ∀ v : State, v.job = s.job → answered? v p ops = none → k v = addCount tcStrayResponse 1 v) :
    ∃ u, arrive? f p s = some u ∧ (.next (receive op l f p k s) : Host.Outcome State Fault Refusal) =
      .next (addCount tcStrayResponse 1 (leaveBuffer f p u)) := by
  obtain ⟨u, e, handled⟩ := receive_of_arrives a
  obtain ⟨_, _, _, isOp, _⟩ := a
  exact ⟨u, e, by rw [handled, stray _ (leaveBuffer_job_of_arrive e) (answered_arrived_eq_none e (isOp ▸ n) h)]⟩

end Sys2Proof.Machine

namespace Sys2Proof.Claims

open Sys2Proof.Machine

/-- Settles O46: a stray response is stray still when it has left its buffer, and each of the five handlers only counts it. -/
theorem strayResponsesAreDiscarded : Obligations.StrayResponsesAreDiscarded := by
  unfold Obligations.StrayResponsesAreDiscarded
  intro s f p e m a h
  have unawaited : answered? s p e.2.1 = none := answered_eq_none_iff.2 (h.imp_right (.imp_right And.right))
  simp only [List.mem_cons, List.not_mem_nil, or_false] at m
  obtain rfl | rfl | rfl | rfl | rfl := m
  · exact receive_of_stray a (by simp) unawaited fun _ _ => takeAnswer_of_stray
  · exact receive_of_stray a (by simp) unawaited fun _ _ => takeAnswer_of_stray
  · exact receive_of_stray a (by simp) unawaited fun _ _ => takeAnswer_of_stray
  · refine receive_of_stray a (by simp) unawaited fun v job stray => ackEffect_of_stray (fun cum => ?_) stray
    obtain other | closed | ⟨notCum, _⟩ := h
    · exact .inl (job ▸ other)
    · exact .inr (job ▸ closed)
    · exact absurd cum (notCum rfl)
  · exact receive_of_stray a (by simp) unawaited fun _ _ => takeAnswer_of_stray

end Sys2Proof.Claims
end

section
/-! SUPPORT. The mailbox and event registers (R414, R433, R434): a write with a host module in service and the control
firmware up, and what letting waiting events into the ring leaves of EVT_HEAD. -/

namespace Sys2Proof.Machine

theorem exec_cmdDoorbell (v : Word) (s : State) :
    exec (.cmdDoorbell v) s = .next (if hostLink s then writeCmdDoorbell v s else s) := rfl

theorem exec_cplHead (v : Word) (s : State) :
    exec (.cplHead v) s = .next (if hostLink s then writeCplHead v s else s) := rfl

theorem exec_evtHead (v : Word) (s : State) :
    exec (.evtHead v) s = .next (if hostLink s then writeEvtHead v s else s) := rfl

theorem exec_rptHead (v : Word) (s : State) :
    exec (.rptHead v) s = .next (if hostLink s then writeRptHead v s else s) := rfl

theorem exec_evtClear (v : Word) (s : State) :
    exec (.evtClear v) s = .next (if hostLink s then writeEvtClear v s else s) := rfl

theorem exec_evtEnable (v : Word) (s : State) :
    exec (.evtEnable v) s = .next (if hostLink s then writeEvtEnable v s else s) := rfl

theorem firmwareUp_iff {s : State} : firmwareUp s = true ↔ s.boot.stage = .ready := by
  simp [firmwareUp]

/-- READY is not MONITOR_RUN, so CMD_DOORBELL is the command ring's. -/
theorem writeCmdDoorbell_of_ready {s : State} (up : s.boot.stage = .ready) (v : Word) :
    writeCmdDoorbell v s = if (v.setWidth 16 - s.mb.cmdHead).toNat ≤ 256
      then { s with mb := { s.mb with cmdDoorbell := v.setWidth 16 } } else s := by
  simp [writeCmdDoorbell, firmwareUp_iff.2 up, up]

theorem writeCplHead_of_ready {s : State} (up : s.boot.stage = .ready) (v : Word) :
    writeCplHead v s = if (v.setWidth 16 - s.mb.cplHead).toNat ≤ (s.mb.cplTail - s.mb.cplHead).toNat
      then { s with mb := { s.mb with cplHead := v.setWidth 16 } } else s := by
  simp [writeCplHead, firmwareUp_iff.2 up]

theorem writeRptHead_of_ready {s : State} (up : s.boot.stage = .ready) (v : Word) :
    writeRptHead v s = if (v - s.mb.rptHead).toNat ≤ (s.mb.rptTail - s.mb.rptHead).toNat
      then { s with mb := { s.mb with rptHead := v } } else s := by
  simp [writeRptHead, firmwareUp_iff.2 up]

theorem writeEvtClear_of_ready {s : State} (up : s.boot.stage = .ready) (v : Word) :
    writeEvtClear v s = if v = s.mb.evtSeq then { s with mb := { s.mb with evtCause := 0 } } else s := by
  simp [writeEvtClear, firmwareUp_iff.2 up]

/-- EVT_ENABLE after a write of v: the bits of v under its mask, and the old ones elsewhere (R434). -/
def maskedEnable (old : BitVec 4) (v : Word) : BitVec 4 :=
  (old &&& ~~~((v >>> 16).setWidth 4)) ||| (v.setWidth 4 &&& (v >>> 16).setWidth 4)

theorem getLsbD_maskedEnable (old : BitVec 4) (v : Word) {i : Nat} (h : i < 4) :
    (maskedEnable old v).getLsbD i = if v.getLsbD (i + 16) then v.getLsbD i else old.getLsbD i := by
  cases m : v.getLsbD (i + 16) <;> simp [maskedEnable, h, Nat.add_comm 16, m]

theorem writeEvtEnable_of_ready {s : State} (up : s.boot.stage = .ready) (v : Word) :
    writeEvtEnable v s = { s with mb := { s.mb with evtEnable := maskedEnable s.mb.evtEnable v } } :=
  if_pos (firmwareUp_iff.2 up)

theorem writeEvtHead_of_ready {s : State} (up : s.boot.stage = .ready) (v : Word) :
    writeEvtHead v s = if (v - s.mb.evtHead).toNat ≤ (s.mb.evtTail - s.mb.evtHead).toNat
      then pushEvents s.mb.queue { s with mb := { s.mb with evtHead := v } } else s := by
  simp [writeEvtHead, firmwareUp_iff.2 up]

@[simp] theorem mapRun_mb (f : Run → Run) (s : State) : (mapRun f s).mb = s.mb :=
  ((mapRun_keeps f s (k := [.ctl]) rfl).2 (.refl _ s)).mb_eq rfl

@[simp] theorem soundGongOn_mb (ports : List Nat) (step attempt cause : Nat) (s : State) :
    (soundGongOn ports step attempt cause s).mb = s.mb :=
  ((soundGongOn_keeps ports step attempt cause s (k := [.rem, .launch]) rfl).2 (.refl _ s)).mb_eq rfl

@[simp] theorem pldmEvent_mb (id : Nat) (data : List Byte) (s : State) : (pldmEvent id data s).mb = s.mb :=
  ((pldmEvent_keeps id data s (k := [.mgmt]) rfl).2 (.refl _ s)).mb_eq rfl

@[simp] theorem setCause_evtHead (i : Nat) (s : State) : (setCause i s).mb.evtHead = s.mb.evtHead := rfl

@[simp] theorem postCpl_evtHead (op tag index status : Nat) (result : List Byte) (s : State) :
    (postCpl op tag index status result s).mb.evtHead = s.mb.evtHead := rfl

@[simp] theorem abortCommands_evtHead (l : List OpenCmd) (s : State) :
    (abortCommands l s).mb.evtHead = s.mb.evtHead := by
  induction l generalizing s with
  | nil => rfl
  | cons c r ih =>
    rw [abortCommands, ih]
    split <;> simp

@[simp] theorem deviceFaultCore_evtHead (cause : Nat) (s : State) :
    (deviceFaultCore cause s).mb.evtHead = s.mb.evtHead := by
  unfold deviceFaultCore
  simp only [pldmEvent_mb, abortCommands_evtHead, setCause_evtHead, mapRun_mb]
  split <;> simp

/-- EVT_HEAD is the host's: the device moves events into the ring, and even faults on it, without a change of EVT_HEAD. -/
@[simp] theorem pushEvents_evtHead (l : List Event) (s : State) : (pushEvents l s).mb.evtHead = s.mb.evtHead := by
  induction l generalizing s with
  | nil => rfl
  | cons e r ih =>
    unfold pushEvents
    split
    case h_1 => rfl
    case h_2 base n ring =>
      split
      case isTrue room =>
        dsimp only
        split
        case isTrue backed => rw [ih, setCause_evtHead]
        case isFalse unbacked => split <;> simp
      case isFalse full => rfl

end Sys2Proof.Machine

namespace Sys2Proof.Claims

open Sys2Proof.Machine

/-- Settles O7: with the firmware up and the host link in service each register's write is its rule, and EVT_HEAD keeps the
written value whatever the events that it lets in do. -/
theorem mailboxRegisterWrites : Obligations.MailboxRegisterWrites := by
  unfold Obligations.MailboxRegisterWrites
  intro s v up link
  rw [exec_cmdDoorbell, exec_cplHead, exec_rptHead, exec_evtClear, exec_evtEnable, exec_evtHead]
  simp only [link, if_true, writeCmdDoorbell_of_ready up, writeCplHead_of_ready up, writeRptHead_of_ready up,
    writeEvtClear_of_ready up, writeEvtEnable_of_ready up, writeEvtHead_of_ready up, true_and]
  refine ⟨⟨_, rfl, fun i => getLsbD_maskedEnable _ v⟩, fun accepted => ?_, fun refused => ?_⟩
  · rw [if_pos accepted]
    refine ⟨_, rfl, pushEvents_evtHead _ _, fun empty => ?_⟩
    rw [empty, pushEvents, ← empty]
  · rw [if_neg (Nat.not_le.2 refused)]

end Sys2Proof.Claims
end

section
/-! SUPPORT. The boot window (R438, R443) and the load record (R449): when the ROM takes a write, what BOOT_SRAM reads as, and
how the doorbell of a record ends. -/

namespace Sys2Proof.Machine

theorem exec_bootSramWrite (o : Nat) (v : Word) (s : State) :
    exec (.bootSramWrite o v) s = .next (writeBootSram o v s) := rfl

theorem exec_bootDoorbell (v : Word) (s : State) : exec (.bootDoorbell v) s = .next (writeBootDoorbell v s) := rfl

theorem exec_loadRecord (v : Word) (s : State) :
    exec (.loadRecord v) s = .next (if hostLink s then loadRecordEffect v s else s) := rfl

theorem bootOpen_iff {s : State} : bootOpen s = true ↔
    hostLink s = true ∧ s.boot.romUp = true ∧ s.boot.stage = .romWait ∧ s.boot.locks.getLsbD 4 = false := by
  simp [bootOpen]

theorem bootOpen_eq_false_of_shut {s : State}
    (h : s.boot.stage ≠ .romWait ∨ s.boot.locks.getLsbD 4 = true ∨ hostLink s = false) : bootOpen s = false := by
  rw [← Bool.not_eq_true, bootOpen_iff]
  rintro ⟨link, -, stage, unlocked⟩
  rw [link, unlocked] at h
  simp [stage] at h

/-- A word that the open window takes. -/
theorem writeBootSram_of_open {s : State} {o : Nat} (h : bootOpen s = true) (aligned : o % 4 = 0) (inside : o < 262144)
    (v : Word) : writeBootSram o v s =
      { s with boot := { s.boot with sram := memWrite s.boot.sram o (natLe 4 v.toNat) } } :=
  if_pos ⟨h, aligned, by omega⟩

theorem writeBootSram_of_shut {s : State} (h : bootOpen s = false) (o : Nat) (v : Word) : writeBootSram o v s = s := by
  simp [writeBootSram, h]

theorem writeBootDoorbell_of_open {s : State} {v : Word} (h : bootOpen s = true) (nonempty : 1 ≤ v.toNat % 2 ^ 19)
    (fits : v.toNat % 2 ^ 19 ≤ 262144) : writeBootDoorbell v s =
      { s with boot := { s.boot with stage := .romVerify, sramLen := v.toNat % 2 ^ 19 } } :=
  if_pos ⟨h, nonempty, fits⟩

theorem writeBootDoorbell_of_shut {s : State} (h : bootOpen s = false) (v : Word) : writeBootDoorbell v s = s := by
  simp [writeBootDoorbell, h]

/-- A LENGTH of 0, or beyond the window, starts nothing. -/
theorem writeBootDoorbell_of_length {v : Word} (h : v.toNat % 2 ^ 19 = 0 ∨ 262144 < v.toNat % 2 ^ 19) (s : State) :
    writeBootDoorbell v s = s :=
  if_neg fun ⟨_, nonempty, fits⟩ => by omega

/-- BOOT_SRAM lies above every block that comes up with READY (R429). -/
theorem ecsReadUp_bootSram {o : Nat} (h : 0x180000 ≤ o) (s : State) : ecsReadUp s o = 0 := by
  simp (disch := omega) only [ecsReadUp, if_neg]

theorem ecsReadAlways_bootSram {o : Nat} (h : 0x180000 ≤ o) (g : o < 0x1C0000) (s : State) :
    ecsReadAlways s o = if s.boot.stage = .romWait then memLe s.boot.sram (o - 0x180000) 4 else 0 := by
  simp (disch := omega) only [ecsReadAlways, if_neg, h, g, and_self, if_true]

/-- What the host reads of BOOT_SRAM: its word in ROM_WAIT, and 0 at all other times (R438). -/
theorem ecsRead_bootSram (s : State) {o : Nat} (inside : o < 262144) : ecsRead s (0x180000 + o) =
    if o % 4 = 0 ∧ s.pins.pwrgd = true ∧ s.boot.stage = .romWait then BitVec.ofNat 32 (memLe s.boot.sram o 4) else 0 := by
  have aligned : (0x180000 + o) % 4 = 0 ↔ o % 4 = 0 := by omega
  unfold ecsRead
  rw [ecsReadUp_bootSram (by omega), ecsReadAlways_bootSram (by omega) (by omega), ite_self, Nat.add_zero,
    Nat.add_sub_cancel_left]
  by_cases stage : s.boot.stage = .romWait <;> simp [stage, aligned]

/-- A word stored in a memory is the word read. -/
theorem ofNat_memLe_of_memRead {m : Mem} {o : Nat} {v : Word} (h : memRead m o 4 = natLe 4 v.toNat) :
    BitVec.ofNat 32 (memLe m o 4) = v := by
  rw [memLe, h, leNat_natLe, Nat.mod_eq_of_lt (b := 256 ^ 4) v.isLt, BitVec.ofNat_toNat, BitVec.setWidth_eq]

/-- In MONITOR_RUN both doorbells are the load record's. -/
theorem writeCmdDoorbell_of_monitorRun {s : State} (h : s.boot.stage = .monitorRun) (v : Word) :
    writeCmdDoorbell v s = loadRecordEffect v s :=
  if_pos h

theorem loadRecordEffect_of_good {s : State} (stage : s.boot.stage = .monitorRun)
    (good : loadRecordBad (memRead s.mb.ram 0 64) = false) : loadRecordEffect 1 s =
      { s with boot := { s.boot with stage := .firmwareVerify, loadSrc := fieldOf (memRead s.mb.ram 0 64) 8 8,
                                      loadLen := fieldOf (memRead s.mb.ram 0 64) 4 4 } } := by
  simp [loadRecordEffect, stage, good]

theorem loadRecordEffect_of_bad {s : State} (stage : s.boot.stage = .monitorRun)
    (bad : loadRecordBad (memRead s.mb.ram 0 64) = true) : loadRecordEffect 1 s = bootFail 0x0311 s := by
  simp [loadRecordEffect, stage, bad]

@[simp] theorem pldmEvent_boot (id : Nat) (data : List Byte) (s : State) : (pldmEvent id data s).boot = s.boot :=
  ((pldmEvent_keeps id data s (k := [.mgmt]) rfl).2 (.refl _ s)).boot_eq rfl

@[simp] theorem bootFail_boot (code : Nat) (s : State) :
    (bootFail code s).boot = { s.boot with stage := .failed, error := BitVec.ofNat 16 code } :=
  pldmEvent_boot _ _ _

end Sys2Proof.Machine

namespace Sys2Proof.Claims

open Sys2Proof.Machine

/-- A word written through the open window stands in BOOT_SRAM, is what the host reads there, and moves no other byte. -/
theorem bootSramWrite_of_open {s : State} {o : Nat} (v : Word) (power : s.pins.pwrgd = true) (window : bootOpen s = true)
    (canon : Canon s) (aligned : o % 4 = 0) (inside : o < 262144) :
    ∃ t, exec (.bootSramWrite o v) s = .next t ∧ Keeps [.boot] s t ∧ memRead t.boot.sram o 4 = natLe 4 v.toNat ∧
      ecsRead t (0x180000 + o) = v ∧ ∀ a, (a < o ∨ o + 4 ≤ a) → memGet t.boot.sram a = memGet s.boot.sram a := by
  obtain ⟨_, _, stage, _⟩ := bootOpen_iff.1 window
  obtain ⟨_, _, _, sram⟩ := canon
  have stored : memRead (memWrite s.boot.sram o (natLe 4 v.toNat)) o 4 = natLe 4 v.toNat := by
    simpa only [length_natLe] using memRead_memWrite sram o (natLe 4 v.toNat)
  rw [exec_bootSramWrite, writeBootSram_of_open window aligned inside]
  refine ⟨_, rfl, by simp +decide, stored, ?_, fun a outside => ?_⟩
  · rw [ecsRead_bootSram _ inside, if_pos ⟨aligned, power, stage⟩]
    exact ofNat_memLe_of_memRead stored
  · rw [memGet_memWrite sram, if_neg (by rw [length_natLe]; omega)]

/-- In MONITOR_RUN the record's doorbell starts FIRMWARE_VERIFY or fails boot, and CMD_DOORBELL is the same bell (R449). -/
theorem loadRecord_of_monitorRun {s : State} (stage : s.boot.stage = .monitorRun) (link : hostLink s = true) :
    (loadRecordBad (memRead s.mb.ram 0 64) = false → ∃ t, exec (.loadRecord 1) s = .next t ∧ Keeps [.boot] s t ∧
      t.boot.stage = .firmwareVerify ∧ t.boot.loadLen = fieldOf (memRead s.mb.ram 0 64) 4 4 ∧
      t.boot.loadSrc = fieldOf (memRead s.mb.ram 0 64) 8 8) ∧
    (loadRecordBad (memRead s.mb.ram 0 64) = true → ∃ t, exec (.loadRecord 1) s = .next t ∧
      t.boot.stage = .failed ∧ t.boot.error = 0x0311) ∧
    exec (.cmdDoorbell 1) s = exec (.loadRecord 1) s := by
  rw [exec_cmdDoorbell, writeCmdDoorbell_of_monitorRun stage, exec_loadRecord, if_pos link]
  refine ⟨fun good => ?_, fun bad => ?_, rfl⟩
  · rw [loadRecordEffect_of_good stage good]
    exact ⟨_, rfl, by simp +decide, rfl, rfl, rfl⟩
  · rw [loadRecordEffect_of_bad stage bad]
    exact ⟨_, rfl, by simp, by simp⟩

/-- Settles O8: the window is open or shut to both of its registers at once, a read shows it in ROM_WAIT alone, and the
record's doorbell ends by whether the record keeps R449. -/
theorem bootWindowAndLoadRecord : Obligations.BootWindowAndLoadRecord := by
  unfold Obligations.BootWindowAndLoadRecord
  intro s v o power
  refine ⟨fun rom link stage unlocked canon aligned inside => ?written, fun rom link stage unlocked nonempty fits => ?rung,
    fun shut => ?ignored, fun length => ?ignoredLength, fun stage inside => ?readsZero, loadRecord_of_monitorRun⟩
  case written => exact bootSramWrite_of_open v power (bootOpen_iff.2 ⟨link, rom, stage, unlocked⟩) canon aligned inside
  case rung =>
    rw [exec_bootDoorbell, writeBootDoorbell_of_open (bootOpen_iff.2 ⟨link, rom, stage, unlocked⟩) nonempty fits]
  case ignored =>
    have closed := bootOpen_eq_false_of_shut shut
    rw [exec_bootSramWrite, exec_bootDoorbell, writeBootSram_of_shut closed, writeBootDoorbell_of_shut closed]
    exact ⟨rfl, rfl⟩
  case ignoredLength => rw [exec_bootDoorbell, writeBootDoorbell_of_length length]
  case readsZero => rw [ecsRead_bootSram s inside, if_neg fun ⟨_, _, romWait⟩ => stage romWait]

end Sys2Proof.Claims
end

section
/-! SUPPORT. What a vector operation can change (R137 to R163): memory, the bad words that it heals, the counts, and, where it
ends the step, what a step fault does; and it keeps the memories canonical. -/

namespace Sys2Proof.Machine

/-- What results written so far have done to a state: only memory and its bad words differ, and memory is canonical still. -/
def Acc.From (s : State) (a : Acc) : Prop := Keeps [.mem, .errs] s a.1 ∧ (Canon s → Canon a.1)

/-- What a whole operation has done to the state at its issue. -/
def VxEnds (s : State) (r : TaskEnd × State) : Prop :=
  Keeps [.mem, .ctl, .rem, .launch, .errs, .dbg] s r.2 ∧ (Canon s → Canon r.2)

namespace Acc.From

variable {s : State} {a : Acc}

theorem init (s : State) (l : List Nat) : Acc.From s (s, l) := ⟨.refl _ s, id⟩

theorem recount (h : Acc.From s a) (l : List Nat) : Acc.From s (a.1, l) := h

theorem foldl {α : Type} {f : Acc → α → Acc} (h : ∀ a b, Acc.From s a → Acc.From s (f a b)) (l : List α)
    (g : Acc.From s a) : Acc.From s (l.foldl f a) := by
  induction l generalizing a with
  | nil => exact g
  | cons b r ih => exact ih (h a b g)

theorem bytes (h : Acc.From s a) (at_ : Nat) (b : List Byte) (l : List Nat) :
    Acc.From s (Machine.putBytes at_ b a.1, l) :=
  ⟨by simpa +decide using h.1, fun c => putBytes_canon _ _ (h.2 c)⟩

theorem putResult (h : Acc.From s a) (x : VxRun) (r e : Nat) (v : FVal) : Acc.From s (putResult x r e v a) :=
  ⟨by simpa +decide [Machine.putResult] using h.1, fun c => writeCode_canon _ _ _ _ _ (h.2 c)⟩

theorem putZero (h : Acc.From s a) (x : VxRun) (r e : Nat) : Acc.From s (putZero x r e a) :=
  ⟨by simpa +decide [Machine.putZero] using h.1, fun c => writeCode_canon _ _ _ _ _ (h.2 c)⟩

/-- Under the write mask: a result, +0, or nothing. -/
theorem masked (h : Acc.From s a) (x : VxRun) {c : Prop} [Decidable c] {b : Acc} (g : Acc.From s b) (r e : Nat) :
    Acc.From s (if c then b else if x.v.maskZero then Machine.putZero x r e a else a) := by
  split
  · exact g
  · split
    · exact h.putZero x r e
    · exact h

theorem putMasked (h : Acc.From s a) (x : VxRun) (r e : Nat) (v : FVal) : Acc.From s (putMasked x r e v a) :=
  h.masked x (h.putResult x r e v) r e

theorem putIndexed (h : Acc.From s a) (x : VxRun) (r i e : Nat) (v : FVal) : Acc.From s (putIndexed x r i e v a) :=
  h.masked x (h.putResult x i e v) i e

theorem putRow (h : Acc.From s a) (x : VxRun) (r : Nat) (f : Nat → FVal) : Acc.From s (putRow x r f a) :=
  foldl (fun _ e g => g.putMasked x r e (f e)) _ h

theorem elements (h : Acc.From s a) {f : Nat → Nat → Acc → Acc} (g : ∀ r e a, Acc.From s a → Acc.From s (f r e a))
    (rows n : Nat) : Acc.From s (eachElement rows n f a) :=
  foldl (fun _ r k => foldl (fun _ e m => g r e _ m) _ k) _ h

theorem putList (h : Acc.From s a) (x : VxRun) (r : Nat) (l : List FVal) (e : Nat) : Acc.From s (putList x r e l a) := by
  induction l generalizing a e with
  | nil => exact h
  | cons v l ih => exact ih (h.putResult x r e v) (e + 1)

theorem scanStep (x : VxRun) (ints : Bool) (r e : Nat) (p : Option FVal) (h : Acc.From s a) :
    Acc.From s (scanStep x ints r e (p, a)).2 := by
  unfold Machine.scanStep
  split
  · exact h.putResult x r e _
  · dsimp only
    split
    · exact h.putZero x r e
    · exact h

theorem scanRow (x : VxRun) (ints : Bool) (r : Nat) (l : List Nat) (p : Option FVal) (h : Acc.From s a) :
    Acc.From s (l.foldl (fun b e => Machine.scanStep x ints r e b) (p, a)).2 := by
  induction l generalizing p a with
  | nil => exact h
  | cons e l ih => exact ih _ (h.scanStep x ints r e p)

theorem expanded (x : VxRun) (count r : Nat) (l : List Nat) (j : Nat) (h : Acc.From s a) :
    Acc.From s (expandRow x count r l j a) := by
  induction l generalizing j a with
  | nil => exact h
  | cons e l ih => exact ih _ (h.masked x (h.masked x (h.putResult x r e _) r e) r e)

/-- A block of codes and its scale. -/
theorem putBlock (h : Acc.From s a) (x : VxRun) (r e k scale : Nat) (codes l : List Nat) :
    Acc.From s (putScale x r k scale (putCodes x r e codes a.1), l) :=
  ⟨by simpa +decide using h.1, fun c => putScale_canon _ _ _ _ (putCodes_canon _ _ _ _ (h.2 c))⟩

theorem compressRow (h : Acc.From s a) (x : VxRun) (f : SFmt) (r gs : Nat) : Acc.From s (compressRow x f r gs a) := by
  unfold Machine.compressRow
  dsimp only
  split
  · split
    · exact foldl (fun _ b g => g.putBlock x r (16 * b) (32 * b) _ _ _) _ h
    · exact h.putList x r _ 0
  · exact h.putList x r _ 0

theorem putMaskRow (h : Acc.From s a) (x : VxRun) (r gs : Nat) (l : List Nat) :
    Acc.From s (putMaskRow x r gs a.1, l) :=
  ⟨by simpa +decide using h.1, fun c => putMaskRow_canon _ _ _ (h.2 c)⟩

theorem ends {x : VxRun} (h : Acc.From x.s a) (w : List (Nat × Nat)) : VxEnds x.s (vxDone x w a) :=
  ⟨by simpa +decide [Machine.vxDone] using h.1.mono (by decide), fun c => perfAdd_canon _ _ _ (healWhere_canon _
    (addStepCodes_canon _ (h.2 c)))⟩

/-- A step fault ends the operation. -/
theorem fault (h : Acc.From s a) (cause : Nat) (l : List Nat) :
    VxEnds s (.waits, stepFault cause (addStepCodes l a.1)) :=
  ⟨by simpa +decide using h.1.mono (by decide), fun c => by simp [h.2 c]⟩

theorem indexEnds {x : VxRun} (h : Acc.From x.s a) (w : List (Nat × Nat)) : VxEnds x.s (indexEnd x w a) := by
  unfold Machine.indexEnd
  split
  · exact h.fault _ _
  · exact h.ends w

end Acc.From


theorem elementwise_ends (b ok : Bool) (f : Bool → VxRun → Nat → Nat → FVal) (x : VxRun) :
    VxEnds x.s (elementwise b ok f x) :=
  ((Acc.From.init x.s []).elements (fun r e _ h => h.masked x (h.putResult x r e _) r e) _ _).ends _

theorem vxAdd_ends (x : VxRun) : VxEnds x.s (vxAdd x) := elementwise_ends _ _ _ x

theorem vxSub_ends (x : VxRun) : VxEnds x.s (vxSub x) := elementwise_ends _ _ _ x

theorem vxMul_ends (x : VxRun) : VxEnds x.s (vxMul x) := elementwise_ends _ _ _ x

theorem vxFma_ends (x : VxRun) : VxEnds x.s (vxFma x) := elementwise_ends _ _ _ x

theorem vxDiv_ends (x : VxRun) : VxEnds x.s (vxDiv x) := elementwise_ends _ _ _ x

theorem vxMax_ends (x : VxRun) : VxEnds x.s (vxMax x) := elementwise_ends _ _ _ x

theorem vxMin_ends (x : VxRun) : VxEnds x.s (vxMin x) := elementwise_ends _ _ _ x

theorem vxUnary_ends (x : VxRun) : VxEnds x.s (vxUnary x) := elementwise_ends _ _ _ x

theorem vxCmp_ends (x : VxRun) : VxEnds x.s (vxCmp x) := elementwise_ends _ _ _ x

theorem vxTable_ends (x : VxRun) : VxEnds x.s (vxTable x) := elementwise_ends _ _ _ x

theorem vxSelect_ends (x : VxRun) : VxEnds x.s (vxSelect x) :=
  ((Acc.From.init x.s []).elements (fun r e _ h => h.putResult x r e _) _ _).ends _

theorem vxReduce_ends (x : VxRun) : VxEnds x.s (vxReduce x) :=
  (Acc.From.foldl (fun _ r h => h.putResult x r 0 _) _ (.init x.s [])).ends _

theorem vxScan_ends (x : VxRun) : VxEnds x.s (vxScan x) :=
  (Acc.From.foldl (fun _ r h => .scanRow x _ r _ none h) _ (.init x.s [])).ends _

theorem vxRmsnorm_ends (x : VxRun) : VxEnds x.s (vxRmsnorm x) :=
  (Acc.From.foldl (fun _ r h => h.putRow x r _) _ (.init x.s [])).ends _

theorem vxLayernorm_ends (x : VxRun) : VxEnds x.s (vxLayernorm x) :=
  (Acc.From.foldl (fun _ r h => h.putRow x r _) _ (.init x.s [])).ends _

theorem vxSoftmax_ends (x : VxRun) : VxEnds x.s (vxSoftmax x) := by
  refine Acc.From.ends (.foldl (fun a r h => ?_) _ (.init x.s [])) _
  dsimp only
  split
  · exact .foldl (fun _ e g => (g.putMasked x r e _).recount _) _ h
  · split
    · exact h.putRow x r _
    · exact h.putRow x r _

theorem convertBlocks_from (x : VxRun) (f : EFmt) : Acc.From x.s (convertBlocks x f) :=
  .foldl (fun _ r h => .foldl (fun _ b g => g.putBlock x r (32 * b) (32 * b) _ _ _) _ h) _ (.init x.s [])

theorem vxConvert_ends (x : VxRun) : VxEnds x.s (vxConvert x) := by
  unfold vxConvert
  split
  · refine Acc.From.ends ?_ _
    split
    · exact convertBlocks_from x _
    · exact .init x.s []
  · exact Acc.From.ends (.elements (.init x.s []) (fun r e _ h => h.masked x ((h.putResult x r e _).recount _) r e) _ _) _

theorem vxCompress_ends (x : VxRun) : VxEnds x.s (vxCompress x) := by
  refine Acc.From.ends (.bytes (.foldl (fun a r h => ?_) _ (.init x.s [])) _ _ _) _
  dsimp only
  split
  · exact .foldl (fun _ e g => g.putZero x r e) _ (h.putList x r _ 0)
  · exact h.putList x r _ 0

theorem vxExpand_ends (x : VxRun) : VxEnds x.s (vxExpand x) := by
  unfold vxExpand
  split
  · exact Acc.From.ends (.foldl (fun _ r h => .expanded x _ r _ 0 h) _ (.init x.s [])) _
  · exact ⟨by simp +decide, fun c => by simp [c]⟩

theorem vxCompress24_ends (x : VxRun) : VxEnds x.s (vxCompress24 x) := by
  have row (r gs : Nat) {a : Acc} (h : Acc.From x.s a) : Acc.From x.s
      (if policySupplied x.v.func then Machine.compressRow x x.v.dst.fmt r gs a
        else (Machine.putMaskRow x r gs (Machine.compressRow x x.v.dst.fmt r gs a).1,
          (Machine.compressRow x x.v.dst.fmt r gs a).2)) := by
    split
    · exact h.compressRow x _ r gs
    · exact (h.compressRow x _ r gs).putMaskRow x r gs _
  unfold vxCompress24
  dsimp only
  split
  · exact Acc.From.fault (row _ _ (.foldl (fun _ r h => row r _ h) _ (.init x.s []))) _ _
  · exact Acc.From.ends (.recount (.foldl (fun _ r h => row r _ h) _ (.init x.s [])) _) _

theorem vxGather_ends (x : VxRun) : VxEnds x.s (vxGather x) := by
  refine Acc.From.indexEnds (.foldl (fun a r h => ?_) _ (.init x.s [])) _
  split
  · exact h.putRow x r _
  · exact (h.putRow x r _).recount _

theorem vxScatter_ends (x : VxRun) : VxEnds x.s (vxScatter x) := by
  refine Acc.From.indexEnds (.foldl (fun a r h => ?_) _ (.init x.s [])) _
  split
  · exact .foldl (fun _ e g => g.putIndexed x r _ e _) _ h
  · exact h

theorem vxScatterAdd_ends (x : VxRun) : VxEnds x.s (vxScatterAdd x) := by
  refine Acc.From.indexEnds (.foldl (fun a r h => ?_) _ (.init x.s [])) _
  split
  · exact .foldl (fun _ e g => g.putIndexed x r _ e _) _ h
  · exact h

end Sys2Proof.Machine
end

section
/-! SUPPORT. The frame of every command and the canonical form across every step: what the laws of single operations leave to say
of a command's arm. -/

namespace Sys2Proof.Machine

theorem afterReady_keeps {k : List Part} {body : MgmtBody} (h : ∀ q u, Keeps k u (body q u).2.2) (q : MgmtReq) (s : State) :
    Keeps k s (afterReady body q s).2.2 := by
  unfold afterReady
  split
  · exact h q s
  · simp [within]

theorem runAfterReady_keeps {meant : Nat → Bool} {n : Nat} {body : MgmtBody} (h : ∀ q u, Keeps [.mgmt] u (body q u).2.2)
    (q : MgmtReq) (s : State) : Keeps [.mgmt] s (runMgmt meant n (afterReady body) q s) :=
  (runMgmt_keeps _ _ _ _ _ rfl (afterReady_keeps h q)).2 (.refl _ s)

/-- A vector command changes memory, and what every issue can change. -/
theorem issueVx_ends {f : VxRun → TaskEnd × State} (h : ∀ x, VxEnds x.s (f x)) (op cell : Nat) (hl : Health) (s : State) :
    Keeps [.mb, .mem, .cells, .ctr, .ctl, .rem, .time, .launch, .mgmt, .errs, .dbg] s (issueVx op f cell hl s) :=
  (issueVx_keeps _ _ _ _ _ rfl fun x => (h x).1.mono rfl).2 (.refl _ s)

theorem issueVx_ends_canon {f : VxRun → TaskEnd × State} (h : ∀ x, VxEnds x.s (f x)) (op cell : Nat) (hl : Health) {s : State}
    (c : Canon s) : Canon (issueVx op f cell hl s) :=
  issueTask_canon _ _ _ _ _ _ c fun cl d _ g => (h (vxRunOf cl d _)).2 g

theorem bulkReceive_keeps {k : List Part} {place : Packet → State → State} (w : within [.rem, .fab, .errs] k = true)
    (h : ∀ q u, Keeps k u (place q u)) (op : Nat) (f : Option Nat) (p : Packet) (s : State) :
    Keeps k s (receive op false f p (bulkArrival place p) s) :=
  (receive_keeps _ _ _ _ _ _ w fun u => (bulkArrival_keeps _ _ u (within_of w (by decide)) h).2).2 (.refl _ s)

theorem answerReceive_keeps {g : Request → State → State} {ops : List Nat}
    (h : ∀ r u, Keeps [.mem, .ctr, .ctl, .rem, .fab, .launch, .errs, .dbg] u (g r u)) (op : Nat) (f : Option Nat) (p : Packet)
    (s : State) : Keeps [.mem, .ctr, .ctl, .rem, .fab, .launch, .errs, .dbg] s (receive op false f p (takeAnswer ops g p) s) :=
  (receive_keeps _ _ _ _ _ _ rfl fun u => (takeAnswer_keeps _ _ _ u rfl h).2).2 (.refl _ s)

/-- A time message of the other kind than the command's leaves the state as it was. -/
theorem timeReceive_keeps {f : State → State} (h : ∀ u, Keeps [.rem, .fab, .time, .errs] u (f u)) (i j port : Nat) (p : Packet)
    (s : State) : Keeps [.rem, .fab, .time, .errs] s (receive 0x12 true (some port) p (fun t =>
      if fieldOf p.payload 0 1 = i then f t else if fieldOf p.payload 0 1 = j then s else t) s) := by
  refine (receive_keeps _ _ _ _ _ _ rfl fun u a => ?_).2 (.refl _ s)
  split
  · exact a.trans (h u)
  · split
    · exact .refl _ s
    · exact a

theorem next_inj {a b : State} (h : (Host.Outcome.next a : Host.Outcome State Fault Refusal) = .next b) : a = b :=
  Host.Outcome.next.inj h

end Sys2Proof.Machine

namespace Sys2Proof.Claims

open Sys2Proof.Machine

/-- Settles O60: every arm is a next state made by operations whose frames the laws give; the vector commands and the receivers
of packets are told apart by what their bodies change. -/
theorem everyCommandKeepsWhatItDoesNotTouch : Obligations.EveryCommandKeepsWhatItDoesNotTouch := by
  unfold Obligations.EveryCommandKeepsWhatItDoesNotTouch
  intro c s t h
  cases c
  all_goals obtain rfl := next_inj h; clear h; dsimp only [touched]
  case add => exact issueVx_ends vxAdd_ends _ _ _ s
  case sub => exact issueVx_ends vxSub_ends _ _ _ s
  case mul => exact issueVx_ends vxMul_ends _ _ _ s
  case fma => exact issueVx_ends vxFma_ends _ _ _ s
  case div => exact issueVx_ends vxDiv_ends _ _ _ s
  case max => exact issueVx_ends vxMax_ends _ _ _ s
  case min => exact issueVx_ends vxMin_ends _ _ _ s
  case unary => exact issueVx_ends vxUnary_ends _ _ _ s
  case cmp => exact issueVx_ends vxCmp_ends _ _ _ s
  case table => exact issueVx_ends vxTable_ends _ _ _ s
  case select => exact issueVx_ends vxSelect_ends _ _ _ s
  case reduce => exact issueVx_ends vxReduce_ends _ _ _ s
  case scan => exact issueVx_ends vxScan_ends _ _ _ s
  case rmsnorm => exact issueVx_ends vxRmsnorm_ends _ _ _ s
  case layernorm => exact issueVx_ends vxLayernorm_ends _ _ _ s
  case softmax => exact issueVx_ends vxSoftmax_ends _ _ _ s
  case convert => exact issueVx_ends vxConvert_ends _ _ _ s
  case compress => exact issueVx_ends vxCompress_ends _ _ _ s
  case expand => exact issueVx_ends vxExpand_ends _ _ _ s
  case compress24 => exact issueVx_ends vxCompress24_ends _ _ _ s
  case gather => exact issueVx_ends vxGather_ends _ _ _ s
  case scatter => exact issueVx_ends vxScatter_ends _ _ _ s
  case scatterAdd => exact issueVx_ends vxScatterAdd_ends _ _ _ s
  case setShares | getSnapshot | mgmtAttest | attestRead => exact runAfterReady_keeps (fun q u => by simp +decide) _ s
  case exchange | collective => exact bulkReceive_keeps rfl (fun q u => by simp +decide) _ _ _ s
  case loadResp | atomicResp | getData => exact answerReceive_keeps (fun r u => by simp +decide) _ _ _ s
  case sync | follow => exact timeReceive_keeps (fun u => by simp +decide) _ _ _ _ s
  case portTrained port r => cases r <;> simp +decide
  all_goals simp +decide

/-- A command keeps the memories canonical: one that touches no memory by its frame, and any other by the laws of its
operations. -/
theorem exec_canon (c : Instr) {s t : State} (h : exec c s = .next t) (k : Canon s) : Canon t := by
  have frame := everyCommandKeepsWhatItDoesNotTouch c s t h
  cases c
  case hostModuleFail | adapterRetry | exchange | syncSend | sync | follow | probe | cumAck | forward | linkReplay | portRetry |
    halfRetrain | replayWindowExpiry | laneFail | portTrained | pealAck | pealDisarm | armAcknowledge | ackDeadline |
    readCountCheckpoint | governorStep | getState | tableRead | setPower | setThermal | setShares | getSnapshot | mgmtAttest |
    attestRead | mgmtReservedCommand | telUpdate | setPhysId | tableReady | portConfig | tableWrite | mctpControl | pldmRequest |
    vccqNandLoss | tmxSel | idcode | clamp | highz | ijtag | bypass | testLogicReset | extest | samplePreload | stepHung |
    descriptorFetch | routePart | e2eRetry =>
    exact Canon.of_keeps frame rfl k
  all_goals obtain rfl := next_inj h; clear h frame
  case add => exact issueVx_ends_canon vxAdd_ends _ _ _ k
  case sub => exact issueVx_ends_canon vxSub_ends _ _ _ k
  case mul => exact issueVx_ends_canon vxMul_ends _ _ _ k
  case fma => exact issueVx_ends_canon vxFma_ends _ _ _ k
  case div => exact issueVx_ends_canon vxDiv_ends _ _ _ k
  case max => exact issueVx_ends_canon vxMax_ends _ _ _ k
  case min => exact issueVx_ends_canon vxMin_ends _ _ _ k
  case unary => exact issueVx_ends_canon vxUnary_ends _ _ _ k
  case cmp => exact issueVx_ends_canon vxCmp_ends _ _ _ k
  case table => exact issueVx_ends_canon vxTable_ends _ _ _ k
  case select => exact issueVx_ends_canon vxSelect_ends _ _ _ k
  case reduce => exact issueVx_ends_canon vxReduce_ends _ _ _ k
  case scan => exact issueVx_ends_canon vxScan_ends _ _ _ k
  case rmsnorm => exact issueVx_ends_canon vxRmsnorm_ends _ _ _ k
  case layernorm => exact issueVx_ends_canon vxLayernorm_ends _ _ _ k
  case softmax => exact issueVx_ends_canon vxSoftmax_ends _ _ _ k
  case convert => exact issueVx_ends_canon vxConvert_ends _ _ _ k
  case compress => exact issueVx_ends_canon vxCompress_ends _ _ _ k
  case expand => exact issueVx_ends_canon vxExpand_ends _ _ _ k
  case compress24 => exact issueVx_ends_canon vxCompress24_ends _ _ _ k
  case gather => exact issueVx_ends_canon vxGather_ends _ _ _ k
  case scatter => exact issueVx_ends_canon vxScatter_ends _ _ _ k
  case scatterAdd => exact issueVx_ends_canon vxScatterAdd_ends _ _ _ k
  case identify | grant | abortStep | treeSet | peal | objDefine | promote | evict | pin | unpin | poolConfig | poolAlloc |
    poolShare | poolRelease | poolFree | winSet | winClear | flashFormat | extentCreate | extentWrite | extentSeal |
    extentDelete | debugTraceStart | debugTraceStop | debugTraceStatus | reservedOpcode =>
    exact runCmd_canon _ _ k fun c u g => by simp [g]
  case setConfig | jobOpen | jobClose | loadImage | bind => exact runSerial_canon _ _ k fun c u g => by simp [g]
  case getCaps | poolStatus | winRead | flashStatus | telSnapshot | attest | debugMemread =>
    exact runLong_canon _ _ k fun c u g => by simp [g]
  case mx | cp | route | accept | spill | sendBids | sendAccepts | sendRows | sendEager | sendAnswers | allReduce |
    reduceScatter | waitRel | mark | ensure | prefetch | fmLoad | fmStore | fmAtomic | fmPut | fmGet | fmFlagStore =>
    exact issueTask_canon _ _ _ _ _ _ k fun c d u g => by simp [g]
  case collective => exact receive_canon _ _ _ _ _ k fun u g => bulkArrival_canon _ _ g fun q v m => by simp [m]
  case loadResp | atomicResp | getData =>
    exact receive_canon _ _ _ _ _ k fun u g => takeAnswer_canon _ _ _ g fun r v m => by simp [m]
  case ack => exact receive_canon _ _ _ _ _ k fun u g => ackEffect_canon _ g
  case refuse => exact receive_canon _ _ _ _ _ k fun u g => refuseEffect_canon _ g
  case gong => exact receive_canon _ _ _ _ _ k fun u g => by simp [g]
  case pealArm => exact receivePeal_canon _ _ _ _ k fun u g => by simp [g]
  case reset => exact runMgmt_canon _ _ _ _ k fun u g => by simp [g]
  case abortJob => exact canon_ite (runCmd_canon _ _ k fun c u g => by simp [g]) k
  case romWait => exact canon_ite (canon_set_boot k k.sram) k
  case hbmRetrain => exact canon_ite (deviceFault_canon _ (loseStack_canon k)) k
  case hbmStackLost => exact canon_ite (faultWhile_canon _ _ (loseStack_canon k)) k
  all_goals simp [k]

/-- Settles O5: a command keeps the memories canonical whatever the queue's rest is, and so does a tick. -/
theorem everyStepKeepsMemoriesCanonical : Obligations.EveryStepKeepsMemoriesCanonical := by
  unfold Obligations.EveryStepKeepsMemoriesCanonical
  intro s t canon h
  unfold step at h
  split at h
  · obtain rfl := next_inj h
    exact idleTick_canon canon
  · exact exec_canon _ h (canon_set_pending canon)

/-- Settles O1: the step of a queue that is not empty, by definition. -/
theorem stepRunsTheFrontCommand : Obligations.StepRunsTheFrontCommand := by
  unfold Obligations.StepRunsTheFrontCommand
  intro s c r h
  unfold step
  rw [h]

/-- Settles O3: the registers of R430, R434, R441 and R482 are read off the reset state one by one. -/
theorem resetValuesOfTheRegisters : Obligations.ResetValuesOfTheRegisters := by
  unfold Obligations.ResetValuesOfTheRegisters
  decide +kernel

/-- Settles O4: at reset every memory is empty. -/
theorem resetMemoriesAreCanonical : Obligations.ResetMemoriesAreCanonical := by
  unfold Obligations.ResetMemoriesAreCanonical
  exact ⟨memWf_nil, memWf_nil, memWf_nil, memWf_nil⟩

end Sys2Proof.Claims
end

section
/-! SUPPORT. One part of the device at a time: an operation that changes other parts only leaves this one as it is. -/

namespace Sys2Proof.Machine

/-- Every part but one. -/
def allBut (p : Part) : List Part :=
  [.pending, .mb, .boot, .mem, .unbacked, .tiles, .cells, .ctr, .job, .ctl, .exch, .tier, .flash, .pools, .rem, .fab, .time,
    .launch, .mgmt, .errs, .dbg, .pins].filter (· ≠ p)

theorem mem_allBut {p q : Part} : q ∈ allBut p ↔ q ≠ p := by
  cases q <;> simp [allBut]

@[simp] theorem within_allBut {l : List Part} {p : Part} : within l (allBut p) = true ↔ p ∉ l := by
  simp only [within, List.all_eq_true, List.contains_iff_mem, mem_allBut]
  exact ⟨fun h m => h p m rfl, fun h q m e => h (e ▸ m)⟩

variable {s t : State}

theorem mb_of_allBut (h : Keeps (allBut .mb) s t) : t.mb = s.mb := h.mb_eq rfl
theorem boot_of_allBut (h : Keeps (allBut .boot) s t) : t.boot = s.boot := h.boot_eq rfl
theorem mem_of_allBut (h : Keeps (allBut .mem) s t) : t.mem = s.mem := h.mem_eq rfl
theorem tiles_of_allBut (h : Keeps (allBut .tiles) s t) : t.tiles = s.tiles := h.tiles_eq rfl
theorem cells_of_allBut (h : Keeps (allBut .cells) s t) : t.cells = s.cells := h.cells_eq rfl
theorem ctr_of_allBut (h : Keeps (allBut .ctr) s t) : t.ctr = s.ctr := h.ctr_eq rfl
theorem job_of_allBut (h : Keeps (allBut .job) s t) : t.job = s.job := h.job_eq rfl
theorem ctl_of_allBut (h : Keeps (allBut .ctl) s t) : t.ctl = s.ctl := h.ctl_eq rfl
theorem exch_of_allBut (h : Keeps (allBut .exch) s t) : t.exch = s.exch := h.exch_eq rfl
theorem tier_of_allBut (h : Keeps (allBut .tier) s t) : t.tier = s.tier := h.tier_eq rfl
theorem flash_of_allBut (h : Keeps (allBut .flash) s t) : t.flash = s.flash := h.flash_eq rfl
theorem pools_of_allBut (h : Keeps (allBut .pools) s t) : t.pools = s.pools := h.pools_eq rfl
theorem rem_of_allBut (h : Keeps (allBut .rem) s t) : t.rem = s.rem := h.rem_eq rfl
theorem fab_of_allBut (h : Keeps (allBut .fab) s t) : t.fab = s.fab := h.fab_eq rfl
theorem time_of_allBut (h : Keeps (allBut .time) s t) : t.time = s.time := h.time_eq rfl
theorem launch_of_allBut (h : Keeps (allBut .launch) s t) : t.launch = s.launch := h.launch_eq rfl
theorem mgmt_of_allBut (h : Keeps (allBut .mgmt) s t) : t.mgmt = s.mgmt := h.mgmt_eq rfl
theorem errs_of_allBut (h : Keeps (allBut .errs) s t) : t.errs = s.errs := h.errs_eq rfl
theorem dbg_of_allBut (h : Keeps (allBut .dbg) s t) : t.dbg = s.dbg := h.dbg_eq rfl
theorem pins_of_allBut (h : Keeps (allBut .pins) s t) : t.pins = s.pins := h.pins_eq rfl
theorem unbacked_of_allBut (h : Keeps (allBut .unbacked) s t) : t.unbacked = s.unbacked := h.unbacked_eq rfl
theorem pending_of_allBut (h : Keeps (allBut .pending) s t) : t.pending = s.pending := h.pending_eq rfl

end Sys2Proof.Machine
end

section
/-! SUPPORT. The fuses and STAGE READY (R443, R447, R448): what commands leave of them, and what a tick may end. -/

namespace Sys2Proof.Machine

/-- The fuses are as before, and STAGE is READY only where it was. -/
def BootKept (a b : Boot) : Prop :=
  b.revoked = a.revoked ∧ b.rollback = a.rollback ∧ b.raisesLeft = a.raisesLeft ∧ (b.stage = .ready → a.stage = .ready)

theorem BootKept.of_eq {a b : Boot} (h : b = a) : BootKept a b := h ▸ ⟨rfl, rfl, rfl, id⟩

theorem BootKept.trans {a b c : Boot} (h : BootKept a b) (g : BootKept b c) : BootKept a c := by
  obtain ⟨h1, h2, h3, h4⟩ := h
  obtain ⟨g1, g2, g3, g4⟩ := g
  exact ⟨g1.trans h1, g2.trans h2, g3.trans h3, h4 ∘ g4⟩

theorem BootKept.of_allBut {s t : State} (h : Keeps (allBut .boot) s t) : BootKept s.boot t.boot := .of_eq (boot_of_allBut h)

theorem bootKept_ite {a : Boot} {c : Prop} [Decidable c] {s t : State} (h : BootKept a s.boot) (g : BootKept a t.boot) :
    BootKept a (if c then s else t).boot := by
  split
  · exact h
  · exact g

theorem bootKept_bootFail (code : Nat) (s : State) : BootKept s.boot (bootFail code s).boot := by
  rw [bootFail_boot]
  exact ⟨rfl, rfl, rfl, nofun⟩

theorem bootKept_loadRecordEffect (v : Word) (s : State) : BootKept s.boot (loadRecordEffect v s).boot :=
  bootKept_ite (bootKept_ite (bootKept_bootFail _ s) ⟨rfl, rfl, rfl, nofun⟩) (.of_eq rfl)

theorem bootKept_writeCmdDoorbell (v : Word) (s : State) : BootKept s.boot (writeCmdDoorbell v s).boot :=
  bootKept_ite (bootKept_loadRecordEffect v s) (bootKept_ite (.of_eq rfl) (.of_eq rfl))

theorem bootKept_fullReset (cause : Nat) (s : State) : BootKept s.boot (fullReset cause s).boot := ⟨rfl, rfl, rfl, nofun⟩

theorem bootKept_requestReset (cause : Nat) (s : State) : BootKept s.boot (requestReset cause s).boot :=
  bootKept_ite (.of_eq rfl) (bootKept_fullReset cause s)

theorem bootKept_writeResetCtl (v : Word) (s : State) : BootKept s.boot (writeResetCtl v s).boot :=
  bootKept_ite (bootKept_requestReset 1 s) (.of_eq rfl)

theorem bootKept_writeBootSram (o : Nat) (v : Word) (s : State) : BootKept s.boot (writeBootSram o v s).boot :=
  bootKept_ite ⟨rfl, rfl, rfl, id⟩ (.of_eq rfl)

theorem bootKept_writeBootDoorbell (v : Word) (s : State) : BootKept s.boot (writeBootDoorbell v s).boot :=
  bootKept_ite ⟨rfl, rfl, rfl, nofun⟩ (.of_eq rfl)

theorem bootKept_writeTmxCtl (v : Word) (s : State) : BootKept s.boot (writeTmxCtl v s).boot :=
  bootKept_ite ⟨rfl, rfl, rfl, id⟩ (.of_eq rfl)

theorem bootKept_writeClPerfSel (cl : Nat) (v : Word) (s : State) : BootKept s.boot (writeClPerfSel cl v s).boot :=
  bootKept_ite ⟨rfl, rfl, rfl, id⟩ (.of_eq rfl)

theorem bootKept_writeClBusy (cl : Nat) (v : Word) (s : State) : BootKept s.boot (writeClBusy cl v s).boot :=
  bootKept_ite ⟨rfl, rfl, rfl, id⟩ (.of_eq rfl)

/-- A write by offset is that of the register at it. -/
theorem bootKept_ecsWriteWord (o : Nat) (v : Word) (s : State) : BootKept s.boot (ecsWriteWord o v s).boot := by
  have none : BootKept s.boot s.boot := .of_eq rfl
  refine bootKept_ite ?_ (bootKept_ite ?_ (bootKept_ite (bootKept_writeResetCtl v s) (bootKept_ite
    (bootKept_writeBootDoorbell v s) (bootKept_ite (bootKept_writeCmdDoorbell v s) (bootKept_ite ?_ (bootKept_ite ?_
    (bootKept_ite ?_ (bootKept_ite ?_ (bootKept_ite (bootKept_writeTmxCtl v s) (bootKept_ite (bootKept_ite
    (bootKept_writeClPerfSel _ v s) (bootKept_ite (bootKept_writeClBusy _ v s) none)) (bootKept_ite
    (bootKept_writeBootSram _ v s) none)))))))))))
  · exact bootKept_ite (.of_eq rfl) none
  · exact bootKept_ite (.of_eq rfl) none
  · exact bootKept_ite (.of_eq rfl) none
  · exact .of_allBut (by simp)
  · exact bootKept_ite (.of_eq rfl) none
  · exact bootKept_ite (.of_eq rfl) none

theorem bootKept_ecsWriteBytes (o : Nat) (b : List Byte) (s : State) : BootKept s.boot (ecsWriteBytes o b s).boot :=
  bootKept_ite (bootKept_ite (.of_eq rfl) (bootKept_ite (bootKept_ecsWriteWord _ _ s) (.of_eq rfl))) (.of_eq rfl)

theorem bootKept_memCplEffect (a : Nat) (u : MemUser) (r : MemAnswer) (s : State) :
    BootKept s.boot (memCplEffect a u r s).boot := by
  cases r with
  | data b => exact bootKept_ite (.of_eq rfl) (.of_eq rfl)
  | unbacked n =>
    cases u with
    | task => exact .of_allBut (by simp [memCplEffect, unbackedOutcome])
    | command => exact .of_eq rfl
    | ring => exact .of_allBut (by simp [memCplEffect, unbackedOutcome])
    | loadRecord => exact bootKept_ite (bootKept_bootFail _ _) (.of_eq rfl)

theorem bootKept_romVerifyEffect (s : State) : BootKept s.boot (romVerifyEffect s).boot := by
  refine bootKept_ite ?_ (.of_eq rfl)
  split
  · exact bootKept_bootFail _ s
  · exact ⟨rfl, rfl, rfl, nofun⟩

theorem bootKept_enterFirmwareInit (im : SignedImage) (s : State) : BootKept s.boot (enterFirmwareInit im s).boot := by
  have ports (u : State) : BootKept u.boot (settlePorts false u).boot := .of_allBut (by simp)
  unfold enterFirmwareInit
  refine .trans ?_ (ports _)
  exact ⟨rfl, rfl, rfl, nofun⟩

theorem bootKept_firmwareVerifyEffect (s : State) : BootKept s.boot (firmwareVerifyEffect s).boot := by
  refine bootKept_ite (bootKept_ite ?_ (bootKept_bootFail _ s)) (.of_eq rfl)
  dsimp only
  split
  · refine .trans ?_ (bootKept_bootFail _ _)
    exact ⟨rfl, rfl, rfl, id⟩
  · refine .trans ?_ (bootKept_enterFirmwareInit _ _)
    exact ⟨rfl, rfl, rfl, id⟩

theorem bootKept_changeDigest (s : State) : BootKept s.boot (changeDigest s).boot := by
  have withdrawn (u : State) : BootKept u.boot (withdrawSteps u).boot := .of_allBut (by simp)
  exact .trans (b := { s.boot with digest := digestNow s s.errs.unit }) ⟨rfl, rfl, rfl, id⟩
    (withdrawn { s with boot := { s.boot with digest := digestNow s s.errs.unit } })

theorem bootKept_retireCell (cell : Nat) (s : State) : BootKept s.boot (retireCell cell s).boot := by
  unfold retireCell
  dsimp only
  split
  · exact .of_allBut (by simp)
  · split
    · exact .of_eq rfl
    · refine bootKept_ite (.trans ?_ (bootKept_changeDigest _)) (.trans ?_ (bootKept_changeDigest _))
      · exact .of_eq rfl
      · exact .of_allBut (by simp)

theorem bootKept_testPhys (p : Nat) (failed : Bool) (s : State) : BootKept s.boot (testPhys p failed s).boot := by
  refine bootKept_ite ?_ (.of_eq rfl)
  split
  · exact bootKept_retireCell _ s
  · exact .of_eq rfl

theorem bootKept_tests (p q : Nat) (a b : Bool) (s : State) : BootKept s.boot (testPhys p a (testPhys q b s)).boot :=
  .trans (bootKept_testPhys q b s) (bootKept_testPhys p a _)

theorem bootKept_cellTestEffect (e : TestEnd) (s : State) : BootKept s.boot (cellTestEffect e s).boot := by
  have report (u : State) : BootKept u.boot (settleReport u).boot := .of_allBut (by simp)
  unfold cellTestEffect
  split
  · exact .of_eq rfl
  · dsimp only
    refine .trans ?_ (report _)
    split
    · refine .trans ?_ (bootKept_testPhys _ _ _)
      exact .of_eq rfl
    · refine bootKept_ite (.trans ?_ (bootKept_tests _ _ _ _ _)) (.trans ?_ (bootKept_tests _ _ _ _ _)) <;>
        exact .of_eq rfl

theorem bootKept_mgmtReset (q : MgmtReq) (s : State) : BootKept s.boot (mgmtReset q s).2.2.boot := by
  unfold mgmtReset
  split
  · exact bootKept_requestReset 2 s
  · exact .of_eq rfl

/-- READY begins the changes of the fuses and ends none. -/
theorem readyEffect_fuses (bad : List Nat) (s : State) : (readyEffect bad s).boot.revoked = s.boot.revoked ∧
    (readyEffect bad s).boot.rollback = s.boot.rollback ∧ (readyEffect bad s).boot.raisesLeft = s.boot.raisesLeft := by
  unfold readyEffect
  split
  · simp
  · exact ⟨rfl, rfl, rfl⟩

end Sys2Proof.Machine

namespace Sys2Proof.Claims

open Sys2Proof.Machine

/-- Of the commands that reach the boot registers, only READY makes STAGE READY, and none changes a fuse. -/
theorem bootKept_exec (c : Instr) {s t : State} (h : exec c s = .next t) (notReady : ∀ bad, c ≠ .ready bad) :
    BootKept s.boot t.boot := by
  by_cases untouched : (touched c).contains .boot = false
  · exact .of_eq ((everyCommandKeepsWhatItDoesNotTouch c s t h).boot_eq untouched)
  have none : BootKept s.boot s.boot := .of_eq rfl
  cases c <;> first | exact absurd rfl untouched | obtain rfl := next_inj h
  case ready => exact absurd rfl (notReady _)
  case cmdDoorbell => exact bootKept_ite (bootKept_writeCmdDoorbell _ s) none
  case loadRecord => exact bootKept_ite (bootKept_loadRecordEffect _ s) none
  case romVerify => exact bootKept_romVerifyEffect s
  case firmwareInitFail => exact bootKept_ite (bootKept_bootFail _ s) none
  case resetCtl => exact bootKept_ite (bootKept_writeResetCtl _ s) none
  case ecsWrite => exact bootKept_ite (bootKept_ecsWriteBytes _ _ s) none
  case pwrgdRise => exact bootKept_ite none ⟨rfl, rfl, rfl, nofun⟩
  case pwrgdFall => exact bootKept_ite ⟨rfl, rfl, rfl, nofun⟩ none
  case reset q =>
    refine bootKept_ite ?_ none
    have served : BootKept s.boot (serveMgmt (isCode 0x0C) 2 mgmtReset q s).boot :=
      bootKept_ite (bootKept_ite (.of_eq rfl) (bootKept_mgmtReset q s)) none
    unfold takeFrame
    split
    · exact served
    · exact bootKept_ite none (bootKept_ite served none)
  case bootSramWrite => exact bootKept_writeBootSram _ _ s
  case bootDoorbell => exact bootKept_writeBootDoorbell _ s
  case romWait => exact bootKept_ite ⟨rfl, rfl, rfl, id⟩ none
  case tmxCtl => exact bootKept_ite (bootKept_writeTmxCtl _ s) none
  case clPerfSel => exact bootKept_ite (bootKept_writeClPerfSel _ _ s) none
  case memCpl => exact bootKept_ite (bootKept_memCplEffect _ _ _ s) none
  case firmwareVerify => exact bootKept_firmwareVerifyEffect s
  case cellTest => exact bootKept_cellTestEffect _ s

theorem exec_fuses (c : Instr) {s t : State} (h : exec c s = .next t) :
    t.boot.revoked = s.boot.revoked ∧ t.boot.rollback = s.boot.rollback ∧ t.boot.raisesLeft = s.boot.raisesLeft := by
  by_cases ready : ∃ bad, c = .ready bad
  · obtain ⟨bad, rfl⟩ := ready
    obtain rfl := next_inj h
    exact readyEffect_fuses bad s
  · obtain ⟨revoked, rollback, raises, -⟩ := bootKept_exec c h fun bad e => ready ⟨bad, e⟩
    exact ⟨revoked, rollback, raises⟩

/-! ## A tick -/

/-- What a tick may do to the fuses: a revocation and a raise that are due end whole, or stay as they are. -/
def TickFuses (a b : Boot) : Prop :=
  (b.revoked = a.revoked ∧ b.revokeDue = a.revokeDue ∨
    a.revokeDue = true ∧ b.revokeDue = false ∧ b.revoked = (revokeSlots a).revoked) ∧
  (b.rollback = a.rollback ∧ b.raisesLeft = a.raisesLeft ∧ b.raiseDue = a.raiseDue ∨
    a.raiseDue = true ∧ b.raiseDue = false ∧ b.rollback = (raiseRollback a).rollback ∧
      b.raisesLeft = (raiseRollback a).raisesLeft)

theorem TickFuses.refl (a : Boot) : TickFuses a a := ⟨.inl ⟨rfl, rfl⟩, .inl ⟨rfl, rfl, rfl⟩⟩

/-- A revocation leaves the counter, the records, the raise and the monitor's identity as they are. -/
theorem revokeSlots_frame (b : Boot) : (revokeSlots b).rollback = b.rollback ∧ (revokeSlots b).raisesLeft = b.raisesLeft ∧
    (revokeSlots b).raiseDue = b.raiseDue ∧ (revokeSlots b).mon = b.mon := by
  unfold revokeSlots
  split <;> exact ⟨rfl, rfl, rfl, rfl⟩

theorem raiseRollback_frame (b : Boot) : (raiseRollback b).revoked = b.revoked ∧ (raiseRollback b).revokeDue = b.revokeDue := by
  unfold raiseRollback
  split
  · exact ⟨rfl, rfl⟩
  · split <;> exact ⟨rfl, rfl⟩

/-- What a raise makes of the counter and the records depends on these and the monitor alone. -/
theorem raiseRollback_congr {a b : Boot} (mon : b.mon = a.mon) (counter : b.rollback = a.rollback)
    (records : b.raisesLeft = a.raisesLeft) : (raiseRollback b).rollback = (raiseRollback a).rollback ∧
      (raiseRollback b).raisesLeft = (raiseRollback a).raisesLeft := by
  unfold raiseRollback
  rw [mon]
  split
  · exact ⟨counter, records⟩
  · rw [counter, records]
    split <;> simp [counter, records]

/-- The revocation first, and then the raise: each ends or waits. -/
theorem settleFuses_tickFuses (s : State) : TickFuses s.boot (settleFuses s).boot := by
  unfold settleFuses
  split
  · obtain ⟨counter, records, due, mon⟩ := revokeSlots_frame s.boot
    dsimp only
    split <;> split
    · next revoked raised =>
      obtain ⟨slots, revokeDue⟩ := raiseRollback_frame { revokeSlots s.boot with revokeDue := false }
      obtain ⟨n, k⟩ := raiseRollback_congr (a := s.boot) (b := { revokeSlots s.boot with revokeDue := false }) mon counter records
      rw [Bool.and_eq_true] at revoked raised
      exact ⟨.inr ⟨revoked.1, revokeDue, slots⟩, .inr ⟨due ▸ raised.1, rfl, n, k⟩⟩
    · next revoked _ =>
      rw [Bool.and_eq_true] at revoked
      exact ⟨.inr ⟨revoked.1, rfl, rfl⟩, .inl ⟨counter, records, due⟩⟩
    · next _ raised =>
      obtain ⟨slots, revokeDue⟩ := raiseRollback_frame s.boot
      rw [Bool.and_eq_true] at raised
      exact ⟨.inl ⟨slots, revokeDue⟩, .inr ⟨raised.1, rfl, rfl, rfl⟩⟩
    · exact .refl _
  · exact .refl _

/-- The control firmware's touches change no boot register but the note of the next one. -/
theorem tickFuses_firmwareTouches (s : State) {b : Boot} (h : TickFuses b s.boot) : TickFuses b (firmwareTouches s).boot := by
  have fault (t : State) : (deviceFault 1 t).boot = t.boot := boot_of_allBut (by simp)
  unfold firmwareTouches
  split
  · dsimp only
    split
    · exact h
    · rw [fault]
      exact h
  · exact h

/-- What a tick does after the fuses, up to the firmware's touches, and what it does before them, leaves the boot registers. -/
theorem idleTick_tickFuses (s : State) : TickFuses s.boot (idleTick s).boot := by
  have after (u : State) : (telStart (settleLoadImage (settleJobClose (settleAbortJob (settleLate (settleReport u)))))).boot =
      u.boot := boot_of_allBut (by simp)
  have before (u : State) : (landTick (paceCounts (requestTick (ringTick (stallTick (idleTime (countPeriod
      (beatPeriod u)))))))).boot = u.boot := boot_of_allBut (by simp)
  unfold idleTick
  split
  · refine tickFuses_firmwareTouches _ ?_
    rw [after]
    have ends := settleFuses_tickFuses (landTick (paceCounts (requestTick (ringTick (stallTick (idleTime (countPeriod
      (beatPeriod s))))))))
    rwa [before] at ends
  · exact .refl _

/-- Fuses only blow. -/
theorem TickFuses.only_blow {a b : Boot} (h : TickFuses a b) :
    a.revoked &&& b.revoked = a.revoked ∧ a.rollback ≤ b.rollback ∧ b.raisesLeft ≤ a.raisesLeft := by
  have slots : a.revoked &&& (revokeSlots a).revoked = a.revoked := by
    unfold revokeSlots
    split
    · exact BitVec.and_self
    · refine BitVec.eq_of_getLsbD_eq fun i _ => ?_
      rw [BitVec.getLsbD_and, BitVec.getLsbD_or]
      cases a.revoked.getLsbD i <;> rfl
  have raise : a.rollback ≤ (raiseRollback a).rollback ∧ (raiseRollback a).raisesLeft ≤ a.raisesLeft := by
    unfold raiseRollback
    split
    · exact ⟨le_rfl, le_rfl⟩
    · split
      · next raised => exact ⟨raised.2.1.le, Nat.sub_le _ _⟩
      · exact ⟨le_rfl, le_rfl⟩
  obtain ⟨⟨same, -⟩ | ⟨-, -, blown⟩, ⟨counter, records, -⟩ | ⟨-, -, counter, records⟩⟩ := h
  all_goals rw [counter, records]
  · exact ⟨by rw [same, BitVec.and_self], le_rfl, le_rfl⟩
  · exact ⟨by rw [same, BitVec.and_self], raise⟩
  · exact ⟨by rw [blown, slots], le_rfl, le_rfl⟩
  · exact ⟨by rw [blown, slots], raise⟩

/-- Settles O6: a command keeps the fuses and makes STAGE READY only as READY, and a tick ends what is due. -/
theorem fusesOnlyBlowAndOnlyReadyReachesReady : Obligations.FusesOnlyBlowAndOnlyReadyReachesReady := by
  unfold Obligations.FusesOnlyBlowAndOnlyReadyReachesReady
  refine ⟨fun s t h => ?blow, fun s t empty h => ?tick, fun c s t h => exec_fuses c h, fun c s t h waits ready => ?ready⟩
  case blow =>
    unfold step at h
    split at h
    · obtain rfl := next_inj h
      exact (idleTick_tickFuses s).only_blow
    · obtain ⟨revoked, rollback, raises⟩ := exec_fuses _ h
      rw [revoked, rollback, raises]
      exact ⟨BitVec.and_self, le_rfl, le_rfl⟩
  case tick =>
    unfold step at h
    rw [empty] at h
    obtain rfl := next_inj h
    exact idleTick_tickFuses s
  case ready =>
    by_contra other
    obtain ⟨-, -, -, stage⟩ := bootKept_exec c h fun bad e => other ⟨bad, e⟩
    exact waits (stage ready)

end Sys2Proof.Claims
end

section
/-! SUPPORT. How a command that stands at CMD_HEAD ends: what `runCmd` makes of its body's answer, for the plain, the serialising
and the late commands (R415 to R417). -/

namespace Sys2Proof.Machine

/-- The state in which the body of a taken command runs: CMD_HEAD has advanced. -/
def taken (s : State) : State := { s with mb := { s.mb with cmdHead := s.mb.cmdHead + 1 } }

/-- The state after a command was left open. -/
def leftOpen (c : Cmd) (k : OpenKind) (u : State) : State :=
  { u with mb := { u.mb with opened := u.mb.opened ++ [⟨c.op, c.tag, c.index, k, c.bytes⟩] } }

@[simp] theorem taken_canon {s : State} (h : Canon s) : Canon (taken s) := h

@[simp] theorem taken_keeps {k : List Part} {s t : State} (w : within [.mb] k = true) : Keeps k s (taken t) ↔ Keeps k s t :=
  keeps_set_mb w

@[simp] theorem leftOpen_keeps {k : List Part} {s u : State} (c : Cmd) (o : OpenKind) (w : within [.mb] k = true) :
    Keeps k s (leftOpen c o u) ↔ Keeps k s u := keeps_set_mb w

section
variable {s u : State} {c : Cmd} {op st : Nat} {res : List Byte} {meant : Cmd → Bool} {body : Cmd → State → CmdEnd} {k : OpenKind}

theorem runCmd_of_done (h : headCmd? s = some c) (m : meant c = true) (e : body c (taken s) = .done st res u)
    (n : st ≠ stDeferred) : runCmd meant body s = postCpl c.op c.tag c.index st res u := by
  have e' : body c { s with mb := { s.mb with cmdHead := s.mb.cmdHead + 1 } } = .done st res u := e
  simp only [runCmd, h, m, if_true]
  rw [e']
  exact if_neg fun g => n g.1

theorem runCmd_of_opened (h : headCmd? s = some c) (m : meant c = true) (e : body c (taken s) = .opened k u) :
    runCmd meant body s = leftOpen c k u := by
  have e' : body c { s with mb := { s.mb with cmdHead := s.mb.cmdHead + 1 } } = .opened k u := e
  simp only [runCmd, h, m, if_true]
  rw [e']
  rfl

theorem runPlain_of_done (h : headCmd? s = some c ∧ c.op = op) (e : body c (taken s) = .done st res u) (n : st ≠ stDeferred) :
    runPlain op body s = postCpl c.op c.tag c.index st res u := runCmd_of_done h.1 (by simp [isOp, h.2]) e n

theorem runPlain_of_opened (h : headCmd? s = some c ∧ c.op = op) (e : body c (taken s) = .opened k u) :
    runPlain op body s = leftOpen c k u := runCmd_of_opened h.1 (by simp [isOp, h.2]) e

theorem runSerial_eq_runPlain (h : s.mb.opened = []) : runSerial op body s = runPlain op body s := by
  simp [runSerial, runPlain, h]

theorem runLong_of_done (h : headCmd? s = some c ∧ c.op = op) (e : body c (taken s) = .done st res u) (n : st ≠ stDeferred) :
    runLong op body s = if (freeChoice u).1 then postCpl c.op c.tag c.index st res (freeChoice u).2
      else leftOpen c (.late st res) (freeChoice u).2 := by
  unfold runLong
  split
  · next g => exact runCmd_of_done h.1 (by simp [isOp, h.2]) (by simp [e, maybeLate, g]) n
  · next g => exact runCmd_of_opened h.1 (by simp [isOp, h.2]) (by simp [e, maybeLate, g])

end

/-! ## The completion entry -/

@[simp] theorem length_cplBytes (op tag st index count : Nat) (res : List Byte) :
    (cplBytes op tag st index count res).length = 32 := by
  unfold cplBytes; split <;> simp

theorem postCpl_ram (op tag index st : Nat) (res : List Byte) (u : State) :
    (postCpl op tag index st res u).mb.ram = memWrite u.mb.ram (0x4000 + 32 * (u.mb.cplTail.toNat % 256))
      (cplBytes op tag st index u.mb.cplTail.toNat res) := by
  simp only [postCpl, setCause]

/-- The entry that a completion puts at CPL_TAIL. -/
theorem memRead_postCpl {u : State} (op tag index st : Nat) (res : List Byte) (w : memWf u.mb.ram = true) :
    memRead (postCpl op tag index st res u).mb.ram (0x4000 + 32 * (u.mb.cplTail.toNat % 256)) 32 =
      cplBytes op tag st index u.mb.cplTail.toNat res := by
  rw [postCpl_ram]
  conv_lhs => arg 3; rw [← length_cplBytes op tag st index u.mb.cplTail.toNat res]
  exact memRead_memWrite w _ _

@[simp] theorem postCpl_cplTail (op tag index st : Nat) (res : List Byte) (u : State) :
    (postCpl op tag index st res u).mb.cplTail = u.mb.cplTail + 1 := rfl

@[simp] theorem postCpl_opened (op tag index st : Nat) (res : List Byte) (u : State) :
    (postCpl op tag index st res u).mb.opened = u.mb.opened := rfl

@[simp] theorem postCpl_mem (op tag index st : Nat) (res : List Byte) (u : State) :
    (postCpl op tag index st res u).mem = u.mem := rfl

end Sys2Proof.Machine

namespace Sys2Proof.Claims

open Sys2Proof.Machine

section
variable {s u : State} {c : Cmd} {op st : Nat} {res : List Byte} {body : Cmd → State → CmdEnd} {k : OpenKind}

theorem completed_postCpl (hh : u.mb.cmdHead = s.mb.cmdHead + 1) (ht : u.mb.cplTail = s.mb.cplTail) (w : Canon u) :
    Completed c st res s (postCpl c.op c.tag c.index st res u) :=
  ⟨hh, by rw [postCpl_cplTail, ht], by rw [← ht]; exact memRead_postCpl _ _ _ _ _ w.ram⟩

theorem opened_leftOpen (hh : u.mb.cmdHead = s.mb.cmdHead + 1) (ho : u.mb.opened = s.mb.opened) :
    Opened c k s (leftOpen c k u) := ⟨hh, congrArg (· ++ _) ho⟩

/-- A plain command whose body ends at once, and leaves the mailbox to the completion, completes. -/
theorem runPlain_completes (h : AtHead op c s) (e : body c (taken s) = .done st res u) (hm : u.mb = (taken s).mb)
    (n : st ≠ stDeferred) (w : Canon u) :
    ∃ t, runPlain op body s = t ∧ Completed c st res s t ∧ Keeps [.mb] u t :=
  ⟨_, runPlain_of_done h e n, completed_postCpl (by rw [hm]; rfl) (by rw [hm]; rfl) w, (postCpl_keeps _ _ _ _ _ u rfl).2 (.refl _ u)⟩

/-- A plain command whose body stays open, and leaves the mailbox as it is, is the last of the open ones. -/
theorem runPlain_opens (h : AtHead op c s) (e : body c (taken s) = .opened k u) (hm : u.mb = (taken s).mb) :
    ∃ t, runPlain op body s = t ∧ Opened c k s t ∧ Keeps [.mb] u t :=
  ⟨_, runPlain_of_opened h e, opened_leftOpen (by rw [hm]; rfl) (by rw [hm]; rfl), (leftOpen_keeps c k rfl).2 (.refl _ u)⟩

/-- A long command whose body ends, and leaves the mailbox to the completion, completes or is open as ended. -/
theorem runLong_finishes (h : AtHead op c s) (e : body c (taken s) = .done st res u) (hm : u.mb = (taken s).mb)
    (n : st ≠ stDeferred) (w : Canon u) :
    ∃ t, runLong op body s = t ∧ Finishes c st res s t ∧ Keeps [.mb, .time] u t := by
  have hf : (freeChoice u).2.mb = (taken s).mb := hm
  have hk : Keeps [.mb, .time] u (freeChoice u).2 := (freeChoice_keeps u rfl).2 (.refl _ u)
  refine ⟨_, runLong_of_done h e n, ?_⟩
  split
  · exact ⟨.inl (completed_postCpl (by rw [hf]; rfl) (by rw [hf]; rfl) (freeChoice_canon w)), (postCpl_keeps _ _ _ _ _ _ rfl).2 hk⟩
  · exact ⟨.inr (opened_leftOpen (by rw [hf]; rfl) (by rw [hf]; rfl)), (leftOpen_keeps c _ rfl).2 hk⟩

end

/-! ## Records written at an address -/

/-- A byte string written to memory is read back, and nothing else changes. -/
theorem memWrite_frame {m : Mem} (w : memWf m = true) (a : Nat) (b : List Byte) {n : Nat} (hn : b.length = n) :
    memRead (memWrite m a b) a n = b ∧ ∀ x, (x < a ∨ a + n ≤ x) → memGet (memWrite m a b) x = memGet m x :=
  ⟨hn ▸ memRead_memWrite w a b, fun x hx => by rw [memGet_memWrite w, if_neg (by omega)]⟩

@[simp] theorem putBytes_mem (a : Nat) (b : List Byte) (s : State) : (putBytes a b s).mem = memWrite s.mem a b := rfl

end Sys2Proof.Claims
end

section
/-! SUPPORT. Windows (R334, R335): what the window commands make of a job's table. -/

namespace Sys2Proof.Machine

@[simp] theorem length_windowBytes (w : Window) : (windowBytes w).length = 32 := by simp [windowBytes]

theorem windowOf_putWindow (n : Nat) (e : Option Window) (s : State) :
    windowOf (putWindow n e s) n = e.getD { windowOf s n with flags := (windowOf s n).flags % 128 } := by
  cases e <;> simp [windowOf, putWindow, kvGetD]

theorem windowOf_putWindow_ne {n w : Nat} (h : w ≠ n) (e : Option Window) (s : State) :
    windowOf (putWindow n e s) w = windowOf s w := by
  simp [windowOf, putWindow, kvGetD, kvGet_kvPut_ne _ _ h]

theorem windowOf_of_keeps {k : List Part} {s t : State} (h : Keeps k s t) (w : k.contains .rem = false) (n : Nat) :
    windowOf t n = windowOf s n := by
  simp [windowOf, h.rem_eq w]

theorem applyWindow_idle {s : State} (h : s.ctl.run = none) (c : Cmd) (n : Nat) (e : Option Window) :
    applyWindow c n e s = .done stOk [] (putWindow n e s) := by
  simp [applyWindow, stepRunning, h]

end Sys2Proof.Machine

namespace Sys2Proof.Claims

open Sys2Proof.Machine

/-- Settles O17: with no step running each body ends at once. -/
theorem windowCommandsComplete : Obligations.WindowCommandsComplete := by
  unfold Obligations.WindowCommandsComplete
  intro s c hs hj hn
  have hj' : (taken s).job.opened = true := hj
  refine ⟨fun h hr hres hjob hgrp hrange => ?_, fun h hr => ?_, fun h ha => ?_⟩
  · have hb : cmdWinSet c (taken s) = .done stOk [] (putWindow (cmdField c 16 2) (some (windowFrom c.bytes 32)) (taken s)) := by
      have hjob' : (windowFrom c.bytes 32).job = (taken s).job.id.toNat := hjob
      simp [cmdWinSet, hj', Nat.not_le.2 hn, hres, hjob', hgrp, hrange, applyWindow_idle (s := taken s) hr]
    obtain ⟨t, ht, hc, hk⟩ := runPlain_completes h hb rfl (by decide) (by simp [hs])
    refine ⟨t, congrArg _ ht, .trans (by simp [within]) (hk.mono rfl), hc, ?_, fun w hw => ?_⟩
    · rw [windowOf_of_keeps hk rfl, windowOf_putWindow]; rfl
    · rw [windowOf_of_keeps hk rfl, windowOf_putWindow_ne hw]; rfl
  · have hb : cmdWinClear c (taken s) = .done stOk [] (putWindow (cmdField c 16 2) none (taken s)) := by
      simp [cmdWinClear, hj', Nat.not_le.2 hn, applyWindow_idle (s := taken s) hr]
    obtain ⟨t, ht, hc, hk⟩ := runPlain_completes h hb rfl (by decide) (by simp [hs])
    refine ⟨t, congrArg _ ht, .trans (by simp [within]) (hk.mono rfl), hc, ?_, fun w hw => ?_⟩
    · rw [windowOf_of_keeps hk rfl, windowOf_putWindow]; rfl
    · rw [windowOf_of_keeps hk rfl, windowOf_putWindow_ne hw]; rfl
  · have hb : cmdWinRead c (taken s) = .done stOk []
        (putBytes (argAddr c) (windowBytes (windowOf s (cmdField c 16 2))) (taken s)) := by
      have ha' : argOk c 32 (taken s) = true := ha
      simp [cmdWinRead, hj', Nat.not_le.2 hn, ha']
      rfl
    obtain ⟨t, ht, hc, hk⟩ := runLong_finishes h hb rfl (by decide) (by simp [hs])
    refine ⟨t, congrArg _ ht, .trans (by simp [within]) (hk.mono rfl), hc, ?_⟩
    rw [hk.mem_eq rfl, putBytes_mem]
    exact memWrite_frame hs.mem _ _ (by simp)

end Sys2Proof.Claims
end

section
/-! SUPPORT. TREE_SET and PEAL (R372, R373). -/

namespace Sys2Proof.Machine

theorem cmdTreeSet_ok {s : State} {c : Cmd} (hj : s.job.opened = true) (hp : s.launch.pend = none)
    (ht : treeRecordOk c.bytes = true) :
    cmdTreeSet c s = .done stOk [] { s with launch := { s.launch with tree := some (treeOf c.bytes) } } := by
  simp [cmdTreeSet, hj, hp, ht]

/-- PEAL of a locked root with its Downbeat far enough ahead: the launch pends, armed, and the command stays open. -/
theorem cmdPeal_ok {s : State} {c : Cmd} {tr : Tree} (ht : s.launch.tree = some tr) (hr : isRoot tr = true)
    (hl : s.time.state = .locked) (hp : s.launch.pend = none)
    (hd : s.time.beat + max 50000 (guardTicks + 3 * (1250 * tr.depth)) ≤ cmdField c 16 8) :
    ∃ u, cmdPeal c s = .opened (.peal s.launch.nextId) u ∧ Keeps [.rem, .launch] s u ∧
      u.launch.nextId = s.launch.nextId + 1 ∧ u.launch.downbeat = cmdField c 16 8 ∧
      u.launch.pend = some (.start s.launch.nextId (cmdField c 16 8) (BitVec.ofNat 32 (cmdField c 24 4)) true) := by
  unfold cmdPeal
  simp only [ht, hr, hl, hp, Nat.not_lt.2 hd]
  refine ⟨_, rfl, ?_, rfl, rfl, rfl⟩
  refine (setPending_keeps _ _ rfl).2 ((keeps_set_launch rfl).2 ?_)
  exact (noteForward_keeps _ _ rfl).2 ((noteForward_keeps _ _ rfl).2
    ((pealDown_keeps _ _ _ _ _ rfl).2 ((pealDown_keeps _ _ _ _ _ rfl).2 (.refl _ s))))

end Sys2Proof.Machine

namespace Sys2Proof.Claims

open Sys2Proof.Machine

/-- Settles O14. -/
theorem launchCommandsComplete : Obligations.LaunchCommandsComplete := by
  unfold Obligations.LaunchCommandsComplete
  intro s c hs
  refine ⟨fun h hj hp ht => ?_, fun tr h ht hpp hsp hl hp hd => ?_⟩
  · obtain ⟨t, e, hc, hk⟩ := runPlain_completes h (cmdTreeSet_ok (s := taken s) hj hp ht) rfl (by decide) (by simp [hs])
    exact ⟨t, congrArg _ e, .trans (by simp [within]) (hk.mono rfl), hc, hk.launch_eq rfl⟩
  · obtain ⟨u, e, ku, hid, hdown, hpend⟩ := cmdPeal_ok (s := taken s) ht (by simp [isRoot, hpp, hsp]) hl hp hd
    obtain ⟨t, e, ho, hk⟩ := runPlain_opens h e (ku.mb_eq rfl)
    refine ⟨t, congrArg _ e, .trans (.trans (by simp [within]) (ku.mono rfl)) (hk.mono rfl), ho, ?_⟩
    rw [hk.launch_eq rfl]
    exact ⟨hid, hdown, by rw [hpend]; rfl⟩

end Sys2Proof.Claims
end

section
/-! SUPPORT. Reading one byte of a memory that was cleared, sliced, merged or copied into. -/

namespace Sys2Proof.Machine

/-- A filter on addresses keeps the bytes whose address passes. -/
theorem memGet_filter (m : Mem) (f : Nat → Bool) (x : Nat) :
    memGet (m.filter fun c => f c.1) x = if f x then memGet m x else 0 := by
  induction m with
  | nil => simp
  | cons e r ih =>
    obtain ⟨k, b⟩ := e
    rw [List.filter_cons]
    by_cases hk : k = x
    · subst hk
      cases h : f k <;> simp [memGet, h, ih]
    · cases h : f k <;> simp [memGet, hk, ih]

theorem memGet_memClear (m : Mem) (a n x : Nat) : memGet (memClear m a n) x = if a ≤ x ∧ x < a + n then 0 else memGet m x := by
  have h := memGet_filter m (fun k => decide (k < a) || decide (a + n ≤ k)) x
  unfold memClear
  rw [h]
  by_cases g : a ≤ x ∧ x < a + n
  · rw [if_pos g, if_neg]; simp; omega
  · rw [if_neg g, if_pos]; simp; omega

theorem memGet_hostMemory (m : Mem) (x : Nat) :
    memGet (hostMemory m) x = if hostBase ≤ x ∧ x < windowBase then memGet m x else 0 := by
  have h := memGet_filter m (fun k => decide (hostBase ≤ k) && decide (k < windowBase)) x
  unfold hostMemory
  rw [h]
  simp

/-- Merging puts every listed byte at its place and leaves the others. -/
theorem memGet_memMerge {m src : Mem} (w : memWf m = true) (v : memWf src = true) (a x : Nat) :
    memGet (memMerge m a src) x = if a ≤ x ∧ memGet src (x - a) ≠ 0 then memGet src (x - a) else memGet m x := by
  induction src generalizing m with
  | nil => simp [memMerge]
  | cons e r ih =>
    obtain ⟨k, b⟩ := e
    obtain ⟨hb, hk, hr⟩ := memWf_cons.1 v
    unfold memMerge
    rw [ih (memWf_memPut w) hr, memGet_memPut w]
    by_cases h : a ≤ x ∧ x - a = k
    · obtain rfl : x = a + k := by omega
      have hz : memGet r k = 0 := memGet_above hr hk (Nat.le_refl _)
      simp only [Nat.add_sub_cancel_left, Nat.le_add_right, memGet, hz, hb, ne_eq, not_false_eq_true, not_true_eq_false,
        and_false, and_self, if_true, if_false]
    · have h1 : x ≠ a + k := fun e => h ⟨by omega, by omega⟩
      by_cases h2 : a ≤ x
      · have h3 : k ≠ x - a := fun e => h ⟨h2, e.symm⟩
        simp [memGet, h1, h3]
      · simp [h1, h2]

/-- A copy reads as its source inside the range, and nothing else changes. -/
theorem memGet_memCopy {m src : Mem} (w : memWf m = true) (v : memWf src = true) (a n x : Nat) :
    memGet (memCopy m a n src) x = if a ≤ x ∧ x < a + n then memGet src (x - a) else memGet m x := by
  unfold memCopy
  rw [memGet_memMerge (memWf_memClear w) (memWf_filter v), memGet_memClear]
  have h := memGet_filter src (fun k => decide (k < n)) (x - a)
  rw [h]
  by_cases g : a ≤ x ∧ x < a + n
  · have : x - a < n := by omega
    simp only [this, decide_true, if_true, g, and_self, true_and]
    split <;> simp_all
  · by_cases g1 : a ≤ x
    · have : ¬ x - a < n := by omega
      simp [this, g]
    · simp [g1]

/-- A copied range, byte by byte, and what lies outside it. -/
theorem memCopy_frame {m src : Mem} (w : memWf m = true) (v : memWf src = true) (a n : Nat) :
    (∀ i, i < n → memGet (memCopy m a n src) (a + i) = memGet src i) ∧
      ∀ x, (x < a ∨ a + n ≤ x) → memGet (memCopy m a n src) x = memGet m x :=
  ⟨fun i hi => by rw [memGet_memCopy w v, if_pos (by omega), Nat.add_sub_cancel_left],
   fun x hx => by rw [memGet_memCopy w v, if_neg (by omega)]⟩

/-! ## Slices -/

theorem above_shift {a k : Nat} {m : Mem} (h : above k m) (g : ∀ c ∈ m, a ≤ c.1) (hk : a ≤ k) :
    above (k - a) (m.map fun c => (c.1 - a, c.2)) := by
  cases m with
  | nil => trivial
  | cons e r =>
    have := g e (by simp)
    simp only [above, List.map_cons] at h ⊢
    omega

theorem memWf_shift {a : Nat} {m : Mem} (w : memWf m = true) (g : ∀ c ∈ m, a ≤ c.1) :
    memWf (m.map fun c => (c.1 - a, c.2)) = true := by
  induction m with
  | nil => rfl
  | cons e r ih =>
    obtain ⟨k, b⟩ := e
    obtain ⟨hb, hk, hr⟩ := memWf_cons.1 w
    have hr' : ∀ c ∈ r, a ≤ c.1 := fun c hc => g c (List.mem_cons_of_mem _ hc)
    exact memWf_cons.2 ⟨hb, above_shift hk hr' (g (k, b) (by simp)), ih hr hr'⟩

theorem memGet_shift {a : Nat} {m : Mem} (g : ∀ c ∈ m, a ≤ c.1) (i : Nat) :
    memGet (m.map fun c => (c.1 - a, c.2)) i = memGet m (a + i) := by
  induction m with
  | nil => rfl
  | cons e r ih =>
    obtain ⟨k, b⟩ := e
    have hk : a ≤ k := g (k, b) (by simp)
    have e : (k - a = i) ↔ (k = a + i) := by omega
    simp only [List.map_cons, memGet, e, ih fun c hc => g c (List.mem_cons_of_mem _ hc)]

theorem slice_above (m : Mem) (a n : Nat) : ∀ c ∈ m.filter (fun c => decide (a ≤ c.1) && decide (c.1 < a + n)), a ≤ c.1 := by
  intro c hc
  simp at hc
  exact hc.2.1

@[simp] theorem memWf_memSlice {m : Mem} {a n : Nat} (w : memWf m = true) : memWf (memSlice m a n) = true :=
  memWf_shift (memWf_filter w) (slice_above m a n)

theorem memGet_memSlice (m : Mem) (a n i : Nat) : memGet (memSlice m a n) i = if i < n then memGet m (a + i) else 0 := by
  have h := memGet_filter m (fun k => decide (a ≤ k) && decide (k < a + n)) (a + i)
  unfold memSlice
  rw [memGet_shift (slice_above m a n), h]
  simp

/-- A range copied from another place of the same memory reads as it stood there. -/
theorem memCopy_slice_frame {m : Mem} (w : memWf m = true) (a b n : Nat) :
    memRead (memCopy m a n (memSlice m b n)) a n = memRead m b n ∧
      ∀ x, (x < a ∨ a + n ≤ x) → memGet (memCopy m a n (memSlice m b n)) x = memGet m x := by
  obtain ⟨h1, h2⟩ := memCopy_frame w (memWf_memSlice (a := b) (n := n) w) a n
  refine ⟨List.map_congr_left fun i hi => ?_, h2⟩
  have hi' : i < n := List.mem_range.1 hi
  rw [h1 i hi', memGet_memSlice, if_pos hi']

end Sys2Proof.Machine
end

section
/-! SUPPORT. The counterexample to O19: a snapshot whose memory lists one address twice. -/

namespace Sys2Proof.Machine

/-- The command TEL_SNAPSHOT, with ARG_ADDR at the first address of host-die memory. -/
def snapshotEntry : List Byte := natLe 8 0x0901 ++ natLe 8 hostBase ++ List.replicate 48 0

/-- A device at READY with TEL_SNAPSHOT at CMD_HEAD, whose snapshot lists byte 0 twice: `Canon` says nothing of the snapshot. -/
def doubledSnapshot : State :=
  { State.reset with
    mb := { Mailbox.init with ready := true, cmdDoorbell := 1, ram := memWrite [] 0 snapshotEntry }
    dbg := { Debug.init with tel := [(0, 1), (0, 2)] } }

/-- The command as the engine copies it. -/
def snapshotCmd : Cmd := ⟨0x0901, 0, 0, memRead doubledSnapshot.mb.ram 0 64⟩

theorem doubledSnapshot_canon : Canon doubledSnapshot := by unfold Canon; decide

theorem doubledSnapshot_head : headCmd? doubledSnapshot = some snapshotCmd ∧ snapshotCmd.op = 0x0901 := by decide

theorem doubledSnapshot_argOk : argOk snapshotCmd 9216 doubledSnapshot = true := by decide

/-- The copy lets the later of the two entries of byte 0 stand. -/
theorem doubledSnapshot_copied :
    memGet (putMem (argAddr snapshotCmd) 9216 doubledSnapshot.dbg.tel (taken doubledSnapshot)).mem (argAddr snapshotCmd + 0) = 2 := by
  decide

end Sys2Proof.Machine

namespace Sys2Proof.Claims

open Sys2Proof.Machine

/-- Refutes O19: a read of the snapshot takes the first entry of an address that it lists twice, and the copy to ARG_ADDR leaves the
last one there. Nothing in the premises keeps the snapshot's memory canonical. -/
theorem not_snapshotAndReportAreWritten : ¬ Obligations.SnapshotAndReportAreWritten := by
  unfold Obligations.SnapshotAndReportAreWritten
  intro h
  obtain ⟨t, ht, -, -, hcopy, -⟩ := (h doubledSnapshot snapshotCmd doubledSnapshot_canon).1 doubledSnapshot_head doubledSnapshot_argOk
  have hb : cmdTelSnapshot snapshotCmd (taken doubledSnapshot) =
      .done stOk (natLe 4 doubledSnapshot.dbg.telSeq.toNat ++ natLe 4 9216)
        (putMem (argAddr snapshotCmd) 9216 doubledSnapshot.dbg.tel (taken doubledSnapshot)) :=
    if_pos doubledSnapshot_argOk
  obtain ⟨u, hu, -, hk⟩ := runLong_finishes doubledSnapshot_head hb rfl (by decide)
    (putMem_canon _ _ _ (taken_canon doubledSnapshot_canon))
  obtain rfl : u = t := hu.symm.trans (next_inj ht)
  have h0 := hcopy 0 (by decide)
  rw [hk.mem_eq rfl, doubledSnapshot_copied] at h0
  exact absurd h0 (by decide)

end Sys2Proof.Claims
end

section
/-! SUPPORT. The debug commands (R424, R463, R509). -/

namespace Sys2Proof.Machine

@[simp] theorem putMem_mem (a n : Nat) (m : Mem) (s : State) : (putMem a n m s).mem = memCopy s.mem a n m := rfl

/-- A read of a range with no word known to be bad ends with data and changes nothing. -/
theorem memreadFinds_good {a n : Nat} {s : State} (h : badRead? a n s = none) : memreadFinds a n .clean s = (true, s) := by
  have g : metHealth (fun b m => overlaps a n b m) s = .clean := by
    unfold badRead? at h
    simp [metHealth, h]
  simp [memreadFinds, memreadHealth, g]

/-- A read that meets a bad word ends without data; only counts and bad words change. -/
theorem memreadFinds_bad {a n : Nat} {s : State} (h : (badRead? a n s).isSome = true) :
    (memreadFinds a n .clean s).1 = false ∧ Keeps [.errs] s (memreadFinds a n .clean s).2 := by
  obtain ⟨w, hw⟩ := Option.isSome_iff_exists.1 h
  unfold badRead? at hw
  cases w with
  | burst b =>
    have g : metHealth (fun b m => overlaps a n b m) s = .hbmUncorrectable b := by simp [metHealth, hw]
    simp only [memreadFinds, memreadHealth, if_true, g]
    exact ⟨trivial, (hbmUncorrectable_keeps _ _ rfl).2 (.refl _ s)⟩
  | sram b =>
    have g : metHealth (fun b m => overlaps a n b m) s = .sramUncorrectable (memoryCell? b) := by simp [metHealth, hw]
    simp only [memreadFinds, memreadHealth, if_true, g]
    exact ⟨trivial, (addCount_keeps _ _ _ rfl).2 (.refl _ s)⟩

theorem cmdDebugMemread_clean {s : State} {c : Cmd} (hl : locked 3 s = false) (h1 : 64 ≤ cmdField c 24 8)
    (h2 : cmdField c 24 8 ≤ 1048576) (h3 : cmdField c 24 8 % 64 = 0)
    (h4 : memreadSource s (cmdField c 16 8) (cmdField c 24 8) = true) (h5 : argOk c (cmdField c 24 8) s = true)
    (hr : s.ctl.run = none) : cmdDebugMemread .clean c s =
      if (memreadFinds (cmdField c 16 8) (cmdField c 24 8) .clean s).1 then
        .done stOk [] (putMem (argAddr c) (cmdField c 24 8) (memSlice s.mem (cmdField c 16 8) (cmdField c 24 8))
          (memreadFinds (cmdField c 16 8) (cmdField c 24 8) .clean s).2)
      else .done stStepFault [] (memreadFinds (cmdField c 16 8) (cmdField c 24 8) .clean s).2 := by
  simp [cmdDebugMemread, hl, h1, h2, h3, h4, h5, stepRunning, hr, memreadCorrected] <;> rfl

theorem cmdTraceStart_ok {s : State} {c : Cmd} (hl : locked 3 s = false) (ha : traceAction c = 0) (hc : capturing s = false)
    (h : cmdField c 24 8 % 4096 = 0 ∧ cmdField c 32 4 % 4096 = 0 ∧ 65536 ≤ cmdField c 32 4 ∧ cmdField c 32 4 ≤ 1073741824 ∧
      hbmRange (cmdField c 24 8) (cmdField c 32 4) = true ∧ overlapsImage s (cmdField c 24 8) (cmdField c 32 4) = false) :
    cmdTraceStart c s = .done stOk [] { s with dbg := { s.dbg with
      capture := some ⟨cmdField c 24 8, cmdField c 32 4, bitOf (cmdField c 36 1) 0, bitOf (cmdField c 36 1) 1, 0, 0, true⟩ } } := by
  simp [cmdTraceStart, hl, ha, hc, h]

/-- While debug is locked every debug command is refused. -/
theorem debugCommand_locked {s : State} (hl : locked 3 s = true) (c : Cmd) (h : Health) :
    cmdTraceStart c s = reject stAuthFail s ∧ cmdTraceStop c s = reject stAuthFail s ∧
      cmdTraceStatus c s = reject stAuthFail s ∧ cmdDebugMemread h c s = reject stAuthFail s := by
  simp [cmdTraceStart, cmdTraceStop, cmdTraceStatus, cmdDebugMemread, hl]

end Sys2Proof.Machine

namespace Sys2Proof.Claims

open Sys2Proof.Machine

/-- A command that `meant` picks and whose body ends at once, leaving the mailbox to the completion, completes. -/
theorem runCmd_completes {s u : State} {c : Cmd} {st : Nat} {res : List Byte} {meant : Cmd → Bool} {body : Cmd → State → CmdEnd}
    (h : headCmd? s = some c) (m : meant c = true) (e : body c (taken s) = .done st res u) (hm : u.mb = (taken s).mb)
    (n : st ≠ stDeferred) (w : Canon u) :
    ∃ t, runCmd meant body s = t ∧ Completed c st res s t ∧ Keeps [.mb] u t :=
  ⟨_, runCmd_of_done h m e n, completed_postCpl (by rw [hm]; rfl) (by rw [hm]; rfl) w, (postCpl_keeps _ _ _ _ _ u rfl).2 (.refl _ u)⟩

/-- Settles O20. -/
theorem debugCommandsComplete : Obligations.DebugCommandsComplete := by
  unfold Obligations.DebugCommandsComplete
  intro s c hs
  have hst : Canon (taken s) := taken_canon hs
  have hk0 : Keeps [.mb] s (taken s) := (taken_keeps rfl).2 (.refl _ s)
  refine ⟨fun hl => ⟨fun h ha hcap h1 h2 h3 h4 h5 h6 => ?_, fun x hx => ⟨fun h ha hrun => ?_, fun h ha => ?_⟩,
      fun h h1 h2 h3 h4 h5 hr => ?_⟩, fun hl => ⟨fun h ha => ?_, fun h ha => ?_, fun h ha => ?_, fun h => ?_⟩⟩
  · obtain ⟨t, e, hc, hk⟩ := runCmd_completes (meant := fun c => c.op == 0x0B01 && (traceAction c != 1 && traceAction c != 2))
      h.1 (by simp [h.2, ha]) (cmdTraceStart_ok (s := taken s) hl ha hcap ⟨h1, h2, h3, h4, h5, h6⟩) rfl (by decide) (by simp [hst])
    exact ⟨t, congrArg _ e, .trans (by simp [within]) (hk.mono rfl), hc, by rw [hk.dbg_eq rfl]⟩
  · have hb : cmdTraceStop c (taken s) = .done stOk (natLe 4 x.written ++ natLe 4 x.dropped)
        { taken s with dbg := { (taken s).dbg with capture := some { x with running := false } } } := by
      have hx' : (taken s).dbg.capture = some x := hx
      have hl' : locked 3 (taken s) = false := hl
      simp [cmdTraceStop, capturing, captureCounts, hx', hl', hrun]
    obtain ⟨t, e, hc, hk⟩ := runCmd_completes (meant := fun c => c.op == 0x0B01 && traceAction c == 1)
      h.1 (by simp [h.2, ha]) hb rfl (by decide) (by simp [hst])
    exact ⟨t, congrArg _ e, .trans (by simp [within]) (hk.mono rfl), hc, by rw [hk.dbg_eq rfl]⟩
  · have hb : cmdTraceStatus c (taken s) = .done stOk (natLe 4 x.written ++ natLe 4 x.dropped) (taken s) := by
      have hx' : (taken s).dbg.capture = some x := hx
      have hl' : locked 3 (taken s) = false := hl
      simp [cmdTraceStatus, captureCounts, hx', hl']
    obtain ⟨t, e, hc, hk⟩ := runCmd_completes (meant := fun c => c.op == 0x0B01 && traceAction c == 2)
      h.1 (by simp [h.2, ha]) hb rfl (by decide) hst
    exact ⟨t, congrArg _ e, hk0.trans hk, hc⟩
  · have hb := cmdDebugMemread_clean (s := taken s) hl h1 h2 h3 h4 h5 hr
    cases hbad : badRead? (cmdField c 16 8) (cmdField c 24 8) s with
    | none =>
      rw [memreadFinds_good (s := taken s) hbad, if_pos rfl] at hb
      obtain ⟨t, e, hc, hk⟩ := runLong_finishes h hb rfl (by decide) (putMem_canon _ _ _ hst)
      refine ⟨t, congrArg _ e, .trans (hk0.mono rfl) (.trans ((putMem_keeps _ _ _ _ rfl).2 (.refl _ _)) (hk.mono rfl)),
        fun _ => ⟨hc, ?_⟩, fun hsome => absurd hsome (by simp)⟩
      rw [hk.mem_eq rfl, putMem_mem]
      exact memCopy_slice_frame hs.mem _ _ _
    | some w =>
      obtain ⟨hf, hke⟩ := memreadFinds_bad (s := taken s) (a := cmdField c 16 8) (n := cmdField c 24 8) (by
        have : badRead? (cmdField c 16 8) (cmdField c 24 8) (taken s) = some w := hbad
        simp [this])
      rw [hf, if_neg (by simp)] at hb
      obtain ⟨t, e, hc, hk⟩ := runLong_finishes h hb (hke.mb_eq rfl) (by decide) (hst.of_keeps hke rfl)
      exact ⟨t, congrArg _ e, .trans (hk0.mono rfl) (.trans (hke.mono rfl) (hk.mono rfl)), fun hnone => absurd hnone (by simp),
        fun _ => ⟨hc, by rw [hk.mem_eq rfl, hke.mem_eq rfl]; rfl⟩⟩
  · obtain ⟨t, e, hc, hk⟩ := runCmd_completes (meant := fun c => c.op == 0x0B01 && (traceAction c != 1 && traceAction c != 2))
      h.1 (by simp [h.2, ha]) (debugCommand_locked (s := taken s) hl c .clean).1 rfl (by decide) hst
    exact ⟨t, congrArg _ e, hk0.trans hk, hc⟩
  · obtain ⟨t, e, hc, hk⟩ := runCmd_completes (meant := fun c => c.op == 0x0B01 && traceAction c == 1)
      h.1 (by simp [h.2, ha]) (debugCommand_locked (s := taken s) hl c .clean).2.1 rfl (by decide) hst
    exact ⟨t, congrArg _ e, hk0.trans hk, hc⟩
  · obtain ⟨t, e, hc, hk⟩ := runCmd_completes (meant := fun c => c.op == 0x0B01 && traceAction c == 2)
      h.1 (by simp [h.2, ha]) (debugCommand_locked (s := taken s) hl c .clean).2.2.1 rfl (by decide) hst
    exact ⟨t, congrArg _ e, hk0.trans hk, hc⟩
  · obtain ⟨t, e, hc, hk⟩ := runLong_finishes h (debugCommand_locked (s := taken s) hl c .clean).2.2.2 rfl (by decide) hst
    exact ⟨t, congrArg _ e, .trans (hk0.mono rfl) (hk.mono rfl), hc⟩

end Sys2Proof.Claims
end

section
/-! SUPPORT. Buffer pools (R293 to R305): handles, the smallest class that fits, and what the pool commands make of them. -/

namespace Sys2Proof.Machine

@[simp] theorem memWf_recMem (l : List (Nat × Nat × Nat)) : memWf (recMem l) = true := by
  induction l with
  | nil => rfl
  | cons e r ih => exact memWf_memPutLe ih

/-! ## Handles -/

theorem handleOf_parts {cl k i : Nat} (hc : cl < 16) (hk : k < 8) (hi : i < 2 ^ 20) :
    handleCluster (handleOf cl k i) = cl ∧ handleClass (handleOf cl k i) = k ∧ handleIndex (handleOf cl k i) = i := by
  unfold handleCluster handleClass handleIndex handleOf
  omega

theorem handleNamed_parts (h : Nat) : handleCluster (handleNamed h) = handleCluster h ∧
    handleClass (handleNamed h) = handleClass h ∧ handleIndex (handleNamed h) = handleIndex h :=
  handleOf_parts (Nat.mod_lt _ (by decide)) (Nat.mod_lt _ (by decide)) (Nat.mod_lt _ (by decide))

theorem handleValid_named (s : State) (h : Nat) : handleValid s (handleNamed h) = handleValid s h := by
  obtain ⟨hc, hk, hi⟩ := handleNamed_parts h
  simp only [handleValid, hc, hk, hi]

/-! ## Classes and allocation -/

theorem poolClass_put {s t : State} {n : Nat} {x : SizeClass} (h : t.pools.classes = kvPut s.pools.classes n x) (cl k : Nat) :
    poolClass t cl k = if 8 * cl + k = n then x else poolClass s cl k := by
  unfold poolClass kvGetD
  rw [h]
  split
  · next e => simp [e]
  · next e => rw [kvGet_kvPut_ne _ _ e]

/-- A class with a free buffer has buffers. -/
theorem count_of_freeIndex {s : State} {cl k i : Nat} (h : freeIndex? s cl k = some i) : (poolClass s cl k).count ≠ 0 := by
  unfold freeIndex? at h
  have := List.mem_of_find?_eq_some h
  simp at this
  omega

/-- The class chain of a length begins with the smallest class that fits. -/
theorem classChain_eq_cons {len : Nat} (h : len ≤ 4194304) : ∃ r, classChain len = fitClass len :: r := by
  have h7 : decide (len ≤ classBytes 7) = true := decide_eq_true h
  have e : classChain len = (List.range 8).filter fun k => decide (len ≤ classBytes k) := rfl
  have hfit : (List.range 8).find? (fun k => decide (len ≤ classBytes k)) = (classChain len).head? := by
    rw [e, List.head?_filter]
  cases hc : classChain len with
  | nil =>
    have : 7 ∈ classChain len := by rw [e]; exact List.mem_filter.2 ⟨by decide, h7⟩
    simp [hc] at this
  | cons k r => exact ⟨r, by rw [fitClass, hfit, hc]; rfl⟩

theorem allocate_fit {s : State} {cl len owner i : Nat} (h : len ≤ 4194304) (hf : freeIndex? s cl (fitClass len) = some i) :
    allocate? cl len owner s = some (handleOf cl (fitClass len) i, takeBuffer cl (fitClass len) i len owner s) := by
  obtain ⟨r, hr⟩ := classChain_eq_cons h
  simp [allocate?, hr, hf]

/-! ## Buffers -/

theorem bufferOf_mapBuffer {s : State} {h : Nat} {b : Buffer} {f : Buffer → Buffer} (hb : bufferOf? s h = some b)
    (hf : ∀ x, (f x).handle = x.handle) : bufferOf? (mapBuffer h f s) h = some (f b) := by
  have hh : b.handle = h := by simpa using List.find?_some hb
  have e : ((fun x : Buffer => x.handle == h) ∘ fun b : Buffer => if b.handle = h then f b else b) = fun x => x.handle == h := by
    funext x
    by_cases g : x.handle = h <;> simp [g, hf]
  have hb' : s.pools.buffers.find? (fun x => x.handle == h) = some b := hb
  simp only [bufferOf?, mapBuffer, List.find?_map, e, hb', Option.map_some, hh, if_true]

theorem freeBuffer_noWaits {s : State} (h : s.pools.waits = []) (n : Nat) : freeBuffer n s =
    { s with pools := { s.pools with buffers := s.pools.buffers.filter fun b => b.handle != n, waits := [] } } := by
  simp [freeBuffer, runWaits, h, serveWaits]

/-! ## The commands -/

theorem cmdPoolConfig_ok {s : State} {c : Cmd} (hj : s.job.opened = true) (hcl : cmdField c 16 1 < 16) (hk : cmdField c 17 1 < 8)
    (hb : cmdField c 18 1 < 2) (hn : cmdField c 20 4 ≤ 1048576)
    (ha : cmdField c 24 8 % (if cmdField c 17 1 ≤ 1 then classBytes (cmdField c 17 1) else 4096) = 0)
    (hr : poolRegionOk s (cmdField c 16 1) (cmdField c 17 1) ⟨cmdField c 18 1 == 1, cmdField c 24 8, cmdField c 20 4⟩ = true)
    (hu : usedIndices s (cmdField c 16 1) (cmdField c 17 1) = []) (hw : s.pools.waits = []) :
    cmdPoolConfig c s = .done stOk [] { s with pools := { s.pools with
      classes := kvPut s.pools.classes (8 * cmdField c 16 1 + cmdField c 17 1)
        ⟨cmdField c 18 1 == 1, cmdField c 24 8, cmdField c 20 4⟩ } } := by
  have h0 : ¬ (16 ≤ cmdField c 16 1 ∨ 8 ≤ cmdField c 17 1 ∨ 2 ≤ cmdField c 18 1 ∨ 1048576 < cmdField c 20 4) := by omega
  simp only [cmdPoolConfig, hj, hr, hu, hw, ha, h0, Bool.not_true, Bool.false_eq_true, if_false, ne_eq, not_true_eq_false,
    List.isEmpty_nil, Bool.true_eq_false, List.any_nil, or_self]

theorem cmdPoolAlloc_ok {s : State} {c : Cmd} {i : Nat} (hj : s.job.opened = true) (hcl : cmdField c 16 1 < 16)
    (h0 : 0 < cmdField c 20 4) (h1 : cmdField c 20 4 ≤ 4194304) (ho : cmdField c 18 2 < 0xFFF0)
    (hf : freeIndex? s (cmdField c 16 1) (fitClass (cmdField c 20 4)) = some i) :
    cmdPoolAlloc c s = .done stOk (natLe 4 (handleOf (cmdField c 16 1) (fitClass (cmdField c 20 4)) i))
      (takeBuffer (cmdField c 16 1) (fitClass (cmdField c 20 4)) i (cmdField c 20 4) (cmdField c 18 2) s) := by
  obtain ⟨r, hr⟩ := classChain_eq_cons h1
  have hc := count_of_freeIndex hf
  have hne : ¬ (16 ≤ cmdField c 16 1 ∨ cmdField c 20 4 = 0 ∨ 4194304 < cmdField c 20 4 ∨ hostOwner (cmdField c 18 2) = false) := by
    simp [hostOwner]; omega
  have hall : ((classChain (cmdField c 20 4)).all fun k => (poolClass s (cmdField c 16 1) k).count == 0) = false := by
    simp [hr, hc]
  simp only [cmdPoolAlloc, hj, hne, hall, allocate_fit h1 hf, Bool.not_true, Bool.false_eq_true, if_false]

theorem applyShare_ok {s : State} {h owner n : Nat} {b : Buffer} (hv : handleValid s h = true) (hb : bufferOf? s h = some b)
    (hp : b.freePending = none) (ho : b.owner = owner) (h0 : 0 < n) (h1 : b.shares + n ≤ 65535) :
    applyShare h owner n s = (stOk, mapBuffer h (fun b => { b with shares := b.shares + n }) s) := by
  have : ¬ (n = 0 ∨ 65535 < b.shares + n) := by omega
  simp [applyShare, hv, hb, hp, ho, this]

theorem applyRelease_ok {s : State} {h owner : Nat} {b : Buffer} (hv : handleValid s h = true) (hb : bufferOf? s h = some b)
    (ho : b.owner ≠ owner) (hs : 1 < b.shares) :
    applyRelease h owner s = (stOk, mapBuffer h (fun b => { b with shares := b.shares - 1 }) s, id) := by
  have h0 : b.shares ≠ 0 := by omega
  simp only [applyRelease, hv, hb, h0, ho, Bool.not_true, Bool.false_eq_true, if_false]
  split
  · next e _ => omega
  · rfl

theorem applyFree_ok {s : State} {h owner tag step : Nat} {b : Buffer} (hv : handleValid s h = true) (hb : bufferOf? s h = some b)
    (ho : b.owner = owner) (hs : b.shares = 0) (hp : b.freePending = none) :
    applyFree h owner tag step s = (stOk, s, freeBuffer h) := by
  simp [applyFree, hv, hb, hp, ho, hs]

/-- POOL_RELEASE and POOL_FREE that are not bound to a step apply at once. -/
theorem cmdPoolGive_now {s : State} {c : Cmd} (free : Bool) (ho : cmdField c 20 2 < 0xFFF0)
    (hb : bitOf (cmdField c 22 1) 0 = false) {st : Nat} {u : State} {f : State → State}
    (e : applyPool free (handleNamed (cmdField c 16 4)) (cmdField c 20 2) c.tag 0 s = (st, u, f)) :
    cmdPoolGive free c s = .done st [] (f u) := by
  simp [cmdPoolGive, hostOwner, ho, hb, e]

theorem applyPool_true (h owner tag step : Nat) (s : State) : applyPool true h owner tag step s = applyFree h owner tag step s :=
  if_pos rfl

theorem applyPool_false (h owner tag step : Nat) (s : State) : applyPool false h owner tag step s = applyRelease h owner s :=
  if_neg Bool.false_ne_true

theorem poolFree_body {s : State} {c : Cmd} {b : Buffer} (hv : handleValid s (cmdField c 16 4) = true)
    (hb : bufferOf? s (handleNamed (cmdField c 16 4)) = some b) (hho : cmdField c 20 2 < 0xFFF0)
    (hbit : bitOf (cmdField c 22 1) 0 = false) (ho : b.owner = cmdField c 20 2) (hsh : b.shares = 0) (hp : b.freePending = none)
    (hw : s.pools.waits = []) : cmdPoolGive true c s = .done stOk []
      { s with pools := { s.pools with buffers := s.pools.buffers.filter fun b => b.handle != (handleNamed (cmdField c 16 4)), waits := [] } } := by
  rw [cmdPoolGive_now (s := s) (c := c) true hho hbit
    ((applyPool_true _ _ _ _ _).trans (applyFree_ok ((handleValid_named s _).trans hv) hb ho hsh hp)), freeBuffer_noWaits (s := s) hw]

end Sys2Proof.Machine

namespace Sys2Proof.Claims

open Sys2Proof.Machine

section
variable {s : State} {c : Cmd} (hs : Canon s)
include hs

theorem poolConfig_completes (h : AtHead 0x0601 c s) (hj : s.job.opened = true) (hcl : cmdField c 16 1 < 16)
    (hk : cmdField c 17 1 < 8) (hb : cmdField c 18 1 < 2) (hn : cmdField c 20 4 ≤ 1048576)
    (ha : cmdField c 24 8 % (if cmdField c 17 1 ≤ 1 then classBytes (cmdField c 17 1) else 4096) = 0)
    (hr : poolRegionOk s (cmdField c 16 1) (cmdField c 17 1) ⟨cmdField c 18 1 == 1, cmdField c 24 8, cmdField c 20 4⟩ = true)
    (hu : usedIndices s (cmdField c 16 1) (cmdField c 17 1) = []) (hw : s.pools.waits = []) :
    ∃ t, exec .poolConfig s = .next t ∧ Keeps [.mb, .pools] s t ∧ Completed c stOk [] s t ∧
      poolClass t (cmdField c 16 1) (cmdField c 17 1) = ⟨cmdField c 18 1 == 1, cmdField c 24 8, cmdField c 20 4⟩ ∧
      ∀ cl k : Nat, k < 8 → (cl, k) ≠ (cmdField c 16 1, cmdField c 17 1) → poolClass t cl k = poolClass s cl k := by
  obtain ⟨t, e, hc, kt⟩ := runPlain_completes h (cmdPoolConfig_ok (s := taken s) hj hcl hk hb hn ha hr hu hw) rfl (by decide)
    (by simp [hs])
  have hp := poolClass_put (s := s) (t := t) (by rw [kt.pools_eq rfl]; rfl)
  refine ⟨t, congrArg _ e, .trans (by simp [within]) (kt.mono rfl), hc, by rw [hp, if_pos rfl], fun cl k hk8 hne => ?_⟩
  rw [hp, if_neg fun e => hne (Prod.ext_iff.2 (by dsimp only; omega))]

theorem poolAlloc_completes {i : Nat} (h : AtHead 0x0602 c s) (hj : s.job.opened = true) (hcl : cmdField c 16 1 < 16)
    (h0 : 0 < cmdField c 20 4) (h1 : cmdField c 20 4 ≤ 4194304) (ho : cmdField c 18 2 < 0xFFF0)
    (hi : freeIndex? s (cmdField c 16 1) (fitClass (cmdField c 20 4)) = some i) :
    ∃ t, exec .poolAlloc s = .next t ∧ Keeps [.mb, .pools] s t ∧
      Completed c stOk (natLe 4 (handleOf (cmdField c 16 1) (fitClass (cmdField c 20 4)) i)) s t ∧
      t.pools.buffers =
        ⟨handleOf (cmdField c 16 1) (fitClass (cmdField c 20 4)) i, cmdField c 18 2, 0, none, 0⟩ :: s.pools.buffers := by
  obtain ⟨t, e, hc, kt⟩ := runPlain_completes h (cmdPoolAlloc_ok (s := taken s) hj hcl h0 h1 ho hi) rfl (by decide)
    (takeBuffer_canon _ _ _ _ _ (taken_canon hs))
  refine ⟨t, congrArg _ e, .trans ((taken_keeps rfl).2 (.refl _ s)) (.trans ((takeBuffer_keeps _ _ _ _ _ _ rfl).2 (.refl _ _))
    (kt.mono rfl)), hc, ?_⟩
  rw [kt.pools_eq rfl]; rfl

/-- A command whose body changes one allocated buffer. -/
theorem buffer_changed {op h : Nat} {body : Cmd → State → CmdEnd} {f : Buffer → Buffer} {b : Buffer} (hd : AtHead op c s)
    (hbody : body c (taken s) = .done stOk [] (mapBuffer h f (taken s))) (hb : bufferOf? s h = some b)
    (hf : ∀ x, (f x).handle = x.handle) :
    ∃ t, runPlain op body s = t ∧ Keeps [.mb, .pools] s t ∧ Completed c stOk [] s t ∧ bufferOf? t h = some (f b) := by
  obtain ⟨t, e, hc, kt⟩ := runPlain_completes hd hbody rfl (by decide) (mapBuffer_canon _ _ (taken_canon hs))
  refine ⟨t, e, .trans ((taken_keeps rfl).2 (.refl _ s)) (.trans ((mapBuffer_keeps _ _ _ rfl).2 (.refl _ _)) (kt.mono rfl)), hc, ?_⟩
  have hm := bufferOf_mapBuffer (s := taken s) (f := f) hb hf
  rwa [bufferOf?, ← kt.pools_eq rfl] at hm

theorem poolFree_completes {b : Buffer} (h : AtHead 0x0605 c s) (hv : handleValid s (cmdField c 16 4) = true)
    (hb : bufferOf? s (handleNamed (cmdField c 16 4)) = some b) (hho : cmdField c 20 2 < 0xFFF0)
    (hbit : bitOf (cmdField c 22 1) 0 = false) (ho : b.owner = cmdField c 20 2) (hsh : b.shares = 0) (hp : b.freePending = none)
    (hw : s.pools.waits = []) :
    ∃ t, exec .poolFree s = .next t ∧ Keeps [.mb, .pools] s t ∧ Completed c stOk [] s t ∧
      bufferOf? t (handleNamed (cmdField c 16 4)) = none := by
  have hbody := poolFree_body (s := taken s) hv hb hho hbit ho hsh hp hw
  obtain ⟨t, e, hc, kt⟩ := runPlain_completes h hbody rfl (by decide) (by simp [hs])
  refine ⟨t, congrArg _ e, .trans (by simp [within]) (kt.mono rfl), hc, ?_⟩
  rw [bufferOf?, kt.pools_eq rfl]
  exact List.find?_eq_none.2 fun b hb => by simpa using (List.mem_filter.1 hb).2

theorem poolStatus_finishes (h : AtHead 0x0606 c s) (hcl : cmdField c 16 1 < 16) (ha : argOk c 128 s = true) :
    ∃ t, exec .poolStatus s = .next t ∧ Keeps [.mb, .mem, .time, .errs] s t ∧ Finishes c stOk [] s t ∧
      (∀ i : Nat, i < 128 → memGet t.mem (argAddr c + i) = memGet (poolStatusMem s (cmdField c 16 1)) i) ∧
      ∀ a, (a < argAddr c ∨ argAddr c + 128 ≤ a) → memGet t.mem a = memGet s.mem a := by
  have hbody : cmdPoolStatus c (taken s) = .done stOk []
      (putMem (argAddr c) 128 (poolStatusMem (taken s) (cmdField c 16 1)) (taken s)) := by
    have ha' : argOk c 128 (taken s) = true := ha
    simp [cmdPoolStatus, Nat.not_le.2 hcl, ha']
  obtain ⟨t, e, hc, kt⟩ := runLong_finishes h hbody rfl (by decide) (putMem_canon _ _ _ (taken_canon hs))
  refine ⟨t, congrArg _ e, .trans ((taken_keeps rfl).2 (.refl _ s)) (.trans ((putMem_keeps _ _ _ _ rfl).2 (.refl _ _))
    (kt.mono rfl)), hc, ?_⟩
  rw [kt.mem_eq rfl, putMem_mem]
  exact memCopy_frame hs.mem (by simp [poolStatusMem]) _ _

end

/-- Settles O16. -/
theorem poolCommandsComplete : Obligations.PoolCommandsComplete := by
  unfold Obligations.PoolCommandsComplete
  intro s c hs
  refine ⟨poolConfig_completes hs, fun h hj hcl h0 h1 ho k i hk hi => ?_,
    fun b hv hb => ⟨fun h hp hho ho h0 h1 => ?_, fun h hho hbit ho hsh => ?_, fun h hho hbit ho hsh hp hw => ?_⟩,
    poolStatus_finishes hs⟩
  · subst hk
    exact poolAlloc_completes hs h hj hcl h0 h1 ho hi
  · have hr := applyShare_ok (s := taken s) ((handleValid_named s _).trans hv) hb hp ho h0 h1
    obtain ⟨t, e, ht⟩ := buffer_changed (body := cmdPoolShare) (f := fun b => { b with shares := b.shares + cmdField c 22 2 }) hs h
      (by simp_all [cmdPoolShare, hostOwner]) hb fun _ => rfl
    exact ⟨t, congrArg _ e, ht⟩
  · have hbody := cmdPoolGive_now (s := taken s) (c := c) false hho hbit
      ((applyPool_false _ _ _ _ _).trans (applyRelease_ok (s := taken s) ((handleValid_named s _).trans hv) hb ho hsh))
    obtain ⟨t, e, ht⟩ := buffer_changed (f := fun b => { b with shares := b.shares - 1 }) hs h hbody hb fun _ => rfl
    exact ⟨t, congrArg _ e, ht⟩
  · exact poolFree_completes hs h hv hb hho hbit ho hsh hp hw

end Sys2Proof.Claims
end

section
/-! SUPPORT. Events with a backed ring (R406, R411): they change the event side of the mailbox and the ring's memory, and nothing
else. -/

namespace Sys2Proof.Machine

/-- The mailbox without what a posted event changes: the waiting events, the event ring's tail, the causes and the doorbells. -/
def mailCore (m : Mailbox) : Mailbox :=
  { m with queue := [], eventNo := 0, evtTail := 0, evtSeq := 0, evtCause := 0, doorbells := [] }

/-- Nothing of the mailbox has changed but what a posted event changes, and host-die memory is backed as it was. -/
def MailKept (s t : State) : Prop := mailCore t.mb = mailCore s.mb ∧ t.unbacked = s.unbacked

namespace MailKept
variable {s t u : State}

theorem refl (s : State) : MailKept s s := ⟨rfl, rfl⟩

theorem trans (h : MailKept s t) (g : MailKept t u) : MailKept s u := ⟨g.1.trans h.1, g.2.trans h.2⟩

theorem of_eq (h : t.mb = s.mb) (g : t.unbacked = s.unbacked) : MailKept s t := ⟨by rw [h], g⟩

theorem of_keeps {k : List Part} (h : Keeps k s t) (w : k.contains .mb = false) (v : k.contains .unbacked = false) :
    MailKept s t := of_eq (h.mb_eq w) (h.unbacked_eq v)

theorem cmdHead (h : MailKept s t) : t.mb.cmdHead = s.mb.cmdHead := by
  have := congrArg Mailbox.cmdHead h.1; exact this
theorem cplTail (h : MailKept s t) : t.mb.cplTail = s.mb.cplTail := by
  have := congrArg Mailbox.cplTail h.1; exact this
theorem opened (h : MailKept s t) : t.mb.opened = s.mb.opened := by
  have := congrArg Mailbox.opened h.1; exact this
theorem evtRing (h : MailKept s t) : t.mb.evtRing = s.mb.evtRing := by
  have := congrArg Mailbox.evtRing h.1; exact this
theorem evtHead (h : MailKept s t) : t.mb.evtHead = s.mb.evtHead := by
  have := congrArg Mailbox.evtHead h.1; exact this

theorem foldl {α : Type} {f : State → α → State} {P : State → Prop} (hP : ∀ t u, MailKept t u → P t → P u)
    (h : ∀ t a, P t → MailKept t (f t a)) (l : List α) (s : State) (p : P s) : MailKept s (l.foldl f s) := by
  induction l generalizing s with
  | nil => exact refl s
  | cons a r ih => exact (h s a p).trans (ih _ (hP _ _ (h s a p) p))

end MailKept

theorem hostOk_congr {s t : State} (h : t.unbacked = s.unbacked) (a n : Nat) : hostOk t a n = hostOk s a n := by
  simp only [hostOk, hostBacked, h]

/-- A part of a range that the host die backs is backed. -/
theorem hostOk_sub {s : State} {a n b m : Nat} (h : hostOk s a n = true) (h1 : a ≤ b) (h2 : b + m ≤ a + n) :
    hostOk s b m = true := by
  simp only [hostOk, Bool.and_eq_true, decide_eq_true_eq, hostBacked, Bool.not_eq_true', List.any_eq_false] at h ⊢
  obtain ⟨ha, hn, hb⟩ := h
  refine ⟨by omega, by omega, fun r hr => ?_⟩
  have := hb r hr
  simp only [overlaps, Bool.and_eq_true, decide_eq_true_eq, not_and] at this ⊢
  intro h3 h4 h5
  have := this (by omega) h4 (by omega)
  omega

end Sys2Proof.Machine

namespace Sys2Proof.Claims

open Sys2Proof.Machine

theorem RingBacked.of_mailKept {s t : State} (h : RingBacked s) (g : MailKept s t) : RingBacked t := by
  intro b n e
  rw [g.evtRing] at e
  rw [hostOk_congr g.2]
  exact h b n e

theorem setCause_mailKept (i : Nat) (s : State) : MailKept s (setCause i s) := ⟨rfl, rfl⟩

theorem enqueueEvent_mailKept (typ st tag : Nat) (d : List Byte) (s : State) : MailKept s (enqueueEvent typ st tag d s) := by
  unfold enqueueEvent
  split <;> exact ⟨rfl, rfl⟩

/-- Moving events into a backed ring raises no device fault: memory changes, and the event side of the mailbox. -/
theorem pushEvents_backed (l : List Event) {s : State} (h : RingBacked s) :
    MailKept s (pushEvents l s) ∧ Keeps [.mb, .mem] s (pushEvents l s) := by
  induction l generalizing s with
  | nil => exact ⟨⟨rfl, rfl⟩, by unfold pushEvents; simp [within]⟩
  | cons e r ih =>
    unfold pushEvents
    split
    · exact ⟨⟨rfl, rfl⟩, by simp [within]⟩
    · next b n hr =>
      obtain ⟨hn, hok⟩ := h b n hr
      split
      · have hlt := Nat.mod_lt s.mb.evtTail.toNat hn
        rw [if_pos (hostOk_sub hok (by omega) (by omega))]
        have k : MailKept s (setCause 1 { s with
            mem := memWrite s.mem (b + 32 * (s.mb.evtTail.toNat % n)) (eventBytes e), mb := { s.mb with evtTail := s.mb.evtTail + 1 } }) :=
          ⟨rfl, rfl⟩
        obtain ⟨hm, hk⟩ := ih (h.of_mailKept k)
        exact ⟨k.trans hm, .trans ((setCause_keeps _ _ rfl).2 (by simp [within])) hk⟩
      · exact ⟨⟨rfl, rfl⟩, by simp [within]⟩

theorem postEvent_backed (typ st tag : Nat) (d : List Byte) {s : State} (h : RingBacked s) :
    MailKept s (postEvent typ st tag d s) ∧ Keeps [.mb, .mem] s (postEvent typ st tag d s) := by
  have k := enqueueEvent_mailKept typ st tag d s
  obtain ⟨hm, hk⟩ := pushEvents_backed (enqueueEvent typ st tag d s).mb.queue (h.of_mailKept k)
  exact ⟨k.trans hm, .trans ((enqueueEvent_keeps _ _ _ _ _ rfl).2 (.refl _ s)) hk⟩

end Sys2Proof.Claims
end

section
/-! SUPPORT. The flash commands (R279, R280, R290, R303): what staging and the flags' events leave as it was. -/

namespace Sys2Proof.Machine

/-! ## Extents -/

theorem extentOf_mapExtent {f : Flash} {id : Nat} {x : Extent} {g : Extent → Extent} (h : extentOf? f id = some x)
    (hg : ∀ y, (g y).id = y.id) : extentOf? (mapExtent id g f) id = some (g x) := by
  have hx : x.id = id := by simpa using List.find?_some h
  have e : ((fun y : Extent => y.id == id) ∘ fun y : Extent => if y.id = id then g y else y) = fun y => y.id == id := by
    funext y
    by_cases q : y.id = id <;> simp [q, hg]
  have h' : f.extents.find? (fun y => y.id == id) = some x := h
  simp only [extentOf?, mapExtent, List.find?_map, e, h', Option.map_some, hx, if_true]

theorem extentOf_congr {f g : Flash} (h : f.extents = g.extents) (id : Nat) : extentOf? f id = extentOf? g id := by
  simp only [extentOf?, h]

@[simp] theorem judgeReserve_extents (f : Flash) : (judgeReserve f).extents = f.extents := rfl
@[simp] theorem mapBlock_extents (b : Nat) (g : Block → Block) (f : Flash) : (mapBlock b g f).extents = f.extents := rfl

theorem releaseBlocks_extents (x : Extent) (f : Flash) : (releaseBlocks x f).extents = f.extents := by
  unfold releaseBlocks
  generalize x.blocks = l
  induction l generalizing f with
  | nil => rfl
  | cons b r ih => rw [List.foldl_cons, ih]; split <;> rfl

/-! ## Staging keeps the extents -/

theorem takeBuffer_flash (cl k i len owner : Nat) (s : State) : (takeBuffer cl k i len owner s).flash = s.flash := rfl

theorem allocate_flash {cl len owner h : Nat} {s t : State} (e : allocate? cl len owner s = some (h, t)) : t.flash = s.flash := by
  obtain ⟨k, -, hk⟩ := List.exists_of_findSome?_eq_some e
  cases hf : freeIndex? s cl k with
  | none => simp [hf] at hk
  | some i =>
    simp only [hf, Option.map_some, Option.some.injEq, Prod.mk.injEq] at hk
    rw [← hk.2, takeBuffer_flash]

theorem requestStage_extents (cl : Nat) (e : Nat × Nat) (s : State) : (requestStage cl e s).flash.extents = s.flash.extents := by
  unfold requestStage
  dsimp only
  split
  · next h t he =>
    have := allocate_flash he
    simp [giveStage, this]
  · rfl

theorem startStages_extents (l : List (Nat × Nat)) (s : State) : (startStages l s).flash.extents = s.flash.extents := by
  induction l generalizing s with
  | nil => rfl
  | cons e r ih =>
    unfold startStages
    dsimp only
    split
    · rfl
    · split
      · rw [ih, requestStage_extents]
      · split
        · rfl
        · rw [ih]

end Sys2Proof.Machine

namespace Sys2Proof.Claims

open Sys2Proof.Machine

theorem flashEvent_backed (kind ch target die : Nat) {s : State} (h : RingBacked s) :
    MailKept s (flashEvent kind ch target die s) := (postEvent_backed _ _ _ _ h).1

theorem flashEvent_flash (kind ch target die : Nat) (s : State) : (flashEvent kind ch target die s).flash = s.flash :=
  flash_of_allBut (by simp)

theorem setFlashState_backed (x : FlashState) (cause : Nat) {s : State} (h : RingBacked s) :
    MailKept s (setFlashState x cause s) := by
  unfold setFlashState
  dsimp only
  split
  · exact ⟨rfl, rfl⟩
  · exact MailKept.trans (t := { s with flash := { s.flash with state := x, failCause := cause } }) ⟨rfl, rfl⟩
      (flashEvent_backed _ _ _ _ h)

theorem setFlashState_flash (x : FlashState) (cause : Nat) (s : State) :
    (setFlashState x cause s).flash = { s.flash with state := x, failCause := cause } := by
  unfold setFlashState
  dsimp only
  split
  · rfl
  · rw [flashEvent_flash]

theorem updateFlash_backed (g : Flash → Flash) {s : State} (h : RingBacked s) : MailKept s (updateFlash g s) := by
  unfold updateFlash
  dsimp only
  split
  · exact ⟨rfl, rfl⟩
  · exact MailKept.trans (t := { s with flash := judgeReserve (g s.flash) }) ⟨rfl, rfl⟩ (flashEvent_backed _ _ _ _ h)

theorem updateFlash_flash (g : Flash → Flash) (s : State) : (updateFlash g s).flash = judgeReserve (g s.flash) := by
  unfold updateFlash
  dsimp only
  split
  · rfl
  · rw [flashEvent_flash]

/-! ## Served requests of the pools -/

theorem grantWait_backed (w : PoolWait) (h : Nat) {s : State} (hr : RingBacked s) :
    MailKept s (grantWait w h s) ∧ (grantWait w h s).flash.extents = s.flash.extents := by
  unfold grantWait
  split
  · exact ⟨(postEvent_backed _ _ _ _ hr).1, by rw [flash_of_allBut (s := s) (by simp)]⟩
  · exact ⟨⟨rfl, rfl⟩, rfl⟩
  · exact ⟨⟨rfl, rfl⟩, rfl⟩

theorem allocate_mailKept {cl len owner h : Nat} {s t : State} (e : allocate? cl len owner s = some (h, t)) : MailKept s t := by
  obtain ⟨k, -, hk⟩ := List.exists_of_findSome?_eq_some e
  cases hf : freeIndex? s cl k with
  | none => simp [hf] at hk
  | some i =>
    simp only [hf, Option.map_some, Option.some.injEq, Prod.mk.injEq] at hk
    rw [← hk.2]
    exact ⟨rfl, rfl⟩

theorem serveWaits_backed (l : List PoolWait) {s : State} (hr : RingBacked s) :
    MailKept s (serveWaits l s) ∧ (serveWaits l s).flash.extents = s.flash.extents := by
  induction l generalizing s with
  | nil => exact ⟨⟨rfl, rfl⟩, rfl⟩
  | cons w r ih =>
    unfold serveWaits
    split
    · next h t e =>
      have ht := allocate_mailKept e
      obtain ⟨hg, ge⟩ := grantWait_backed w h (hr.of_mailKept ht)
      obtain ⟨hm, me⟩ := ih (hr.of_mailKept (ht.trans hg))
      exact ⟨(ht.trans hg).trans hm, by rw [me, ge, allocate_flash e]⟩
    · exact ih (s := { s with pools := { s.pools with waits := s.pools.waits ++ [w] } }) hr

theorem freeBuffer_backed (n : Nat) {s : State} (hr : RingBacked s) :
    MailKept s (freeBuffer n s) ∧ (freeBuffer n s).flash.extents = s.flash.extents :=
  serveWaits_backed _ (s := { s with pools := { s.pools with
    buffers := s.pools.buffers.filter fun b => b.handle != n, waits := [] } }) hr

theorem freeBuffers_backed (l : List Nat) {s : State} (hr : RingBacked s) :
    MailKept s (l.foldl (fun t h => freeBuffer h t) s) ∧
      (l.foldl (fun t h => freeBuffer h t) s).flash.extents = s.flash.extents := by
  induction l generalizing s with
  | nil => exact ⟨.refl s, rfl⟩
  | cons n r ih =>
    obtain ⟨h1, e1⟩ := freeBuffer_backed n hr
    obtain ⟨h2, e2⟩ := ih (hr.of_mailKept h1)
    exact ⟨h1.trans h2, e2.trans e1⟩

theorem startStages_mailKept (l : List (Nat × Nat)) (s : State) : MailKept s (startStages l s) :=
  .of_eq (mb_of_allBut (by simp)) (unbacked_of_allBut (by simp))

theorem endStages_backed (ext : Nat) (which : Staged → Bool) {s : State} (hr : RingBacked s) :
    MailKept s (endStages ext which s) ∧ (endStages ext which s).flash.extents = s.flash.extents := by
  unfold endStages
  dsimp only
  generalize hu : State.mk _ _ _ _ _ _ _ _ _ _ _ _ _ _ _ _ _ _ _ _ _ _ = u
  have hm : MailKept s u := by rw [← hu]; exact ⟨rfl, rfl⟩
  have he : u.flash.extents = s.flash.extents := by rw [← hu]
  obtain ⟨h1, e1⟩ := freeBuffers_backed ((s.flash.stages.filter fun g => g.ext == ext && which g).filterMap (·.buffer))
    (hr.of_mailKept hm)
  exact ⟨(hm.trans h1).trans (startStages_mailKept _ _), by rw [startStages_extents, e1, he]⟩

theorem dropStages_backed (ext : Nat) {s : State} (hr : RingBacked s) :
    MailKept s (dropStages ext s) ∧ (dropStages ext s).flash.extents = s.flash.extents :=
  endStages_backed ext _ (s := { s with flash := { s.flash with stageQueue := s.flash.stageQueue.filter fun e => e.1 != ext } }) hr

/-- A command whose body posts events on a backed ring and ends completes. -/
theorem runPlain_completes_kept {s u : State} {c : Cmd} {op st : Nat} {res : List Byte} {body : Cmd → State → CmdEnd}
    (h : AtHead op c s) (e : body c (taken s) = .done st res u) (hm : MailKept (taken s) u) (n : st ≠ stDeferred) (w : Canon u) :
    ∃ t, runPlain op body s = t ∧ Completed c st res s t ∧ Keeps [.mb] u t :=
  ⟨_, runPlain_of_done h e n, completed_postCpl hm.cmdHead hm.cplTail w, (postCpl_keeps _ _ _ _ _ u rfl).2 (.refl _ u)⟩

/-- A command whose body posts events on a backed ring and stays open. -/
theorem runPlain_opens_kept {s u : State} {c : Cmd} {op : Nat} {k : OpenKind} {body : Cmd → State → CmdEnd}
    (h : AtHead op c s) (e : body c (taken s) = .opened k u) (hm : MailKept (taken s) u) :
    ∃ t, runPlain op body s = t ∧ Opened c k s t ∧ Keeps [.mb] u t :=
  ⟨_, runPlain_of_opened h e, opened_leftOpen hm.cmdHead hm.opened, (leftOpen_keeps c k rfl).2 (.refl _ u)⟩

end Sys2Proof.Claims
end

section
/-! SUPPORT. The flash commands on an ONLINE tier, one by one. -/

namespace Sys2Proof.Machine

theorem length_flashRecord (s : State) : (flashRecord s).1.length = 128 := by
  simp only [flashRecord, List.length_append, length_natLe]
  split <;> simp [freeBytes]

theorem flashRecord_taken (s : State) : (flashRecord (taken s)).1 = (flashRecord s).1 := by
  have h : patrolAge? (taken s) = patrolAge? s := rfl
  unfold flashRecord
  rw [h]
  cases patrolAge? s <;> rfl

theorem taken_mem (s : State) : (taken s).mem = s.mem := rfl

theorem stageWrite_extents (id ofs n : Nat) (s : State) : (stageWrite id ofs n s).flash.extents = s.flash.extents :=
  startStages_extents _ _

end Sys2Proof.Machine

namespace Sys2Proof.Claims

open Sys2Proof.Machine

section
variable {s : State} {c : Cmd} (hs : Canon s) (hon : s.flash.state = .online)

include hs in
theorem flashStatus_finishes (h : AtHead 0x0801 c s) (ha : argOk c 128 s = true) :
    ∃ t, exec .flashStatus s = .next t ∧ Finishes c stOk [] s t ∧
      Keeps [.mb, .mem, .time, .errs] s t ∧ memRead t.mem (argAddr c) 128 = (flashRecord s).1 ∧
      ∀ a, (a < argAddr c ∨ argAddr c + 128 ≤ a) → memGet t.mem a = memGet s.mem a := by
  have hk0 : Keeps [.mb] s (taken s) := (taken_keeps rfl).2 (.refl _ s)
  have hr : Keeps [.time] (taken s) (flashRecord (taken s)).2 := (flashRecord_keeps _ rfl).2 (.refl _ _)
  have hb : cmdFlashStatus c (taken s) = .done stOk [] (putBytes (argAddr c) (flashRecord (taken s)).1 (flashRecord (taken s)).2) := by
    have ha' : argOk c 128 (taken s) = true := ha
    simp only [cmdFlashStatus, ha', if_true]
  have hu : Keeps [.mem, .time, .errs] (taken s) (putBytes (argAddr c) (flashRecord (taken s)).1 (flashRecord (taken s)).2) :=
    (putBytes_keeps _ _ _ rfl).2 (hr.mono rfl)
  have hcu : Canon (flashRecord (taken s)).2 := (taken_canon hs).of_keeps hr rfl
  obtain ⟨t, e, hc, kt⟩ := runLong_finishes h hb (hu.mb_eq rfl) (by decide) (putBytes_canon _ _ hcu)
  refine ⟨t, congrArg _ e, hc, .trans (hk0.mono rfl) (.trans (hu.mono rfl) (kt.mono rfl)), ?_⟩
  rw [kt.mem_eq rfl, putBytes_mem, hr.mem_eq rfl, flashRecord_taken, taken_mem]
  exact memWrite_frame hs.mem _ _ (length_flashRecord s)

include hon in
theorem flashFormat_opens (h : AtHead 0x0802 c s) (hkey : cmdField c 16 4 = 0x46424D54) (hf : s.flash.formatting = false)
    (hx : s.flash.extents = []) (hr : RingBacked s) : ∃ t, exec .flashFormat s = .next t ∧ Opened c .flashFormat s t ∧
      t.flash.formatting = true ∧ t.flash.state = .unformatted := by
  have hb : ∃ g : Flash → Flash, (∀ f, (g f).formatting = true) ∧ cmdFlashFormat c (taken s) =
      .opened .flashFormat (setFlashState .unformatted 0 (updateFlash g (taken s))) := by
    have hon' : (taken s).flash.state = .online := hon
    have hx' : (taken s).flash.extents = [] := hx
    have hf' : (taken s).flash.formatting = false := hf
    exact ⟨_, fun f => rfl, by simp [cmdFlashFormat, hkey, hon', hx', hf']; rfl⟩
  obtain ⟨g, hg, hb⟩ := hb
  have hr' : RingBacked (taken s) := hr
  have h1 := updateFlash_backed g hr'
  have h2 := h1.trans (setFlashState_backed .unformatted 0 (hr'.of_mailKept h1))
  obtain ⟨t, e, ho, kt⟩ := runPlain_opens_kept h hb h2
  refine ⟨t, congrArg _ e, ho, ?_⟩
  rw [kt.flash_eq rfl, setFlashState_flash, updateFlash_flash]
  exact ⟨hg _, rfl⟩

include hs hon in
theorem extentCreate_completes {bs : List Nat} {g : Flash} (h : AtHead 0x0803 c s) (hl : extentLenOk (cmdField c 16 8) = true)
    (hlow : s.flash.lowReserve = false) (hfree : stripesOf (cmdField c 16 8) ≤ freeStripes s.flash)
    (hn : s.flash.extents.length < 1048576) (hid : s.flash.nextExtent ≤ 0xFFFFFFFE) (hr : RingBacked s)
    (hd : drawGroups (ceilDiv (stripesOf (cmdField c 16 8)) (groupStripes s.flash.geom)) s.flash = some (bs, g)) :
    ∃ t, exec .extentCreate s = .next t ∧ Completed c stOk (natLe 4 s.flash.nextExtent) s t ∧
      t.flash.nextExtent = s.flash.nextExtent + 1 ∧
      t.flash.extents = s.flash.extents ++ [⟨s.flash.nextExtent, cmdField c 16 8, false, false, 0, [], bs⟩] := by
  have hb : ∃ f : Flash → Flash, (∀ x, (f x).nextExtent = s.flash.nextExtent + 1 ∧
      (f x).extents = s.flash.extents ++ [⟨s.flash.nextExtent, cmdField c 16 8, false, false, 0, [], bs⟩]) ∧
      cmdExtentCreate c (taken s) = .done stOk (natLe 4 s.flash.nextExtent) (updateFlash f (taken s)) := by
    have hon' : (taken s).flash.state = .online := hon
    have hd' : drawGroups (ceilDiv (stripesOf (cmdField c 16 8)) (groupStripes (taken s).flash.geom)) (taken s).flash = some (bs, g) := hd
    have hno : ¬ ((taken s).flash.lowReserve = true ∨ freeStripes (taken s).flash < stripesOf (cmdField c 16 8) ∨
        1048576 ≤ (taken s).flash.extents.length ∨ 0xFFFFFFFE < (taken s).flash.nextExtent) := by
      rintro (q | q | q | q)
      · exact absurd (hlow.symm.trans q) Bool.false_ne_true
      · exact absurd hfree (Nat.not_le.2 q)
      · exact absurd hn (Nat.not_lt.2 q)
      · exact absurd hid (Nat.not_le.2 q)
    refine ⟨fun _ => journalMap { g with nextExtent := s.flash.nextExtent + 1
                                         extents := s.flash.extents ++
                                           [⟨s.flash.nextExtent, cmdField c 16 8, false, false, 0, [], bs⟩] },
      fun x => ⟨rfl, rfl⟩, ?_⟩
    simp only [cmdExtentCreate, hon', hl, hd', if_neg hno, ne_eq, not_true_eq_false, if_false, Bool.not_true, Bool.false_eq_true]
    rfl
  obtain ⟨f, hf, hb⟩ := hb
  have hr' : RingBacked (taken s) := hr
  obtain ⟨t, e, hc, kt⟩ := runPlain_completes_kept h hb (updateFlash_backed f hr') (by decide) (updateFlash_canon _ (taken_canon hs))
  refine ⟨t, congrArg _ e, hc, ?_⟩
  rw [kt.flash_eq rfl, updateFlash_flash]
  exact hf _

include hs hon in
theorem extentWrite_completes {x : Extent} (hx : extentOf? s.flash (cmdField c 16 4) = some x) (hsl : x.sealedExt = false)
    (h : AtHead 0x0804 c s) (hofs : cmdField c 24 8 = x.writePoint) (hn : cmdField c 40 8 % 4096 = 0)
    (hlen : cmdField c 24 8 + cmdField c 40 8 ≤ x.length) (hsrc : writeSourceOk s (cmdField c 32 8) (cmdField c 40 8) = true)
    (hlow : s.flash.lowReserve = false) : ∃ t, exec .extentWrite s = .next t ∧ Keeps [.mb, .flash, .pools] s t ∧
      Completed c stOk [] s t ∧
      (extentOf? t.flash (cmdField c 16 4)).map (·.writePoint) = some (cmdField c 24 8 + cmdField c 40 8) := by
  have hb : ∃ f : Extent → Extent, (∀ y, (f y).id = y.id ∧ (f y).writePoint = cmdField c 24 8 + cmdField c 40 8) ∧
      cmdExtentWrite c (taken s) = .done stOk [] (stageWrite (cmdField c 16 4) (cmdField c 24 8) (cmdField c 40 8)
        { taken s with flash := mapExtent (cmdField c 16 4) f (taken s).flash }) := by
    have hon' : (taken s).flash.state = .online := hon
    have hx' : extentOf? (taken s).flash (cmdField c 16 4) = some x := hx
    have hlow' : (taken s).flash.lowReserve = false := hlow
    have hsrc' : writeSourceOk (taken s) (cmdField c 32 8) (cmdField c 40 8) = true := hsrc
    have hno : ¬ (x.sealedExt = true ∨ cmdField c 24 8 ≠ x.writePoint ∨ cmdField c 40 8 % 4096 ≠ 0 ∨
        x.length < cmdField c 24 8 + cmdField c 40 8 ∨ writeSourceOk (taken s) (cmdField c 32 8) (cmdField c 40 8) = false) := by
      rintro (q | q | q | q | q)
      · exact absurd (hsl.symm.trans q) Bool.false_ne_true
      · exact q hofs
      · exact q hn
      · exact absurd hlen (Nat.not_le.2 q)
      · exact absurd (hsrc'.symm.trans q) (by decide)
    refine ⟨fun y => { y with
        writePoint := cmdField c 24 8 + cmdField c 40 8
        data := memCopy y.data (cmdField c 24 8) (cmdField c 40 8) (memSlice s.mem (cmdField c 32 8) (cmdField c 40 8)) },
      fun y => ⟨rfl, rfl⟩, ?_⟩
    simp only [cmdExtentWrite, hon', hx', if_neg hno, hlow', ne_eq, not_true_eq_false, if_false, Bool.false_eq_true]
    rfl
  obtain ⟨f, hf, hb⟩ := hb
  obtain ⟨t, e, hc, kt⟩ := runPlain_completes h hb (mb_of_allBut (by simp)) (by decide)
    (stageWrite_canon _ _ _ (by simp [hs]))
  refine ⟨t, congrArg _ e, .trans ((stageWrite_keeps _ _ _ _ rfl).2 (by simp [within])) (kt.mono rfl), hc, ?_⟩
  rw [kt.flash_eq rfl, extentOf_congr (stageWrite_extents _ _ _ _)]
  exact (congrArg _ (extentOf_mapExtent hx fun y => (hf y).1)).trans (congrArg some (hf x).2)

include hon in
theorem extentSeal_opens {x : Extent} (hx : extentOf? s.flash (cmdField c 16 4) = some x) (hsl : x.sealedExt = false)
    (h : AtHead 0x0805 c s) : ∃ t, exec .extentSeal s = .next t ∧ Keeps [.mb, .flash, .pools] s t ∧
      Opened c (.extentSeal (cmdField c 16 4)) s t ∧ (extentOf? t.flash (cmdField c 16 4)).map (·.sealing) = some true := by
  have hb : cmdExtentSeal c (taken s) = .opened (.extentSeal (cmdField c 16 4)) (stageRest x
      { taken s with flash := mapExtent (cmdField c 16 4) (fun y => { y with sealing := true }) (taken s).flash }) := by
    have hon' : (taken s).flash.state = .online := hon
    have hx' : extentOf? (taken s).flash (cmdField c 16 4) = some x := hx
    simp [cmdExtentSeal, hon', hx', hsl]
  obtain ⟨t, e, ho, kt⟩ := runPlain_opens h hb (mb_of_allBut (by simp))
  refine ⟨t, congrArg _ e, .trans ((stageRest_keeps _ _ rfl).2 (by simp [within])) (kt.mono rfl), ho, ?_⟩
  have he : (stageRest x { taken s with
      flash := mapExtent (cmdField c 16 4) (fun y => { y with sealing := true }) (taken s).flash }).flash.extents =
      (mapExtent (cmdField c 16 4) (fun y => { y with sealing := true }) s.flash).extents := by
    unfold stageRest
    split
    · rfl
    · rw [startStages_extents]; rfl
  rw [kt.flash_eq rfl, extentOf_congr he, extentOf_mapExtent (g := fun y => { y with sealing := true }) hx fun _ => rfl]
  rfl

include hs hon in
theorem extentDelete_completes {x : Extent} (h : AtHead 0x0806 c s) (hx : extentOf? s.flash (cmdField c 16 4) = some x)
    (hobj : (s.tier.objs.any fun o => o.homeTier == 3 && o.homeAddr == cmdField c 16 4) = false) (ho : s.mb.opened = [])
    (hr : RingBacked s) : ∃ t, exec .extentDelete s = .next t ∧ Completed c stOk [] s t ∧
      extentOf? t.flash (cmdField c 16 4) = none := by
  have hb : ∃ g : Flash → Flash, (∀ f, (g f).extents = f.extents.filter fun y => y.id != cmdField c 16 4) ∧
      cmdExtentDelete c (taken s) = .done stOk [] (closeOpen (closesSeal (cmdField c 16 4) stAborted)
        (dropStages (cmdField c 16 4) (updateFlash g (taken s)))) := by
    have hon' : (taken s).flash.state = .online := hon
    have hx' : extentOf? (taken s).flash (cmdField c 16 4) = some x := hx
    have hobj' : ((taken s).tier.objs.any fun o => o.homeTier == 3 && o.homeAddr == cmdField c 16 4) = false := hobj
    refine ⟨fun f => releaseBlocks x (journalMap { f with extents := f.extents.filter fun y => y.id != cmdField c 16 4 }),
      fun f => by rw [releaseBlocks_extents]; rfl, ?_⟩
    simp only [cmdExtentDelete, hon', hx', hobj', ne_eq, not_true_eq_false, if_false, Bool.false_eq_true]
  obtain ⟨g, hg, hb⟩ := hb
  have hr' : RingBacked (taken s) := hr
  have h1 := updateFlash_backed g hr'
  obtain ⟨h2, e2⟩ := dropStages_backed (cmdField c 16 4) (hr'.of_mailKept h1)
  have hcl : closeOpen (closesSeal (cmdField c 16 4) stAborted) (dropStages (cmdField c 16 4) (updateFlash g (taken s))) =
      dropStages (cmdField c 16 4) (updateFlash g (taken s)) := by
    unfold closeOpen
    rw [(h1.trans h2).opened.trans ho]
    rfl
  rw [hcl] at hb
  obtain ⟨t, e, hc, kt⟩ := runPlain_completes_kept h hb (h1.trans h2) (by decide)
    (dropStages_canon _ (updateFlash_canon _ (taken_canon hs)))
  refine ⟨t, congrArg _ e, hc, ?_⟩
  rw [kt.flash_eq rfl, extentOf?, e2, updateFlash_flash, judgeReserve_extents, hg]
  exact List.find?_eq_none.2 fun y hy => by simpa using (List.mem_filter.1 hy).2

end

/-- Settles O18. -/
theorem flashCommandsComplete : Obligations.FlashCommandsComplete := by
  unfold Obligations.FlashCommandsComplete
  intro s c hs hon
  refine ⟨flashStatus_finishes hs, flashFormat_opens hon, fun bs g => extentCreate_completes hs hon, fun x hx hsl => ⟨?_, ?_⟩, fun x => ?_⟩
  · exact extentWrite_completes hs hon hx hsl
  · exact extentSeal_opens hon hx hsl
  · exact extentDelete_completes hs hon

end Sys2Proof.Claims
end

section
/-! SUPPORT. Residency commands (R249 to R256). -/

namespace Sys2Proof.Machine

theorem copyOf_mapCopy {s : State} {obj tier : Nat} {x : Copy} {f : Copy → Copy} (h : copyOf? s obj tier = some x)
    (hf : ∀ y, (f y).obj = y.obj ∧ (f y).tier = y.tier) : copyOf? (mapCopy obj tier f s) obj tier = some (f x) := by
  have hx : x.obj = obj ∧ x.tier = tier := by simpa using List.find?_some h
  have e : ((fun y : Copy => y.obj == obj && y.tier == tier) ∘ fun y : Copy => if y.obj = obj ∧ y.tier = tier then f y else y) =
      fun y => y.obj == obj && y.tier == tier := by
    funext y
    by_cases q : y.obj = obj ∧ y.tier = tier
    · simp [q, hf]
    · simp [q]
  have h' : s.tier.copies.find? (fun y => y.obj == obj && y.tier == tier) = some x := h
  simp only [copyOf?, mapCopy, List.find?_map, e, h', Option.map_some, if_pos hx]

theorem copyOf_congr {s t : State} (h : t.tier = s.tier) (obj tier : Nat) : copyOf? t obj tier = copyOf? s obj tier := by
  simp only [copyOf?, h]

/-- The object and tier that a residency command names: not the object's home. -/
theorem copyNamed_ne_home {c : Cmd} {s : State} {o : Obj} {k : Nat} (h : copyNamed? c s = some (o, k)) : k ≠ o.homeTier := by
  unfold copyNamed? at h
  dsimp only at h
  split at h
  · cases h
  · split at h
    · next g =>
      obtain ⟨rfl, rfl⟩ := Prod.mk.injEq .. ▸ Option.some.inj h
      exact g.2.1
    · cases h

theorem residency_of_copy {s : State} {o : Obj} {k : Nat} (h : k ≠ o.homeTier) {x : Copy} (hx : copyOf? s o.id k = some x) :
    residency s o k = x.state := by
  simp [residency, h, hx]

theorem residency_of_noCopy {s : State} {o : Obj} {k : Nat} (h : k ≠ o.homeTier) (hx : copyOf? s o.id k = none) :
    residency s o k = .absent := by
  simp [residency, h, hx]

/-- A promotion that starts leaves its copy PROMOTING, with the tags that it answers. -/
theorem copyOf_startCopy {o : Obj} (ho : o.hbmPool = false) (k source : Nat) (tags : List Nat) (s : State) :
    copyOf? (startCopy o k source tags s) o.id k = some (newCopy o.id k source tags) := by
  simp [startCopy, ho, newCopy, copyOf?, putCopy]

theorem copyOf_startPromotion {o : Obj} (ho : o.hbmPool = false) (through : Bool) (k : Nat) (tags : List Nat) (s : State) :
    ∃ source, copyOf? (startPromotion through o k tags s) o.id k = some (newCopy o.id k source tags) := by
  unfold startPromotion
  split
  · exact ⟨_, copyOf_startCopy ho _ _ _ _⟩
  · exact ⟨_, copyOf_startCopy ho _ _ _ _⟩

theorem frameOccupants_none {s : State} {o : Obj} {k : Nat} (hk : occupant? s o k = none) (h2 : occupant? s o 2 = none)
    (through : Bool) : frameOccupants s through o k = [] := by
  cases through <;> simp [frameOccupants, hk, h2]

theorem hbmRoute_keeps_time (o : Obj) (k : Nat) (s : State) : Keeps [.time] s (hbmRoute o k s).2 :=
  (hbmRoute_keeps _ _ _ rfl).2 (.refl _ s)

theorem cmdPromote_ok {c : Cmd} {s : State} {o : Obj} {k : Nat} (hn : copyNamed? c s = some (o, k)) (hw : o.writable = false)
    (hc : copyOf? s o.id k = none) (hk : occupant? s o k = none) (h2 : occupant? s o 2 = none) :
    cmdPromote c s = .done stOk [] (startPromotion (hbmRoute o k s).1 o k [c.tag] (hbmRoute o k s).2) := by
  have hr := residency_of_noCopy (copyNamed_ne_home hn) hc
  simp [cmdPromote, hn, hw, hr, isThere, frameOccupants_none hk h2]

theorem cmdEvict_ok {c : Cmd} {s : State} {o : Obj} {k : Nat} {x : Copy} (hn : copyNamed? c s = some (o, k))
    (hx : copyOf? s o.id k = some x) (hs : x.state = .resident) (hh : x.hold = false) (hg : grantedReaders s o.id k = []) :
    cmdEvict c s = .done stOk [] (beginEvict o.id k [] s) := by
  simp [cmdEvict, hn, hx, hs, hh, hg]

theorem cmdPin_ok {c : Cmd} {s : State} {o : Obj} {k : Nat} {x : Copy} (hn : copyNamed? c s = some (o, k))
    (hx : copyOf? s o.id k = some x) (hs : x.state = .resident) :
    cmdPin c s = .done stOk [] (mapCopy o.id k (fun x => { x with state := .pinned }) (cancelEvicts o.id k s)) := by
  have hr := residency_of_copy (copyNamed_ne_home hn) hx
  simp [cmdPin, hn, hr, hs]

theorem cancelEvicts_none {s : State} (h : s.tier.deferred = []) (obj k : Nat) :
    cancelEvicts obj k s = { s with tier := { s.tier with deferred := [] } } := by
  simp [cancelEvicts, h]

theorem cmdUnpin_ok {c : Cmd} {s : State} {o : Obj} {k : Nat} {x : Copy} (hn : copyNamed? c s = some (o, k))
    (hx : copyOf? s o.id k = some x) (hs : x.state = .pinned) :
    cmdUnpin c s = .done stOk [] (mapCopy o.id k (fun y => { y with state := .resident }) s) := by
  simp [cmdUnpin, hn, hx, hs]

theorem defineObj_ok {s : State} {b : List Byte} (hr : objRecordOk s b = true) (hn : objOf? s (objFrom b false).id = none)
    (hl : s.tier.objs.length < 1048576) :
    defineObj false b s = (stOk, { s with tier := { s.tier with objs := objFrom b false :: s.tier.objs } }) := by
  simp only [defineObj, hr, hn, Nat.not_le.2 hl, Bool.not_true, Bool.false_eq_true, if_false, Option.isSome_none]

end Sys2Proof.Machine

namespace Sys2Proof.Claims

open Sys2Proof.Machine

section
variable {s : State} {c : Cmd} (hs : Canon s)
include hs

theorem objDefine_completes (h : AtHead 0x0501 c s) (ha : argOk c 64 s = true)
    (hr : objRecordOk s (getBytes s (argAddr c) 64) = true)
    (hn : objOf? s (objFrom (getBytes s (argAddr c) 64) false).id = none) (hl : s.tier.objs.length < 1048576) :
    ∃ t, exec .objDefine s = .next t ∧ Keeps [.mb, .tier] s t ∧ Completed c stOk [] s t ∧
      t.tier.objs = objFrom (getBytes s (argAddr c) 64) false :: s.tier.objs := by
  have hb : cmdObjDefine c (taken s) = .done stOk []
      { taken s with tier := { (taken s).tier with objs := objFrom (getBytes s (argAddr c) 64) false :: s.tier.objs } } := by
    have ha' : argOk c 64 (taken s) = true := ha
    have hd := defineObj_ok (s := taken s) (b := getBytes s (argAddr c) 64) hr hn hl
    have hg : getBytes (taken s) (argAddr c) 64 = getBytes s (argAddr c) 64 := rfl
    simp only [cmdObjDefine, ha', hg, hd, Bool.not_true, Bool.false_eq_true, if_false]
    rfl
  obtain ⟨t, e, hc, kt⟩ := runPlain_completes h hb rfl (by decide) (by simp [hs])
  exact ⟨t, congrArg _ e, .trans (by simp [within]) (kt.mono rfl), hc, by rw [kt.tier_eq rfl]⟩

theorem promote_completes {o : Obj} {k : Nat} (hn : copyNamed? c s = some (o, k)) (h : AtHead 0x0502 c s) (hw : o.writable = false)
    (hp : o.hbmPool = false) (hx : copyOf? s o.id k = none) (hk : occupant? s o k = none) (h2 : occupant? s o 2 = none) :
    ∃ t, exec .promote s = .next t ∧ Completed c stOk [] s t ∧ (copyOf? t o.id k).map (·.state) = some .promoting := by
  have hb := cmdPromote_ok (s := taken s) hn hw hx hk h2
  have hr := hbmRoute_keeps_time o k (taken s)
  obtain ⟨src, hcopy⟩ := copyOf_startPromotion hp (hbmRoute o k (taken s)).1 k [c.tag] (hbmRoute o k (taken s)).2
  have hu := (startPromotion_keeps (hbmRoute o k (taken s)).1 o k [c.tag] (hbmRoute o k (taken s)).2
    (k := allBut .mb) (s := taken s) (by simp)).2 (hr.mono (by simp))
  have hcr : Canon (hbmRoute o k (taken s)).2 := (taken_canon hs).of_keeps hr rfl
  obtain ⟨t, e, hc, kt⟩ := runPlain_completes h hb (mb_of_allBut hu) (by decide) (startPromotion_canon _ _ _ _ hcr)
  exact ⟨t, congrArg _ e, hc, by rw [copyOf_congr (kt.tier_eq rfl), hcopy]; rfl⟩

/-- A command whose body changes one copy. -/
theorem copy_changed {op : Nat} {body : Cmd → State → CmdEnd} {obj k : Nat} {f : Copy → Copy} {x : Copy} {u : State}
    (h : AtHead op c s) (hb : body c (taken s) = .done stOk [] (mapCopy obj k f u)) (hu : Keeps [.tier] (taken s) u)
    (hx : copyOf? u obj k = some x) (hf : ∀ y, (f y).obj = y.obj ∧ (f y).tier = y.tier) :
    ∃ t, runPlain op body s = t ∧ Keeps [.mb, .tier] s t ∧ Completed c stOk [] s t ∧ copyOf? t obj k = some (f x) := by
  have hm : Keeps [.tier] (taken s) (mapCopy obj k f u) := (mapCopy_keeps _ _ _ _ rfl).2 hu
  obtain ⟨t, e, hc, kt⟩ := runPlain_completes h hb (hm.mb_eq rfl) (by decide) ((taken_canon hs).of_keeps hm rfl)
  refine ⟨t, e, .trans ((taken_keeps rfl).2 (.refl _ s)) (.trans (hm.mono rfl) (kt.mono rfl)), hc, ?_⟩
  rw [copyOf_congr (kt.tier_eq rfl), copyOf_mapCopy hx hf]

end

/-- Settles O15. -/
theorem residencyCommandsComplete : Obligations.ResidencyCommandsComplete := by
  unfold Obligations.ResidencyCommandsComplete
  intro s c hs
  refine ⟨objDefine_completes hs, fun o k hn => ⟨promote_completes hs hn, fun x h hx hst hh hg => ?_, fun x h hx hst hd => ?_,
    fun x h hx hst => ?_⟩⟩
  · have hb := cmdEvict_ok (s := taken s) hn hx hst hh hg
    obtain ⟨t, e, hk, hc, ht⟩ := copy_changed (f := fun c => { c with state := .evicting, hold := false, evictTags := c.evictTags ++ [] })
      hs h hb (.refl _ _) hx fun _ => ⟨rfl, rfl⟩
    exact ⟨t, congrArg _ e, hk, hc, by rw [ht]; rfl⟩
  · have hb := cmdPin_ok (s := taken s) hn hx hst
    rw [cancelEvicts_none (s := taken s) hd] at hb
    obtain ⟨t, e, hk, hc, ht⟩ := copy_changed (f := fun x => { x with state := .pinned }) hs h hb (by simp [within]) hx
      fun _ => ⟨rfl, rfl⟩
    exact ⟨t, congrArg _ e, hk, hc, by rw [ht]; rfl⟩
  · have hb := cmdUnpin_ok (s := taken s) hn hx hst
    obtain ⟨t, e, hk, hc, ht⟩ := copy_changed (f := fun y => { y with state := .resident }) hs h hb (.refl _ _) hx
      fun _ => ⟨rfl, rfl⟩
    exact ⟨t, congrArg _ e, hk, hc, by rw [ht]; rfl⟩

end Sys2Proof.Claims
end

section
/-! SUPPORT. GRANT and the aborts (R226 to R231, R238 to R240, R470). -/

namespace Sys2Proof.Machine

/-- A local cause that finds a run which nothing has stopped: the run is stopping for it. -/
theorem stepFault_run {s : State} {r : Run} (hr : s.ctl.run = some r) (hf : r.fault = none) (cause : Nat) :
    (stepFault cause s).ctl.run = some { r with fault := some ⟨cause, true, selfId s⟩ } := by
  simp only [stepFault, hr, hf]
  rw [ctl_of_allBut ((soundGongOn_keeps (k := allBut .ctl) (upPorts s) r.g.step.toNat r.g.attempt cause
    { s with ctl := { s.ctl with run := some { r with fault := some ⟨cause, true, selfId s⟩ } } } (by simp)).2 (.refl _ _))]

/-! ## GRANT -/

/-- The steps that an ordinary grant adds. -/
def grantSteps (g : Grant) (launch : Bool) (now : Nat) (r : GrantRec) : List GStep :=
  (List.range r.count).map fun i =>
    { step := BitVec.ofNat 32 (r.first + i), sched := schedOf r i, head := i == 0, grant := g
      launch := i == 0 && launch, attempt := 0, tGranted := now }

theorem acceptGrant_ctl (im : Image) (r : GrantRec) (s : State) :
    (∃ g launch now, (acceptGrant im r s).ctl.granted = s.ctl.granted ++ grantSteps g launch now r) ∧
      (acceptGrant im r s).ctl.nextStep = some (BitVec.ofNat 32 (r.first + r.count)) :=
  ⟨⟨_, _, _, rfl⟩, rfl⟩

theorem grantSteps_get (g : Grant) (launch : Bool) (now : Nat) (r : GrantRec) {i : Nat} (hi : i < r.count) :
    ((grantSteps g launch now r)[i]?).map (fun g => (g.step, g.sched)) = some (BitVec.ofNat 32 (r.first + i), schedOf r i) := by
  simp [grantSteps, hi]

theorem cmdGrant_ok {s : State} {c : Cmd} {im : Image} {r : GrantRec} (hb : boundImage? s = some im) (ha : argOk c 64 s = true)
    (hrec : grantRec (getBytes s (argAddr c) 64) = r) (hrep : isReplay r = false)
    (hn : s.ctl.nextStep.all (fun n => n == BitVec.ofNat 32 r.first) = true) (hf : grantFieldsOk s im r = true)
    (hbias : grantBiasOk s im r = true) (hch : (changesOf s r).all (changeTargetOk s im) = true)
    (hsl : grantSlotsOk s im r = true) (had : admitsOk (stagedLasting s) (changesOf s r) = true)
    (hroom : s.ctl.granted.length + r.count ≤ 8) : cmdGrant c s = granted (acceptGrant im r s) := by
  have hn' : s.ctl.nextStep.any (fun n => n != BitVec.ofNat 32 r.first) = false := by
    cases h : s.ctl.nextStep with
    | none => rfl
    | some n => simpa [h] using hn
  simp only [cmdGrant, hb, ha, hrec, hrep, hn', hf, hbias, hch, hsl, had, Nat.not_lt.2 hroom, Bool.not_true, Bool.false_eq_true,
    if_false]

/-! ## The aborts -/

theorem cmdAbortStep_running {s : State} {c : Cmd} {r : Run} (hr : s.ctl.run = some r)
    (hn : r.g.step = BitVec.ofNat 32 (cmdField c 16 4)) :
    cmdAbortStep c s = .opened (.abortStep r.g.step) (stepFault fcHostAbort s) := by
  simp [cmdAbortStep, hr, hn]

theorem cmdAbortStep_past {s : State} {c : Cmd} (hr : s.ctl.run = none)
    (hq : stepQueued s (BitVec.ofNat 32 (cmdField c 16 4)) = false) :
    ∃ st, cmdAbortStep c s = .done st [] s ∧ st ≠ stDeferred ∧
      st = (match s.ctl.past.find? fun p => p.g.step == BitVec.ofNat 32 (cmdField c 16 4) with
        | some p => if p.completed then stAlreadyDone else stAborted
        | none => stBadArg) := by
  simp only [cmdAbortStep, hr, hq, Option.any_none, Bool.false_eq_true, if_false, reject]
  cases s.ctl.past.find? fun p => p.g.step == BitVec.ofNat 32 (cmdField c 16 4) with
  | none => exact ⟨_, rfl, by decide, rfl⟩
  | some p => cases h : p.completed <;> exact ⟨_, rfl, by simp only [h]; decide, by simp [h]⟩

theorem abortLaunch_keeps_launch (s : State) : Keeps [.rem, .launch] s (abortLaunch s) :=
  (abortLaunch_keeps s rfl).2 (.refl _ s)

theorem cmdAbortJob_running {s : State} {c : Cmd} {im : Image} {r : Run} (hi : s.job.image = some im) (hr : s.ctl.run = some r) :
    cmdAbortJob c s = .opened .abortJob (stepFault fcHostAbort (abortLaunch s)) := by
  have h : (abortLaunch s).ctl.run = some r := by rw [(abortLaunch_keeps_launch s).ctl_eq rfl, hr]
  simp only [cmdAbortJob, hi, h, Option.isSome_some, if_true]

/-- With no pool command bound to a step, withdrawing everything posts no event. -/
theorem abortJobStage_noBound {s : State} (h : s.pools.bound = []) : Keeps (allBut .mb) s (abortJobStage s) ∧
    (abortJobStage s).ctl.granted = [] ∧ (abortJobStage s).ctl.armed = none ∧ (abortJobStage s).ctl.replay = [] ∧
    (abortJobStage s).ctl.noCurrent = true := by
  have hp : (withdrawSteps s).pools.bound = [] := h
  unfold abortJobStage
  dsimp only
  have hb : abortBound (withdrawSteps s) = { withdrawSteps s with pools := { (withdrawSteps s).pools with bound := [] } } := by
    simp [abortBound, hp]
  rw [hb]
  refine ⟨?_, rfl, rfl, rfl, rfl⟩
  simp

theorem cmdAbortJob_idle {s : State} {c : Cmd} {im : Image} (hi : s.job.image = some im) (hr : s.ctl.run = none) :
    cmdAbortJob c s = .opened .abortJob (abortJobStage (abortLaunch s)) ∨
      cmdAbortJob c s = .done stOk [] (abortJobStage (abortLaunch s)) := by
  have h : (abortLaunch s).ctl.run = none := by rw [(abortLaunch_keeps_launch s).ctl_eq rfl, hr]
  simp only [cmdAbortJob, hi, h, Option.isSome_none, Bool.false_eq_true, if_false]
  split
  · exact .inl rfl
  · exact .inr rfl

end Sys2Proof.Machine

namespace Sys2Proof.Claims

open Sys2Proof.Machine

theorem grant_completes {s : State} {c : Cmd} {im : Image} {r : GrantRec} (hs : Canon s) (h : AtHead 0x0401 c s)
    (hb : boundImage? s = some im) (ha : argOk c 64 s = true) (hrec : grantRec (getBytes s (argAddr c) 64) = r)
    (hrep : isReplay r = false) (hn : s.ctl.nextStep.all (fun n => n == BitVec.ofNat 32 r.first) = true)
    (hf : grantFieldsOk s im r = true) (hbias : grantBiasOk s im r = true)
    (hch : (changesOf s r).all (changeTargetOk s im) = true) (hsl : grantSlotsOk s im r = true)
    (had : admitsOk (stagedLasting s) (changesOf s r) = true) (hroom : s.ctl.granted.length + r.count ≤ 8) :
    ∃ t, exec .grant s = .next t ∧ Keeps [.mb, .ctl, .time] s t ∧
      t.ctl.nextStep = some (BitVec.ofNat 32 (r.first + r.count)) ∧
      t.ctl.granted.length = s.ctl.granted.length + r.count ∧ t.ctl.granted.take s.ctl.granted.length = s.ctl.granted ∧
      (∀ i : Nat, i < r.count → (t.ctl.granted[s.ctl.granted.length + i]?).map (fun g => (g.step, g.sched)) =
        some (BitVec.ofNat 32 (r.first + i), schedOf r i)) ∧
      Completed c stOk (natLe 4 (BitVec.ofNat 32 (r.first + r.count) - 1 : Word).toNat) s t := by
  have hbody := cmdGrant_ok (s := taken s) (c := c) (r := r) hb ha hrec hrep hn hf hbias hch hsl had hroom
  obtain ⟨⟨g, launch, now, hg⟩, hnext⟩ := acceptGrant_ctl im r (taken s)
  have hk : Keeps [.ctl, .time] (taken s) (acceptGrant im r (taken s)) := (acceptGrant_keeps im r (taken s) rfl).2 (.refl _ _)
  rw [granted, hnext, Option.getD_some] at hbody
  obtain ⟨t, e, hc, kt⟩ := runPlain_completes h hbody (hk.mb_eq rfl) (by decide) ((taken_canon hs).of_keeps hk rfl)
  have hg' : t.ctl.granted = s.ctl.granted ++ grantSteps g launch now r := by rw [kt.ctl_eq rfl, hg]; rfl
  have hlen : (grantSteps g launch now r).length = r.count := by simp [grantSteps]
  refine ⟨t, congrArg _ e, .trans ((taken_keeps rfl).2 (.refl _ s)) (.trans (hk.mono rfl) (kt.mono rfl)),
    by rw [kt.ctl_eq rfl, hnext], by rw [hg', List.length_append, hlen], by rw [hg', List.take_left], fun i hi => ?_, hc⟩
  rw [hg', List.getElem?_append_right (Nat.le_add_right _ _), Nat.add_sub_cancel_left]
  exact grantSteps_get g launch now r hi

/-- Settles O12. -/
theorem grantAddsItsSteps : Obligations.GrantAddsItsSteps := by
  unfold Obligations.GrantAddsItsSteps
  intro s c im hs h hb ha
  exact grant_completes hs h hb ha rfl

section
variable {s : State} {c : Cmd}

theorem abortStep_stopsRun (h : AtHead 0x0402 c s) {r : Run} (hr : s.ctl.run = some r) (hf : r.fault = none)
    (hn : r.g.step = BitVec.ofNat 32 (cmdField c 16 4)) :
    ∃ t, exec .abortStep s = .next t ∧ Keeps [.mb, .ctl, .rem, .launch] s t ∧ Opened c (.abortStep r.g.step) s t ∧
      t.ctl.run = some { r with fault := some ⟨0x01, true, selfId s⟩ } := by
  have hk : Keeps [.ctl, .rem, .launch] (taken s) (stepFault fcHostAbort (taken s)) := (stepFault_keeps _ _ rfl).2 (.refl _ _)
  obtain ⟨t, e, ho, kt⟩ := runPlain_opens h (cmdAbortStep_running (s := taken s) hr hn) (hk.mb_eq rfl)
  refine ⟨t, congrArg _ e, .trans ((taken_keeps rfl).2 (.refl _ s)) (.trans (hk.mono rfl) (kt.mono rfl)), ho, ?_⟩
  rw [kt.ctl_eq rfl]
  exact stepFault_run (s := taken s) hr hf _

theorem abortJob_eq_runPlain (ho : s.mb.opened = []) : exec .abortJob s = .next (runPlain 0x0403 cmdAbortJob s) := by
  have : exec .abortJob s = .next (if s.mb.opened.all isPeal then runPlain 0x0403 cmdAbortJob s else s) := rfl
  rw [this, ho, List.all_nil, if_pos rfl]

theorem abortJob_stopsRun (h : AtHead 0x0403 c s) (ho : s.mb.opened = []) {im : Image} {r : Run} (hi : s.job.image = some im)
    (hr : s.ctl.run = some r) (hf : r.fault = none) : ∃ t, exec .abortJob s = .next t ∧ Opened c .abortJob s t ∧
      t.ctl.run = some { r with fault := some ⟨0x01, true, selfId s⟩ } := by
  have hl := abortLaunch_keeps_launch (taken s)
  have hk : Keeps [.ctl, .rem, .launch] (taken s) (stepFault fcHostAbort (abortLaunch (taken s))) :=
    (stepFault_keeps _ _ rfl).2 (hl.mono rfl)
  obtain ⟨t, e, hop, kt⟩ := runPlain_opens h (cmdAbortJob_running (s := taken s) (r := r) hi hr) (hk.mb_eq rfl)
  refine ⟨t, (abortJob_eq_runPlain ho).trans (congrArg _ e), hop, ?_⟩
  have hid : selfId (abortLaunch (taken s)) = selfId s := by
    simp only [selfId, hl.fab_eq rfl]; rfl
  rw [kt.ctl_eq rfl, stepFault_run (s := abortLaunch (taken s)) (by rw [hl.ctl_eq rfl]; exact hr) hf, hid]
  rfl

theorem abortJob_withdraws (h : AtHead 0x0403 c s) (ho : s.mb.opened = []) {im : Image} (hi : s.job.image = some im)
    (hr : s.ctl.run = none) (hb : s.pools.bound = []) : ∃ t, exec .abortJob s = .next t ∧
      t.mb.cmdHead = s.mb.cmdHead + 1 ∧ t.ctl.granted = [] ∧ t.ctl.armed = none ∧ t.ctl.replay = [] ∧ t.ctl.noCurrent = true := by
  have hl := abortLaunch_keeps_launch (taken s)
  obtain ⟨hk, hctl⟩ := abortJobStage_noBound (s := abortLaunch (taken s)) (by rw [hl.pools_eq rfl]; exact hb)
  have hmb : (abortJobStage (abortLaunch (taken s))).mb = (taken s).mb := (mb_of_allBut hk).trans (hl.mb_eq rfl)
  rcases cmdAbortJob_idle (s := taken s) (c := c) hi hr with hbody | hbody
  · obtain ⟨t, e, hop, kt⟩ := runPlain_opens h hbody hmb
    exact ⟨t, (abortJob_eq_runPlain ho).trans (congrArg _ e), hop.1, by rw [kt.ctl_eq rfl]; exact hctl⟩
  · have e := runPlain_of_done h hbody (by decide)
    refine ⟨_, (abortJob_eq_runPlain ho).trans (congrArg _ e), congrArg Mailbox.cmdHead hmb, hctl⟩

end

/-- Settles O13. -/
theorem abortsStopAndWithdraw : Obligations.AbortsStopAndWithdraw := by
  unfold Obligations.AbortsStopAndWithdraw
  intro s c hs
  have hk0 : Keeps [.mb] s (taken s) := (taken_keeps rfl).2 (.refl _ s)
  refine ⟨fun h => ⟨fun r => abortStep_stopsRun h, fun hr hq => ?_⟩, fun h ho => ⟨fun hi => ?_,
    fun im r => abortJob_stopsRun h ho, fun im => abortJob_withdraws h ho⟩⟩
  · obtain ⟨st, hb, hne, hst⟩ := cmdAbortStep_past (s := taken s) (c := c) hr hq
    obtain ⟨t, e, hc, kt⟩ := runPlain_completes h hb rfl hne (taken_canon hs)
    refine ⟨t, congrArg _ e, hk0.trans kt, ?_⟩
    rw [hst] at hc
    exact hc
  · have hb : cmdAbortJob c (taken s) = .done stBadState [] (taken s) := by
      have hi' : (taken s).job.image = none := hi
      simp only [cmdAbortJob, hi', reject]
    obtain ⟨t, e, hc, kt⟩ := runPlain_completes h hb rfl (by decide) (taken_canon hs)
    exact ⟨t, (abortJob_eq_runPlain ho).trans (congrArg _ e), hk0.trans kt, hc⟩

end Sys2Proof.Claims
end

section
/-! SUPPORT. JOB_OPEN, LOAD_IMAGE, BIND and JOB_CLOSE (R34, R36, R268, R419, R426, R427). -/

namespace Sys2Proof.Machine

/-! ## LOAD_IMAGE with nothing loaded -/

theorem unloadImage_none {s : State} (hi : s.job.image = none) (ho : s.tier.objs = []) (hc : s.tier.copies = []) :
    unloadImage s = s := by
  have hj : ({ s.job with image := none } : Job) = s.job := by rw [← hi]
  have ht : ({ s.tier with objs := s.tier.objs.filter fun o => !o.ofImage } : Tiers) = s.tier := by
    have : s.tier.objs.filter (fun o => !o.ofImage) = s.tier.objs := by rw [ho]; rfl
    rw [this]
  unfold unloadImage
  rw [hc]
  simp only [List.filter_nil, List.foldl_nil, hj, ht]

/-- Bursts that a loaded section covers are good again; nothing else changes. -/
theorem replaceAll_keeps (l : List Section) (s : State) :
    Keeps [.errs] s (l.foldl (fun t x => replaceBursts x.load x.len t) s) :=
  Keeps.foldl _ (fun t x => (replaceBursts_keeps _ _ _ rfl).2 (.refl _ t)) _ _

section
variable {s : State} {a len : Nat} {im : Image} (hb : hostOk s a len = true) (hl : 128 ≤ len)
  (him : imageOf (memSlice s.mem a len) len = im)
include hb hl him

theorem loadImage_refused (h : imageOk s im = false) : loadImage a len s = (stBadArg, [], s) := by
  have hno : ¬ (hostOk s a len = false ∨ len < 128) := by simp [hb]; omega
  simp only [loadImage, hno, if_false, him, h, Bool.not_false, if_true]

theorem loadImage_accepted (h : imageOk s im = true) (hm : sectionLen im 7 0 = 0) :
    ∃ u, loadImage a len s = (stOk, natLe 4 im.imageId.toNat, u) ∧ Keeps [.mem, .job, .errs] s u ∧ u.job.image = some im ∧
      u.mem = copySections im im.sections s.mem := by
  have hno : ¬ (hostOk s a len = false ∨ len < 128) := by simp [hb]; omega
  have hk := replaceAll_keeps (im.sections.filter isLoaded)
    { s with mem := copySections im im.sections s.mem, job := { s.job with image := some im } }
  refine ⟨_, ?_, .trans ?_ (hk.mono rfl), by rw [hk.job_eq rfl], by rw [hk.mem_eq rfl]⟩
  · simp only [loadImage, hno, if_false, him, h, Bool.not_true, Bool.false_eq_true, hm, Nat.zero_div, defineManifest, if_true]
  · simp [within]

end

theorem cmdLoadImage_idle {s : State} {c : Cmd} (hj : s.job.opened = true) (hi : s.job.image = none) (ho : s.tier.objs = [])
    (hc : s.tier.copies = []) : cmdLoadImage c s =
      .done (loadImage (cmdField c 16 8) (cmdField c 24 8) s).1 (loadImage (cmdField c 16 8) (cmdField c 24 8) s).2.1
        (loadImage (cmdField c 16 8) (cmdField c 24 8) s).2.2 := by
  have hb : boundImage? s = none := by simp [boundImage?, hi]
  have hp : imagePromoting s = false := by simp [imagePromoting, hc]
  simp only [cmdLoadImage, hj, hb, hp, unloadImage_none hi ho hc, Option.isSome_none, Bool.true_eq_false, Bool.false_eq_true,
    or_self, if_false]

/-! ## JOB_CLOSE -/

theorem abortDeferred_none {s : State} (hd : s.tier.deferred = []) (hc : s.tier.copies = []) :
    Keeps [.tier] s (abortDeferred s) := by
  unfold abortDeferred
  simp only [hd, hc, List.foldl_nil, List.map_nil]
  simp [within]

theorem abortWaits_none {s : State} (h : s.pools.waits = []) :
    abortWaits s = { s with pools := { s.pools with waits := [] } } := by
  simp only [abortWaits, h, List.foldl_nil]

theorem abortBound_none {s : State} (h : s.pools.bound = []) :
    abortBound s = { s with pools := { s.pools with bound := [] } } := by
  simp only [abortBound, h, List.foldl_nil]

theorem abortFrees_none {s : State} (h : ∀ b ∈ s.pools.buffers, b.freePending = none) : abortFrees s = s := by
  unfold abortFrees
  generalize s.pools.buffers = l at h
  induction l with
  | nil => rfl
  | cons b r ih =>
    rw [List.foldl_cons, h b List.mem_cons_self]
    exact ih fun x hx => h x (List.mem_cons_of_mem _ hx)

theorem cmdJobClose_ok {s : State} {c : Cmd} (hj : s.job.opened = true) (hh : stepHeld s = false) (hp : s.launch.pend = none)
    (ha : anyPromoting s = false) : cmdJobClose c s = .done stOk [] (closeJob s) := by
  simp only [cmdJobClose, hj, hh, hp, ha, Option.isSome_none, Bool.true_eq_false, Bool.false_eq_true, or_self, if_false]

/-- What a closed job leaves of the parts that it had. -/
theorem closeJob_parts (s : State) : (closeJob s).job = Job.init ∧ (closeJob s).ctl.granted = [] ∧ (closeJob s).ctl.run = none ∧
    (closeJob s).rem.windows = [] ∧ (closeJob s).launch.tree = none ∧ (closeJob s).tier.objs = [] := by
  unfold closeJob
  dsimp only
  rw [job_of_allBut ((restage_keeps _ (by simp)).2 ((checkpointReads_keeps _ (by simp)).2 (.refl _ _))),
    ctl_of_allBut ((restage_keeps _ (by simp)).2 ((checkpointReads_keeps _ (by simp)).2 (.refl _ _))),
    rem_of_allBut ((restage_keeps _ (by simp)).2 ((checkpointReads_keeps _ (by simp)).2 (.refl _ _))),
    launch_of_allBut ((restage_keeps _ (by simp)).2 ((checkpointReads_keeps _ (by simp)).2 (.refl _ _))),
    tier_of_allBut ((restage_keeps _ (by simp)).2 ((checkpointReads_keeps _ (by simp)).2 (.refl _ _)))]
  exact ⟨rfl, rfl, rfl, rfl, rfl, rfl⟩

end Sys2Proof.Machine

namespace Sys2Proof.Claims

open Sys2Proof.Machine

/-- FREEs that wait end with events, which a backed ring takes. -/
theorem abortFrees_backed {s : State} (h : RingBacked s) : MailKept s (abortFrees s) := by
  unfold abortFrees
  refine MailKept.foldl (P := RingBacked) (fun t u k p => p.of_mailKept k) (fun t b p => ?_) _ _ h
  split
  · next tag _ =>
    exact (postEvent_backed 2 stAborted tag (poolDetail b.handle b.owner 0x05 b.freeStep) p).1.trans (.of_eq (mb_of_allBut (by simp)) (unbacked_of_allBut (by simp)))
  · exact .refl t

theorem closeJob_mailKept {s : State} (hd : s.tier.deferred = []) (hc : s.tier.copies = []) (hw : s.pools.waits = [])
    (hb : s.pools.bound = []) (hr : RingBacked s ∨ ∀ b ∈ s.pools.buffers, b.freePending = none) : MailKept s (closeJob s) := by
  have k1 := abortDeferred_none hd hc
  have e1 : (abortDeferred s).pools = s.pools := k1.pools_eq rfl
  have e2 := abortWaits_none (s := abortDeferred s) (by rw [e1, hw])
  have e3 := abortBound_none (s := abortWaits (abortDeferred s)) (by rw [e2]; exact e1 ▸ hb)
  have m1 : MailKept s (abortBound (abortWaits (abortDeferred s))) := by
    rw [e3, e2]
    exact .of_eq (k1.mb_eq rfl) (k1.unbacked_eq rfl)
  have m2 : MailKept s (abortFrees (abortBound (abortWaits (abortDeferred s)))) := by
    rcases hr with hr | hr
    · exact m1.trans (abortFrees_backed (hr.of_mailKept m1))
    · rw [abortFrees_none]
      · exact m1
      · rw [e3, e2]
        dsimp only
        rwa [e1]
  refine m2.trans (.of_eq ?_ ?_)
  · exact mb_of_allBut ((restage_keeps _ (by simp)).2 ((checkpointReads_keeps _ (by simp)).2 (by simp)))
  · exact unbacked_of_allBut ((restage_keeps _ (by simp)).2 ((checkpointReads_keeps _ (by simp)).2 (by simp)))

section
variable {s : State} {c : Cmd} (hs : Canon s) (ho : s.mb.opened = [])
include hs ho

theorem jobOpen_completes (h : AtHead 0x0201 c s) (hj : s.job.opened = false) (h0 : cmdField c 16 2 ≠ 0)
    (h1 : cmdField c 16 2 ≠ 0xFFFF) :
    ∃ t, exec .jobOpen s = .next t ∧ Keeps [.mb, .job, .rem, .pools] s t ∧ Completed c stOk [] s t ∧
      t.job = { Job.init with
        opened := true, id := BitVec.ofNat 16 (cmdField c 16 2), rank := BitVec.ofNat 16 (cmdField c 20 2) } ∧
      t.rem.windows = [] ∧ t.rem.pairs = [] ∧ t.pools.classes = [] := by
  have hb : cmdJobOpen c (taken s) = .done stOk [] { taken s with
      job := { Job.init with opened := true, id := BitVec.ofNat 16 (cmdField c 16 2), rank := BitVec.ofNat 16 (cmdField c 20 2) }
      rem := { (taken s).rem with pairs := [], windows := [], firstRefuse := none }
      pools := { (taken s).pools with classes := [], fallbacks := [], doubleFrees := [] } } := by
    have hj' : (taken s).job.opened = false := hj
    simp only [cmdJobOpen, hj', h0, h1, or_self, if_false, Bool.false_eq_true]
  obtain ⟨t, e, hc, kt⟩ := runPlain_completes h hb rfl (by decide) (by simp [hs])
  refine ⟨t, congrArg _ ((runSerial_eq_runPlain ho).trans e), .trans (by simp [within]) (kt.mono rfl), hc, by rw [kt.job_eq rfl], ?_⟩
  rw [kt.rem_eq rfl, kt.pools_eq rfl]
  exact ⟨rfl, rfl, rfl⟩

theorem loadImage_completes {im : Image} (h : AtHead 0x0301 c s) (hj : s.job.opened = true) (hi : s.job.image = none)
    (hobj : s.tier.objs = []) (hcp : s.tier.copies = []) (hb : hostOk s (cmdField c 16 8) (cmdField c 24 8) = true)
    (hl : 128 ≤ cmdField c 24 8) (him : imageOf (memSlice s.mem (cmdField c 16 8) (cmdField c 24 8)) (cmdField c 24 8) = im) :
    ∃ t, exec .loadImage s = .next t ∧
      (imageOk s im = true → sectionLen im 7 0 = 0 →
        Completed c stOk (natLe 4 im.imageId.toNat) s t ∧ t.job.image = some im ∧ t.mem = copySections im im.sections s.mem) ∧
      (imageOk s im = false → Completed c stBadArg [] s t ∧ t.job.image = none ∧ t.mem = s.mem) := by
  have hbody := cmdLoadImage_idle (s := taken s) (c := c) hj hi hobj hcp
  have hcan := loadImage_canon (cmdField c 16 8) (cmdField c 24 8) (taken_canon hs)
  refine ⟨runPlain 0x0301 cmdLoadImage s, congrArg _ (runSerial_eq_runPlain ho), fun hok hm => ?_, fun hbad => ?_⟩
  · obtain ⟨u, hu, ku, hji, hmem⟩ := loadImage_accepted (s := taken s) hb hl him hok hm
    rw [hu] at hbody hcan
    obtain ⟨t, e, hc, kt⟩ := runPlain_completes h hbody (ku.mb_eq rfl) (show stOk ≠ stDeferred by decide) hcan
    rw [e]
    exact ⟨hc, by rw [kt.job_eq rfl, hji], by rw [kt.mem_eq rfl, hmem]; rfl⟩
  · rw [loadImage_refused (s := taken s) hb hl him hbad] at hbody
    obtain ⟨t, e, hc, kt⟩ := runPlain_completes h hbody rfl (show stBadArg ≠ stDeferred by decide) (taken_canon hs)
    rw [e]
    exact ⟨hc, by rw [kt.job_eq rfl]; exact hi, by rw [kt.mem_eq rfl]; rfl⟩

theorem bind_completes {im : Image} (h : AtHead 0x0302 c s) (hi : s.job.image = some im) (hbd : im.bound = false)
    (hd : im.digest = s.boot.digest) (hn : 2 ≤ reportEntries s im) :
    ∃ t, exec .bind s = .next t ∧ Keeps [.mb, .ctr, .job, .ctl] s t ∧
      Completed c stOk (natLe 4 (reportSize im) ++ natLe 4 (reportEntries s im)) s t ∧
      t.job.image = some { im with bound := true } ∧ t.mb.rptSize = reportSize im ∧
      t.mb.rptEntries = reportEntries s im ∧ t.ctl.nextStep = none ∧ t.ctr.sched = none ∧ t.job.lasting.epoch = 0 := by
  have hb : cmdBind c (taken s) = .done stOk (natLe 4 (reportSize im) ++ natLe 4 (reportEntries s im))
      (bindImage im (reportEntries s im) (taken s)) := by
    have hi' : (taken s).job.image = some im := hi
    have hd' : im.digest = (taken s).boot.digest := hd
    have hn' : reportEntries (taken s) im = reportEntries s im := rfl
    simp only [cmdBind, hi', hbd, hn', hd', ne_eq, not_true_eq_false, if_false, Bool.false_eq_true, Nat.not_lt.2 hn]
  have e := runPlain_of_done h hb (by decide)
  refine ⟨_, congrArg Host.Outcome.next ((runSerial_eq_runPlain ho).trans e), ?_, completed_postCpl rfl rfl (bindImage_canon _ _ (taken_canon hs)),
    rfl, rfl, rfl, rfl, rfl, rfl⟩
  exact (postCpl_keeps _ _ _ _ _ _ rfl).2 ((bindImage_keeps _ _ _ rfl).2 ((taken_keeps rfl).2 (.refl _ s)))

theorem jobClose_completes (h : AtHead 0x0202 c s) (hj : s.job.opened = true) (hh : stepHeld s = false)
    (hp : s.launch.pend = none) (ha : anyPromoting s = false) (hd : s.tier.deferred = []) (hcp : s.tier.copies = [])
    (hw : s.pools.waits = []) (hbn : s.pools.bound = [])
    (hr : RingBacked s ∨ ∀ b ∈ s.pools.buffers, b.freePending = none) :
    ∃ t, exec .jobClose s = .next t ∧ Completed c stOk [] s t ∧ t.job = Job.init ∧ t.ctl.granted = [] ∧
      t.ctl.run = none ∧ t.rem.windows = [] ∧ t.launch.tree = none ∧ t.tier.objs = [] := by
  have hb := cmdJobClose_ok (s := taken s) (c := c) hj hh hp ha
  obtain ⟨t, e, hc, kt⟩ := runPlain_completes_kept h hb (closeJob_mailKept (s := taken s) hd hcp hw hbn hr) (by decide)
    (closeJob_canon (taken_canon hs))
  refine ⟨t, congrArg _ ((runSerial_eq_runPlain ho).trans e), hc, ?_⟩
  rw [kt.job_eq rfl, kt.ctl_eq rfl, kt.rem_eq rfl, kt.launch_eq rfl, kt.tier_eq rfl]
  exact closeJob_parts _

end

/-- Settles O11. -/
theorem jobCommandsComplete : Obligations.JobCommandsComplete := by
  unfold Obligations.JobCommandsComplete
  intro s c hs ho
  exact ⟨jobOpen_completes hs ho, fun h hj hi hobj hcp hb hl => loadImage_completes hs ho h hj hi hobj hcp hb hl rfl,
    fun im => bind_completes hs ho, jobClose_completes hs ho⟩

end Sys2Proof.Claims
end

section
/-! SUPPORT. Device faults (R468, R469), telemetry counts, and what comes over the host link (R408 to R412). -/

namespace Sys2Proof.Machine

/-! ## Tables of counts -/

theorem tblGet_tblPut_self (t : Tbl) (a : Nat) {v : Nat} (hv : v ≠ 0) : tblGet (tblPut t a v) a = v := by
  induction t with
  | nil => simp [tblPut, hv, tblGet]
  | cons e r ih =>
    obtain ⟨k, w⟩ := e
    unfold tblPut
    split
    · simp [hv, tblGet]
    · split
      · simp [hv, tblGet]
      · next h => rw [tblGet, if_neg fun e => h e.symm]; exact ih

theorem tblGet_tblPut_ne (t : Tbl) {a b : Nat} (v : Nat) (h : b ≠ a) : tblGet (tblPut t a v) b = tblGet t b := by
  have h' : a ≠ b := fun e => h e.symm
  induction t with
  | nil => by_cases hv : v = 0 <;> simp [tblPut, tblGet, hv, h']
  | cons e r ih =>
    obtain ⟨k, w⟩ := e
    unfold tblPut
    split
    · split
      · rfl
      · simp [tblGet, h']
    · split
      · next e => subst e; split <;> simp [tblGet, h']
      · simp only [tblGet, ih]

/-- A count that is raised. -/
theorem tblGet_tblAdd_self (t : Tbl) (a : Nat) {n : Nat} (h : 0 < n) : tblGet (tblAdd t a n) a = tblGet t a + n :=
  tblGet_tblPut_self t a (by omega)

theorem tblGet_tblAdd_ne (t : Tbl) {a b : Nat} (n : Nat) (h : b ≠ a) : tblGet (tblAdd t a n) b = tblGet t b :=
  tblGet_tblPut_ne t _ h

theorem addCount_counts (i n : Nat) (s : State) : (addCount i n s).errs.counts = tblAdd s.errs.counts i n := rfl

/-! ## Device faults -/

theorem abortCommands_evtFault (l : List OpenCmd) (s : State) : (abortCommands l s).mb.evtFault = s.mb.evtFault := by
  induction l generalizing s with
  | nil => rfl
  | cons c r ih =>
    unfold abortCommands
    rw [ih]
    split <;> rfl

theorem abortCommands_errs (l : List OpenCmd) (s : State) : (abortCommands l s).errs = s.errs := errs_of_allBut (by simp)

/-- The core of a device fault: the engine takes no more commands, and EVT_FAULT keeps the first cause. -/
theorem deviceFaultCore_raised (cause : Nat) (s : State) :
    (deviceFaultCore cause s).errs.deviceFault = true ∧ (deviceFaultCore cause s).mb.ready = false ∧
      (deviceFaultCore cause s).mb.opened = [] ∧
      (s.mb.evtFault = 0 → (deviceFaultCore cause s).mb.evtFault = BitVec.ofNat 16 cause) := by
  unfold deviceFaultCore
  dsimp only
  generalize hu : (if s.errs.deviceFault then s
    else soundGongOn (faultPorts cause s) (gongRun s).1 (gongRun s).2 fcDeviceLost s) = u
  have hm : u.mb = s.mb := by
    rw [← hu]
    split
    · rfl
    · exact mb_of_allBut (by simp)
  generalize hv : mapRun (fun r => if r.fault.isSome then r
    else { r with fault := some ⟨fcDeviceLost, true, selfId u⟩ }) u = v
  have hm' : v.mb = s.mb := by rw [← hv, mapRun_mb, hm]
  rw [mb_of_allBut ((pldmEvent_keeps (k := allBut .mb) _ _ _ (by simp)).2 (.refl _ _)),
    errs_of_allBut ((pldmEvent_keeps (k := allBut .errs) _ _ _ (by simp)).2 (.refl _ _))]
  refine ⟨by rw [abortCommands_errs]; rfl, rfl, rfl, fun h => ?_⟩
  dsimp only
  rw [abortCommands_evtFault]
  have : (setCause 3 { v with
      errs := { v.errs with deviceFault := true }
      mb := { v.mb with evtFault := if v.mb.evtFault = 0 then BitVec.ofNat 16 cause else v.mb.evtFault } }).mb.evtFault =
      (if v.mb.evtFault = 0 then BitVec.ofNat 16 cause else v.mb.evtFault) := rfl
  rw [this, hm', if_pos h]

/-- On a device that has faulted, moving events raises no second fault. -/
theorem pushEvents_faulted (l : List Event) {s : State} (h : s.errs.deviceFault = true) :
    MailKept s (pushEvents l s) ∧ Keeps [.mb, .mem] s (pushEvents l s) := by
  induction l generalizing s with
  | nil => exact ⟨⟨rfl, rfl⟩, by unfold pushEvents; simp [within]⟩
  | cons e r ih =>
    unfold pushEvents
    split
    · exact ⟨⟨rfl, rfl⟩, by simp [within]⟩
    · next b n hr =>
      split
      · dsimp only
        split
        · have k : MailKept s (setCause 1 { s with
              mem := memWrite s.mem (b + 32 * (s.mb.evtTail.toNat % n)) (eventBytes e), mb := { s.mb with evtTail := s.mb.evtTail + 1 } }) :=
            ⟨rfl, rfl⟩
          obtain ⟨hm, hk⟩ := ih (s := setCause 1 { s with
              mem := memWrite s.mem (b + 32 * (s.mb.evtTail.toNat % n)) (eventBytes e), mb := { s.mb with evtTail := s.mb.evtTail + 1 } }) h
          exact ⟨k.trans hm, .trans ((setCause_keeps _ _ rfl).2 (by simp [within])) hk⟩
        · exact ⟨⟨rfl, rfl⟩, by simp [within]⟩
      · exact ⟨⟨rfl, rfl⟩, by simp [within]⟩

end Sys2Proof.Machine

namespace Sys2Proof.Claims

open Sys2Proof.Machine

theorem deviceFault_after_core (cause : Nat) (s : State) : MailKept (deviceFaultCore cause s) (deviceFault cause s) ∧
    Keeps [.mb, .mem] (deviceFaultCore cause s) (deviceFault cause s) := by
  unfold deviceFault
  dsimp only
  split
  · have k := enqueueEvent_mailKept 6 stOk 0 (natLe 2 cause) (deviceFaultCore cause s)
    have ke : Keeps [.mb] (deviceFaultCore cause s) (enqueueEvent 6 stOk 0 (natLe 2 cause) (deviceFaultCore cause s)) :=
      (enqueueEvent_keeps _ _ _ _ _ rfl).2 (.refl _ _)
    have hf : (enqueueEvent 6 stOk 0 (natLe 2 cause) (deviceFaultCore cause s)).errs.deviceFault = true := by
      rw [ke.errs_eq rfl]; exact (deviceFaultCore_raised cause s).1
    obtain ⟨hm, hk⟩ := pushEvents_faulted (enqueueEvent 6 stOk 0 (natLe 2 cause) (deviceFaultCore cause s)).mb.queue hf
    exact ⟨k.trans hm, (ke.mono rfl).trans hk⟩
  · exact ⟨.refl _, .refl _ _⟩

/-- A device fault is raised with its cause. -/
theorem raised_deviceFault (cause : Nat) (s : State) : Raised cause s (deviceFault cause s) := by
  obtain ⟨hd, hr, ho, he⟩ := deviceFaultCore_raised cause s
  obtain ⟨hm, hk⟩ := deviceFault_after_core cause s
  have hready : (deviceFault cause s).mb.ready = (deviceFaultCore cause s).mb.ready := by
    have := congrArg Mailbox.ready hm.1; exact this
  have hfault : (deviceFault cause s).mb.evtFault = (deviceFaultCore cause s).mb.evtFault := by
    have := congrArg Mailbox.evtFault hm.1; exact this
  exact ⟨by rw [hk.errs_eq rfl, hd], by rw [hready, hr], by rw [hm.opened, ho], fun h => by rw [hfault, he h]⟩

/-! ## Host writes -/

section
variable {s : State}

theorem ecsWriteBytes_ram {o : Nat} {b : List Byte} (h : (b.length = 4 ∧ o % 4 = 0) ∨ (b.length = 64 ∧ o % 64 = 0))
    (h1 : 0x18000 ≤ o) (h2 : o + b.length ≤ 0x1E000) :
    ecsWriteBytes o b s = { s with mb := { s.mb with ram := memWrite s.mb.ram (o - 0x18000) b } } := by
  simp only [ecsWriteBytes, if_pos h, if_pos (And.intro h1 h2)]

theorem ecsWriteBytes_misaligned {o : Nat} {b : List Byte} (h : ¬ ((b.length = 4 ∧ o % 4 = 0) ∨ (b.length = 64 ∧ o % 64 = 0))) :
    ecsWriteBytes o b s = s := by
  simp only [ecsWriteBytes, if_neg h]

theorem exec_ecsWrite (o : Nat) (b : List Byte) (s : State) :
    exec (.ecsWrite o b) s = .next (if s.pins.pwrgd && hostLink s then ecsWriteBytes o b s else s) := rfl

theorem exec_memCpl (a : Nat) (u : MemUser) (r : MemAnswer) (s : State) :
    exec (.memCpl a u r) s = .next (if s.pins.pwrgd then memCplEffect a u r s else s) := rfl

theorem exec_hostModuleFail (s : State) : exec .hostModuleFail s =
    .next (if s.pins.pwrgd then { s with errs := { s.errs with hostModules := s.errs.hostModules - 1 } } else s) := rfl

theorem exec_adapterRetry (s : State) : exec .adapterRetry s = .next (if s.pins.pwrgd then addCount 31 1 s else s) := rfl

/-- With no host module in service no register write reaches the engine. -/
theorem registerWrite_unheard (h : hostLink s = false) (v : Word) (i : Nat) :
    ∀ c ∈ [Instr.cmdDoorbell v, .loadRecord v, .cplHead v, .evtHead v, .rptHead v, .evtClear v, .evtEnable v,
      .resetCtl v, .tmxSel i v, .tmxCtl v, .clPerfSel i v], exec c s = .next s := by
  have hb : ¬ hostLink s = true := by simp [h]
  intro c hc
  simp only [List.mem_cons, List.not_mem_nil, or_false] at hc
  rcases hc with rfl | rfl | rfl | rfl | rfl | rfl | rfl | rfl | rfl | rfl | rfl <;> exact congrArg _ (if_neg hb)

/-- A completion with data: the bytes become what the engine reads, and the range counts as backed. -/
theorem memCpl_data {a : Nat} {b : List Byte} (u : MemUser) (hp : s.pins.pwrgd = true) (hs : Canon s) (h1 : hostBase ≤ a)
    (h2 : a + b.length ≤ windowBase) :
    ∃ t, exec (.memCpl a u (.data b)) s = .next t ∧ Keeps [.mem, .unbacked] s t ∧ memRead t.mem a b.length = b ∧
      (∀ x, (x < a ∨ a + b.length ≤ x) → memGet t.mem x = memGet s.mem x) ∧
      ∀ r ∈ t.unbacked, r ∈ s.unbacked ∧ overlaps a b.length r.1 r.2 = false := by
  refine ⟨{ s with mem := memWrite s.mem a b, unbacked := s.unbacked.filter fun r => !(overlaps a b.length r.1 r.2) }, ?_,
    by simp [within], (memWrite_frame hs.mem a b rfl).1, (memWrite_frame hs.mem a b rfl).2, fun r hr => ?_⟩
  · rw [exec_memCpl, if_pos hp, memCplEffect, hostData, if_pos ⟨h1, h2⟩]
  · simpa using List.mem_filter.1 hr

end

/-- Settles O9. -/
theorem hostLinkTraffic : Obligations.HostLinkTraffic := by
  unfold Obligations.HostLinkTraffic
  intro s o a n b u
  refine ⟨fun k hk => by simp [ecsReadBytes, hk], fun h => ⟨?_, fun v i => registerWrite_unheard h v i⟩, fun hp hl => ⟨?_, ?_⟩,
    memCpl_data u, fun hp => ?_, fun hp => ?_, fun hp => ?_, fun hp r => ?_⟩
  · simp [exec_ecsWrite, h]
  · intro h h1 h2 hs
    refine ⟨_, by rw [exec_ecsWrite, hp, hl, Bool.and_self, if_pos rfl, ecsWriteBytes_ram h h1 h2], by simp [within],
      (memWrite_frame hs.ram _ b rfl).1, (memWrite_frame hs.ram _ b rfl).2⟩
  · intro h
    simp [exec_ecsWrite, ecsWriteBytes_misaligned h]
  · obtain ⟨hd, hr, -, he⟩ := raised_deviceFault 2 { s with unbacked := (a, n) :: s.unbacked }
    exact ⟨_, by rw [exec_memCpl, if_pos hp]; rfl, hd, hr, he⟩
  · exact ⟨_, by rw [exec_hostModuleFail, if_pos hp], by simp [within], rfl⟩
  · exact ⟨_, by rw [exec_adapterRetry, if_pos hp], (addCount_keeps _ _ _ rfl).2 (.refl _ s), tblGet_tblAdd_self _ _ Nat.one_pos⟩
  · have hb : ¬ s.pins.pwrgd = true := by simp [hp]
    refine ⟨?_, ?_, ?_, ?_⟩
    · simp [exec_ecsWrite, hp]
    · rw [exec_memCpl, if_neg hb]
    · rw [exec_hostModuleFail, if_neg hb]
    · rw [exec_adapterRetry, if_neg hb]

end Sys2Proof.Claims
end

section
/-! SUPPORT. Power, the full reset and the boot chain (R437, R442 to R451, R492, R493, R513). -/

namespace Sys2Proof.Machine

/-! ## Errors but for the counts -/

/-- Of the errors and repairs only telemetry counts have changed. -/
def CountsOnly (s t : State) : Prop := ({ t.errs with counts := [] } : Errs) = { s.errs with counts := [] }

namespace CountsOnly
variable {s t u : State}

theorem refl (s : State) : CountsOnly s s := rfl
theorem trans (h : CountsOnly s t) (g : CountsOnly t u) : CountsOnly s u := Eq.trans g h
theorem of_eq (h : t.errs = s.errs) : CountsOnly s t := by unfold CountsOnly; rw [h]
theorem repaired (h : CountsOnly s t) : t.errs.repaired = s.errs.repaired := by
  have := congrArg Errs.repaired h; exact this
theorem hardRepaired (h : CountsOnly s t) : t.errs.hardRepaired = s.errs.hardRepaired := by
  have := congrArg Errs.hardRepaired h; exact this

theorem foldl {α : Type} {f : State → α → State} (h : ∀ t a, CountsOnly t (f t a)) (l : List α) (s : State) :
    CountsOnly s (l.foldl f s) := by
  induction l generalizing s with
  | nil => exact refl s
  | cons a r ih => exact (h s a).trans (ih _)

end CountsOnly

theorem leaveService_countsOnly (port : Nat) (st : PortState) (part : Bool) (s : State) :
    CountsOnly s (leaveService port st part s) := by
  unfold leaveService
  dsimp only
  split
  · exact .trans (t := addCount tcDiscardPartial 1 s) rfl (.of_eq (errs_of_allBut (by simp)))
  · exact .of_eq (errs_of_allBut (by simp))

theorem settlePorts_countsOnly (tables : Bool) (s : State) : CountsOnly s (settlePorts tables s) := by
  refine CountsOnly.foldl (fun t port => ?_) _ _
  unfold settlePort
  dsimp only
  split
  · split
    · exact .of_eq (errs_of_allBut (by simp))
    · exact .refl t
  · split
    · exact .refl t
    · exact .trans (t := (freeChoice t).2) (.of_eq (errs_of_allBut (by simp))) (leaveService_countsOnly _ _ _ _)

/-! ## Power and the full reset -/

theorem exec_pwrgdFall (s : State) : exec .pwrgdFall s = .next (if s.pins.pwrgd then powerOff s else s) := rfl
theorem exec_pwrgdRise (s : State) : exec .pwrgdRise s = .next (if s.pins.pwrgd then s else powerOn s) := rfl
theorem exec_vccqNandLoss (s : State) : exec .vccqNandLoss s =
    .next (if s.pins.pwrgd then s else { s with pins := { s.pins with nandProtect := false } }) := rfl
theorem exec_romWait (s : State) : exec .romWait s = .next (if s.pins.pwrgd ∧ s.boot.stage = .romWait then
    { s with boot := { s.boot with romUp := true, resetting := false } } else s) := rfl
theorem exec_resetCtl (v : Word) (s : State) : exec (.resetCtl v) s = .next (if hostLink s then writeResetCtl v s else s) := rfl

theorem writeResetCtl_under_way {s : State} (h : s.boot.resetting = true) (v : Word) : writeResetCtl v s = s := by
  simp [writeResetCtl, requestReset, h]

theorem writeResetCtl_full {s : State} {v : Word} (hp : s.pins.pwrgd = true) (hk : v.toNat / 65536 = 0xA5C3)
    (hf : v.getLsbD 0 = true) (hr : s.boot.resetting = false) : writeResetCtl v s = fullReset 1 s := by
  simp [writeResetCtl, requestReset, hp, hk, hf, hr]

/-- Host-die memory is what outlives a reset. -/
theorem hostMemory_frame (m : Mem) : (∀ a, (a < hostBase ∨ windowBase ≤ a) → memGet (hostMemory m) a = 0) ∧
    ∀ a, hostBase ≤ a → a < windowBase → memGet (hostMemory m) a = memGet m a :=
  ⟨fun a h => by rw [memGet_hostMemory, if_neg (by omega)], fun a h g => by rw [memGet_hostMemory, if_pos ⟨h, g⟩]⟩

/-! ## The boot chain -/

theorem exec_romVerify (s : State) : exec .romVerify s = .next (romVerifyEffect s) := rfl
theorem exec_firmwareVerify (s : State) : exec .firmwareVerify s = .next (firmwareVerifyEffect s) := rfl
theorem exec_ready (bad : List Nat) (s : State) : exec (.ready bad) s = .next (readyEffect bad s) := rfl
theorem exec_firmwareInitFail (code : Nat) (s : State) : exec (.firmwareInitFail code) s =
    .next (if s.boot.stage = .firmwareInit ∧ engineRuns s = true ∧ 0x0401 ≤ code ∧ code ≤ 0x0403 then bootFail code s else s) := rfl

theorem bootFail_keeps_boot (code : Nat) (s : State) : Keeps [.boot, .mgmt] s (bootFail code s) :=
  (bootFail_keeps _ _ rfl).2 (.refl _ s)

section
variable {s : State} (hp : s.pins.pwrgd = true) (hd : s.errs.deviceFault = false)
include hp hd

theorem engineRuns_of : engineRuns s = true := by simp [engineRuns, hp, hd]

theorem romVerifyEffect_fails (hs : s.boot.stage = .romVerify) {k : Nat}
    (h : imageCheck 1 s.boot s.boot.sram s.boot.sramLen = some k) : romVerifyEffect s = bootFail (0x0100 + k) s := by
  simp [romVerifyEffect, hs, engineRuns_of hp hd, h]

theorem romVerifyEffect_passes (hs : s.boot.stage = .romVerify)
    (h : imageCheck 1 s.boot s.boot.sram s.boot.sramLen = none) : romVerifyEffect s = { s with boot := { s.boot with
      stage := .monitorRun, mon := some (acceptedImage s.boot.sram s.boot.sramLen), udsBlocked := true, devSeed := deviceSeed
      cdiMon := monitorCdi (acceptedImage s.boot.sram s.boot.sramLen).meas, devKey := Config.mldsaPublic deviceSeed } } := by
  simp [romVerifyEffect, hs, engineRuns_of hp hd, h]

theorem firmwareVerifyEffect_unbacked (hs : s.boot.stage = .firmwareVerify)
    (hb : hostOk s s.boot.loadSrc s.boot.loadLen = false) : firmwareVerifyEffect s = bootFail 0x0312 s := by
  simp [firmwareVerifyEffect, hs, engineRuns_of hp hd, hb]

/-- The state in which the monitor checks the image that it has copied. -/
theorem firmwareVerifyEffect_backed (hs : s.boot.stage = .firmwareVerify)
    (hb : hostOk s s.boot.loadSrc s.boot.loadLen = true) {m : Mem} (hm : memSlice s.mem s.boot.loadSrc s.boot.loadLen = m) :
    (∀ k, imageCheck 2 s.boot m s.boot.loadLen = some k → firmwareVerifyEffect s =
      bootFail (0x0300 + k) { s with boot := { s.boot with fwCopy := m } }) ∧
    (imageCheck 2 s.boot m s.boot.loadLen = none → firmwareVerifyEffect s =
      enterFirmwareInit (acceptedImage m s.boot.loadLen) { s with boot := { s.boot with fwCopy := m } }) := by
  have hc : imageCheck 2 { s.boot with fwCopy := m } m s.boot.loadLen = imageCheck 2 s.boot m s.boot.loadLen := rfl
  refine ⟨fun k hk => ?_, fun hk => ?_⟩ <;>
  · rw [firmwareVerifyEffect, if_pos ⟨hs, engineRuns_of hp hd⟩, if_pos hb]
    dsimp only
    rw [hm, hc, hk]

end

theorem partsAlive_eq_false {e : Errs} (h : e.dieModulesA = 0 ∨ e.dieModulesB = 0 ∨ e.hbmLost = true) : partsAlive e = false := by
  rcases h with h | h | h <;> simp [partsAlive, h]

/-- Limits set before READY are in force after it. -/
theorem limitsInForce_power {m : Mgmt} {p : Nat × Nat} (h : m.powerNext = some p) :
    (limitsInForce m).sustainedW = p.1 ∧ (limitsInForce m).burstW = p.2 := by
  simp [limitsInForce, h]

theorem pldmEvent_limits (id : Nat) (data : List Byte) (s : State) :
    (pldmEvent id data s).mgmt.sustainedW = s.mgmt.sustainedW ∧ (pldmEvent id data s).mgmt.burstW = s.mgmt.burstW := by
  unfold pldmEvent
  split <;> exact ⟨rfl, rfl⟩

end Sys2Proof.Machine

namespace Sys2Proof.Claims

open Sys2Proof.Machine

theorem fullReset_frame (s : State) {t : State} (ht : fullReset 1 s = t) : t.pending = s.pending ∧
    t.boot.stage = .romWait ∧ t.boot.romUp = false ∧ t.boot.resetting = true ∧ t.boot.resetCause = 1 ∧
    t.boot.resetCount = (if s.boot.resetCount = 0xFFFF then 0xFFFF else s.boot.resetCount + 1) ∧
    t.boot.revoked = s.boot.revoked ∧ t.boot.rollback = s.boot.rollback ∧ t.boot.revokeDue = false ∧
    t.boot.raiseDue = false ∧ t.boot.locks = 0 ∧
    t.mb.ready = false ∧ t.mb.cmdDoorbell = 0 ∧ t.mb.cmdHead = 0 ∧ t.mb.cplTail = 0 ∧ t.mb.evtCause = 0 ∧
    t.job.opened = false ∧ t.ctl.run = none ∧ t.time.state = .unlocked ∧ t.flash.extents = s.flash.extents ∧
    (∀ a, (a < hostBase ∨ windowBase ≤ a) → memGet t.mem a = 0) ∧
    (Canon s → ∀ a, hostBase ≤ a → a < windowBase → memGet t.mem a = memGet s.mem a) := by
  subst ht
  obtain ⟨h0, h1⟩ := hostMemory_frame s.mem
  exact ⟨rfl, rfl, rfl, rfl, rfl, rfl, rfl, rfl, rfl, rfl, rfl, rfl, rfl, rfl, rfl, rfl, rfl, rfl, rfl, rfl, h0, fun _ => h1⟩

/-- Settles O21. -/
theorem powerPinsAndFullReset : Obligations.PowerPinsAndFullReset := by
  unfold Obligations.PowerPinsAndFullReset
  intro s
  refine ⟨fun h => ?_, fun h => ?_, fun h => ?_, fun h hs => ?_, fun v h => ?_, fun v hp hl hk hf hr => ?_⟩
  · exact ⟨powerOff s, by rw [exec_pwrgdFall, if_pos h], rfl, rfl, rfl, rfl, rfl, rfl, rfl⟩
  · exact ⟨powerOn s, by rw [exec_pwrgdRise, if_neg (by simp [h])], rfl, rfl, rfl, rfl, rfl, rfl, rfl, rfl, rfl, rfl⟩
  · rw [exec_vccqNandLoss, if_neg (by simp [h])]
  · rw [exec_romWait, if_pos ⟨h, hs⟩]
  · rw [exec_resetCtl, writeResetCtl_under_way h, ite_self]
  · exact ⟨fullReset 1 s, by rw [exec_resetCtl, if_pos hl, writeResetCtl_full hp hk hf hr], fullReset_frame s rfl⟩

/-- Settles O22: by what the checks of R446 answer. -/
theorem romVerifyEnds : Obligations.RomVerifyEnds := by
  unfold Obligations.RomVerifyEnds
  intro s hs hp hd
  cases hc : imageCheck 1 s.boot s.boot.sram s.boot.sramLen with
  | none =>
    refine ⟨romVerifyEffect s, rfl, ?_⟩
    rw [romVerifyEffect_passes hp hd hs hc]
    exact ⟨by simp [within], rfl, rfl, rfl, by dsimp only, by dsimp only, by dsimp only, rfl, rfl, rfl⟩
  | some k =>
    refine ⟨_, by rw [exec_romVerify, romVerifyEffect_fails hp hd hs hc], bootFail_keeps_boot _ s, ?_⟩
    rw [bootFail_boot]
    exact ⟨rfl, rfl, rfl⟩

theorem enterFirmwareInit_keeps_parts (im : SignedImage) (s : State) :
    Keeps [.mb, .boot, .fab, .time, .errs] s (enterFirmwareInit im s) :=
  (enterFirmwareInit_keeps _ _ rfl).2 (.refl _ s)

/-- What the start of FIRMWARE_INIT leaves in the boot chain, the mailbox and the repairs. -/
theorem enterFirmwareInit_frame (im : SignedImage) {s t : State} (ht : enterFirmwareInit im s = t) :
    t.boot.stage = .firmwareInit ∧ t.boot.fw = some im ∧ t.boot.fwCopy = s.boot.fwCopy ∧
    t.boot.cdiFw = firmwareCdi s.boot.cdiMon im.meas ∧ t.boot.aliasSeed = aliasSeedOf t.boot.cdiFw ∧ t.errs.repaired = [] ∧
    t.errs.hardRepaired = s.errs.repaired ++ s.errs.hardRepaired ∧ t.boot.locks = shippedLocks s.boot.locks ∧
    t.mb.ram = [] ∧ t.mb.cmdDoorbell = 0 ∧ t.mb.cmdHead = 0 ∧ t.mb.cplTail = 0 ∧ t.mb.cplHead = 0 ∧ t.mb.evtTail = 0 ∧
    t.mb.rptTail = 0 ∧ t.mb.ready = s.mb.ready := by
  have hb : t.boot = { s.boot with
      stage := .firmwareInit, fw := some im, cdiFw := firmwareCdi s.boot.cdiMon im.meas
      aliasSeed := aliasSeedOf (firmwareCdi s.boot.cdiMon im.meas), certRollback := s.boot.rollback
      locks := shippedLocks s.boot.locks } := by
    rw [← ht, enterFirmwareInit]
    exact boot_of_allBut ((settlePorts_keeps _ _ (by simp)).2 (.refl _ _))
  have hm : t.mb = { s.mb with
      ram := [], cmdDoorbell := 0, cmdHead := 0, cplTail := 0, cplHead := 0
      evtTail := 0, evtHead := 0, rptTail := 0, rptHead := 0 } := by
    rw [← ht, enterFirmwareInit]
    exact mb_of_allBut ((settlePorts_keeps _ _ (by simp)).2 (.refl _ _))
  have he : t.errs.repaired = [] ∧ t.errs.hardRepaired = s.errs.repaired ++ s.errs.hardRepaired := by
    rw [← ht, enterFirmwareInit]
    exact ⟨(settlePorts_countsOnly false _).repaired, (settlePorts_countsOnly false _).hardRepaired⟩
  rw [hb, hm]
  exact ⟨rfl, rfl, rfl, rfl, rfl, he.1, he.2, rfl, rfl, rfl, rfl, rfl, rfl, rfl, rfl, rfl⟩

theorem firmwareVerify_backed {s : State} (hs : s.boot.stage = .firmwareVerify) (hp : s.pins.pwrgd = true)
    (hd : s.errs.deviceFault = false) (hb : hostOk s s.boot.loadSrc s.boot.loadLen = true) {m : Mem}
    (hm : memSlice s.mem s.boot.loadSrc s.boot.loadLen = m) : ∃ t, exec .firmwareVerify s = .next t ∧
      (imageCheck 2 s.boot m s.boot.loadLen = none → Keeps [.mb, .boot, .fab, .time, .errs] s t ∧ t.boot.stage = .firmwareInit ∧
        t.boot.fw = some (acceptedImage m s.boot.loadLen) ∧ t.boot.fwCopy = m ∧
        t.boot.cdiFw = firmwareCdi s.boot.cdiMon (acceptedImage m s.boot.loadLen).meas ∧
        t.boot.aliasSeed = aliasSeedOf t.boot.cdiFw ∧ t.errs.repaired = [] ∧
        t.errs.hardRepaired = s.errs.repaired ++ s.errs.hardRepaired ∧
        t.boot.locks = shippedLocks s.boot.locks ∧ t.mb.ram = [] ∧ t.mb.cmdDoorbell = 0 ∧ t.mb.cmdHead = 0 ∧
        t.mb.cplTail = 0 ∧ t.mb.cplHead = 0 ∧ t.mb.evtTail = 0 ∧ t.mb.rptTail = 0 ∧ t.mb.ready = s.mb.ready) ∧
      (∀ k, imageCheck 2 s.boot m s.boot.loadLen = some k →
        Keeps [.boot, .mgmt] s t ∧ t.boot.stage = .failed ∧ t.boot.error = BitVec.ofNat 16 (0x0300 + k)) := by
  obtain ⟨hfail, hpass⟩ := firmwareVerifyEffect_backed hp hd hs hb hm
  refine ⟨firmwareVerifyEffect s, rfl, fun hc => ?_, fun k hc => ?_⟩
  · rw [hpass hc]
    exact ⟨.trans (by simp [within]) (enterFirmwareInit_keeps_parts _ _), enterFirmwareInit_frame _ rfl⟩
  · rw [hfail k hc, bootFail_boot]
    exact ⟨.trans (by simp [within]) (bootFail_keeps_boot _ _), rfl, rfl⟩

/-- Settles O23: by whether the host die backs the source, and by what the checks of R446 answer. -/
theorem firmwareVerifyEnds : Obligations.FirmwareVerifyEnds := by
  unfold Obligations.FirmwareVerifyEnds
  intro s hs hp hd m
  refine ⟨fun hb => ?_, fun hb => ?_⟩
  · obtain ⟨t, e, hpass, hfail⟩ := firmwareVerify_backed hs hp hd hb (m := m) rfl
    refine ⟨t, e, ?_⟩
    cases hc : imageCheck 2 s.boot m s.boot.loadLen with
    | none => exact hpass hc
    | some k => exact hfail k hc
  · refine ⟨_, by rw [exec_firmwareVerify, firmwareVerifyEffect_unbacked hp hd hs hb], bootFail_keeps_boot _ s, ?_⟩
    rw [bootFail_boot]
    exact ⟨rfl, rfl⟩

/-- READY comes when the ports have settled, every cluster is alive, and no part is missing. -/
theorem readyEffect_comes {s : State} {bad : List Nat} (hs : s.boot.stage = .firmwareInit) (hp : s.pins.pwrgd = true)
    (hd : s.errs.deviceFault = false) (h1 : portsSettled s = true) (h2 : clustersAlive bad = true) (h3 : partsAlive s.errs = true) :
    readyEffect bad s = pldmEvent 5 (natLe 1 5 ++ natLe 2 0) { s with
      mem := hostMemory s.mem, tiles := [], cells := []
      errs := { s.errs with unit := unitMapOf bad, bad := bad, mapUp := true, badBursts := [], badWords := [] }
      mb := { s.mb with ready := true }
      mgmt := limitsInForce s.mgmt
      boot := { s.boot with stage := .ready, digest := digestNow s (unitMapOf bad), revokeDue := true, raiseDue := true } } := by
  simp only [readyEffect, hs, engineRuns_of hp hd, h1, h2, h3, and_self, if_true]

theorem ready_comes {s : State} {bad : List Nat} (hs : s.boot.stage = .firmwareInit) (hp : s.pins.pwrgd = true)
    (hd : s.errs.deviceFault = false) (h1 : portsSettled s = true) (h2 : clustersAlive bad = true) (ha : 0 < s.errs.dieModulesA)
    (hb : 0 < s.errs.dieModulesB) (hl : s.errs.hbmLost = false) : ∃ t, exec (.ready bad) s = .next t ∧
      Keeps [.mb, .boot, .mem, .tiles, .cells, .mgmt, .errs] s t ∧ t.boot.stage = .ready ∧ t.mb.ready = true ∧
      t.errs.unit = unitMapOf bad ∧ t.errs.mapUp = true ∧ t.boot.digest = digestNow s (unitMapOf bad) ∧
      t.tiles = [] ∧ t.boot.revoked = s.boot.revoked ∧ t.boot.rollback = s.boot.rollback ∧
      t.boot.revokeDue = true ∧ t.boot.raiseDue = true ∧ t.errs.badBursts = [] ∧ t.errs.badWords = [] ∧
      (∀ a, (a < hostBase ∨ windowBase ≤ a) → memGet t.mem a = 0) ∧
      (∀ a, hostBase ≤ a → a < windowBase → memGet t.mem a = memGet s.mem a) ∧
      (∀ p : Nat × Nat, s.mgmt.powerNext = some p → t.mgmt.sustainedW = p.1 ∧ t.mgmt.burstW = p.2) := by
  have h3 : partsAlive s.errs = true := by simp [partsAlive, hl]; omega
  obtain ⟨m0, m1⟩ := hostMemory_frame s.mem
  refine ⟨_, by rw [exec_ready, readyEffect_comes hs hp hd h1 h2 h3], (pldmEvent_keeps _ _ _ rfl).2 (by simp [within]), ?_⟩
  rw [pldmEvent_boot, pldmEvent_mb, errs_of_allBut ((pldmEvent_keeps (k := allBut .errs) _ _ _ (by simp)).2 (.refl _ _)),
    tiles_of_allBut ((pldmEvent_keeps (k := allBut .tiles) _ _ _ (by simp)).2 (.refl _ _)),
    mem_of_allBut ((pldmEvent_keeps (k := allBut .mem) _ _ _ (by simp)).2 (.refl _ _))]
  refine ⟨rfl, rfl, rfl, rfl, rfl, rfl, rfl, rfl, rfl, rfl, rfl, rfl, m0, m1, fun p hpn => ?_⟩
  obtain ⟨l1, l2⟩ := limitsInForce_power hpn
  rw [(pldmEvent_limits _ _ _).1, (pldmEvent_limits _ _ _).2]
  exact ⟨l1, l2⟩

/-- Settles O24. -/
theorem firmwareInitEnds : Obligations.FirmwareInitEnds := by
  unfold Obligations.FirmwareInitEnds
  intro s hs hp hd
  refine ⟨fun bad h => ?_, fun bad => ready_comes hs hp hd, fun code h1 h2 => ?_⟩
  · rw [exec_ready, readyEffect, if_neg fun g => by simp [partsAlive_eq_false h] at g]
  · refine ⟨_, by rw [exec_firmwareInitFail, if_pos ⟨hs, engineRuns_of hp hd, h1, h2⟩], bootFail_keeps_boot _ s, ?_⟩
    rw [bootFail_boot]
    exact ⟨rfl, rfl⟩

end Sys2Proof.Claims
end

section
/-! SUPPORT. How mounts, seals and formats end (R279, R280, R285 to R287): relocation changes blocks and the channels'
health only. -/

namespace Sys2Proof.Machine

/-! ## What relocation leaves of the tier -/

/-- Two states of the tier differ only in blocks, degraded channels and the flags of the reserve. -/
def MovesOnly (f g : Flash) : Prop :=
  ∃ bl dg lo wo, g = { f with blocks := bl, degraded := dg, lowReserve := lo, worn := wo }

theorem MovesOnly.refl (f : Flash) : MovesOnly f f := ⟨_, _, _, _, rfl⟩

theorem MovesOnly.trans {f g h : Flash} (a : MovesOnly f g) (b : MovesOnly g h) : MovesOnly f h := by
  obtain ⟨_, _, _, _, rfl⟩ := a
  obtain ⟨_, _, _, _, rfl⟩ := b
  exact ⟨_, _, _, _, rfl⟩

theorem mapBlock_movesOnly (b : Nat) (g : Block → Block) (f : Flash) : MovesOnly f (mapBlock b g f) := ⟨_, _, _, _, rfl⟩

theorem judgeReserve_movesOnly (f : Flash) : MovesOnly f (judgeReserve f) := ⟨_, _, _, _, rfl⟩

theorem beginMove_movesOnly (d : Option Nat) (b : Nat) (f : Flash) : MovesOnly f (beginMove d b f) := by
  unfold beginMove
  dsimp only
  split
  · split
    · exact .refl f
    · exact (mapBlock_movesOnly _ _ f).trans (mapBlock_movesOnly _ _ _)
  · exact .refl f

theorem relocate_movesOnly (b : Nat) (f : Flash) : MovesOnly f (relocate b f) := by
  unfold relocate
  split
  · exact .refl f
  · exact beginMove_movesOnly _ _ _

theorem foldl_movesOnly {α : Type} {g : Flash → α → Flash} (h : ∀ f a, MovesOnly f (g f a)) (l : List α) (f : Flash) :
    MovesOnly f (l.foldl g f) := by
  induction l generalizing f with
  | nil => exact .refl f
  | cons a r ih => exact (h f a).trans (ih _)

theorem settleDie_movesOnly (d : Nat) (f : Flash) : MovesOnly f (settleDie d f) := by
  have h0 : MovesOnly f (dropTargets d f) := ⟨_, _, _, _, rfl⟩
  unfold settleDie
  dsimp only
  split
  · exact h0.trans ⟨_, _, _, _, rfl⟩
  · exact h0.trans (foldl_movesOnly (fun f b => beginMove_movesOnly _ b f) _ _)

theorem resumeMoves_movesOnly (f : Flash) : MovesOnly f (resumeMoves f) := by
  unfold resumeMoves
  refine ((foldl_movesOnly (fun f d => settleDie_movesOnly d f) _ f).trans (judgeReserve_movesOnly _)).trans
    (foldl_movesOnly (fun f b => ?_) _ _)
  split
  · exact beginMove_movesOnly _ _ _
  · split
    · exact relocate_movesOnly _ _
    · exact .refl f

end Sys2Proof.Machine

namespace Sys2Proof.Claims

open Sys2Proof.Machine

/-! ## How a mount ends -/

section
variable {s : State} {g : FlashGeometry}

theorem failFlashPromotions_of_noCopies (h : s.tier.copies = []) : failFlashPromotions s = s := by
  simp [failFlashPromotions, h, failPromotions]

theorem mounted_copies (x : FlashState) (c : Nat) (s : State) :
    (flashEvent 0 0 0 0 (setFlashState x c s)).tier = s.tier := tier_of_allBut (by simp)

theorem mountFailed_flash (c : Nat) (hc : s.tier.copies = []) :
    (mountFailed c g s).flash = { s.flash with state := .failed, failCause := c, geom := g } := by
  unfold mountFailed
  dsimp only
  rw [failFlashPromotions_of_noCopies (by rw [mounted_copies]; exact hc), flashEvent_flash, setFlashState_flash]

theorem mountUnformatted_flash (hc : s.tier.copies = []) : (mountUnformatted g s).flash =
    { s.flash with state := .unformatted, failCause := 0, geom := g, extents := [], medium := .blank } := by
  unfold mountUnformatted
  dsimp only
  rw [failFlashPromotions_of_noCopies (by rw [mounted_copies]; exact hc), flashEvent_flash, setFlashState_flash]

theorem mountDecided_population (r : MountResult) (hp : populationOk g = false) :
    mountDecided? r g s = some (mountFailed 1 g s) := by
  simp [mountDecided?, hp]

theorem mountDecided_part (r : MountResult) (hp : populationOk g = true) (hq : partQualified g = false) :
    mountDecided? r g s = some (mountFailed 2 g s) := by
  simp [mountDecided?, hp, hq]

theorem mountDecided_unformatted {r : MountResult} (hp : populationOk g = true) (hq : partQualified g = true)
    (hf : findsSuper s.flash r = false) : mountDecided? r g s = some (mountUnformatted g s) := by
  simp [mountDecided?, hp, hq, hf]

theorem mountDecided_none {r : MountResult} (hp : populationOk g = true) (hq : partQualified g = true)
    (hf : findsSuper s.flash r = true) : mountDecided? r g s = none := by
  simp [mountDecided?, hp, hq, hf]

theorem findsSuper_blank (r : MountResult) (h : s.flash.medium = .blank) : findsSuper s.flash r = false := by
  simp [findsSuper, h]

theorem findsSuper_unformatted (h : s.flash.medium ≠ .formatted) : findsSuper s.flash (.unformatted g) = false := by
  unfold findsSuper
  cases e : s.flash.medium <;> simp_all

theorem findsSuper_failed (c : Nat) (h : s.flash.medium ≠ .blank) : findsSuper s.flash (.failed c g) = true := by
  unfold findsSuper
  cases e : s.flash.medium <;> simp_all

theorem findsSuper_online (m : FlashMedium) (h : s.flash.medium ≠ .blank) : findsSuper s.flash (.online g m) = true := by
  unfold findsSuper
  cases e : s.flash.medium <;> simp_all

variable (hm : s.flash.state = .mounting) (hb : s.boot.stage = .ready)

include hm hb in
/-- What R285 decides first ends the mount, whatever else it met. -/
theorem mountEnd_decided {r : MountResult} {t : State}
    (hr : r = .unformatted g ∨ (∃ m, r = .online g m) ∨ r = .failed 4 g ∨ r = .failed 5 g)
    (hd : mountDecided? r g s = some t) : exec (.mountEnd r) s = .next t := by
  show Host.Outcome.next (mountEndEffect r s) = .next t
  obtain rfl | ⟨m, rfl⟩ | rfl | rfl := hr <;> simp only [mountEndEffect, if_pos (And.intro hm hb), hd, Option.getD_some]

theorem recoverExtents_flash (l : List Extent) (s : State) : (recoverExtents l s).2.flash = s.flash :=
  flash_of_allBut (by simp)

theorem adoptMedium_unknown {f : Flash} (m : FlashMedium) (h : f.medium = .unknown) :
    (adoptMedium g m f).nextExtent = m.nextExtent ∧ (adoptMedium g m f).extents = m.extents.map adoptExtent := by
  simp [adoptMedium, h]

/-- What a mount that reaches its step 6 finds, before relocations go on. -/
theorem mountOnline_flash (g : FlashGeometry) (m : FlashMedium) (s : State) : ∃ f : Flash, MovesOnly f (mountOnline g m s).flash ∧
    f.state = .online ∧ f.geom = g ∧ f.retries = 0 ∧ f.rebuilds = 0 ∧ f.relocations = 0 ∧
    (s.flash.medium = .unknown → f.nextExtent = m.nextExtent ∧ f.extents = m.extents.map adoptExtent) := by
  have hp : (recoverExtents s.flash.extents s).2.flash.medium = s.flash.medium :=
    congrArg Flash.medium (recoverExtents_flash s.flash.extents s)
  unfold mountOnline
  dsimp only
  rw [updateFlash_flash, flashEvent_flash, setFlashState_flash]
  exact ⟨_, (resumeMoves_movesOnly _).trans (judgeReserve_movesOnly _), rfl, rfl, rfl, rfl, rfl,
    fun hu => adoptMedium_unknown m (hp.trans hu)⟩

include hm hb in
theorem mountEnd_online {m : FlashMedium} (hp : populationOk g = true) (hq : partQualified g = true) (hc : channelsUp s = true)
    (hk : s.flash.medium = .formatted ∧ g = s.flash.mediumGeom ∨ s.flash.medium = .unknown ∧ mediumOk g m = true) :
    exec (.mountEnd (.online g m)) s = .next (mountOnline g m s) := by
  have hnb : s.flash.medium ≠ .blank := by obtain ⟨h, -⟩ | ⟨h, -⟩ := hk <;> simp [h]
  have hpos : mountPossible g m s = true := by
    obtain ⟨h, hg⟩ | ⟨h, ho⟩ := hk
    · simp [mountPossible, hc, h, hg]
    · simp [mountPossible, hc, h, ho]
  show Host.Outcome.next (mountEndEffect (.online g m) s) = _
  simp only [mountEndEffect, if_pos (And.intro hm hb), mountDecided_none hp hq (findsSuper_online m hnb), Option.getD_none, hpos,
    if_true]

include hm hb in
theorem mountEnd_failed {c : Nat} (hp : populationOk g = true) (hq : partQualified g = true) (hnb : s.flash.medium ≠ .blank)
    (hc : c = 4 ∨ c = 5 ∧ s.flash.medium ≠ .cut) : exec (.mountEnd (.failed c g)) s = .next (mountFailed c g s) := by
  have h3 : c ≠ 3 := by omega
  show Host.Outcome.next (mountEndEffect (.failed c g) s) = _
  simp only [mountEndEffect, if_pos (And.intro hm hb), mountDecided_none hp hq (findsSuper_failed c hnb), Option.getD_none,
    if_pos hc]

include hm hb in
theorem mountEnd_silent (hp : populationOk g = true) (hq : partQualified g = true) :
    exec (.mountEnd (.failed 3 g)) s = .next (mountFailed 3 g s) := by
  show Host.Outcome.next (mountEndEffect (.failed 3 g) s) = _
  simp only [mountEndEffect, if_pos (And.intro hm hb), if_pos (And.intro hp hq)]

include hm hb in
theorem mountEnd_cut (hp : populationOk g = true) (hq : partQualified g = true) (hk : s.flash.medium = .cut) :
    exec (.mountEnd (.failed 5 g)) s = .next s := by
  show Host.Outcome.next (mountEndEffect (.failed 5 g) s) = _
  have hnb : s.flash.medium ≠ .blank := by simp [hk]
  simp [mountEndEffect, hm, hb, mountDecided_none hp hq (findsSuper_failed 5 hnb), hk]

end

/-- Settles O25. -/
theorem flashMountsEnd : Obligations.FlashMountsEnd := by
  unfold Obligations.FlashMountsEnd
  intro s hm hb hc
  refine ⟨⟨_, rfl, ?_⟩, fun g r hr => ⟨fun hp => ?_, fun hp hq => ?_, fun hp hq hk => ?_⟩,
    fun g hp hq => ⟨fun hk => ?_, ?_, mountEnd_cut hm hb hp hq, fun c hcc hk => ?_, fun m hch hk => ?_⟩⟩
  · simp only [mountEndEffect, if_pos (And.intro hm hb)]
    exact (flashEvent_flash _ _ _ _ _).trans (setFlashState_flash _ _ s)
  · exact ⟨_, mountEnd_decided hm hb hr (mountDecided_population r hp), mountFailed_flash 1 hc⟩
  · exact ⟨_, mountEnd_decided hm hb hr (mountDecided_part r hp hq), mountFailed_flash 2 hc⟩
  · refine ⟨_, mountEnd_decided hm hb hr (mountDecided_unformatted hp hq (findsSuper_blank r hk)), ?_⟩
    rw [mountUnformatted_flash hc, ← hk]
  · refine ⟨_, mountEnd_decided hm hb (.inl rfl) (mountDecided_unformatted hp hq (findsSuper_unformatted hk)), ?_⟩
    rw [mountUnformatted_flash hc]
    exact ⟨rfl, rfl, rfl⟩
  · exact ⟨_, mountEnd_silent hm hb hp hq, mountFailed_flash 3 hc⟩
  · exact ⟨_, mountEnd_failed hm hb hp hq hk hcc, mountFailed_flash c hc⟩
  · refine ⟨_, mountEnd_online hm hb hp hq hch hk, ?_⟩
    obtain ⟨f, ⟨_, _, _, _, e⟩, h⟩ := mountOnline_flash g m s
    rw [e]
    refine h.imp_right fun h => h.imp_right fun h => h.imp_right fun h => h.imp_right fun h => h.imp_right fun h hu => ?_
    obtain ⟨hn, hx⟩ := h hu
    refine ⟨hn, ?_⟩
    show f.extents.map _ = _
    rw [hx, List.map_map]
    rfl

end Sys2Proof.Claims
end

section
/-! SUPPORT. How seals and formats end (R279, R280): the one command that stayed open completes. -/

namespace Sys2Proof.Machine

/-- Completing the only open command posts its completion and leaves none open. -/
theorem closeOpen_single {s : State} {o : OpenCmd} {f : OpenCmd → Option (Nat × List Byte)} {st : Nat} {res : List Byte}
    (h : s.mb.opened = [o]) (hf : f o = some (st, res)) :
    closeOpen f s = postCpl o.op o.tag o.index st res { s with mb := { s.mb with opened := [] } } := by
  simp only [closeOpen, h, closeCommands, hf, List.filter_cons, List.filter_nil, bne_self_eq_false, Bool.false_eq_true, if_false]

/-! ## Blocks after a format -/

theorem blockOf_of_get {f : Flash} {b : Nat} {x : Block} (h : kvGet? f.blocks b = some x) : blockOf f b = x := by
  simp [blockOf, kvGetD, h]

theorem kvGet_map {α : Type} (g : α → α) (t : KV α) (b : Nat) :
    kvGet? (t.map fun e => (e.1, g e.2)) b = (kvGet? t b).map g := by
  induction t with
  | nil => rfl
  | cons e r ih =>
    simp only [List.map_cons, kvGet?]
    split <;> simp_all

/-- Marks a block bad. -/
def markBad (d : Block) (t : KV Block) (b : Nat) : KV Block := kvPut t b { kvGetD t b d with bad := true }

theorem kvGetD_markBad (d : Block) (t : KV Block) (a b : Nat) :
    kvGetD (markBad d t a) b d = if b = a then { kvGetD t b d with bad := true } else kvGetD t b d := by
  by_cases e : b = a
  · subst e
    simp [markBad, kvGetD]
  · simp [markBad, kvGetD, kvGet_kvPut_ne, e]

/-- Marking a list bad changes of each block of it that it is bad, and of no other anything. -/
theorem kvGetD_foldl_markBad (d : Block) (l : List Nat) (t : KV Block) (b : Nat) :
    kvGetD (l.foldl (markBad d) t) b d = if b ∈ l then { kvGetD t b d with bad := true } else kvGetD t b d := by
  induction l generalizing t with
  | nil => simp
  | cons a r ih =>
    rw [List.foldl_cons, ih, kvGetD_markBad]
    by_cases e : b = a <;> by_cases q : b ∈ r <;> simp [e, q]

/-- A block as a format leaves it. -/
def formatted (x : Block) : Block :=
  { x with reads := 0, erases := x.erases + 1, used := false, moving := none, erasing := false, rebuiltAt := none }

/-- The tier at the end of a format. -/
def formatEnd (bad : List Nat) (f : Flash) : Flash :=
  commitMeta { f with
    formatting := false, readDefault := 0, eraseDefault := f.eraseDefault + 1, checkpoint := [], checkDefault := 0
    retiredDies := [], degraded := [], patrolled := [], patrolTurns := [], patrolCheck := [], grown := []
    medium := .formatted, mediumGeom := f.geom
    blocks := bad.foldl (markBad (Block.fresh f)) (f.blocks.map fun e => (e.1, formatted e.2)) }

/-- A block that is not listed has neither been used nor gone bad. -/
def BlankDefault (d : Block) : Prop := d.bad = false ∧ d.used = false

/-- What holds of a listed record and of the default holds with another default that it holds of. -/
theorem kvGetD_congr {α : Type} {P : α → Prop} {t : KV α} {b : Nat} {d e : α} (h : P (kvGetD t b d)) (g : P d → P e) :
    P (kvGetD t b e) := by
  unfold kvGetD at h ⊢
  cases q : kvGet? t b with
  | none => exact g (by simpa [q] using h)
  | some x => simpa [q] using h

/-- What the table says of a block after a format, whatever stands for one that it does not list. -/
theorem formatEnd_block {d e : Block} (hd : BlankDefault d) (he : BlankDefault e) (bad : List Nat) (t : KV Block) (b : Nat) :
    let u := bad.foldl (markBad d) (t.map fun e => (e.1, formatted e.2))
    (b ∈ bad → (kvGetD u b e).bad = true) ∧ ((kvGetD t b d).bad = true → (kvGetD u b e).bad = true) ∧
      (b ∉ bad → (kvGetD u b e).used = false) := by
  intro u
  have hx : (kvGetD (t.map fun e => (e.1, formatted e.2)) b d).bad = (kvGetD t b d).bad ∧
      (kvGetD (t.map fun e => (e.1, formatted e.2)) b d).used = false := by
    rw [kvGetD, kvGetD, kvGet_map]
    cases kvGet? t b with
    | none => exact ⟨rfl, hd.2⟩
    | some x => exact ⟨rfl, rfl⟩
  have hu := kvGetD_foldl_markBad d bad (t.map fun e => (e.1, formatted e.2)) b
  have hbad : (kvGetD u b d).bad = true → (kvGetD u b e).bad = true := fun h =>
    kvGetD_congr (P := fun x : Block => x.bad = true) h fun q => absurd (hd.1.symm.trans q) Bool.false_ne_true
  refine ⟨fun h => hbad ?_, fun h => hbad ?_, fun h => kvGetD_congr (d := d) (P := fun x : Block => x.used = false) ?_ fun _ => he.2⟩
  · exact (congrArg Block.bad hu).trans (by rw [if_pos h])
  · refine (congrArg Block.bad hu).trans ?_
    split
    · rfl
    · exact hx.1.trans h
  · exact (congrArg Block.used hu).trans (by rw [if_neg h, hx.2])

end Sys2Proof.Machine

namespace Sys2Proof.Claims

open Sys2Proof.Machine

section
variable {s : State} {o : OpenCmd} (hs : Canon s) (hr : RingBacked s) (ho : s.mb.opened = [o])

include ho in
/-- The completion that closing the one open command posts. -/
theorem closeOpen_completes {u : State} {f : OpenCmd → Option (Nat × List Byte)} {st : Nat} {res : List Byte}
    (hu : MailKept s u) (hc : Canon u) (hf : f o = some (st, res)) :
    (closeOpen f u).mb.opened = [] ∧ (closeOpen f u).mb.cplTail = s.mb.cplTail + 1 ∧
      memRead (closeOpen f u).mb.ram (0x4000 + 32 * (s.mb.cplTail.toNat % 256)) 32 =
        cplBytes o.op o.tag st o.index s.mb.cplTail.toNat res := by
  rw [closeOpen_single (hu.opened.trans ho) hf, postCpl_opened, postCpl_cplTail, hu.cplTail]
  exact ⟨rfl, rfl, by
    rw [← hu.cplTail]
    exact memRead_postCpl (u := { u with mb := { u.mb with opened := [] } }) o.op o.tag o.index st res hc.ram⟩

include hs ho in
theorem extentSealDone_completes {x : Extent} {id : Nat} (hon : s.flash.state = .online) (hx : extentOf? s.flash id = some x)
    (hsl : x.sealing = true) (hk : o.kind = .extentSeal id) (h1 : (s.flash.stages.any fun g => g.ext == id) = false)
    (h2 : (s.flash.stageQueue.any fun e => e.1 == id) = false) :
    ∃ t, exec (.extentSealDone id) s = .next t ∧ Keeps [.mb, .flash] s t ∧
      extentOf? t.flash id = some { x with sealedExt := true, sealing := false } ∧ t.mb.opened = [] ∧
      t.mb.cplTail = s.mb.cplTail + 1 ∧
      memRead t.mb.ram (0x4000 + 32 * (s.mb.cplTail.toNat % 256)) 32 =
        cplBytes o.op o.tag stOk o.index s.mb.cplTail.toNat [] := by
  have hp : allProgrammed s.flash id = true := by simp [allProgrammed, h1, h2]
  have hf : closesSeal id stOk o = some (stOk, []) := by simp [closesSeal, hk]
  generalize hfl : commitMeta (commitMeta (mapExtent id (fun y => { y with sealedExt := true, sealing := false }) s.flash)) = f
  have e : exec (.extentSealDone id) s = .next (closeOpen (closesSeal id stOk) { s with flash := f }) := by
    show Host.Outcome.next (sealDoneEffect id s) = _
    simp only [sealDoneEffect, hon, hx, if_pos (And.intro hsl hp), hfl]
  have he : extentOf? f id = some { x with sealedExt := true, sealing := false } := by
    rw [← hfl]
    exact extentOf_mapExtent (g := fun y => { y with sealedExt := true, sealing := false }) hx fun _ => rfl
  refine ⟨_, e, (closeOpen_keeps _ _ rfl).2 (by simp [within]), ?_,
    closeOpen_completes ho (u := { s with flash := f }) ⟨rfl, rfl⟩ (by simp [hs]) hf⟩
  rw [flash_of_allBut (s := { s with flash := f }) (by simp), he]

theorem extentSealDone_waits {x : Extent} {id : Nat} (hon : s.flash.state = .online) (hx : extentOf? s.flash id = some x)
    (h : (s.flash.stages.any fun g => g.ext == id) = true ∨ (s.flash.stageQueue.any fun e => e.1 == id) = true) :
    exec (.extentSealDone id) s = .next s := by
  have hp : allProgrammed s.flash id = false := by
    obtain h | h := h <;> simp only [allProgrammed, h, Bool.not_true, Bool.false_and, Bool.and_false]
  show Host.Outcome.next (sealDoneEffect id s) = _
  simp [sealDoneEffect, hon, hx, hp]

include hs hr ho in
theorem flashFormatDone_completes {bad : List Nat} (hfm : s.flash.formatting = true) (hb : s.boot.stage = .ready)
    (hch : channelsUp s = true) (hk : o.kind = .flashFormat) :
    ∃ t, exec (.flashFormatDone bad) s = .next t ∧ (∃ f, MovesOnly (formatEnd bad s.flash) f ∧ f.blocks = (formatEnd bad s.flash).blocks ∧
      t.flash = { f with state := .online, failCause := 0 }) ∧ t.mb.opened = [] ∧
      t.mb.cplTail = s.mb.cplTail + 1 ∧
      memRead t.mb.ram (0x4000 + 32 * (s.mb.cplTail.toNat % 256)) 32 =
        cplBytes o.op o.tag stOk o.index s.mb.cplTail.toNat [] := by
  have hf : closesFormat o = some (stOk, []) := by simp [closesFormat, hk]
  have e : exec (.flashFormatDone bad) s =
      .next (closeOpen closesFormat (setFlashState .online 0 (updateFlash (formatEnd bad) s))) := by
    show Host.Outcome.next (formatDoneEffect bad s) = _
    rw [formatDoneEffect, if_pos ⟨hfm, hb, hch⟩]
    rfl
  have hm := updateFlash_backed (formatEnd bad) hr
  refine ⟨_, e, ⟨judgeReserve (formatEnd bad s.flash), judgeReserve_movesOnly _, rfl, ?_⟩,
    closeOpen_completes ho (hm.trans (setFlashState_backed _ _ (hr.of_mailKept hm)))
      (setFlashState_canon _ _ (updateFlash_canon _ hs)) hf⟩
  rw [flash_of_allBut (s := setFlashState .online 0 (updateFlash (formatEnd bad) s)) (by simp), setFlashState_flash,
    updateFlash_flash]

end

/-- Settles O26. -/
theorem sealsAndFormatsEnd : Obligations.SealsAndFormatsEnd := by
  unfold Obligations.SealsAndFormatsEnd
  intro s o hs hr ho
  refine ⟨fun x id hon hx hsl hk => ⟨extentSealDone_waits hon hx, extentSealDone_completes hs ho hon hx hsl hk⟩,
    fun bad hfm hb hch hk => ?_⟩
  obtain ⟨t, e, ⟨f, ⟨_, _, _, _, hf⟩, hbl, ht⟩, hmail⟩ := flashFormatDone_completes hs hr ho hfm hb hch hk (bad := bad)
  have hblock (b : Nat) := formatEnd_block (d := Block.fresh s.flash) (e := Block.fresh t.flash) ⟨rfl, rfl⟩ ⟨rfl, rfl⟩ bad
    s.flash.blocks b
  have hbl' : t.flash.blocks = bad.foldl (markBad (Block.fresh s.flash)) (s.flash.blocks.map fun e => (e.1, formatted e.2)) := by
    rw [ht]
    exact hbl
  simp only [← hbl'] at hblock
  refine ⟨t, e, by rw [ht, hf]; rfl, by rw [ht], by rw [ht, hf]; rfl, by rw [ht, hf]; rfl, fun b => (hblock b).1,
    fun b => (hblock b).2.1, fun b => (hblock b).2.2, hmail⟩

end Sys2Proof.Claims
end

section
/-! SUPPORT. STEP_ARM and RUNNING entry (R64, R65, R377): what may come over the new run leaves it the run of its step. -/

namespace Sys2Proof.Machine

/-! ## The run and step control but for what a running step changes -/

/-- A run but for what stops it, drains it, and what it counts. -/
def runCore (r : Run) : Run :=
  { r with fault := none, draining := false, tDraining := 0, stallTicks := [], stallEvents := [], counts := [] }

/-- Step control but for pulses, held faults and what a run changes of itself. -/
def ctlCore (c : Ctl) : Ctl := { c with run := c.run.map runCore, stepPulses := 0, heldFaults := [] }

/-- Step control and launches stand but for pulses, held faults, what the run changes of itself and the Gongs remembered. -/
def CtlKept (s t : State) : Prop :=
  ctlCore t.ctl = ctlCore s.ctl ∧ { t.launch with gongs := [] } = { s.launch with gongs := [] }

namespace CtlKept
variable {s t u : State}

theorem refl (s : State) : CtlKept s s := ⟨rfl, rfl⟩

theorem trans (h : CtlKept s t) (g : CtlKept t u) : CtlKept s u := ⟨g.1.trans h.1, g.2.trans h.2⟩

theorem of_eq (h : t.ctl = s.ctl) (g : t.launch = s.launch) : CtlKept s t := ⟨by rw [h], by rw [g]⟩

theorem foldl {α : Type} {f : State → α → State} (h : ∀ t a, CtlKept t (f t a)) (l : List α) (s : State) :
    CtlKept s (l.foldl f s) := by
  induction l generalizing s with
  | nil => exact refl s
  | cons a r ih => exact (h s a).trans (ih _)

/-- The run is still the run of its step. -/
theorem run (h : CtlKept s t) {r : Run} (hr : s.ctl.run = some r) : ∃ q, t.ctl.run = some q ∧ runCore q = runCore r := by
  have e : t.ctl.run.map runCore = s.ctl.run.map runCore := congrArg Ctl.run h.1
  rw [hr] at e
  simpa using e

theorem armed (h : CtlKept s t) : t.ctl.armed = s.ctl.armed := by
  have := congrArg Ctl.armed h.1
  exact this

theorem noCurrent (h : CtlKept s t) : t.ctl.noCurrent = s.ctl.noCurrent := by
  have := congrArg Ctl.noCurrent h.1
  exact this

theorem strobe (h : CtlKept s t) : t.launch.strobe = s.launch.strobe := by
  have := congrArg Launch.strobe h.2
  exact this

end CtlKept

theorem mapRun_kept {f : Run → Run} (hf : ∀ r, runCore (f r) = runCore r) (s : State) : CtlKept s (mapRun f s) := by
  unfold mapRun CtlKept ctlCore
  cases hr : s.ctl.run with
  | none => simp [hr]
  | some r => simp [hf]

theorem addStepCount_kept (code n : Nat) (s : State) : CtlKept s (addStepCount code n s) := by
  unfold addStepCount
  refine mapRun_kept ?_ s
  intro r
  rfl

theorem queueControls_keptBy (p : Packet) (l : List Nat) (s : State) : Keeps [.rem] s (queueControls p l s) :=
  (queueControls_keeps _ _ _ rfl).2 (.refl _ s)

theorem stepFault_kept (cause : Nat) (s : State) : CtlKept s (stepFault cause s) := by
  unfold stepFault
  split
  · exact .refl s
  · next r hr =>
    split
    · exact .refl s
    · refine .trans (t := rememberGong (selfId s) (BitVec.ofNat 32 r.g.step.toNat) (BitVec.ofNat 32 r.g.attempt)
        { s with ctl := { s.ctl with run := some { r with fault := some ⟨cause, true, selfId s⟩ } } }) ?_
        (.of_eq ((queueControls_keptBy _ _ _).ctl_eq rfl) ((queueControls_keptBy _ _ _).launch_eq rfl))
      simp [CtlKept, ctlCore, hr, runCore, rememberGong]

theorem faultIf_kept (c : Bool) (cause : Nat) (s : State) : CtlKept s (faultIf c cause s) := by
  unfold faultIf
  split
  · exact stepFault_kept _ _
  · exact .refl s

theorem landingFault_kept (step : Word) (cause : Nat) (s : State) : CtlKept s (landingFault step cause s) := by
  unfold landingFault
  split
  · exact stepFault_kept _ _
  · exact ⟨rfl, rfl⟩

/-! ## Early messages take their places -/

theorem applyLanding_kept (a : Landing) (s : State) : CtlKept s (applyLanding a s) := by
  unfold applyLanding
  dsimp only
  have h : CtlKept s (writeAll a.writes s) :=
    .of_eq (ctl_of_allBut (by simp)) (launch_of_allBut (by simp))
  exact h.trans (.trans (.of_eq rfl rfl) (addStepCount_kept _ _ _))

theorem fillAnswers_kept (l : Layer) (x : XPlan) (s : State) : CtlKept s (fillAnswers l x s) :=
  .trans (.of_eq rfl rfl) (addStepCount_kept _ _ _)

theorem tallyAnswers_kept (h : XHead) (t : Target) (s : State) : CtlKept s (tallyAnswers h t s) := by
  unfold tallyAnswers
  dsimp only
  split
  · split
    · exact .trans (.of_eq rfl rfl) (fillAnswers_kept _ _ _)
    · exact .of_eq rfl rfl
  · exact .refl s

theorem placeMessage_kept (m : Msg) (s : State) : CtlKept s (placeMessage m s) := by
  unfold placeMessage
  dsimp only
  split
  · exact landingFault_kept _ _ _
  · refine .trans (t := applyLandings _ _ s) ?_ (.foldl (fun t x => tallyAnswers_kept _ x t) _ _)
    unfold applyLandings
    split
    · exact landingFault_kept _ _ _
    · exact .foldl (fun t a => applyLanding_kept a t) _ _

theorem settleEarly_kept (step : Word) (s : State) : CtlKept s (settleEarly step s) :=
  .trans (.of_eq rfl rfl) (.foldl (fun t m => placeMessage_kept m t) _ _)

theorem settleEarly_mem {step : Word} {s : State} (h : ∀ m ∈ s.exch.early, m.key.step ≠ step) :
    (settleEarly step s).mem = s.mem := by
  have e : (s.exch.early.filter fun m => m.key.step == step) = [] :=
    List.filter_eq_nil_iff.2 fun m hm => by simpa using h m hm
  simp only [settleEarly, e, List.foldl_nil]

/-! ## The queues open -/

theorem settleDrain_kept (s : State) : CtlKept s (settleDrain s) := by
  unfold settleDrain
  split
  · exact .refl s
  · next r hr =>
    split
    · simp [CtlKept, ctlCore, hr, runCore, engineBeat]
    · exact .refl s

theorem settleCell_kept (cell : Nat) (s : State) : CtlKept s (settleCell cell s) := by
  unfold settleCell
  split
  · exact .refl s
  · dsimp only
    refine .trans ?_ (mapRun_kept ?_ _)
    · exact .of_eq rfl rfl
    · intro r
      rfl

theorem openQueues_kept (s : State) : CtlKept s (openQueues s) := by
  unfold openQueues
  refine .trans ?_ (settleDrain_kept _)
  refine .trans ?_ (CtlKept.foldl (fun t c => ?_) _ _)
  · exact .of_eq rfl rfl
  · exact settleCell_kept c t

theorem entryFaults_kept (g : GStep) (c : Ctl) (s : State) : CtlKept s (entryFaults g c s) := by
  unfold entryFaults
  dsimp only
  refine .trans ?_ (faultIf_kept _ _ _)
  refine .trans ?_ (CtlKept.foldl (fun t f => ?_) _ _)
  · exact (faultIf_kept _ _ s).trans (faultIf_kept _ _ _)
  · exact stepFault_kept f.2 t

/-! ## The counters -/

theorem faultIf_ctr (c : Bool) (cause : Nat) (s : State) : (faultIf c cause s).ctr = s.ctr := ctr_of_allBut (by simp)

theorem arrAdd_kept (cl ctr n : Nat) (s : State) : CtlKept s (arrAdd cl ctr n s) := by
  unfold arrAdd
  dsimp only
  generalize decide (ctrMax < arrGet s cl ctr + n) = c
  refine CtlKept.trans (t := { s with ctr := _ }) ?_ (faultIf_kept c _ _)
  exact .of_eq rfl rfl

theorem arrAdd_dep (cl ctr n : Nat) (s : State) :
    (arrAdd cl ctr n s).ctr.dep = s.ctr.dep ∧ (arrAdd cl ctr n s).ctr.sched = s.ctr.sched := by
  unfold arrAdd
  dsimp only
  generalize decide (ctrMax < arrGet s cl ctr + n) = c
  rw [faultIf_ctr]
  exact ⟨rfl, rfl⟩

theorem resetCounters_kept (sched : Nat) (s : State) : CtlKept s (resetCounters sched s) := by
  unfold resetCounters
  dsimp only
  refine .trans ?_ (CtlKept.foldl (fun t e => ?_) _ _)
  · exact .of_eq rfl rfl
  · exact arrAdd_kept _ _ _ t

theorem foldl_unchanged {α β : Type} {f : State → α → State} {P : State → β} (h : ∀ t a, P (f t a) = P t) (l : List α)
    (s : State) : P (l.foldl f s) = P s := by
  induction l generalizing s with
  | nil => rfl
  | cons a r ih => rw [List.foldl_cons, ih, h]

theorem resetCounters_dep (sched : Nat) (s : State) :
    (resetCounters sched s).ctr.dep = [] ∧ (resetCounters sched s).ctr.sched = some sched := by
  unfold resetCounters
  dsimp only
  refine ⟨?_, ?_⟩
  · refine (foldl_unchanged (P := fun s => s.ctr.dep) (fun t e => ?_) _ _).trans ?_
    · exact (arrAdd_dep _ _ _ t).1
    · rfl
  · refine (foldl_unchanged (P := fun s => s.ctr.sched) (fun t e => ?_) _ _).trans ?_
    · exact (arrAdd_dep _ _ _ t).2
    · rfl

theorem depGet_of_empty {s : State} (h : s.ctr.dep = []) (cell ctr : Nat) :
    depGet s cell ctr = presetAt s (4 * (cell * 1024 + ctr)) := by
  simp only [depGet, h, kvGet?]

/-! ## The engine's copy of the Beat counter -/

/-- The engine's copy lags by at most 16 ticks. -/
theorem engineBeat_lag (s : State) : (engineBeat s).1 ≤ s.time.beat ∧ s.time.beat ≤ (engineBeat s).1 + 16 := by
  simp only [engineBeat]
  omega

theorem engineBeat_keepsTime (s : State) : Keeps [.time] s (engineBeat s).2 := (engineBeat_keeps _ rfl).2 (.refl _ s)

theorem strobeBeat_lag (d : Nat) (s : State) : d ≤ (strobeBeat d s).1 ∧ (strobeBeat d s).1 ≤ d + 16 := by
  simp only [strobeBeat]
  omega

end Sys2Proof.Machine

namespace Sys2Proof.Claims

open Sys2Proof.Machine

section
variable {s : State} {g : GStep} {im : Image}

/-- The state as the step becomes the run, before its counters are set. -/
def becomesRun (g : GStep) (im : Image) (tRunning : Nat) (s : State) : State :=
  { s with
    job := { s.job with lasting := applyGrant g s.job.lasting }
    exch := enterExch s.ctl.noCurrent g.step s.exch
    ctl := { s.ctl with
      run := some (noteRingWait s.ctl (Run.start g im.imageId s.ctl.tArmed tRunning s.job.lasting)), armed := none, tArmed := 0, heldBad := false, waitedRing := false, ringTicks := 0
      noCurrent := false, aborted := false, replaying := false
      stepPulses := s.ctl.stepPulses + 1, launchPulses := if g.launch then s.ctl.launchPulses + 1 else s.ctl.launchPulses
      entrySteps := [], keptDigest := none, keptDiffers := false
      heldFaults := s.ctl.heldFaults.filter fun f => f.1 == g.step + 1 } }

theorem enterRunning_eq (g : GStep) (im : Image) (n : Nat) (s : State) : enterRunning g im n s =
    let u := settleEarly g.step (entryFaults g s.ctl (resetCounters g.sched (becomesRun g im n s)))
    if stepActive u then openQueues u else u := rfl

theorem enterExch_early {first : Bool} {step n : Word} {x : Exch} (h : ∀ m ∈ x.early, m.key.step ≠ n) :
    ∀ m ∈ (enterExch first step x).early, m.key.step ≠ n := fun m hm => h m (List.mem_filter.1 hm).1

/-- RUNNING entry makes the step the run. -/
theorem enterRunning_entered (g : GStep) (im : Image) (n : Nat) (s : State) :
    ∃ r, Entered g im s (enterRunning g im n s) r ∧ r.tRunning = n ∧
      (enterRunning g im n s).launch.strobe = s.launch.strobe := by
  rw [enterRunning_eq]
  dsimp only
  generalize hu : settleEarly g.step (entryFaults g s.ctl (resetCounters g.sched (becomesRun g im n s))) = u
  generalize ht : (if stepActive u then openQueues u else u) = t
  have hk : CtlKept (becomesRun g im n s) u := by
    rw [← hu]
    exact ((resetCounters_kept _ _).trans (entryFaults_kept _ _ _)).trans (settleEarly_kept _ _)
  have kt : CtlKept u t ∧ Keeps [.cells, .ctl, .time] u t := by
    rw [← ht]
    split
    · exact ⟨openQueues_kept u, (openQueues_keeps _ rfl).2 (.refl _ u)⟩
    · exact ⟨.refl u, .refl _ u⟩
  have hctr : u.ctr.dep = [] ∧ u.ctr.sched = some g.sched := by
    rw [← hu, ctr_of_allBut (s := entryFaults g s.ctl (resetCounters g.sched (becomesRun g im n s))) (by simp),
      ctr_of_allBut (s := resetCounters g.sched (becomesRun g im n s)) (by simp)]
    exact resetCounters_dep _ _
  have hjob : u.job = (becomesRun g im n s).job := by
    rw [← hu]
    exact job_of_allBut (by simp)
  have hmem (h : ∀ m ∈ s.exch.early, m.key.step ≠ g.step) : u.mem = s.mem := by
    have he : (entryFaults g s.ctl (resetCounters g.sched (becomesRun g im n s))).exch = (becomesRun g im n s).exch :=
      exch_of_allBut (by simp)
    rw [← hu, settleEarly_mem (by rw [he]; exact enterExch_early h)]
    exact mem_of_allBut (s := becomesRun g im n s) (by simp)
  obtain ⟨r, hr, hc⟩ := (hk.trans kt.1).run (r := noteRingWait s.ctl (Run.start g im.imageId s.ctl.tArmed n s.job.lasting)) rfl
  have hc' : runCore r = runCore (Run.start g im.imageId s.ctl.tArmed n s.job.lasting) := by
    rw [hc]
    unfold noteRingWait
    split <;> rfl
  have kd := kt.2
  refine ⟨r, ⟨hr, congrArg Run.g hc', congrArg Run.imageId hc', congrArg Run.saved hc', (hk.trans kt.1).armed,
    (hk.trans kt.1).noCurrent, ?_, ?_, fun h => (kd.mem_eq rfl).trans (hmem h), fun cell ctr => depGet_of_empty ?_ cell ctr⟩,
    congrArg Run.tRunning hc', (hk.trans kt.1).strobe⟩
  · rw [kd.job_eq rfl, hjob]
    rfl
  · rw [kd.ctr_eq rfl, hctr.2]
  · rw [kd.ctr_eq rfl, hctr.1]

theorem stepArm_takes {rest : List GStep} (ha : s.ctl.armed = none) (hf : s.errs.deviceFault = false) (hr : s.ctl.replay = [])
    (hg : s.ctl.granted = g :: rest) (hp : s.ctl.gongPending = none) :
    ∃ t, exec .stepArm s = .next t ∧ Keeps [.ctl, .time] s t ∧ t.ctl.armed = some g ∧ t.ctl.granted = rest ∧
      t.ctl.tArmed ≤ s.time.beat ∧ s.time.beat ≤ t.ctl.tArmed + 16 := by
  have hn : nextGranted? s = some (g, { s with ctl := { s.ctl with granted := rest } }) := by simp [nextGranted?, hr, hg]
  generalize hv : ({ s with ctl := { s.ctl with granted := rest } } : State) = v at hn
  generalize hb : engineBeat v = b
  have hvc : v.ctl = { s.ctl with granted := rest } ∧ v.time = s.time := by rw [← hv]; exact ⟨rfl, rfl⟩
  have hk : Keeps [.ctl, .time] s b.2 := by
    rw [← hb, ← hv]
    exact (engineBeat_keeps _ rfl).2 (by simp [within])
  have e : exec .stepArm s = .next { b.2 with
      ctl := { s.ctl with granted := rest, armed := some g, tArmed := b.1, stepPulses := s.ctl.stepPulses + 1 } } := by
    show Host.Outcome.next (stepArmEffect s) = _
    simp [stepArmEffect, ha, hf, hn, hb, waitingGong?, hp, hvc]
  refine ⟨_, e, .trans hk (by simp [within]), rfl, rfl, ?_⟩
  rw [← hb, ← hvc.2]
  exact engineBeat_lag v

/-- A step whose entry waits for the report ring notes it (R64). -/
theorem enterOrWait_waits (hi : boundImage? s = some im) (hf : entryFree s = false) (ht : s.errs.testing = none)
    (b : State → Nat × State) : enterOrWait g b s = { s with ctl := { s.ctl with waitedRing := true } } := by
  simp [enterOrWait, hi, hf, ht]

theorem enterOrWait_enters (hi : boundImage? s = some im) (hf : entryFree s = true) (b : State → Nat × State) :
    enterOrWait g b s = enterRunning g im (b s).1 (b s).2 := by
  simp [enterOrWait, hi, hf]

variable (ha : s.ctl.armed = some g) (hi : boundImage? s = some im) (he : entryReady s g = true)

include ha he in
theorem stepRun_eq (hl : g.launch = false) : exec .stepRun s = .next (enterOrWait g engineBeat s) := by
  show Host.Outcome.next (stepRunEffect s) = _
  simp [stepRunEffect, ha, hl, he]

theorem Entered.of_time {s u t : State} {r : Run} (h : Entered g im u t r) (k : Keeps [.time, .launch] s u) :
    Entered g im s t r := by
  obtain ⟨h1, h2, h3, h4, h5, h6, h7, h8, h9, h10⟩ := h
  rw [k.job_eq rfl] at h4 h7
  rw [k.exch_eq rfl, k.mem_eq rfl] at h9
  exact ⟨h1, h2, h3, h4, h5, h6, h7, h8, h9, h10⟩

include ha hi he in
theorem stepRun_enters (hf : entryFree s = true) (hl : g.launch = false) : ∃ t r, exec .stepRun s = .next t ∧
    Entered g im s t r ∧ r.tRunning ≤ s.time.beat ∧ s.time.beat ≤ r.tRunning + 16 := by
  obtain ⟨r, hent, hr, -⟩ := enterRunning_entered g im (engineBeat s).1 (engineBeat s).2
  refine ⟨_, r, (stepRun_eq ha he hl).trans (congrArg _ (enterOrWait_enters hi hf _)),
    Entered.of_time hent ((engineBeat_keepsTime s).mono rfl), ?_⟩
  rw [hr]
  exact engineBeat_lag s

include ha he in
theorem launchStrobe_eq {d : Nat} (hl : g.launch = true) (hs : s.launch.strobe = some (g.step, d)) (hd : d ≤ s.time.beat) :
    exec .launchStrobe s = .next (if entryFree s then
        enterOrWait g (if s.launch.strobeLate then engineBeat else strobeBeat d)
          { s with launch := { s.launch with strobe := none, strobeLate := false } }
      else enterOrWait g engineBeat { s with launch := { s.launch with strobeLate := true } }) := by
  show Host.Outcome.next (launchStrobeEffect s) = _
  simp only [launchStrobeEffect, hs, if_neg (Nat.not_lt.2 hd), ha, hl, he, and_self, if_true]

include ha hi he in
theorem launchStrobe_enters {d : Nat} (hf : entryFree s = true) (hl : g.launch = true) (hs : s.launch.strobe = some (g.step, d))
    (hd : d ≤ s.time.beat) : ∃ t r, exec .launchStrobe s = .next t ∧ Entered g im s t r ∧ t.launch.strobe = none ∧
      (s.launch.strobeLate = false → d ≤ r.tRunning ∧ r.tRunning ≤ d + 16) ∧
      (s.launch.strobeLate = true → r.tRunning ≤ s.time.beat ∧ s.time.beat ≤ r.tRunning + 16) := by
  generalize hu : ({ s with launch := { s.launch with strobe := none, strobeLate := false } } : State) = u
  generalize hb : (if s.launch.strobeLate then engineBeat else strobeBeat d) = b
  have hku : Keeps [.time, .launch] s u := by
    rw [← hu]
    simp [within]
  have hkb : Keeps [.time] u (b u).2 := by
    rw [← hb]
    split
    · exact engineBeat_keepsTime u
    · exact (strobeBeat_keeps _ _ rfl).2 (.refl _ u)
  have hfu : entryFree u = true := by rw [← hu]; exact hf
  have hiu : boundImage? u = some im := by rw [← hu]; exact hi
  obtain ⟨r, hent, hr, hst⟩ := enterRunning_entered g im (b u).1 (b u).2
  have e : exec .launchStrobe s = .next (enterRunning g im (b u).1 (b u).2) := by
    rw [launchStrobe_eq ha he hl hs hd, if_pos hf, hu, hb, enterOrWait_enters hiu hfu]
  have hbeat : u.time = s.time := by rw [← hu]
  refine ⟨_, r, e, hent.of_time (hku.trans (hkb.mono rfl)), ?_, fun hl => ?_, fun hl => ?_⟩
  · rw [hst, hkb.launch_eq rfl, ← hu]
  · rw [hr, ← hb, hl]
    exact strobeBeat_lag d u
  · rw [hr, ← hb, hl, ← hbeat]
    exact engineBeat_lag u

end

/-- Settles O27. -/
theorem stepsArmAndRun : Obligations.StepsArmAndRun := by
  unfold Obligations.StepsArmAndRun
  intro s
  refine ⟨fun g rest => stepArm_takes, fun g im ha hi he hf => ⟨stepRun_enters ha hi he hf, fun d => launchStrobe_enters ha hi he hf⟩,
    fun g im ha hi he hf ht => ⟨fun hl => ?_, fun d hl hs hd => ?_⟩⟩
  · rw [stepRun_eq ha he hl, enterOrWait_waits hi hf ht]
  · rw [launchStrobe_eq ha he hl hs hd, hf, if_neg Bool.false_ne_true,
      enterOrWait_waits (s := { s with launch := { s.launch with strobeLate := true } }) hi hf ht]

end Sys2Proof.Claims
end

section
/-! SUPPORT. Once the run has latched (R237, R238, R302, R335): what follows from the latch, events and device faults among it,
leaves step control, the report ring and a cell test as they were. -/

namespace Sys2Proof.Machine

/-- The report side of the mailbox. -/
def reportSide (m : Mailbox) : Option (Nat × Nat) × Word × Word × Nat × Nat :=
  (m.rptRing, m.rptTail, m.rptHead, m.rptSize, m.rptEntries)

/-- Step control, the report ring, a cell test and the backed memory stand, and no command has been opened. -/
structure Quiet (s t : State) : Prop where
  ctl : t.ctl = s.ctl
  report : reportSide t.mb = reportSide s.mb
  testing : t.errs.testing = s.errs.testing
  unbacked : t.unbacked = s.unbacked
  opened : ∀ o ∈ t.mb.opened, o ∈ s.mb.opened

namespace Quiet
variable {s t u : State}

theorem refl (s : State) : Quiet s s := ⟨rfl, rfl, rfl, rfl, fun _ h => h⟩

theorem trans (h : Quiet s t) (g : Quiet t u) : Quiet s u :=
  ⟨g.ctl.trans h.ctl, g.report.trans h.report, g.testing.trans h.testing, g.unbacked.trans h.unbacked,
    fun o m => h.opened o (g.opened o m)⟩

theorem of_keeps {k : List Part} (h : Keeps k s t) (w : within k [.mem, .cells, .ctr, .job, .exch, .tier, .flash, .pools, .rem, .fab,
    .time, .launch, .mgmt, .dbg] = true) : Quiet s t := by
  have h := h.mono w
  exact ⟨h.ctl_eq rfl, by rw [h.mb_eq rfl], by rw [h.errs_eq rfl], h.unbacked_eq rfl, fun o m => by rwa [h.mb_eq rfl] at m⟩

theorem idle (h : Quiet s t) (hr : s.ctl.run = none) : t.ctl.run = none := by rw [h.ctl]; exact hr

theorem foldl {α : Type} {f : State → α → State} (h : ∀ t a, t.ctl.run = none → Quiet t (f t a)) (l : List α) {s : State}
    (hr : s.ctl.run = none) : Quiet s (l.foldl f s) := by
  induction l generalizing s with
  | nil => exact refl s
  | cons a r ih => exact (h s a hr).trans (ih ((h s a hr).idle hr))

end Quiet

/-! ## Completions and events -/

theorem abortCommands_quiet (l : List OpenCmd) (s : State) : Quiet s (abortCommands l s) := by
  induction l generalizing s with
  | nil => exact .refl s
  | cons c r ih =>
    unfold abortCommands
    refine .trans ?_ (ih _)
    split
    · exact ⟨rfl, rfl, rfl, rfl, fun _ h => h⟩
    · exact .refl s

theorem closeCommands_quiet (f : OpenCmd → Option (Nat × List Byte)) (l : List OpenCmd) (s : State) :
    Quiet s (closeCommands f l s) := by
  induction l generalizing s with
  | nil => exact .refl s
  | cons c r ih =>
    unfold closeCommands
    split
    · exact ih s
    · refine .trans ?_ (ih _)
      exact ⟨rfl, rfl, rfl, rfl, fun o h => (List.mem_filter.1 h).1⟩

theorem closeOpen_quiet (f : OpenCmd → Option (Nat × List Byte)) (s : State) : Quiet s (closeOpen f s) :=
  closeCommands_quiet f _ s

theorem mapRun_idle {s : State} (hr : s.ctl.run = none) (f : Run → Run) : mapRun f s = s := by
  simp only [mapRun, hr]

theorem soundGongOn_quiet (l : List Nat) (a b c : Nat) (s : State) : Quiet s (soundGongOn l a b c s) :=
  .of_keeps (k := [.rem, .launch]) ((soundGongOn_keeps _ _ _ _ _ rfl).2 (.refl _ s)) rfl

theorem pldmEvent_quiet (id : Nat) (d : List Byte) (s : State) : Quiet s (pldmEvent id d s) :=
  .of_keeps (k := [.mgmt]) ((pldmEvent_keeps _ _ _ rfl).2 (.refl _ s)) rfl

/-- A device fault with no run stops nothing, and leaves no command open. -/
theorem deviceFaultCore_quiet (cause : Nat) {s : State} (hr : s.ctl.run = none) : Quiet s (deviceFaultCore cause s) := by
  unfold deviceFaultCore
  dsimp only
  generalize hu : (if s.errs.deviceFault then s else soundGongOn (faultPorts cause s) (gongRun s).1 (gongRun s).2 fcDeviceLost s) = u
  have q : Quiet s u := by
    rw [← hu]
    split
    · exact .refl s
    · exact soundGongOn_quiet _ _ _ _ s
  rw [mapRun_idle (q.idle hr)]
  generalize hv : setCause 3 { u with
      errs := { u.errs with deviceFault := true }
      mb := { u.mb with evtFault := if u.mb.evtFault = 0 then BitVec.ofNat 16 cause else u.mb.evtFault } } = v
  have qv : Quiet u v := by
    rw [← hv]
    exact ⟨rfl, rfl, rfl, rfl, fun _ h => h⟩
  have qw := abortCommands_quiet v.mb.opened v
  generalize abortCommands v.mb.opened v = w at qw ⊢
  refine (q.trans (qv.trans qw)).trans (.trans ?_ (pldmEvent_quiet _ _ _))
  exact ⟨rfl, rfl, rfl, rfl, fun _ h => by cases h⟩

theorem enqueueEvent_quiet (typ st tag : Nat) (d : List Byte) (s : State) : Quiet s (enqueueEvent typ st tag d s) := by
  unfold enqueueEvent
  split <;> exact ⟨rfl, rfl, rfl, rfl, fun _ h => h⟩

theorem pushEvents_quiet (l : List Event) {s : State} (hr : s.ctl.run = none) : Quiet s (pushEvents l s) := by
  induction l generalizing s with
  | nil => exact ⟨rfl, rfl, rfl, rfl, fun _ h => h⟩
  | cons e r ih =>
    unfold pushEvents
    split
    · exact ⟨rfl, rfl, rfl, rfl, fun _ h => h⟩
    · split
      · dsimp only
        split
        · refine .trans ?_ (ih hr)
          exact ⟨rfl, rfl, rfl, rfl, fun _ h => h⟩
        · split
          · exact ⟨rfl, rfl, rfl, rfl, fun _ h => h⟩
          · exact .trans (t := { s with mb := { s.mb with queue := e :: r } }) ⟨rfl, rfl, rfl, rfl, fun _ h => h⟩
              (deviceFaultCore_quiet 2 hr)
      · exact ⟨rfl, rfl, rfl, rfl, fun _ h => h⟩

theorem postEvent_quiet (typ st tag : Nat) (d : List Byte) {s : State} (hr : s.ctl.run = none) :
    Quiet s (postEvent typ st tag d s) :=
  have k := enqueueEvent_quiet typ st tag d s
  k.trans (pushEvents_quiet _ (k.idle hr))

theorem deviceFault_quiet (cause : Nat) {s : State} (hr : s.ctl.run = none) : Quiet s (deviceFault cause s) := by
  have k := deviceFaultCore_quiet cause hr
  unfold deviceFault
  dsimp only
  split
  · exact k.trans (postEvent_quiet _ _ _ _ (k.idle hr))
  · exact k

/-! ## Bound pool commands (R302) -/

theorem grantWait_quiet (w : PoolWait) (h : Nat) {s : State} (hr : s.ctl.run = none) : Quiet s (grantWait w h s) := by
  unfold grantWait
  split
  · exact postEvent_quiet _ _ _ _ hr
  · exact ⟨rfl, rfl, rfl, rfl, fun _ h => h⟩
  · exact ⟨rfl, rfl, rfl, rfl, fun _ h => h⟩

theorem serveWaits_quiet (l : List PoolWait) {s : State} (hr : s.ctl.run = none) : Quiet s (serveWaits l s) := by
  induction l generalizing s with
  | nil => exact .refl s
  | cons w r ih =>
    unfold serveWaits
    split
    · next h t e =>
      have qa : Quiet s t := .of_keeps (allocate_keeps e) rfl
      have qg := grantWait_quiet w h (qa.idle hr)
      exact (qa.trans qg).trans (ih ((qa.trans qg).idle hr))
    · refine .trans ?_ (ih hr)
      exact ⟨rfl, rfl, rfl, rfl, fun _ h => h⟩

theorem freeBuffer_quiet (n : Nat) {s : State} (hr : s.ctl.run = none) : Quiet s (freeBuffer n s) := by
  unfold freeBuffer
  refine .trans ?_ (serveWaits_quiet _ hr)
  exact ⟨rfl, rfl, rfl, rfl, fun _ h => h⟩

theorem mapBuffer_quiet (h : Nat) (f : Buffer → Buffer) (s : State) : Quiet s (mapBuffer h f s) :=
  ⟨rfl, rfl, rfl, rfl, fun _ h => h⟩

/-- What a RELEASE or a FREE does at once, and what follows it, is quiet. -/
def QuietEnd (s : State) (r : Nat × State × (State → State)) : Prop :=
  Quiet s r.2.1 ∧ ∀ u, u.ctl.run = none → Quiet u (r.2.2 u)

theorem QuietEnd.done {s t : State} (st : Nat) (h : Quiet s t) : QuietEnd s (st, t, id) := ⟨h, fun u _ => .refl u⟩

theorem applyFree_quiet (h owner tag step : Nat) (s : State) : QuietEnd s (applyFree h owner tag step s) := by
  unfold applyFree
  dsimp only
  split
  · exact .done _ (.refl s)
  · split
    · exact .done _ ⟨rfl, rfl, rfl, rfl, fun _ h => h⟩
    · split
      · exact .done _ ⟨rfl, rfl, rfl, rfl, fun _ h => h⟩
      · split
        · exact .done _ (.refl s)
        · split
          · exact .done _ (mapBuffer_quiet _ _ s)
          · exact ⟨.refl s, fun u hu => freeBuffer_quiet _ hu⟩

theorem applyRelease_quiet (h owner : Nat) (s : State) : QuietEnd s (applyRelease h owner s) := by
  unfold applyRelease
  dsimp only
  split
  · exact .done _ (.refl s)
  · split
    · exact .done _ (.refl s)
    · split
      · exact .done _ (.refl s)
      · split
        · exact .done _ (.refl s)
        · split
          · refine ⟨mapBuffer_quiet _ _ s, fun u hu => ?_⟩
            refine .trans (postEvent_quiet _ _ _ _ hu) (freeBuffer_quiet _ ?_)
            exact (postEvent_quiet _ _ _ _ hu).idle hu
          · exact .done _ (mapBuffer_quiet _ _ s)

theorem applyPool_quiet (free : Bool) (h owner tag step : Nat) (s : State) :
    QuietEnd s (applyPool free h owner tag step s) := by
  cases free
  · exact applyRelease_quiet h owner s
  · exact applyFree_quiet h owner tag step s

theorem applyBound_quiet (b : Bound) {s : State} (hr : s.ctl.run = none) : Quiet s (applyBound b s) := by
  obtain ⟨h1, h2⟩ := applyPool_quiet b.free b.handle b.owner b.tag b.step.toNat s
  unfold applyBound
  dsimp only
  refine (h1.trans ?_).trans (h2 _ ?_)
  · exact postEvent_quiet _ _ _ _ (h1.idle hr)
  · exact (postEvent_quiet _ _ _ _ (h1.idle hr)).idle (h1.idle hr)

theorem latchBound_quiet (step : Word) {s : State} (hr : s.ctl.run = none) : Quiet s (latchBound step s) := by
  unfold latchBound
  refine .trans ?_ (Quiet.foldl (fun t b ht => applyBound_quiet b ht) _ ?_)
  · exact ⟨rfl, rfl, rfl, rfl, fun _ h => h⟩
  · exact hr

/-! ## What every latch does beside its record -/

theorem latchWindows_quiet {s : State} (hr : s.ctl.run = none) : Quiet s (latchWindows s) := by
  unfold latchWindows
  refine .trans ?_ (Quiet.foldl (fun t d ht => ?_) _ ?_)
  · exact ⟨rfl, rfl, rfl, rfl, fun _ h => h⟩
  · refine .trans ?_ (postEvent_quiet _ _ _ _ ?_)
    · exact ⟨rfl, rfl, rfl, rfl, fun _ h => h⟩
    · exact ht
  · exact hr

theorem CountsOnly.testing {s t : State} (h : CountsOnly s t) : t.errs.testing = s.errs.testing := by
  have := congrArg Errs.testing h
  exact this

theorem tableSwap_quiet (s : State) : Quiet s (tableSwap s) := by
  unfold tableSwap
  split
  · generalize hu : ({ s with fab := { s.fab with active := s.fab.shadow, hasActive := true, shadowReady := false } } : State) = u
    have qu : Quiet s u := by
      rw [← hu]
      exact ⟨rfl, rfl, rfl, rfl, fun _ h => h⟩
    have k : Keeps [.fab, .time, .errs] u (settlePorts true u) := (settlePorts_keeps _ _ rfl).2 (.refl _ u)
    have kc := settlePorts_countsOnly true u
    exact qu.trans ⟨k.ctl_eq rfl, by rw [k.mb_eq rfl], kc.testing, k.unbacked_eq rfl, fun o m => by rwa [k.mb_eq rfl] at m⟩
  · exact .refl s

theorem latchEffects_quiet (step : Word) {s : State} (hr : s.ctl.run = none) : Quiet s (latchEffects step s) := by
  unfold latchEffects
  dsimp only
  generalize hu : readersLatched [step] (releaseHolds (clearCells step s)) = u
  have qu : Quiet s u := by
    rw [← hu]
    exact ⟨rfl, rfl, rfl, rfl, fun _ h => h⟩
  have qd : Quiet u (sendCums (dropUnsent u)) :=
    .of_keeps (k := [.rem]) ((sendCums_keeps _ rfl).2 ((dropUnsent_keeps _ rfl).2 (.refl _ u))) rfl
  have qw := qu.trans (qd.trans (latchWindows_quiet (qd.idle (qu.idle hr))))
  exact qw.trans (tableSwap_quiet _)

end Sys2Proof.Machine
end

section
/-! SUPPORT. The terminal latch (R232 to R240): the report that it leaves, and what it leaves of the run. -/

namespace Sys2Proof.Machine

/-! ## Reports -/

/-- Only the reports held, the pulses and the open commands that ended have changed in step control and the mailbox. -/
def ReportsOnly (s t : State) : Prop :=
  (∃ l n, t.ctl = { s.ctl with reportsHeld := l, stepPulses := n }) ∧ ∀ o ∈ t.mb.opened, o ∈ s.mb.opened

theorem ReportsOnly.trans {s t u : State} (h : ReportsOnly s t) (g : ReportsOnly t u) : ReportsOnly s u := by
  obtain ⟨⟨l, n, h⟩, ho⟩ := h
  obtain ⟨⟨k, m, g⟩, go⟩ := g
  exact ⟨⟨k, m, by rw [g, h]⟩, fun o q => ho o (go o q)⟩

theorem ReportsOnly.of_quiet {s t : State} (h : Quiet s t) : ReportsOnly s t := ⟨⟨_, _, h.ctl⟩, h.opened⟩

theorem ReportsOnly.idle {s t : State} (h : ReportsOnly s t) (hr : s.ctl.run = none) : t.ctl.run = none := by
  obtain ⟨⟨_, _, e⟩, -⟩ := h
  rw [e]
  exact hr

theorem writeReport_reportsOnly (m : Mem) {s : State} (hr : s.ctl.run = none) : ReportsOnly s (writeReport m s) := by
  unfold writeReport
  split
  · exact .of_quiet (.refl s)
  · dsimp only
    split
    · exact ⟨⟨_, _, rfl⟩, fun _ h => h⟩
    · exact .of_quiet (deviceFault_quiet 2 hr)

theorem writeReports_reportsOnly (l : List Mem) {s : State} (hr : s.ctl.run = none) : ReportsOnly s (writeReports l s) := by
  induction l generalizing s with
  | nil => exact .of_quiet (.refl s)
  | cons m r ih =>
    unfold writeReports
    split
    · generalize hu : ({ s with ctl := { s.ctl with reportsHeld := r, stepPulses := s.ctl.stepPulses + 1 } } : State) = u
      have hs : ReportsOnly s u := by
        rw [← hu]
        exact ⟨⟨_, _, rfl⟩, fun _ h => h⟩
      have hw := hs.trans (writeReport_reportsOnly m (hs.idle hr))
      exact hw.trans (ih (hw.idle hr))
    · exact .of_quiet (.refl s)

theorem holdReport_reportsOnly (m : Mem) {s : State} (hr : s.ctl.run = none) : ReportsOnly s (holdReport m s) := by
  unfold holdReport settleReport
  generalize hu : ({ s with ctl := { s.ctl with reportsHeld := s.ctl.reportsHeld ++ [m] } } : State) = u
  have hs : ReportsOnly s u := by
    rw [← hu]
    exact ⟨⟨_, _, rfl⟩, fun _ h => h⟩
  split
  · exact hs.trans (writeReports_reportsOnly _ (hs.idle hr))
  · exact hs

theorem ringRoom_congr {s t : State} (h : reportSide t.mb = reportSide s.mb) : ringRoom t = ringRoom s := by
  simp only [reportSide, Prod.mk.injEq] at h
  obtain ⟨h1, h2, h3, h4, h5⟩ := h
  simp only [ringRoom, h1, h2, h3, h5]

/-- Where the next report goes. -/
def reportAddr (m : Mailbox) : Nat := (m.rptRing.map (·.1)).getD 0 + m.rptTail.toNat % m.rptEntries * m.rptSize

theorem reportAddr_congr {m n : Mailbox} (h : reportSide m = reportSide n) : reportAddr m = reportAddr n ∧ m.rptSize = n.rptSize ∧
    m.rptTail = n.rptTail := by
  simp only [reportSide, Prod.mk.injEq] at h
  obtain ⟨h1, h2, h3, h4, h5⟩ := h
  exact ⟨by simp only [reportAddr, h1, h2, h4, h5], h4, h2⟩

/-- A report that finds a backed entry is written at once. -/
theorem holdReport_writes (m : Mem) {s : State} (ht : s.errs.testing = none) (hh : s.ctl.reportsHeld = [])
    (hr : ringRoom s = true) (hk : hostOk s (reportAddr s.mb) s.mb.rptSize = true) :
    (holdReport m s).mb.rptTail = s.mb.rptTail + 1 := by
  obtain ⟨⟨base, n⟩, hb⟩ : ∃ x, s.mb.rptRing = some x := by
    simp only [ringRoom, Bool.and_eq_true] at hr
    exact Option.isSome_iff_exists.1 hr.1
  have hk' : hostOk s (base + s.mb.rptTail.toNat % s.mb.rptEntries * s.mb.rptSize) s.mb.rptSize = true := by
    simpa [reportAddr, hb] using hk
  generalize hu : ({ s with ctl := { s.ctl with reportsHeld := [], stepPulses := s.ctl.stepPulses + 1 } } : State) = u
  have e : holdReport m s = writeReport m u := by
    have h0 : ({ s with ctl := { s.ctl with reportsHeld := s.ctl.reportsHeld ++ [m] } } : State).errs.testing.isNone = true := by
      simp [ht]
    have h1 : ringRoom { s with ctl := { s.ctl with reportsHeld := s.ctl.reportsHeld ++ [m] } } = true := hr
    simp only [holdReport, settleReport, if_pos h0]
    rw [hh, List.nil_append, writeReports, if_pos (by rw [← hr]; rfl), writeReports, ← hu]
  have hmb : u.mb = s.mb := by rw [← hu]
  have hku : hostOk u (base + u.mb.rptTail.toNat % u.mb.rptEntries * u.mb.rptSize) u.mb.rptSize = true := by
    rw [hmb, hostOk_congr (s := s) (by rw [← hu])]
    exact hk'
  have hbu : u.mb.rptRing = some (base, n) := by rw [hmb]; exact hb
  simp only [e, writeReport, hbu, if_pos hku]
  rw [← hmb]
  rfl

end Sys2Proof.Machine

namespace Sys2Proof.Claims

open Sys2Proof.Machine

section
variable {s : State} {r : Run}

/-- What a report needs to be written at its latch. -/
def ReportFits (s : State) : Prop :=
  s.ctl.reportsHeld = [] ∧ ringRoom s = true ∧ hostOk s (reportAddr s.mb) s.mb.rptSize = true

/-- A latch that leaves the report ring as it finds it writes its report. -/
theorem holdReport_after (m : Mem) {v : State} (hrep : reportSide v.mb = reportSide s.mb) (hub : v.unbacked = s.unbacked)
    (hrl : v.ctl.reportsHeld = s.ctl.reportsHeld) (ht : v.errs.testing = none) (hf : ReportFits s) :
    (holdReport m v).mb.rptTail = s.mb.rptTail + 1 := by
  obtain ⟨hh, hroom, hok⟩ := hf
  obtain ⟨ha, hsz, htl⟩ := reportAddr_congr hrep
  rw [holdReport_writes m ht (by rw [hrl, hh]) (by rw [ringRoom_congr hrep, hroom])
    (by rw [ha, hsz, hostOk_congr hub, hok]), htl]

/-- The state as a run is kept among the last two. -/
def completedRun (r : Run) (s : State) : State := keepRun r true { (engineBeat s).2 with ctl := { s.ctl with run := none } }

theorem stepComplete_latches (hr : s.ctl.run = some r) (hd : r.draining = true) (hf : r.fault = none)
    (hfin : runFinished s = true) : ∃ t, exec .stepComplete s = .next t ∧
      t.ctl.run = none ∧ t.ctl.past = ⟨r.g, true, 0, true⟩ :: s.ctl.past.take 1 ∧ t.job = s.job ∧ t.ctr = s.ctr ∧
      (s.errs.testing = none → ReportFits s → t.mb.rptTail = s.mb.rptTail + 1) := by
  have e : exec .stepComplete s = .next (latchCompleted r s) := by
    show Host.Outcome.next (stepCompleteEffect s) = _
    simp [stepCompleteEffect, hr, hd, hf, hfin]
  have hk : Keeps [.mb, .mem, .cells, .ctl, .tier, .flash, .pools, .rem, .fab, .time, .launch, .mgmt, .errs] s (latchCompleted r s) :=
    (latchCompleted_keeps r s rfl).2 (.refl _ s)
  have q : Quiet (completedRun r s) (closeOpen (closesAbortStep r.g.step true) (latchEffects r.g.step (latchBound r.g.step
      (completedRun r s)))) := by
    have q1 := latchBound_quiet r.g.step (s := completedRun r s) rfl
    exact (q1.trans (latchEffects_quiet r.g.step (q1.idle rfl))).trans (closeOpen_quiet _ _)
  have ht : latchCompleted r s = holdReport (reportMem s r true (engineBeat s).1) (closeOpen (closesAbortStep r.g.step true)
      (latchEffects r.g.step (latchBound r.g.step (completedRun r s)))) := rfl
  have hp := holdReport_reportsOnly (reportMem s r true (engineBeat s).1) (q.idle rfl)
  obtain ⟨⟨l, n, hc⟩, -⟩ := hp
  refine ⟨_, e, ?_, ?_, hk.job_eq rfl, hk.ctr_eq rfl, fun htest hfits => ?_⟩
  · rw [ht, hc, q.ctl]
    rfl
  · rw [ht, hc, q.ctl]
    show _ :: _ = _
    rw [hf]
    rfl
  · rw [ht]
    exact holdReport_after _ q.report q.unbacked (by rw [q.ctl]; rfl) (q.testing.trans htest) hfits

/-- The state as an ABORTED run is kept among the last two, its entry changes rolled back. -/
def abortedRun (r : Run) (s : State) : State :=
  keepRun r false { (engineBeat s).2 with
    ctl := { s.ctl with run := none }
    job := { s.job with lasting := r.saved }
    errs := { s.errs with testing := s.errs.faultCell, faultCell := none } }

/-- The run but for its stall events. -/
def SameRun (q r : Run) : Prop := q.g = r.g ∧ q.fault = r.fault ∧ q.saved = r.saved

/-- Stall events are of the run alone. -/
def StallsOnly (r : Run) (s t : State) : Prop := ∃ q, SameRun q r ∧ t.ctl = { s.ctl with run := some q } ∧ Keeps [.ctl] s t

theorem endStall_stallsOnly (held : Bool) (f : Flight) (hr : s.ctl.run = some r) : StallsOnly r s (endStall held f s) := by
  have h0 : StallsOnly r s s := ⟨r, ⟨rfl, rfl, rfl⟩, by rw [← hr], .refl _ s⟩
  unfold endStall
  split
  · split
    · next k _ =>
      refine ⟨{ r with stallEvents := tblAdd r.stallEvents k 1 }, ⟨rfl, rfl, rfl⟩, ?_, (addStallEvent_keeps _ _ rfl).2 (.refl _ s)⟩
      simp only [addStallEvent, mapRun, hr]
    · exact h0
  · exact h0

theorem foldl_endStall (l : List Flight) (hr : s.ctl.run = some r) :
    StallsOnly r s (l.foldl (fun t f => endStall f.stalled f t) s) := by
  induction l generalizing s r with
  | nil => exact ⟨r, ⟨rfl, rfl, rfl⟩, by rw [List.foldl_nil, ← hr], .refl _ s⟩
  | cons f l ih =>
    obtain ⟨q, ⟨h1, h2, h3⟩, hc, hk⟩ := endStall_stallsOnly f.stalled f hr
    obtain ⟨p, ⟨g1, g2, g3⟩, gc, gk⟩ := ih (s := endStall f.stalled f s) (r := q) (by rw [hc])
    exact ⟨p, ⟨g1.trans h1, g2.trans h2, g3.trans h3⟩, by rw [List.foldl_cons, gc, hc], hk.trans gk⟩

theorem latchAborted_eq (r : Run) (s : State) : latchAborted r s =
    let v := latchEffects r.g.step (abortedRun r s)
    let w := closeOpen (closesAbortStep r.g.step false)
      (if (r.fault.map (·.isLocal)).getD false then addCount tcStepFaultsLocal 1 (abortedLatch v) else abortedLatch v)
    settleAbortJob (holdReport (reportMem s r false (engineBeat s).1) (if w.mb.opened.any isAbortJob then abortJobStage w else w)) :=
  rfl

/-- What an ABORTED latch of a run, with no ABORT_JOB open, comes to. -/
theorem latchAborted_latches {f : StepFault} (hf : r.fault = some f) (hj : s.mb.opened.any isAbortJob = false) :
    (latchAborted r s).ctl.run = none ∧ (latchAborted r s).ctl.past = ⟨r.g, false, f.cause, true⟩ :: s.ctl.past.take 1 ∧
      (latchAborted r s).job.lasting = r.saved ∧ (latchAborted r s).ctl.aborted = true ∧ (latchAborted r s).exch = Exch.init ∧
      (latchAborted r s).ctr.tally = [] ∧ (latchAborted r s).ctl.granted = s.ctl.granted ∧
      (s.errs.faultCell = none → ReportFits s → (latchAborted r s).mb.rptTail = s.mb.rptTail + 1) := by
  have q1 : Quiet (abortedRun r s) (latchEffects r.g.step (abortedRun r s)) := latchEffects_quiet _ rfl
  have kj : (latchEffects r.g.step (abortedRun r s)).job = (abortedRun r s).job := job_of_allBut (by simp)
  generalize hv : latchEffects r.g.step (abortedRun r s) = v at q1 kj
  generalize hw : closeOpen (closesAbortStep r.g.step false)
    (if (r.fault.map (·.isLocal)).getD false then addCount tcStepFaultsLocal 1 (abortedLatch v) else abortedLatch v) = w
  have q2 : Quiet (abortedLatch v) w := by
    rw [← hw]
    refine .trans ?_ (closeOpen_quiet _ _)
    split
    · exact ⟨rfl, rfl, rfl, rfl, fun _ h => h⟩
    · exact .refl _
  have k2 : Keeps [.mb, .errs] (abortedLatch v) w := by
    rw [← hw]
    refine (closeOpen_keeps _ _ rfl).2 ?_
    split
    · exact (addCount_keeps _ _ _ rfl).2 (.refl _ _)
    · exact .refl _ _
  have hwo : ∀ o ∈ w.mb.opened, isAbortJob o = false := fun o m => by
    have h := List.any_eq_false.1 hj o (q1.opened o (q2.opened o m))
    simpa using h
  have hrun : w.ctl.run = none := by
    rw [q2.ctl]
    exact q1.idle rfl
  obtain ⟨⟨l, n, hc⟩, ho⟩ := holdReport_reportsOnly (reportMem s r false (engineBeat s).1) hrun
  have kh : Keeps [.mb, .mem, .ctl, .rem, .launch, .mgmt, .errs] w (holdReport (reportMem s r false (engineBeat s).1) w) :=
    (holdReport_keeps _ _ rfl).2 (.refl _ w)
  have hset : settleAbortJob (holdReport (reportMem s r false (engineBeat s).1) w) =
      holdReport (reportMem s r false (engineBeat s).1) w := by
    have : (holdReport (reportMem s r false (engineBeat s).1) w).mb.opened.any isAbortJob = false :=
      List.any_eq_false.2 fun o m => by simpa using hwo o (ho o m)
    simp only [settleAbortJob, this, Bool.false_and, Bool.false_eq_true, if_false]
  have e : latchAborted r s = holdReport (reportMem s r false (engineBeat s).1) w := by
    have hno : (w.mb.opened.any isAbortJob) = false := List.any_eq_false.2 fun o m => by simpa using hwo o m
    rw [← hset]
    rw [latchAborted_eq]
    dsimp only
    rw [hv, hw, hno, if_neg Bool.false_ne_true]
  rw [e]
  have hctl : w.ctl = (abortedLatch { v with ctl := (abortedRun r s).ctl }).ctl := by
    rw [q2.ctl]
    show (abortedLatch v).ctl = _
    simp only [abortedLatch, q1.ctl]
  refine ⟨by rw [hc]; exact hrun, ?_, ?_, ?_, ?_, ?_, ?_, fun hfc hfits => ?_⟩
  · rw [hc, hctl]
    show _ :: _ = _
    rw [hf]
    rfl
  · rw [kh.job_eq rfl, k2.job_eq rfl]
    exact congrArg Job.lasting kj
  · rw [hc, hctl]
    rfl
  · rw [kh.exch_eq rfl, k2.exch_eq rfl]
    rfl
  · rw [kh.ctr_eq rfl, k2.ctr_eq rfl]
    rfl
  · rw [hc, hctl]
    rfl
  · refine holdReport_after _ (q2.report.trans q1.report) (q2.unbacked.trans q1.unbacked) (by rw [hctl]; rfl) ?_ hfits
    exact (q2.testing.trans q1.testing).trans hfc

theorem stepAbort_latches {f : StepFault} (hr : s.ctl.run = some r) (hf : r.fault = some f) (ha : allAnswered s = true)
    (hj : s.mb.opened.any isAbortJob = false) : ∃ t, exec .stepAbort s = .next t ∧
      t.ctl.run = none ∧ t.ctl.past = ⟨r.g, false, f.cause, true⟩ :: s.ctl.past.take 1 ∧
      t.job.lasting = r.saved ∧ t.ctl.aborted = true ∧ t.exch = Exch.init ∧ t.ctr.tally = [] ∧ t.ctl.granted = s.ctl.granted ∧
      (s.errs.faultCell = none → s.errs.testing = none → ReportFits s → t.mb.rptTail = s.mb.rptTail + 1) := by
  obtain ⟨q, ⟨h1, h2, h3⟩, hc, hk⟩ := foldl_endStall (s.cells.flatMap fun e => e.2.flight) hr
  have hl : (s.cells.flatMap fun e => e.2.flight).foldl (fun t f => endStall f.stalled f t) s = latchStalls s := rfl
  rw [hl] at hc hk
  have hq : (latchStalls s).ctl.run = some q := by rw [hc]
  have hqf : q.fault = some f := h2.trans hf
  have e : exec .stepAbort s = .next (latchAborted q (latchStalls s)) := by
    show Host.Outcome.next (stepAbortEffect s) = _
    simp [stepAbortEffect, ha, hq, hqf]
  obtain ⟨g1, g2, g3, g4, g5, g6, g7, g8⟩ := latchAborted_latches (s := latchStalls s) hqf (by rw [hk.mb_eq rfl]; exact hj)
  refine ⟨_, e, g1, by rw [g2, h1, hc], g3.trans h3, g4, g5, g6, by rw [g7, hc], fun hfc _ hfits => ?_⟩
  obtain ⟨hh, hroom, hok⟩ := hfits
  rw [g8 (by rw [hk.errs_eq rfl]; exact hfc) ⟨by rw [hc]; exact hh, by rw [ringRoom_congr (s := s) (by rw [hk.mb_eq rfl]), hroom],
    by rw [hostOk_congr (hk.unbacked_eq rfl), hk.mb_eq rfl, hok]⟩, hk.mb_eq rfl]

theorem stepHung_stops {im : Image} (hr : s.ctl.run = some r) (hf : r.fault = none) (hi : s.job.image = some im)
    (hl : 1250 * im.idleLimit ≤ r.idle) : ∃ t, exec .stepHung s = .next t ∧ Keeps [.ctl, .rem, .launch] s t ∧
      t.ctl.run = some { r with fault := some ⟨0x05, true, selfId s⟩ } := by
  have e : exec .stepHung s = .next (stepFault fcStepHung s) := by
    show Host.Outcome.next (stepHungEffect s) = _
    simp [stepHungEffect, hr, hi, hl, faultIf]
  exact ⟨_, e, (stepFault_keeps _ _ rfl).2 (.refl _ s), stepFault_run hr hf _⟩

end

/-- Settles O28. -/
theorem stepsLatch : Obligations.StepsLatch := by
  unfold Obligations.StepsLatch
  intro s r hr
  refine ⟨fun hd hf hfin => ?_, fun f hf ha hj => ?_, fun im hf hi hl => stepHung_stops hr hf hi hl⟩
  · obtain ⟨t, e, h1, h2, h3, h4, h5⟩ := stepComplete_latches hr hd hf hfin
    exact ⟨t, e, h1, h2, h3, h4, fun q1 q2 q3 q4 => h5 q1 ⟨q2, q3, q4⟩⟩
  · obtain ⟨t, e, h1, h2, h3, h4, h5, h6, h7, h8⟩ := stepAbort_latches hr hf ha hj
    exact ⟨t, e, h1, h2, h3, h4, h5, h6, h7, fun q0 q1 q2 q3 q4 => h8 q0 q1 ⟨q2, q3, q4⟩⟩

end Sys2Proof.Claims
end

section
/-! SUPPORT. The end of a task (R46, R48 to R50): what its signal adds, and that it leaves flight. -/

namespace Sys2Proof.Machine

/-! ## Tasks in flight -/

theorem cellOf_congr {s t : State} (h : t.cells = s.cells) (cell : Nat) : cellOf t cell = cellOf s cell := by
  simp only [cellOf, h]

theorem flight_congr {s t : State} (h : t.cells = s.cells) (cell index : Nat) : flight? t cell index = flight? s cell index := by
  simp only [flight?, cellOf_congr h]

theorem flight_dropFlight (cell index : Nat) (s : State) : flight? (dropFlight cell index s) cell index = none := by
  unfold flight? dropFlight
  dsimp only
  rw [cellOf_setCell]
  exact List.find?_eq_none.2 fun f hf => by simpa using (List.mem_filter.1 hf).2

theorem flight_mapFlight {cell index : Nat} {s : State} {f : Flight} {g : Flight → Flight} (h : flight? s cell index = some f)
    (hg : ∀ x, (g x).index = x.index) : flight? (mapFlight cell index g s) cell index = some (g f) := by
  have hf : f.index = index := by simpa using List.find?_some h
  have e : ((fun x : Flight => x.index == index) ∘ fun t : Flight => if t.index = index then g t else t) =
      fun x => x.index == index := by
    funext x
    by_cases q : x.index = index <;> simp [q, hg]
  unfold flight? mapFlight
  dsimp only
  rw [cellOf_setCell]
  show ((cellOf s cell).flight.map _).find? _ = _
  rw [List.find?_map, e]
  unfold flight? at h
  rw [h, Option.map_some, if_pos hf]

theorem traceEvent_silent (cell : Nat) (d : Desc) (k : Nat) {s : State} (h : s.dbg.capture = none) : traceEvent cell d k s = s := by
  simp only [traceEvent, h]

/-! ## Signals -/

theorem faultIf_ctr_job (c : Bool) (cause : Nat) (s : State) :
    (faultIf c cause s).ctr = s.ctr ∧ (faultIf c cause s).job = s.job :=
  ⟨ctr_of_allBut (by simp), job_of_allBut (by simp)⟩

theorem depGet_congr {s t : State} (h : t.ctr = s.ctr) (g : t.job = s.job) (cell ctr : Nat) : depGet t cell ctr = depGet s cell ctr := by
  simp only [depGet, presetAt, h, g]

theorem arrGet_congr {s t : State} (h : t.ctr = s.ctr) (g : t.job = s.job) (cl ctr : Nat) : arrGet t cl ctr = arrGet s cl ctr := by
  simp only [arrGet, presetAt, h, g]

/-- A dependence counter holds at its largest value (R50). -/
theorem depGet_depAdd (cell ctr n : Nat) (s : State) :
    depGet (depAdd cell ctr n s) cell ctr = min (depGet s cell ctr + n) ctrMax := by
  unfold depAdd
  dsimp only
  generalize decide (ctrMax < depGet s cell ctr + n) = c
  obtain ⟨h, g⟩ := faultIf_ctr_job c fcCounterOverflow (depSet cell ctr (min (depGet s cell ctr + n) ctrMax) s)
  rw [depGet_congr h g, depGet_depSet]

/-- An arrival counter holds at its largest value (R50). -/
theorem arrGet_arrAdd (cl ctr n : Nat) (s : State) : arrGet (arrAdd cl ctr n s) cl ctr = min (arrGet s cl ctr + n) ctrMax := by
  unfold arrAdd
  dsimp only
  generalize decide (ctrMax < arrGet s cl ctr + n) = c
  generalize hu : ({ s with ctr := { s.ctr with arr := kvPut s.ctr.arr (arrKey cl ctr) (min (arrGet s cl ctr + n) ctrMax) } } : State) = u
  obtain ⟨h, g⟩ := faultIf_ctr_job c fcCounterOverflow u
  rw [arrGet_congr h g, ← hu]
  simp [arrGet]

theorem applySignal_none {cell : Nat} {d : Desc} (h : sigIncrement d = 0) (s : State) : applySignal cell d s = s := by
  simp only [applySignal, h, if_true]

theorem applySignal_dep {cell : Nat} {d : Desc} (h : 0 < sigIncrement d) (g : dSigArr d = false) (s : State) :
    applySignal cell d s = depAdd cell (sigCounter d) (sigIncrement d) s := by
  simp only [applySignal, if_neg (Nat.pos_iff_ne_zero.1 h), g, Bool.false_eq_true, if_false]

theorem applySignal_arr {cell : Nat} {d : Desc} (h : 0 < sigIncrement d) (g : dSigArr d = true) (s : State) :
    applySignal cell d s = arrAdd (clusterOf cell) (sigCounter d) (sigIncrement d) s := by
  simp only [applySignal, if_neg (Nat.pos_iff_ne_zero.1 h), g, if_true]

theorem stepActive_of_run {s t : State} {q r : Run} (hq : t.ctl.run = some q) (hr : s.ctl.run = some r) (h : q.fault = r.fault) :
    stepActive t = stepActive s := by
  simp only [stepActive, hq, hr, h]

end Sys2Proof.Machine

namespace Sys2Proof.Claims

open Sys2Proof.Machine

section
variable {s : State} {cell index : Nat} {f : Flight}

/-- The state in which a task whose work is done completes: the task finished, its stall event and its step hold there. -/
def finishing (cell index : Nat) (f : Flight) (s : State) : State :=
  placeHold f (mapFlight cell index (fun t => { t with finished := true }) (endStall (f.stalled || holdsQueue s cell f) f s))

theorem finishing_keeps (cell index : Nat) (f : Flight) (s : State) : Keeps [.ctl, .cells, .tier] s (finishing cell index f s) :=
  (placeHold_keeps _ _ rfl).2 ((mapFlight_keeps _ _ _ _ rfl).2 ((endStall_keeps _ _ _ rfl).2 (.refl _ s)))

theorem finishing_active (ha : stepActive s = true) : stepActive (finishing cell index f s) = true := by
  obtain ⟨r, hr⟩ : ∃ r, s.ctl.run = some r := by
    cases h : s.ctl.run with
    | none => simp [stepActive, h] at ha
    | some r => exact ⟨r, rfl⟩
  obtain ⟨q, ⟨-, hf, -⟩, hc, -⟩ := endStall_stallsOnly (f.stalled || holdsQueue s cell f) f hr
  have e : (finishing cell index f s).ctl = (endStall (f.stalled || holdsQueue s cell f) f s).ctl := ctl_of_allBut (by simp [finishing])
  rw [stepActive_of_run (q := q) (by rw [e, hc]) hr hf, ha]

theorem finishing_flight (h : flight? s cell index = some f) :
    flight? (finishing cell index f s) cell index = some { f with finished := true } := by
  have e : (finishing cell index f s).cells = (mapFlight cell index (fun t => { t with finished := true })
      (endStall (f.stalled || holdsQueue s cell f) f s)).cells := cells_of_allBut (by simp [finishing])
  have e' : (endStall (f.stalled || holdsQueue s cell f) f s).cells = s.cells := cells_of_allBut (by simp)
  rw [flight_congr e, flight_mapFlight (g := fun t => { t with finished := true }) ((flight_congr e' _ _).trans h) fun _ => rfl]

/-- The state as the task has left flight. -/
theorem taskComplete_eq (h : flight? s cell index = some f) (ha : stepActive s = true) (hr : taskReady s cell f = true)
    (hd : s.dbg.capture = none) : exec (.taskComplete cell index) s =
      .next (progress (applySignal cell f.desc (dropFlight cell index (finishing cell index f s)))) := by
  have hk := finishing_keeps cell index f s
  have ht : (dropFlight cell index (finishing cell index f s)).dbg.capture = none :=
    (congrArg Debug.capture (hk.dbg_eq rfl)).trans hd
  show Host.Outcome.next (taskCompleteEffect cell index s) = _
  have e : taskCompleteEffect cell index s = completeTask cell index (finishing cell index f s) := by
    simp only [taskCompleteEffect, h, if_pos (And.intro ha hr), finishing]
  rw [e]
  simp only [completeTask, finishing_flight h, finishing_active ha, and_self, if_true, traceEvent_silent _ _ _ ht]

end

/-- Settles O30. -/
theorem tasksCompleteAndSignal : Obligations.TasksCompleteAndSignal := by
  unfold Obligations.TasksCompleteAndSignal
  intro s cell index f h ha hr hd
  generalize hu : dropFlight cell index (finishing cell index f s) = u
  have hk : Keeps [.ctl, .cells, .tier] s u := by
    rw [← hu]
    exact (dropFlight_keeps _ _ _ rfl).2 (finishing_keeps _ _ _ _)
  have ks : Keeps [.ctr, .ctl, .rem, .launch] u (progress (applySignal cell f.desc u)) :=
    (progress_keeps _ rfl).2 ((applySignal_keeps _ _ _ rfl).2 (.refl _ u))
  have kp : Keeps [.ctl] (applySignal cell f.desc u) (progress (applySignal cell f.desc u)) := (progress_keeps _ rfl).2 (.refl _ _)
  refine ⟨_, taskComplete_eq h ha hr hd, ?_⟩
  rw [hu]
  refine ⟨?_, (ks.mem_eq rfl).trans (hk.mem_eq rfl), (ks.tiles_eq rfl).trans (hk.tiles_eq rfl), fun hz => ?_, fun hp hs => ?_, fun hp hs => ?_⟩
  · rw [flight_congr (ks.cells_eq rfl), ← hu, flight_dropFlight]
  · rw [kp.ctr_eq rfl, applySignal_none hz, hk.ctr_eq rfl]
  · rw [depGet_congr (kp.ctr_eq rfl) (kp.job_eq rfl), applySignal_dep hp hs, depGet_depAdd, depGet_congr (hk.ctr_eq rfl) (hk.job_eq rfl)]
    rfl
  · rw [arrGet_congr (kp.ctr_eq rfl) (kp.job_eq rfl), applySignal_arr hp hs, arrGet_arrAdd, arrGet_congr (hk.ctr_eq rfl) (hk.job_eq rfl)]
    rfl

end Sys2Proof.Claims
end

section
/-! SUPPORT. Issue (R43, R44, R57, R459 to R464): what the unit is given, how a task that its reads stop ends, and how one whose
work is done stands. -/

namespace Sys2Proof.Machine

/-! ## What has stopped the run -/

/-- The run's fault, if there is a run. -/
def runFault (s : State) : Option (Option StepFault) := s.ctl.run.map (·.fault)

theorem stepActive_iff {s : State} : stepActive s = true ↔ runFault s = some none := by
  unfold stepActive runFault
  cases s.ctl.run with
  | none => simp
  | some r => simp

theorem runFault_congr {s t : State} (h : t.ctl = s.ctl) : runFault t = runFault s := by simp only [runFault, h]

theorem runFault_mapRun {f : Run → Run} (h : ∀ r, (f r).fault = r.fault) (s : State) : runFault (mapRun f s) = runFault s := by
  unfold runFault mapRun
  cases hr : s.ctl.run with
  | none => simp [hr]
  | some r => simp [h]

theorem runFault_progress (s : State) : runFault (progress s) = runFault s := by
  unfold runFault progress
  cases hr : s.ctl.run with
  | none => simp [hr]
  | some r => simp

theorem runFault_settleCell (cell : Nat) (s : State) : runFault (settleCell cell s) = runFault s := by
  unfold settleCell
  split
  · rfl
  · dsimp only
    refine (runFault_mapRun ?_ _).trans ?_
    · intro r
      rfl
    · exact runFault_congr rfl

theorem runFault_settleDrain (s : State) : runFault (settleDrain s) = runFault s := by
  unfold settleDrain
  split
  · rfl
  · next r hr =>
    split
    · simp [runFault, hr]
    · rfl

theorem runFault_stepFault {s : State} (h : stepActive s = true) (cause : Nat) :
    runFault (stepFault cause s) = some (some ⟨cause, true, selfId s⟩) := by
  obtain ⟨r, hr, hf⟩ : ∃ r, s.ctl.run = some r ∧ r.fault = none := by
    have := stepActive_iff.1 h
    unfold runFault at this
    cases hr : s.ctl.run with
    | none => simp [hr] at this
    | some r => exact ⟨r, rfl, by simpa [hr] using this⟩
  rw [runFault, stepFault_run hr hf]
  rfl

theorem selfId_congr {s t : State} (h : t.fab = s.fab) : selfId t = selfId s := by simp only [selfId, h]

/-! ## What a unit is given -/

/-- The descriptor is marked issued, and the idle time of the run restarts. -/
def issuedWindow (cell : Nat) (d : Desc) (s : State) : State :=
  progress (setCell cell { cellOf s cell with window := markIssued d.index d.step (cellOf s cell).window } s)

/-- The state in which a unit takes a task. -/
def inUnit (cell : Nat) (d : Desc) (s : State) : State := addFlight cell d .waits (issuedWindow cell d s)

theorem addFlight_keepsCells (cell : Nat) (d : Desc) (e : TaskEnd) (s : State) : Keeps [.cells] s (addFlight cell d e s) := by
  simp [within, addFlight]

theorem issuedWindow_keeps (cell : Nat) (d : Desc) (s : State) : Keeps [.cells, .ctl] s (issuedWindow cell d s) :=
  (progress_keeps _ rfl).2 (by simp [within])

theorem inUnit_keeps (cell : Nat) (d : Desc) (s : State) : Keeps [.cells, .ctl] s (inUnit cell d s) :=
  (issuedWindow_keeps cell d s).trans ((addFlight_keepsCells cell d .waits _).mono rfl)

theorem runFault_issuedWindow (cell : Nat) (d : Desc) (s : State) : runFault (issuedWindow cell d s) = runFault s :=
  (runFault_progress _).trans (runFault_congr rfl)

theorem runFault_inUnit (cell : Nat) (d : Desc) (s : State) : runFault (inUnit cell d s) = runFault s :=
  (runFault_congr rfl).trans (runFault_issuedWindow cell d s)

theorem inUnit_active {cell : Nat} {d : Desc} {s : State} (h : stepActive s = true) : stepActive (inUnit cell d s) = true :=
  stepActive_iff.2 ((runFault_inUnit cell d s).trans (stepActive_iff.1 h))

/-- A state that differs in the cells and step control only is the other with these two. -/
theorem eq_of_keeps_cells_ctl {s t : State} (h : Keeps [.cells, .ctl] s t) : t = { s with cells := t.cells, ctl := t.ctl } := by
  have h1 := h.pending_eq rfl
  have h2 := h.mb_eq rfl
  have h3 := h.boot_eq rfl
  have h4 := h.mem_eq rfl
  have h5 := h.unbacked_eq rfl
  have h6 := h.tiles_eq rfl
  have h7 := h.ctr_eq rfl
  have h8 := h.job_eq rfl
  have h9 := h.exch_eq rfl
  have h10 := h.tier_eq rfl
  have h11 := h.flash_eq rfl
  have h12 := h.pools_eq rfl
  have h13 := h.rem_eq rfl
  have h14 := h.fab_eq rfl
  have h15 := h.time_eq rfl
  have h16 := h.launch_eq rfl
  have h17 := h.mgmt_eq rfl
  have h18 := h.errs_eq rfl
  have h19 := h.dbg_eq rfl
  have h20 := h.pins_eq rfl
  cases s
  cases t
  simp_all

/-! ## How issue goes on -/

/-- The work's end goes into the task in flight, unless the work has stopped the run. -/
def workEnds (cell : Nat) (d : Desc) (e : TaskEnd × State) : State :=
  if stepActive e.2 then mapFlight cell d.index (fun f => { f with finished := e.1 == .finished }) e.2 else e.2

/-- What follows from the reads of a task that is not void. -/
def afterReads (cell : Nat) (d : Desc) (work : Nat → Desc → State → TaskEnd × State) (g : Bool × State) : State :=
  if g.1 then workEnds cell d (work cell d (addFlight cell d .waits g.2)) else addFlight cell d .waits g.2

section
variable {s : State} {cell cls : Nat} {meant : Desc → Bool} {d : Desc}

theorem isVoid_congr {t : State} (h : t.ctr = s.ctr) (g : t.job = s.job) : isVoid t cell d = isVoid s cell d := by
  simp only [isVoid, depGet_congr h g]

theorem issueTask_eq (hi : issuable? s cell cls meant = some d) (hv : isVoid s cell d = false) (hc : s.dbg.capture = none)
    (reads : Nat → Desc → State → Nat → Nat → Bool) (work : Nat → Desc → State → TaskEnd × State) (h : Health) :
    issueTask cls meant reads work cell h s = settleDrain (settleCell cell (afterReads cell d work
      (taskReads cls cell h (reads cell d (issuedWindow cell d s)) (issuedWindow cell d s)))) := by
  have hk := issuedWindow_keeps cell d s
  have hv' : isVoid (issuedWindow cell d s) cell d = false := (isVoid_congr (hk.ctr_eq rfl) (hk.job_eq rfl)).trans hv
  have hc' : (issuedWindow cell d s).dbg.capture = none := (congrArg Debug.capture (hk.dbg_eq rfl)).trans hc
  unfold issueTask
  simp only [hi]
  show settleDrain (settleCell cell (if isVoid (issuedWindow cell d s) cell d then _ else
    afterReads cell d work (taskReads cls cell h (reads cell d (traceEvent cell d 0 (issuedWindow cell d s)))
      (traceEvent cell d 0 (issuedWindow cell d s))))) = _
  rw [hv', if_neg Bool.false_ne_true, traceEvent_silent _ _ _ hc']

theorem wordsGood_congr {t : State} (h : t.errs = s.errs) : wordsGood t = wordsGood s := by simp only [wordsGood, h]

theorem metHealth_good (hits : Nat → Nat → Bool) (h : wordsGood s = true) : metHealth hits s = .clean := by
  simp only [metHealth, badMet?, h, if_true]

/-- A task whose reads are intact goes to its unit. -/
theorem issueTask_clean (hi : issuable? s cell cls meant = some d) (hv : isVoid s cell d = false) (hc : s.dbg.capture = none)
    (hw : wordsGood s = true) (reads : Nat → Desc → State → Nat → Nat → Bool) (work : Nat → Desc → State → TaskEnd × State) :
    issueTask cls meant reads work cell .clean s =
      settleDrain (settleCell cell (workEnds cell d (work cell d (inUnit cell d s)))) := by
  have hg : wordsGood (issuedWindow cell d s) = true := (wordsGood_congr ((issuedWindow_keeps cell d s).errs_eq rfl)).trans hw
  rw [issueTask_eq hi hv hc]
  simp only [taskReads, readHealth, if_true, metHealth_good _ hg, afterReads]
  rfl

/-- A task that its reads stop never reaches its unit. -/
theorem afterReads_stopped (work : Nat → Desc → State → TaskEnd × State) {g : Bool × State} (h : g.1 = false) :
    afterReads cell d work g = addFlight cell d .waits g.2 := by
  simp only [afterReads, h, Bool.false_eq_true, if_false]

theorem taskReads_failing {h : Health} {hits : Nat → Nat → Bool} (hf : (readHealth cls cell h s).1 = false) :
    taskReads cls cell h hits s = readHealth cls cell h s := by
  simp only [taskReads, hf, Bool.false_eq_true, if_false]

theorem issuable_active (hi : issuable? s cell cls meant = some d) : stepActive s = true ∧ cellEnabled s cell = true := by
  unfold issuable? at hi
  split at hi
  · cases hi
  · split at hi
    · next h => exact ⟨h.1, h.2.1⟩
    · cases hi

/-! ## How the task stands afterwards -/

theorem freeSlots_mem (step : Word) {x : Desc} (w : List Desc) (h : x ∈ freeSlots step w) : x ∈ w := by
  induction w with
  | nil => exact h
  | cons y r ih =>
    unfold freeSlots at h
    split at h
    · exact List.mem_cons_of_mem _ (ih h)
    · exact h

/-- Settling a cell frees slots and leaves its tasks in flight. -/
theorem settleCell_cell (cell : Nat) (s : State) : (cellOf (settleCell cell s) cell).flight = (cellOf s cell).flight ∧
    ∀ x ∈ (cellOf (settleCell cell s) cell).window, x ∈ (cellOf s cell).window := by
  unfold settleCell
  split
  · exact ⟨rfl, fun _ h => h⟩
  · dsimp only
    have hc (f : Run → Run) (t : State) : cellOf (mapRun f t) cell = cellOf t cell :=
      cellOf_congr (cells_of_allBut (by simp)) cell
    rw [hc, cellOf_setCell, cellOf_setCell]
    exact ⟨rfl, fun x h => freeSlots_mem _ _ h⟩

theorem settleDrain_cell (cell : Nat) (s : State) : cellOf (settleDrain s) cell = cellOf s cell :=
  cellOf_congr (cells_of_allBut (by simp)) cell

theorem inUnit_cell (cell : Nat) (d : Desc) (s : State) :
    d.index ∈ ((cellOf (inUnit cell d s) cell).flight.map (·.index)) ∧
      (cellOf (inUnit cell d s) cell).window = markIssued d.index d.step (cellOf s cell).window := by
  have hc : cellOf (issuedWindow cell d s) cell = { cellOf s cell with window := markIssued d.index d.step (cellOf s cell).window } := by
    rw [issuedWindow, cellOf_congr (cells_of_allBut (s := setCell cell
      { cellOf s cell with window := markIssued d.index d.step (cellOf s cell).window } s) (by simp)), cellOf_setCell]
  unfold inUnit addFlight
  dsimp only
  rw [cellOf_setCell, hc]
  exact ⟨by simp, rfl⟩

end

end Sys2Proof.Machine

namespace Sys2Proof.Claims

open Sys2Proof.Machine

section
variable {s : State} {cell : Nat} {d : Desc}

/-- Where the work leaves the cell alone and the run active, the task stands in flight as the work ended. -/
theorem taken_of_work {e : TaskEnd × State} (ha : stepActive e.2 = true) (hc : e.2.cells = (inUnit cell d s).cells) :
    Taken cell d (e.1 == .finished) (settleDrain (settleCell cell (workEnds cell d e))) := by
  obtain ⟨hf, hw⟩ := settleCell_cell cell (workEnds cell d e)
  have hcell : cellOf (workEnds cell d e) cell = { cellOf (inUnit cell d s) cell with
      flight := (cellOf (inUnit cell d s) cell).flight.map fun t =>
        if t.index = d.index then { t with finished := e.1 == .finished } else t } := by
    rw [workEnds, if_pos ha, mapFlight]
    dsimp only
    rw [cellOf_setCell, cellOf_congr hc]
  obtain ⟨hin, hwin⟩ := inUnit_cell cell d s
  refine ⟨?_, fun x hx hxi hxs => ?_⟩
  · rw [flight?, settleDrain_cell, hf, hcell]
    obtain ⟨f, hfm, hfi⟩ := List.mem_map.1 hin
    have e0 : ((fun x : Flight => x.index == d.index) ∘ fun t : Flight =>
        if t.index = d.index then { t with finished := e.1 == .finished } else t) = fun x => x.index == d.index := by
      funext x
      by_cases q : x.index = d.index <;> simp [q]
    rw [List.find?_map, e0]
    obtain ⟨g, hg⟩ : ∃ g, ((cellOf (inUnit cell d s) cell).flight.find? fun x => x.index == d.index) = some g :=
      Option.isSome_iff_exists.1 (List.find?_isSome.2 ⟨f, hfm, by simpa using hfi⟩)
    have hgi : g.index = d.index := by simpa using List.find?_some hg
    rw [hg, Option.map_some, Option.map_some, if_pos hgi]
  · rw [settleDrain_cell] at hx
    have hx' := hw x hx
    rw [hcell] at hx'
    have hx'' : x ∈ markIssued d.index d.step (cellOf s cell).window := hwin ▸ hx'
    obtain ⟨y, -, rfl⟩ := List.mem_map.1 hx''
    by_cases q : y.index = d.index ∧ y.step = d.step
    · rw [if_pos q]
    · rw [if_neg q] at hxi hxs
      exact absurd ⟨hxi, hxs⟩ q

/-- What settling and the end of the work leave of every part but cells, step control and time. -/
theorem workEnds_keeps (e : TaskEnd × State) : Keeps [.cells, .ctl, .time] e.2 (settleDrain (settleCell cell (workEnds cell d e))) := by
  refine (settleDrain_keeps _ rfl).2 ((settleCell_keeps _ _ rfl).2 ?_)
  unfold workEnds
  split
  · exact (mapFlight_keeps _ _ _ _ rfl).2 (.refl _ _)
  · exact .refl _ _

/-- A run that the work has stopped stays stopped for its cause. -/
theorem stopped_of_work {e : TaskEnd × State} {cause : Nat} (h : runFault e.2 = some (some ⟨cause, true, selfId s⟩)) :
    Stopped cause s (settleDrain (settleCell cell (workEnds cell d e))) := by
  have ha : stepActive e.2 = false := by
    have : ¬ stepActive e.2 = true := fun q => by simp [stepActive_iff.1 q] at h
    simpa using this
  show runFault _ = _
  rw [runFault_settleDrain, runFault_settleCell, workEnds, if_neg (by rw [ha]; exact Bool.false_ne_true), h]

end

end Sys2Proof.Claims
end

section
/-! SUPPORT. The vector engine (R137 to R158): what each operation leaves in memory, and that it ends its task. -/

namespace Sys2Proof.Machine

/-- An operation has ended its task, with nothing to stop the run, and memory is this. -/
def VxFinishes (s : State) (r : TaskEnd × State) (m : Mem) : Prop :=
  Keeps [.mem, .ctl, .errs, .dbg] s r.2 ∧ r.1 = .finished ∧ runFault r.2 = runFault s ∧ r.2.mem = m

theorem runFault_addStepCodes (l : List Nat) (s : State) : runFault (addStepCodes l s) = runFault s := by
  unfold addStepCodes
  refine runFault_mapRun ?_ s
  intro r
  rfl

theorem vxDone_finishes {x : VxRun} {a : Acc} {m : Mem} (h : Acc.From x.s a) (hm : a.1.mem = m) (w : List (Nat × Nat)) :
    VxFinishes x.s (vxDone x w a) m := by
  have hk : Keeps [.errs, .dbg] (addStepCodes a.2 a.1) (vxDone x w a).2 := by simp +decide [vxDone]
  refine ⟨by simpa +decide [vxDone] using h.1.mono (by decide), rfl, ?_, ?_⟩
  · rw [runFault_congr (hk.ctl_eq rfl), runFault_addStepCodes, runFault_congr (h.1.ctl_eq rfl)]
  · rw [hk.mem_eq rfl, mem_of_allBut (s := a.1) (by simp), hm]

/-! ## Codes stored one after another -/

end Sys2Proof.Machine

namespace Sys2Proof.Claims

open Sys2Proof.Machine

section
variable {x : VxRun} {cell : Nat} {t : Stream}

theorem storeCodes_append (w v : List (Nat × Nat × Nat)) (m : Mem) :
    storeCodes cell t (w ++ v) m = storeCodes cell t v (storeCodes cell t w m) := List.foldl_append

/-- What a fold of writes stores: the codes of each, in order. -/
theorem foldl_stores {α : Type} {f : Acc → α → Acc} {w : α → List (Nat × Nat × Nat)}
    (h : ∀ a b, (f a b).1.mem = storeCodes cell t (w b) a.1.mem) (l : List α) (a : Acc) :
    (l.foldl f a).1.mem = storeCodes cell t (l.flatMap w) a.1.mem := by
  induction l generalizing a with
  | nil => rfl
  | cons b r ih => rw [List.foldl_cons, ih, h, List.flatMap_cons, storeCodes_append]

theorem putResult_stores (x : VxRun) (r e : Nat) (v : FVal) (a : Acc) :
    (putResult x r e v a).1.mem = storeCodes x.cell x.v.dst [(r, e, vxCode x r e v)] a.1.mem := rfl

theorem putZero_stores (x : VxRun) (r e : Nat) (a : Acc) :
    (putZero x r e a).1.mem = storeCodes x.cell x.v.dst [(r, e, 0)] a.1.mem := rfl

/-- The write of one element of row k at row r of DST under MASK. -/
def maskedAt (x : VxRun) (k r e : Nat) (v : FVal) : Option (Nat × Nat × Nat) :=
  if kept x k e then some (r, e, vxCode x r e v) else if x.v.maskZero then some (r, e, 0) else none

/-- One write under the mask stores a result, +0, or nothing. -/
theorem masked_stores (x : VxRun) (k r e : Nat) (v : FVal) {a b : Acc}
    (hb : b.1.mem = storeCodes x.cell x.v.dst [(r, e, vxCode x r e v)] a.1.mem) :
    (if kept x k e then b else if x.v.maskZero then putZero x r e a else a).1.mem =
      storeCodes x.cell x.v.dst (maskedAt x k r e v).toList a.1.mem := by
  unfold maskedAt
  by_cases hk : kept x k e = true
  · simp only [if_pos hk, hb, Option.toList_some]
  · simp only [if_neg hk]
    by_cases hz : x.v.maskZero = true
    · simp only [if_pos hz, putZero_stores, Option.toList_some]
    · simp only [if_neg hz]
      rfl

theorem putMasked_stores (x : VxRun) (r e : Nat) (v : FVal) (a : Acc) :
    (putMasked x r e v a).1.mem = storeCodes x.cell x.v.dst (maskedAt x r r e v).toList a.1.mem :=
  masked_stores x r r e v (putResult_stores x r e v a)

/-- The writes of a row under MASK. -/
def maskedRowWrites (x : VxRun) (f : Nat → Nat → FVal) (r : Nat) : List (Nat × Nat × Nat) :=
  (List.range x.v.rowLen).filterMap fun e => maskedAt x r r e (f r e)

theorem maskedWrites_eq (x : VxRun) (f : Nat → Nat → FVal) :
    maskedWrites x f = (List.range x.v.rows).flatMap (maskedRowWrites x f) := rfl

theorem maskedRowWrites_eq (x : VxRun) (f : Nat → Nat → FVal) (r : Nat) :
    maskedRowWrites x f r = (List.range x.v.rowLen).flatMap fun e => (maskedAt x r r e (f r e)).toList :=
  List.filterMap_eq_flatMap_toList ..

theorem putRow_stores (x : VxRun) (r : Nat) (f : Nat → Nat → FVal) (a : Acc) :
    (putRow x r (f r) a).1.mem = storeCodes x.cell x.v.dst (maskedRowWrites x f r) a.1.mem := by
  rw [maskedRowWrites_eq]
  exact foldl_stores (fun a e => putMasked_stores x r e (f r e) a) _ a

/-- Element by element, in element order. -/
theorem eachElement_stores {f : Nat → Nat → Acc → Acc} {w : Nat → Nat → List (Nat × Nat × Nat)}
    (h : ∀ r e a, (f r e a).1.mem = storeCodes cell t (w r e) a.1.mem) (rows n : Nat) (a : Acc) :
    (eachElement rows n f a).1.mem =
      storeCodes cell t ((List.range rows).flatMap fun r => (List.range n).flatMap (w r)) a.1.mem :=
  foldl_stores (fun a r => foldl_stores (fun a e => h r e a) (List.range n) a) (List.range rows) a

/-! ## Element operations -/

/-- The value that an element operation stores. -/
def elementValue (usesB ok : Bool) (f : Bool → VxRun → Nat → Nat → FVal) (x : VxRun) (r e : Nat) : FVal :=
  pathRound (ok && allInts x usesB) (f (ok && allInts x usesB) x r e)

theorem elementwise_finishes (usesB ok : Bool) (f : Bool → VxRun → Nat → Nat → FVal) (x : VxRun) :
    VxFinishes x.s (elementwise usesB ok f x)
      (storeCodes x.cell x.v.dst (maskedWrites x (elementValue usesB ok f x)) x.s.mem) := by
  refine vxDone_finishes ((Acc.From.init x.s []).elements (fun r e _ h => h.masked x (h.putResult x r e _) r e) _ _) ?_ _
  refine (eachElement_stores (w := fun r e => (maskedAt x r r e (elementValue usesB ok f x r e)).toList)
    (fun r e a => masked_stores x r r e _ (putResult_stores x r e _ a)) _ _ _).trans ?_
  rw [maskedWrites_eq, funext (maskedRowWrites_eq x _)]

theorem select_finishes (x : VxRun) : VxFinishes x.s (vxSelect x) (storeCodes x.cell x.v.dst (eachWrite x fun r e =>
    vxCode x r e (if kept x r e then pathIn x (allInts x true) x.v.src0 r e else pathB x (allInts x true) r e)) x.s.mem) := by
  refine vxDone_finishes ((Acc.From.init x.s []).elements (fun r e _ h => h.putResult x r e _) _ _) ?_ _
  refine (eachElement_stores (w := fun r e => [(r, e, vxCode x r e (if kept x r e then pathIn x (allInts x true) x.v.src0 r e
    else pathB x (allInts x true) r e))]) (fun r e a => putResult_stores x r e _ a) _ _ _).trans ?_
  simp only [eachWrite, List.map_eq_flatMap]

end

/-! ## A task at its unit -/

/-- A view of a task whose state differs in the cells and step control only. -/
def atUnit (x : VxRun) (c : KV Cell) (k : Ctl) : VxRun := { x with s := { x.s with cells := c, ctl := k } }

section
variable {s : State} {cell op : Nat} {d : Desc}

theorem vxRunOf_inUnit (cell : Nat) (d : Desc) (s : State) :
    vxRunOf cell d (inUnit cell d s) = atUnit (vxView s cell d) (inUnit cell d s).cells (inUnit cell d s).ctl := by
  have h := eq_of_keeps_cells_ctl (inUnit_keeps cell d s)
  conv_lhs => rw [h]
  rfl

/-- The work of a task that has ended leaves it done, and of the device only what the work and its issue change. -/
theorem issueTask_finishes {cls : Nat} {meant : Desc → Bool} (hi : issuable? s cell cls meant = some d)
    (hv : isVoid s cell d = false) (hc : s.dbg.capture = none) (hw : wordsGood s = true)
    (reads : Nat → Desc → State → Nat → Nat → Bool) {work : Nat → Desc → State → TaskEnd × State}
    (hcells : (work cell d (inUnit cell d s)).2.cells = (inUnit cell d s).cells)
    (hf : runFault (work cell d (inUnit cell d s)).2 = runFault (inUnit cell d s)) :
    Taken cell d ((work cell d (inUnit cell d s)).1 == .finished) (issueTask cls meant reads work cell .clean s) ∧
      Keeps [.cells, .ctl, .time] (work cell d (inUnit cell d s)).2 (issueTask cls meant reads work cell .clean s) := by
  rw [issueTask_clean hi hv hc hw]
  refine ⟨taken_of_work (stepActive_iff.2 ?_) hcells, workEnds_keeps _⟩
  rw [hf]
  exact stepActive_iff.1 (inUnit_active (issuable_active hi).1)

/-- A vector task runs to its end. -/
theorem issueVx_finishes {f : VxRun → TaskEnd × State} {m : Mem} (hi : issuable? s cell 2 (fun z => bodyOp z == op) = some d)
    (hv : isVoid s cell d = false) (hc : s.dbg.capture = none) (hw : wordsGood s = true)
    (hf : ∀ c k, VxFinishes (atUnit (vxView s cell d) c k).s (f (atUnit (vxView s cell d) c k)) m) :
    Taken cell d true (issueVx op f cell .clean s) ∧ Keeps [.mem, .cells, .ctl, .time, .errs, .dbg] s
      (issueVx op f cell .clean s) ∧ (issueVx op f cell .clean s).mem = m := by
  have hu := vxRunOf_inUnit cell d s
  obtain ⟨hk, h1, h2, h3⟩ := hf (inUnit cell d s).cells (inUnit cell d s).ctl
  rw [← hu] at hk h1 h2 h3
  have hs : (vxRunOf cell d (inUnit cell d s)).s = inUnit cell d s := rfl
  rw [hs] at hk h2
  obtain ⟨ht, kt⟩ := issueTask_finishes hi hv hc hw (fun c d t => vxTakes (vxRunOf c d t) (auxDesc t))
    (work := fun c d t => f (vxRunOf c d t)) (hk.cells_eq rfl) h2
  refine ⟨by rw [h1] at ht; exact ht, .trans ((inUnit_keeps cell d s).mono rfl) (.trans (hk.mono rfl) (kt.mono rfl)), ?_⟩
  exact (kt.mem_eq rfl).trans h3

end

end Sys2Proof.Claims
end

section
/-! SUPPORT. The element operations (R146, R147): the value of each. -/

namespace Sys2Proof.Claims

open Sys2Proof.Machine

section
variable {s : State} {cell : Nat} {d : Desc}

/-- What UNARY makes of its operand. -/
def unaryOf (func : Nat) (a : FVal) : FVal :=
  if func = 0 then fNeg a else if func = 1 then fAbs a else if func = 2 then fSqrt a
  else if func = 3 then fDiv (fOfInt 1) a else vMax a fZero

/-- UNARY takes the integer path but for SQRT and RCP. -/
def unaryInts (x : VxRun) : Bool := (x.v.func != 2 && x.v.func != 3) && allInts x false

theorem unaryInts_of_func {x : VxRun} {n : Nat} (h : x.v.func = n) : unaryInts x = ((n != 2 && n != 3) && allInts x false) := by
  rw [unaryInts, h]

theorem unary_finishes (x : VxRun) : VxFinishes x.s (vxUnary x) (storeCodes x.cell x.v.dst (maskedWrites x fun r e =>
    pathRound (unaryInts x) (unaryOf x.v.func (pathIn x (unaryInts x) x.v.src0 r e))) x.s.mem) :=
  elementwise_finishes _ _ _ x

/-- A vector operation that ends with these codes stored. -/
theorem runs_of_finishes {op : Nat} {instr : Instr} {f : VxRun → TaskEnd × State} {w : List (Nat × Nat × Nat)}
    (hc : s.dbg.capture = none) (hv : isVoid s cell d = false) (hw : wordsGood s = true)
    (he : exec instr s = .next (issueVx op f cell .clean s))
    (hf : ∀ c k, VxFinishes (atUnit (vxView s cell d) c k).s (f (atUnit (vxView s cell d) c k))
      (storeCodes cell (vxView s cell d).v.dst w s.mem)) :
    issuable? s cell 2 (fun z => bodyOp z == op) = some d →
      ∃ t, exec instr s = .next t ∧ t.mem = storeCodes cell (vxView s cell d).v.dst w s.mem := fun hi =>
  ⟨_, he, (issueVx_finishes hi hv hc hw hf).2.2⟩

/-- UNARY with a FUNC that R146 gives. -/
theorem unary_runs {i : Bool} {g : FVal → FVal} (hc : s.dbg.capture = none) (hv : isVoid s cell d = false)
    (hw : wordsGood s = true) {n : Nat} (hn : (vxView s cell d).v.func = n)
    (hi : ((n != 2 && n != 3) && allInts (vxView s cell d) false) = i) (hg : unaryOf n = g) :
    issuable? s cell 2 (fun z => bodyOp z == 0x08) = some d →
      ∃ t, exec (.unary cell .clean) s = .next t ∧ t.mem = storeCodes cell (vxView s cell d).v.dst
        (maskedWrites (vxView s cell d) fun r e => pathRound i (g (pathIn (vxView s cell d) i (vxView s cell d).v.src0 r e))) s.mem := by
  have hi' : unaryInts (vxView s cell d) = i := (unaryInts_of_func hn).trans hi
  subst hi' hg hn
  exact runs_of_finishes hc hv hw rfl fun c k => unary_finishes (atUnit (vxView s cell d) c k)

end

/-- Settles O36. -/
theorem elementOperationResults : Obligations.ElementOperationResults := by
  unfold Obligations.ElementOperationResults
  intro s cell d hc hv hw
  have runs {op : Nat} {instr : Instr} {f : VxRun → TaskEnd × State} {w : List (Nat × Nat × Nat)} :=
    runs_of_finishes (s := s) (cell := cell) (d := d) (op := op) (instr := instr) (f := f) (w := w) hc hv hw
  have unary {i : Bool} {g : FVal → FVal} {n : Nat} := unary_runs (s := s) (cell := cell) (d := d) (i := i) (g := g) (n := n) hc hv hw
  refine ⟨runs rfl fun c k => elementwise_finishes true true _ (atUnit (vxView s cell d) c k),
    runs rfl fun c k => elementwise_finishes true true _ (atUnit (vxView s cell d) c k),
    runs rfl fun c k => elementwise_finishes true true _ (atUnit (vxView s cell d) c k),
    runs rfl fun c k => elementwise_finishes true true _ (atUnit (vxView s cell d) c k),
    runs rfl fun c k => elementwise_finishes true false _ (atUnit (vxView s cell d) c k),
    runs rfl fun c k => elementwise_finishes true true _ (atUnit (vxView s cell d) c k),
    runs rfl fun c k => elementwise_finishes true true _ (atUnit (vxView s cell d) c k),
    runs rfl fun c k => elementwise_finishes true true _ (atUnit (vxView s cell d) c k),
    runs rfl fun c k => select_finishes (atUnit (vxView s cell d) c k),
    fun h => unary (i := allInts (vxView s cell d) false) (g := fNeg) h rfl rfl,
    fun h => unary (i := allInts (vxView s cell d) false) (g := fAbs) h rfl rfl,
    fun h => unary (i := false) (g := fSqrt) h rfl rfl,
    fun h => unary (i := false) (g := fun a => fDiv (fOfInt 1) a) h rfl rfl,
    fun h => unary (i := allInts (vxView s cell d) false) (g := fun a => vMax a fZero) h rfl rfl⟩

end Sys2Proof.Claims
end

section
/-! SUPPORT. The row operations of the vector engine (R148 to R158): what each stores, row by row. -/

namespace Sys2Proof.Claims

open Sys2Proof.Machine

section
variable {x : VxRun}

/-- An operation that works row by row ends with the writes of its rows, in order. -/
theorem rows_finish {f : Acc → Nat → Acc} {w : Nat → List (Nat × Nat × Nat)}
    (hfrom : ∀ a r, Acc.From x.s a → Acc.From x.s (f a r))
    (hst : ∀ a r, (f a r).1.mem = storeCodes x.cell x.v.dst (w r) a.1.mem) (rows : List Nat) (v : List (Nat × Nat)) :
    VxFinishes x.s (vxDone x v (rows.foldl f (x.s, []))) (storeCodes x.cell x.v.dst (rows.flatMap w) x.s.mem) :=
  vxDone_finishes (.foldl hfrom _ (.init x.s [])) (foldl_stores hst _ _) _

/-! ## Reductions, scans, normalisation and softmax (R148 to R152) -/

theorem reduce_finishes (x : VxRun) : VxFinishes x.s (vxReduce x) (storeCodes x.cell x.v.dst
    ((List.range x.v.rows).map fun r => (r, 0, vxCode x r 0 (reduceRow x.v.func (pathRound (allInts x false))
      (rowElements x (allInts x false) r)))) x.s.mem) := by
  rw [List.map_eq_flatMap]
  exact rows_finish (w := fun r => [(r, 0, vxCode x r 0 (reduceRow x.v.func (pathRound (allInts x false))
    (rowElements x (allInts x false) r)))]) (fun a r h => h.putResult x r 0 _) (fun a r => putResult_stores x r 0 _ a) _ _

theorem scanRow_stores (x : VxRun) (ints : Bool) (r : Nat) (l : List Nat) (p : Option FVal) (a : Acc) :
    (l.foldl (fun b e => scanStep x ints r e b) (p, a)).2.1.mem =
      storeCodes x.cell x.v.dst (scanWrites x ints r l p) a.1.mem := by
  induction l generalizing p a with
  | nil => rfl
  | cons e l ih =>
    rw [List.foldl_cons]
    refine (ih (scanStep x ints r e (p, a)).1 (scanStep x ints r e (p, a)).2).trans ?_
    rw [scanWrites]
    unfold scanStep
    by_cases hk : kept x r e = true
    · simp only [if_pos hk]
      rfl
    · simp only [if_neg hk]
      rw [storeCodes_append]
      by_cases hz : x.v.maskZero = true
      · simp only [if_pos hz]
        rfl
      · simp only [if_neg hz]
        rfl

theorem scan_finishes (x : VxRun) : VxFinishes x.s (vxScan x) (storeCodes x.cell x.v.dst
    ((List.range x.v.rows).flatMap fun r => scanWrites x (allInts x false) r (List.range x.v.rowLen) none) x.s.mem) :=
  rows_finish (fun a r h => .scanRow x _ r _ none h) (fun a r => scanRow_stores x _ r _ none a) _ _

theorem rmsnorm_finishes (x : VxRun) : VxFinishes x.s (vxRmsnorm x) (storeCodes x.cell x.v.dst (maskedWrites x fun r e =>
    rnd32 (fMul (rnd32 (fMul (pathIn x false x.v.src0 r e)
      (normQ x (reduceRow 1 rnd32 (rowElements x false r)) (rowElements x false r).length))) (normG x r e))) x.s.mem) :=
  rows_finish (fun a r h => h.putRow x r _) (fun a r => putRow_stores x r (fun r e =>
    rnd32 (fMul (rnd32 (fMul (pathIn x false x.v.src0 r e)
      (normQ x (reduceRow 1 rnd32 (rowElements x false r)) (rowElements x false r).length))) (normG x r e))) a) _ _

theorem layernorm_finishes (x : VxRun) : VxFinishes x.s (vxLayernorm x) (storeCodes x.cell x.v.dst
    (maskedWrites x (lnResult x)) x.s.mem) :=
  rows_finish (fun a r h => h.putRow x r _) (fun a r => putRow_stores x r (lnResult x) a) _ _

/-- The result of SOFTMAX at element (r, e). -/
def smResult (x : VxRun) (r e : Nat) : FVal :=
  let E := tableEval x.s.job.functions x.v.func
  if (rowElements x false r).any (fun p => p.2 == .nan || p.2 == .inf false) then .nan
  else if (smRow E (rowElements x false r)).1 = .inf true then fZero
  else rnd32 (fMul (E (rnd32 (fAdd (pathIn x false x.v.src0 r e) (fNeg (smRow E (rowElements x false r)).1))))
    (rnd32 (fDiv (fOfInt 1) (smRow E (rowElements x false r)).2)))

theorem maskedRowWrites_congr {f g : Nat → Nat → FVal} {r : Nat} (h : ∀ e, f r e = g r e) :
    maskedRowWrites x f r = maskedRowWrites x g r := by
  simp only [maskedRowWrites, h]

theorem softmax_finishes (x : VxRun) : VxFinishes x.s (vxSoftmax x) (storeCodes x.cell x.v.dst
    (maskedWrites x (smResult x)) x.s.mem) := by
  refine rows_finish (w := maskedRowWrites x (smResult x)) (fun a r h => ?_) (fun a r => ?_) _ _
  · dsimp only
    split
    · exact .foldl (fun _ e g => (g.putMasked x r e _).recount _) _ h
    · split
      · exact h.putRow x r _
      · exact h.putRow x r _
  · dsimp only
    split
    · next hn =>
      rw [maskedRowWrites_congr (g := fun _ _ => .nan) fun e => by simp only [smResult, if_pos hn], maskedRowWrites_eq]
      exact foldl_stores (f := fun a e => putUncounted x r e .nan a) (fun a e => putMasked_stores x r e .nan a) _ a
    · next hn =>
      split
      · next hm =>
        rw [maskedRowWrites_congr (g := fun _ _ => fZero) fun e => by simp only [smResult, if_neg hn, if_pos hm]]
        exact putRow_stores x r (fun _ _ => fZero) a
      · next hm =>
        rw [maskedRowWrites_congr (g := fun r e => rnd32 (fMul (tableEval x.s.job.functions x.v.func
          (rnd32 (fAdd (pathIn x false x.v.src0 r e) (fNeg (smRow (tableEval x.s.job.functions x.v.func)
            (rowElements x false r)).1)))) (rnd32 (fDiv (fOfInt 1) (smRow (tableEval x.s.job.functions x.v.func)
            (rowElements x false r)).2)))) fun e => by simp only [smResult, if_neg hn, if_neg hm]]
        exact putRow_stores x r (fun r e => rnd32 (fMul (tableEval x.s.job.functions x.v.func
          (rnd32 (fAdd (pathIn x false x.v.src0 r e) (fNeg (smRow (tableEval x.s.job.functions x.v.func)
            (rowElements x false r)).1)))) (rnd32 (fDiv (fOfInt 1) (smRow (tableEval x.s.job.functions x.v.func)
            (rowElements x false r)).2)))) a

/-! ## Conversion (R153) -/

theorem convert_finishes (x : VxRun) (h : sHasScale x.v.dst.fmt = false) : VxFinishes x.s (vxConvert x)
    (storeCodes x.cell x.v.dst (maskedWrites x fun r e => rawIn x x.v.src0 r e) x.s.mem) := by
  unfold vxConvert
  rw [h, if_neg Bool.false_ne_true]
  refine vxDone_finishes (.elements (.init x.s []) (fun r e _ h => h.masked x ((h.putResult x r e _).recount _) r e) _ _) ?_ _
  refine (eachElement_stores (w := fun r e => (maskedAt x r r e (rawIn x x.v.src0 r e)).toList)
    (fun r e a => masked_stores x r r e _ ?_) _ _ _).trans ?_
  · exact putResult_stores x r e _ a
  rw [maskedWrites_eq, funext (maskedRowWrites_eq x _)]

/-- Codes stored from an element on are stored at its place and those behind it. -/
theorem putCodes_mem (x : VxRun) (r e : Nat) (codes : List Nat) (s : State) : (putCodes x r e codes s).mem =
    storeCodes x.cell x.v.dst (codes.mapIdx fun j c => (r, e + j, c)) s.mem := by
  induction codes generalizing e s with
  | nil => rfl
  | cons c l ih =>
    unfold putCodes
    rw [ih, List.mapIdx_cons]
    simp only [storeCodes, List.foldl_cons, Nat.add_zero, Nat.add_assoc, Nat.add_comm 1]
    rfl

theorem putBlock_mem (x : VxRun) (r e k scale : Nat) (codes : List Nat) (s : State) :
    (putScale x r k scale (putCodes x r e codes s)).mem = storeBlock x r e k scale codes s.mem := by
  show memPut (putCodes x r e codes s).mem _ _ = _
  rw [putCodes_mem]
  rfl

theorem foldl_mem {α : Type} {f : Acc → α → Acc} {g : Mem → α → Mem} (h : ∀ a b, (f a b).1.mem = g a.1.mem b) (l : List α)
    (a : Acc) : (l.foldl f a).1.mem = l.foldl g a.1.mem := by
  induction l generalizing a with
  | nil => rfl
  | cons b r ih => rw [List.foldl_cons, ih, h, List.foldl_cons]

theorem blockInputs_eq (x : VxRun) (f : EFmt) (r b : Nat) :
    (((List.range 32).filter fun j => decide (32 * b + j < x.v.rowLen)).map fun j =>
      (r * x.v.rowLen + 32 * b + j, blockIn x f r (32 * b + j))).map (fun p => (p.1, p.2.1)) =
    (((List.range 32).map fun j => 32 * b + j).filter fun e => decide (e < x.v.rowLen)).map fun e =>
      (r * x.v.rowLen + e, (blockIn x f r e).1) := by
  rw [List.filter_map, List.map_map, List.map_map]
  refine List.map_congr_left fun j _ => ?_
  simp only [Function.comp, Nat.add_assoc]

theorem convertBlocks_mem (x : VxRun) (f : EFmt) : (convertBlocks x f).1.mem = convertedBlocks x f x.s.mem := by
  unfold convertBlocks convertedBlocks
  refine foldl_mem (fun a r => ?_) _ _
  refine foldl_mem (fun a b => ?_) _ a
  dsimp only
  rw [putBlock_mem, blockInputs_eq]

theorem convertScaled_finishes (x : VxRun) {f : EFmt} (hf : x.v.dst.fmt = .elem f) (h : hasScale f = true) :
    VxFinishes x.s (vxConvert x) (convertedBlocks x f x.s.mem) := by
  have hs : sHasScale x.v.dst.fmt = true := by rw [hf]; exact h
  unfold vxConvert
  rw [hs, if_pos rfl, hf]
  exact vxDone_finishes (convertBlocks_from x f) (convertBlocks_mem x f) _

end

end Sys2Proof.Claims
end

section
/-! SUPPORT. The vector operations that move elements (R154 to R158): compression, expansion, gather and scatter. -/

namespace Sys2Proof.Claims

open Sys2Proof.Machine

section
variable {x : VxRun}

/-! ## Compress and expand (R154, R155) -/

theorem putList_stores (x : VxRun) (r e : Nat) (l : List FVal) (a : Acc) : (putList x r e l a).1.mem =
    storeCodes x.cell x.v.dst (l.mapIdx fun j v => (r, e + j, vxCode x r (e + j) v)) a.1.mem := by
  induction l generalizing e a with
  | nil => rfl
  | cons v l ih =>
    rw [putList, ih, List.mapIdx_cons]
    simp only [storeCodes, List.foldl_cons, Nat.add_zero, Nat.add_assoc, Nat.add_comm 1]
    rfl

theorem putList_zero_stores (x : VxRun) (r : Nat) (l : List FVal) (a : Acc) : (putList x r 0 l a).1.mem =
    storeCodes x.cell x.v.dst (l.mapIdx fun j v => (r, j, vxCode x r j v)) a.1.mem := by
  rw [putList_stores]
  simp only [Nat.zero_add]

theorem mapIdx_map_eq {α β γ : Type} (f : Nat → β → γ) (g : α → β) (l : List α) :
    (l.map g).mapIdx f = l.mapIdx fun j e => f j (g e) :=
  List.ext_getElem (by simp) (by simp)

theorem keptIndices_eq (x : VxRun) :
    ((List.range x.v.rowLen).filter fun e => ((List.range x.v.rowLen).map (mapBit x)).getD e false) = keptIndices x := by
  refine List.filter_congr fun e he => ?_
  have h : e < x.v.rowLen := List.mem_range.1 he
  simp [List.getD, h]

/-- The writes of a row of COMPRESS. -/
def compressRowWrites (x : VxRun) (r : Nat) : List (Nat × Nat × Nat) :=
  ((keptIndices x).mapIdx fun j e => (r, j, vxCode x r j (rawIn x x.v.src0 r e))) ++
    (if x.v.pad then ((List.range x.v.rowLen).filter fun e => decide ((keptIndices x).length ≤ e)).map fun e => (r, e, 0) else [])

theorem foldl_putZero_stores (x : VxRun) (r : Nat) (l : List Nat) (a : Acc) : (l.foldl (fun b e => putZero x r e b) a).1.mem =
    storeCodes x.cell x.v.dst (l.map fun e => (r, e, 0)) a.1.mem := by
  rw [List.map_eq_flatMap]
  exact foldl_stores (fun a e => putZero_stores x r e a) _ a

theorem compress_finishes (x : VxRun) : VxFinishes x.s (vxCompress x)
    (memWrite (storeCodes x.cell x.v.dst (compressWrites x) x.s.mem) (auxAddr x)
      (zmapBytes x.v.grouped ((List.range x.v.rowLen).map (mapBit x)))) := by
  unfold vxCompress
  dsimp only
  rw [keptIndices_eq]
  refine vxDone_finishes (.bytes (.foldl (fun a r h => ?_) _ (.init x.s [])) _ _ _) ?_ _
  · split
    · exact .foldl (fun _ e g => g.putZero x r e) _ (h.putList x r _ 0)
    · exact h.putList x r _ 0
  · dsimp only
    rw [putBytes_mem]
    congr 1
    refine foldl_stores (w := compressRowWrites x) (fun a r => ?_) _ _
    unfold compressRowWrites
    rw [storeCodes_append]
    have hl := putList_zero_stores x r ((keptIndices x).map fun e => rawIn x x.v.src0 r e) a
    rw [mapIdx_map_eq] at hl
    by_cases hp : x.v.pad = true
    · simp only [if_pos hp]
      rw [foldl_putZero_stores, hl]
    · simp only [if_neg hp, hl]
      rfl

theorem expandRow_stores (x : VxRun) (r : Nat) (l : List Nat) (j : Nat) (a : Acc) :
    (expandRow x (memLe x.s.mem (auxAddr x) 4) r l j a).1.mem = storeCodes x.cell x.v.dst (expandedRow x r l j) a.1.mem := by
  induction l generalizing j a with
  | nil => rfl
  | cons e l ih =>
    rw [expandRow, expandedRow]
    rw [ih, storeCodes_append]
    congr 1
    by_cases hk : kept x r e = true
    · by_cases hl : (zmapBit x.s.mem (auxAddr x) e && decide (j < memLe x.s.mem (auxAddr x) 4)) = true
      · simp only [hk, hl, Bool.and_self, if_true]
        rfl
      · by_cases hz : x.v.maskZero = true
        · simp only [hk, hl, hz, Bool.and_false, Bool.false_eq_true, if_true, if_false]
          rfl
        · simp only [hk, hl, hz, Bool.and_false, Bool.false_eq_true, if_true, if_false]
          rfl
    · by_cases hz : x.v.maskZero = true
      · simp only [hk, hz, Bool.false_and, Bool.false_eq_true, if_true, if_false]
        rfl
      · simp only [hk, hz, Bool.false_and, Bool.false_eq_true, if_false]
        rfl

theorem expand_finishes (x : VxRun) (h : zmapLength x.s.mem (auxAddr x) = x.v.rowLen) : VxFinishes x.s (vxExpand x)
    (storeCodes x.cell x.v.dst ((List.range x.v.rows).flatMap fun r => expandedRow x r (List.range x.v.rowLen) 0) x.s.mem) := by
  unfold vxExpand
  rw [if_pos h]
  exact rows_finish (fun a r h => .expanded x _ r _ 0 h) (fun a r => expandRow_stores x r _ 0 a) _ _

theorem expand_skips (x : VxRun) (h : zmapLength x.s.mem (auxAddr x) ≠ x.v.rowLen) :
    VxFinishes x.s (vxExpand x) (storeCodes x.cell x.v.dst [] x.s.mem) := by
  unfold vxExpand
  rw [if_neg h]
  exact ⟨by simp +decide, rfl, runFault_addStepCodes _ _, mem_of_allBut (by simp)⟩

/-! ## 2:4 compression (R156) -/

theorem blockValues_eq (x : VxRun) (r b : Nat) (vals : List FVal) :
    ((List.range 16).filterMap fun j => if 16 * b + j < vals.length then
      some (r * x.v.rowLen + 16 * b + j, vals.getD (16 * b + j) fZero) else none) =
    (((List.range 16).map fun j => 16 * b + j).filter fun j => decide (j < vals.length)).map fun j =>
      (r * x.v.rowLen + j, vals.getD j fZero) := by
  rw [List.filter_map, List.map_map, ← List.filterMap_eq_map, List.filterMap_filter]
  refine List.filterMap_congr fun j _ => ?_
  simp [Function.comp, Nat.add_assoc]

theorem compressRow_stores (x : VxRun) (r : Nat) (a : Acc) :
    (compressRow x x.v.dst.fmt r (groupCount x) a).1.mem = pairsStored x r a.1.mem := by
  unfold compressRow pairsStored
  dsimp only
  cases x.v.dst.fmt with
  | bit => exact putList_zero_stores x r _ a
  | elem e =>
    dsimp only
    split
    · refine foldl_mem (fun a b => ?_) _ a
      dsimp only
      rw [putBlock_mem, blockValues_eq]
      rfl
    · exact putList_zero_stores x r _ a

theorem putMaskRow_mem (x : VxRun) (r : Nat) (s : State) (hp : policySupplied x.v.func = false) :
    (putMaskRow x r (groupCount x) s).mem = positionsStored x r s.mem := by
  unfold putMaskRow positionsStored
  rw [hp, if_neg Bool.false_ne_true]
  generalize List.range (ceilDiv (groupCount x) 8) = l
  induction l generalizing s with
  | nil => rfl
  | cons b l ih =>
    rw [List.foldl_cons, ih, List.foldl_cons]
    congr 1
    rw [putBytes_mem, List.foldl_filter]
    simp only [decide_eq_true_eq]

/-- A row of COMPRESS24: the kept values, and their positions where it derives them. -/
def row24 (x : VxRun) (r gs : Nat) (a : Acc) : Acc :=
  let b := compressRow x x.v.dst.fmt r gs a
  if policySupplied x.v.func then b else (putMaskRow x r gs b.1, b.2)

theorem row24_from (r gs : Nat) {a : Acc} (h : Acc.From x.s a) : Acc.From x.s (row24 x r gs a) := by
  unfold row24
  dsimp only
  split
  · exact h.compressRow x _ r gs
  · exact (h.compressRow x _ r gs).putMaskRow x r gs _

theorem row24_mem (x : VxRun) (r : Nat) (a : Acc) :
    (row24 x r (groupCount x) a).1.mem = positionsStored x r (pairsStored x r a.1.mem) := by
  unfold row24
  dsimp only
  by_cases hp : policySupplied x.v.func = true
  · rw [if_pos hp, compressRow_stores]
    simp only [positionsStored, if_pos hp]
  · rw [if_neg hp, putMaskRow_mem x r _ (by simpa using hp), compressRow_stores]

theorem compress24_finishes (x : VxRun)
    (h : bitOf x.v.func 2 = true → ∀ g ∈ allGroups x, (groupPick x g.1 g.2).2.2 = false) :
    VxFinishes x.s (vxCompress24 x) ((List.range x.v.rows).foldl (fun m r => positionsStored x r (pairsStored x r m)) x.s.mem) := by
  have hstop : (if bitOf x.v.func 2 then ((allGroups x).filter fun g => (groupPick x g.1 g.2).2.2).head? else none) = none := by
    by_cases hb : bitOf x.v.func 2 = true
    · rw [if_pos hb, List.filter_eq_nil_iff.2 fun g hg => by simp [h hb g hg]]
      rfl
    · rw [if_neg hb]
  unfold vxCompress24
  dsimp only
  rw [hstop]
  refine vxDone_finishes (.recount (.foldl (f := fun a r => row24 x r (groupCount x) a) (fun _ r h => row24_from r _ h) _
    (.init x.s [])) _) ?_ _
  exact foldl_mem (f := fun a r => row24 x r (groupCount x) a) (fun a r => row24_mem x r a) _ _

/-! ## Gather and scatter (R157, R158) -/

theorem movedRows_good (h : badRow? x = none) : movedRows x = List.range x.v.rows := by
  rw [movedRows, h]
  rfl

theorem indexEnd_good (h : badRow? x = none) (w : List (Nat × Nat)) (a : Acc) : indexEnd x w a = vxDone x w a := by
  rw [indexEnd, h]

/-- The value that GATHER writes. -/
def gathered (x : VxRun) (r e : Nat) : FVal :=
  if rowIndex x r < x.v.imm0 then rawIn x x.v.src0 (rowIndex x r) e else fZero

/-- A row of GATHER. -/
def gatherRow (x : VxRun) (a : Acc) (r : Nat) : Acc :=
  if rowIndex x r < x.v.imm0 then putRow x r (fun e => rawIn x x.v.src0 (rowIndex x r) e) a
  else ((putRow x r (fun _ => fZero) a).1, (putRow x r (fun _ => fZero) a).2 ++ [ccIndexFill])

theorem gatherRow_from {a : Acc} (r : Nat) (h : Acc.From x.s a) : Acc.From x.s (gatherRow x a r) := by
  unfold gatherRow
  split
  · exact h.putRow x r _
  · exact (h.putRow x r _).recount _

theorem gatherRow_stores (x : VxRun) (a : Acc) (r : Nat) :
    (gatherRow x a r).1.mem = storeCodes x.cell x.v.dst (maskedRowWrites x (gathered x) r) a.1.mem := by
  unfold gatherRow
  split
  · next h =>
    rw [maskedRowWrites_congr (g := fun r e => rawIn x x.v.src0 (rowIndex x r) e) fun e => by rw [gathered, if_pos h]]
    exact putRow_stores x r (fun r e => rawIn x x.v.src0 (rowIndex x r) e) a
  · next h =>
    rw [maskedRowWrites_congr (g := fun _ _ => fZero) fun e => by rw [gathered, if_neg h]]
    exact putRow_stores x r (fun _ _ => fZero) a

theorem gather_finishes (h : badRow? x = none) : VxFinishes x.s (vxGather x)
    (storeCodes x.cell x.v.dst (maskedWrites x (gathered x)) x.s.mem) := by
  unfold vxGather
  rw [indexEnd_good h, movedRows_good h]
  exact rows_finish (f := gatherRow x) (fun a r h => gatherRow_from r h) (gatherRow_stores x) _ _

/-- The writes of a row of SCATTER. -/
def scatterRowWrites (x : VxRun) (r : Nat) : List (Nat × Nat × Nat) :=
  if rowIndex x r < x.v.imm0 then
    (List.range x.v.rowLen).filterMap fun e => maskedAt x r (rowIndex x r) e (rawIn x x.v.src0 r e)
  else []

/-- A row of SCATTER. -/
def scatterRow (x : VxRun) (a : Acc) (r : Nat) : Acc :=
  if rowIndex x r < x.v.imm0 then
    (List.range x.v.rowLen).foldl (fun a e => putIndexed x r (rowIndex x r) e (rawIn x x.v.src0 r e) a) a
  else (a.1, a.2 ++ [ccIndexFill])

theorem scatterRow_from {a : Acc} (r : Nat) (h : Acc.From x.s a) : Acc.From x.s (scatterRow x a r) := by
  unfold scatterRow
  split
  · exact .foldl (fun _ e g => g.putIndexed x r _ e _) _ h
  · exact h

theorem scatterRow_stores (x : VxRun) (a : Acc) (r : Nat) :
    (scatterRow x a r).1.mem = storeCodes x.cell x.v.dst (scatterRowWrites x r) a.1.mem := by
  unfold scatterRow scatterRowWrites
  split
  · rw [List.filterMap_eq_flatMap_toList]
    refine foldl_stores (f := fun a e => putIndexed x r (rowIndex x r) e (rawIn x x.v.src0 r e) a)
      (w := fun e => (maskedAt x r (rowIndex x r) e (rawIn x x.v.src0 r e)).toList) (fun a e => ?_) _ a
    exact masked_stores x r (rowIndex x r) e _ (putResult_stores x (rowIndex x r) e _ a)
  · rfl

theorem scatter_finishes (h : badRow? x = none) : VxFinishes x.s (vxScatter x)
    (storeCodes x.cell x.v.dst ((List.range x.v.rows).flatMap (scatterRowWrites x)) x.s.mem) := by
  unfold vxScatter
  rw [indexEnd_good h, movedRows_good h]
  exact rows_finish (f := scatterRow x) (fun a r h => scatterRow_from r h) (scatterRow_stores x) _ _

/-- One element of SCATTER_ADD. -/
def addElement (x : VxRun) (r : Nat) (a : Acc) (e : Nat) : Acc :=
  putIndexed x r (rowIndex x r) e (rnd32 (fAdd (ofF32 (readCode a.1 x.cell x.v.dst (rowIndex x r) e))
    (rnd32 (rawIn x x.v.src0 r e)))) a

/-- A row of SCATTER_ADD. -/
def addRow (x : VxRun) (a : Acc) (r : Nat) : Acc :=
  if rowIndex x r < x.v.imm0 then (List.range x.v.rowLen).foldl (addElement x r) a else (a.1, a.2 ++ [ccIndexFill])

/-- One element of SCATTER_ADD in memory. -/
def elementAdded (x : VxRun) (r : Nat) (m : Mem) (e : Nat) : Mem :=
  storeCodes x.cell x.v.dst (maskedAt x r (rowIndex x r) e (rnd32 (fAdd
    (ofF32 (readCode { x.s with mem := m } x.cell x.v.dst (rowIndex x r) e)) (rnd32 (rawIn x x.v.src0 r e))))).toList m

theorem readCode_congr {s t : State} (h : t.mem = s.mem) (g : t.tiles = s.tiles) (cell : Nat) (k : Stream) (r e : Nat) :
    readCode t cell k r e = readCode s cell k r e := by
  simp only [readCode, streamMem, h, g]

theorem addElement_mem (r e : Nat) {a : Acc} (ht : a.1.tiles = x.s.tiles) :
    (addElement x r a e).1.mem = elementAdded x r a.1.mem e := by
  unfold addElement elementAdded
  rw [readCode_congr (s := { x.s with mem := a.1.mem }) (t := a.1) rfl ht]
  exact masked_stores x r (rowIndex x r) e _ (putResult_stores x (rowIndex x r) e _ a)

/-- The same fold in memory alone, while the tiles stand. -/
theorem foldl_mem_of_tiles {α : Type} {f : Acc → α → Acc} {g : Mem → α → Mem} (hf : ∀ a b, Acc.From x.s a → Acc.From x.s (f a b))
    (h : ∀ a b, Acc.From x.s a → (f a b).1.mem = g a.1.mem b) (l : List α) {a : Acc} (ha : Acc.From x.s a) :
    (l.foldl f a).1.mem = l.foldl g a.1.mem := by
  induction l generalizing a with
  | nil => rfl
  | cons b r ih => rw [List.foldl_cons, ih (hf a b ha), h a b ha, List.foldl_cons]

theorem addElement_from (r : Nat) {a : Acc} (e : Nat) (h : Acc.From x.s a) : Acc.From x.s (addElement x r a e) :=
  h.putIndexed x r _ e _

theorem addRow_from {a : Acc} (r : Nat) (h : Acc.From x.s a) : Acc.From x.s (addRow x a r) := by
  unfold addRow
  split
  · exact .foldl (fun _ e g => addElement_from r e g) _ h
  · exact h

theorem rowAdded_eq (x : VxRun) (r : Nat) (m : Mem) : rowAdded x r m =
    if rowIndex x r < x.v.imm0 then (List.range x.v.rowLen).foldl (elementAdded x r) m else m := by
  have h : (fun (m : Mem) (e : Nat) =>
      if kept x r e then storeCodes x.cell x.v.dst [(rowIndex x r, e, vxCode x (rowIndex x r) e
        (rnd32 (fAdd (ofF32 (readCode { x.s with mem := m } x.cell x.v.dst (rowIndex x r) e)) (rnd32 (rawIn x x.v.src0 r e)))))] m
      else if x.v.maskZero then storeCodes x.cell x.v.dst [(rowIndex x r, e, 0)] m else m) = elementAdded x r := by
    funext m e
    unfold elementAdded maskedAt
    by_cases hk : kept x r e = true
    · simp only [if_pos hk, Option.toList_some]
    · by_cases hz : x.v.maskZero = true
      · simp only [if_neg hk, if_pos hz, Option.toList_some]
      · simp only [if_neg hk, if_neg hz]
        rfl
  unfold rowAdded
  dsimp only
  rw [h]

theorem addRow_mem (r : Nat) {a : Acc} (h : Acc.From x.s a) : (addRow x a r).1.mem = rowAdded x r a.1.mem := by
  rw [rowAdded_eq]
  unfold addRow
  split
  · exact foldl_mem_of_tiles (fun a e g => addElement_from r e g) (fun a e g => addElement_mem r e (g.1.tiles_eq rfl)) _ h
  · rfl

theorem scatterAdd_finishes (h : badRow? x = none) : VxFinishes x.s (vxScatterAdd x)
    ((List.range x.v.rows).foldl (fun m r => rowAdded x r m) x.s.mem) := by
  unfold vxScatterAdd
  rw [indexEnd_good h, movedRows_good h]
  refine vxDone_finishes (.foldl (f := addRow x) (fun a r h => addRow_from r h) _ (.init x.s [])) ?_ _
  exact foldl_mem_of_tiles (f := addRow x) (fun a r h => addRow_from r h) (fun a r h => addRow_mem r h) _ (.init x.s [])

/-- An index out of range stops the run with INDEX_RANGE (R158). -/
def IndexStops (s : State) (r : TaskEnd × State) : Prop :=
  stepActive s = true → runFault r.2 = some (some ⟨0x08, true, selfId s⟩)

theorem indexEnd_stops {k : Nat} (h : badRow? x = some k) (w : List (Nat × Nat)) {a : Acc} (ha : Acc.From x.s a) :
    IndexStops x.s (indexEnd x w a) := by
  intro hact
  have hf : runFault (addStepCodes a.2 a.1) = runFault x.s := (runFault_addStepCodes _ _).trans (runFault_congr (ha.1.ctl_eq rfl))
  have hs : (addStepCodes a.2 a.1).fab = x.s.fab := (fab_of_allBut (s := a.1) (by simp)).trans (ha.1.fab_eq rfl)
  unfold indexEnd
  rw [h]
  dsimp only
  rw [runFault_stepFault (stepActive_iff.2 (hf.trans (stepActive_iff.1 hact))), selfId_congr hs]
  rfl

theorem gather_stops {k : Nat} (h : badRow? x = some k) : IndexStops x.s (vxGather x) :=
  indexEnd_stops h _ (.foldl (f := gatherRow x) (fun a r h => gatherRow_from r h) _ (.init x.s []))

theorem scatter_stops {k : Nat} (h : badRow? x = some k) : IndexStops x.s (vxScatter x) :=
  indexEnd_stops h _ (.foldl (f := scatterRow x) (fun a r h => scatterRow_from r h) _ (.init x.s []))

theorem scatterAdd_stops {k : Nat} (h : badRow? x = some k) : IndexStops x.s (vxScatterAdd x) :=
  indexEnd_stops h _ (.foldl (f := addRow x) (fun a r h => addRow_from r h) _ (.init x.s []))

end

end Sys2Proof.Claims
end

section
/-! SUPPORT. The row operations as commands: their results, and every vector operation to its end. -/

namespace Sys2Proof.Claims

open Sys2Proof.Machine

theorem scanWrites_atUnit (x : VxRun) (c : KV Cell) (k : Ctl) (ints : Bool) (r : Nat) (l : List Nat) (p : Option FVal) :
    scanWrites (atUnit x c k) ints r l p = scanWrites x ints r l p := by
  induction l generalizing p with
  | nil => rfl
  | cons e l ih =>
    simp only [scanWrites, ih]
    rfl

theorem expandedRow_atUnit (x : VxRun) (c : KV Cell) (k : Ctl) (r : Nat) (l : List Nat) (j : Nat) :
    expandedRow (atUnit x c k) r l j = expandedRow x r l j := by
  induction l generalizing j with
  | nil => rfl
  | cons e l ih =>
    simp only [expandedRow, ih]
    rfl

theorem scan_finishes_atUnit (x : VxRun) (c : KV Cell) (k : Ctl) : VxFinishes (atUnit x c k).s (vxScan (atUnit x c k))
    (storeCodes x.cell x.v.dst
      ((List.range x.v.rows).flatMap fun r => scanWrites x (allInts x false) r (List.range x.v.rowLen) none) x.s.mem) := by
  have h := scan_finishes (atUnit x c k)
  simp only [scanWrites_atUnit] at h
  exact h

theorem expand_finishes_atUnit (x : VxRun) (c : KV Cell) (k : Ctl) (hz : zmapLength x.s.mem (auxAddr x) = x.v.rowLen) :
    VxFinishes (atUnit x c k).s (vxExpand (atUnit x c k)) (storeCodes x.cell x.v.dst
      ((List.range x.v.rows).flatMap fun r => expandedRow x r (List.range x.v.rowLen) 0) x.s.mem) := by
  have h := expand_finishes (atUnit x c k) hz
  simp only [expandedRow_atUnit] at h
  exact h

section
variable {s : State} {cell : Nat} {d : Desc} (hc : s.dbg.capture = none) (hv : isVoid s cell d = false)
  (hw : wordsGood s = true)

include hc hv hw

/-- A vector operation that ends with this memory. -/
theorem runs_to_mem {op : Nat} {instr : Instr} {f : VxRun → TaskEnd × State} {m : Mem}
    (he : exec instr s = .next (issueVx op f cell .clean s))
    (hf : ∀ c k, VxFinishes (atUnit (vxView s cell d) c k).s (f (atUnit (vxView s cell d) c k)) m)
    (hi : issuable? s cell 2 (fun z => bodyOp z == op) = some d) : ∃ t, exec instr s = .next t ∧ t.mem = m :=
  ⟨_, he, (issueVx_finishes hi hv hc hw hf).2.2⟩

/-- A vector operation that an index out of range stops. -/
theorem runs_to_stop {op : Nat} {instr : Instr} {f : VxRun → TaskEnd × State}
    (he : exec instr s = .next (issueVx op f cell .clean s))
    (hf : ∀ c k, IndexStops (atUnit (vxView s cell d) c k).s (f (atUnit (vxView s cell d) c k)))
    (hi : issuable? s cell 2 (fun z => bodyOp z == op) = some d) : ∃ t, exec instr s = .next t ∧ Stopped 0x08 s t := by
  refine ⟨_, he, ?_⟩
  have hs := hf (inUnit cell d s).cells (inUnit cell d s).ctl
  rw [← vxRunOf_inUnit] at hs
  have hstop : runFault (f (vxRunOf cell d (inUnit cell d s))).2 = some (some ⟨0x08, true, selfId s⟩) :=
    (hs (inUnit_active (issuable_active hi).1)).trans 
      (congrArg (fun n => some (some (⟨0x08, true, n⟩ : StepFault))) (selfId_congr ((inUnit_keeps cell d s).fab_eq rfl)))
  rw [issueVx, issueTask_clean hi hv hc hw]
  exact stopped_of_work (e := f (vxRunOf cell d (inUnit cell d s))) hstop

end

/-- Settles O37. -/
theorem rowOperationResults : Obligations.RowOperationResults := by
  unfold Obligations.RowOperationResults
  intro s cell d hc hv hw
  have runs {op : Nat} {instr : Instr} {f : VxRun → TaskEnd × State} {w : List (Nat × Nat × Nat)} :=
    runs_of_finishes (s := s) (cell := cell) (d := d) (op := op) (instr := instr) (f := f) (w := w) hc hv hw
  have mem {op : Nat} {instr : Instr} {f : VxRun → TaskEnd × State} {m : Mem} :=
    runs_to_mem (s := s) (cell := cell) (d := d) (op := op) (instr := instr) (f := f) (m := m) hc hv hw
  have stop {op : Nat} {instr : Instr} {f : VxRun → TaskEnd × State} :=
    runs_to_stop (s := s) (cell := cell) (d := d) (op := op) (instr := instr) (f := f) hc hv hw
  refine ⟨runs rfl fun c k => reduce_finishes (atUnit (vxView s cell d) c k),
    runs rfl fun c k => scan_finishes_atUnit (vxView s cell d) c k,
    runs rfl fun c k => elementwise_finishes false false _ (atUnit (vxView s cell d) c k),
    runs rfl fun c k => rmsnorm_finishes (atUnit (vxView s cell d) c k),
    runs rfl fun c k => layernorm_finishes (atUnit (vxView s cell d) c k),
    runs rfl fun c k => softmax_finishes (atUnit (vxView s cell d) c k),
    fun h => runs rfl fun c k => convert_finishes (atUnit (vxView s cell d) c k) h,
    fun f hf hsc hi => mem rfl (fun c k => convertScaled_finishes (atUnit (vxView s cell d) c k) hf hsc) hi,
    fun hi => mem rfl (fun c k => compress_finishes (atUnit (vxView s cell d) c k)) hi,
    fun h => runs rfl fun c k => expand_finishes_atUnit (vxView s cell d) c k h,
    fun h => runs rfl fun c k => expand_skips (atUnit (vxView s cell d) c k) h,
    fun hi h => mem rfl (fun c k => compress24_finishes (atUnit (vxView s cell d) c k) h) hi,
    fun hi => ⟨fun h => mem rfl (fun c k => gather_finishes (x := atUnit (vxView s cell d) c k) h) hi,
      fun n h => stop rfl (fun c k => gather_stops (x := atUnit (vxView s cell d) c k) (k := n) h) hi⟩,
    fun hi => ⟨fun h => mem rfl (fun c k => scatter_finishes (x := atUnit (vxView s cell d) c k) h) hi,
      fun n h => stop rfl (fun c k => scatter_stops (x := atUnit (vxView s cell d) c k) (k := n) h) hi⟩,
    fun hi => ⟨fun h => mem rfl (fun c k => scatterAdd_finishes (x := atUnit (vxView s cell d) c k) h) hi,
      fun n h => stop rfl (fun c k => scatterAdd_stops (x := atUnit (vxView s cell d) c k) (k := n) h) hi⟩⟩

/-- A vector operation and its command. -/
def IsCommand (cell : Nat) (e : Nat × Instr × (VxRun → TaskEnd × State)) : Prop :=
  ∀ s, exec e.2.1 s = .next (issueVx e.1 e.2.2 cell .clean s)

theorem vectorOps_commands {cell : Nat} : ∀ e ∈ vectorOps cell, IsCommand cell e := by
  simp only [vectorOps, List.forall_mem_cons, List.not_mem_nil, false_imp_iff, implies_true, and_true]
  exact ⟨fun _ => rfl, fun _ => rfl, fun _ => rfl, fun _ => rfl, fun _ => rfl, fun _ => rfl, fun _ => rfl, fun _ => rfl,
    fun _ => rfl, fun _ => rfl, fun _ => rfl, fun _ => rfl, fun _ => rfl, fun _ => rfl, fun _ => rfl, fun _ => rfl,
    fun _ => rfl, fun _ => rfl, fun _ => rfl, fun _ => rfl, fun _ => rfl, fun _ => rfl, fun _ => rfl⟩

/-- What an operation leaves in memory does not depend on cells and step control, and it ends its task. -/
def VxRunsToEnd (f : VxRun → TaskEnd × State) (x : VxRun) : Prop :=
  ∀ c k, VxFinishes (atUnit x c k).s (f (atUnit x c k)) (f x).2.mem

theorem VxRunsToEnd.of_finishes {f : VxRun → TaskEnd × State} {x : VxRun} {M : Mem} (h : VxFinishes x.s (f x) M)
    (g : ∀ c k, VxFinishes (atUnit x c k).s (f (atUnit x c k)) M) : VxRunsToEnd f x := by
  intro c k
  rw [h.2.2.2]
  exact g c k

theorem convert_toEnd (x : VxRun) : VxRunsToEnd vxConvert x := by
  by_cases h : sHasScale x.v.dst.fmt = true
  · obtain ⟨f, hf, hs⟩ : ∃ f, x.v.dst.fmt = .elem f ∧ hasScale f = true := by
      cases hd : x.v.dst.fmt with
      | bit => simp [hd, sHasScale] at h
      | elem f => exact ⟨f, rfl, by simpa [hd, sHasScale] using h⟩
    exact .of_finishes (convertScaled_finishes x hf hs) fun c k => convertScaled_finishes (atUnit x c k) hf hs
  · have h' : sHasScale x.v.dst.fmt = false := by simpa using h
    exact .of_finishes (convert_finishes x h') fun c k => convert_finishes (atUnit x c k) h'

theorem expand_toEnd (x : VxRun) : VxRunsToEnd vxExpand x := by
  by_cases h : zmapLength x.s.mem (auxAddr x) = x.v.rowLen
  · exact .of_finishes (expand_finishes x h) fun c k => expand_finishes_atUnit x c k h
  · exact .of_finishes (expand_skips x h) fun c k => expand_skips (atUnit x c k) h

/-- What keeps an operation from its end: an index out of range, or a mask breach with FAULT. -/
def NothingStops (op : Nat) (x : VxRun) : Prop :=
  (0x38 ≤ op → badRow? x = none) ∧
    (op = 0x32 → bitOf x.v.func 2 = true → ∀ g ∈ allGroups x, (groupPick x g.1 g.2).2.2 = false)

section
variable (x : VxRun)

theorem add_toEnd : VxRunsToEnd vxAdd x :=
  .of_finishes (elementwise_finishes true true _ x) fun c k => elementwise_finishes true true _ (atUnit x c k)
theorem sub_toEnd : VxRunsToEnd vxSub x :=
  .of_finishes (elementwise_finishes true true _ x) fun c k => elementwise_finishes true true _ (atUnit x c k)
theorem mul_toEnd : VxRunsToEnd vxMul x :=
  .of_finishes (elementwise_finishes true true _ x) fun c k => elementwise_finishes true true _ (atUnit x c k)
theorem fma_toEnd : VxRunsToEnd vxFma x :=
  .of_finishes (elementwise_finishes true true _ x) fun c k => elementwise_finishes true true _ (atUnit x c k)
theorem div_toEnd : VxRunsToEnd vxDiv x :=
  .of_finishes (elementwise_finishes true false _ x) fun c k => elementwise_finishes true false _ (atUnit x c k)
theorem max_toEnd : VxRunsToEnd vxMax x :=
  .of_finishes (elementwise_finishes true true _ x) fun c k => elementwise_finishes true true _ (atUnit x c k)
theorem min_toEnd : VxRunsToEnd vxMin x :=
  .of_finishes (elementwise_finishes true true _ x) fun c k => elementwise_finishes true true _ (atUnit x c k)
theorem unary_toEnd : VxRunsToEnd vxUnary x := .of_finishes (unary_finishes x) fun c k => unary_finishes (atUnit x c k)
theorem cmp_toEnd : VxRunsToEnd vxCmp x :=
  .of_finishes (elementwise_finishes true true _ x) fun c k => elementwise_finishes true true _ (atUnit x c k)
theorem select_toEnd : VxRunsToEnd vxSelect x := .of_finishes (select_finishes x) fun c k => select_finishes (atUnit x c k)
theorem reduce_toEnd : VxRunsToEnd vxReduce x := .of_finishes (reduce_finishes x) fun c k => reduce_finishes (atUnit x c k)
theorem scan_toEnd : VxRunsToEnd vxScan x := .of_finishes (scan_finishes x) fun c k => scan_finishes_atUnit x c k
theorem table_toEnd : VxRunsToEnd vxTable x :=
  .of_finishes (elementwise_finishes false false _ x) fun c k => elementwise_finishes false false _ (atUnit x c k)
theorem rmsnorm_toEnd : VxRunsToEnd vxRmsnorm x :=
  .of_finishes (rmsnorm_finishes x) fun c k => rmsnorm_finishes (atUnit x c k)
theorem layernorm_toEnd : VxRunsToEnd vxLayernorm x :=
  .of_finishes (layernorm_finishes x) fun c k => layernorm_finishes (atUnit x c k)
theorem softmax_toEnd : VxRunsToEnd vxSoftmax x :=
  .of_finishes (softmax_finishes x) fun c k => softmax_finishes (atUnit x c k)
theorem compress_toEnd : VxRunsToEnd vxCompress x :=
  .of_finishes (compress_finishes x) fun c k => compress_finishes (atUnit x c k)

variable {x}

theorem compress24_toEnd (h : NothingStops 0x32 x) : VxRunsToEnd vxCompress24 x :=
  .of_finishes (compress24_finishes x (h.2 rfl)) fun c k => compress24_finishes (atUnit x c k) (h.2 rfl)
theorem gather_toEnd (h : NothingStops 0x38 x) : VxRunsToEnd vxGather x :=
  .of_finishes (gather_finishes (h.1 (by decide))) fun c k => gather_finishes (x := atUnit x c k) (h.1 (by decide))
theorem scatter_toEnd (h : NothingStops 0x39 x) : VxRunsToEnd vxScatter x :=
  .of_finishes (scatter_finishes (h.1 (by decide))) fun c k => scatter_finishes (x := atUnit x c k) (h.1 (by decide))
theorem scatterAdd_toEnd (h : NothingStops 0x3A x) : VxRunsToEnd vxScatterAdd x :=
  .of_finishes (scatterAdd_finishes (h.1 (by decide))) fun c k => scatterAdd_finishes (x := atUnit x c k) (h.1 (by decide))

end

theorem vectorOps_toEnd (cell : Nat) (x : VxRun) : ∀ e ∈ vectorOps cell, NothingStops e.1 x → VxRunsToEnd e.2.2 x := by
  simp only [vectorOps, List.forall_mem_cons, List.not_mem_nil, false_imp_iff, implies_true, and_true]
  exact ⟨fun _ => add_toEnd x, fun _ => sub_toEnd x, fun _ => mul_toEnd x, fun _ => fma_toEnd x, fun _ => div_toEnd x,
    fun _ => max_toEnd x, fun _ => min_toEnd x, fun _ => unary_toEnd x, fun _ => cmp_toEnd x, fun _ => select_toEnd x,
    fun _ => reduce_toEnd x, fun _ => scan_toEnd x, fun _ => table_toEnd x, fun _ => rmsnorm_toEnd x,
    fun _ => layernorm_toEnd x, fun _ => softmax_toEnd x, fun _ => convert_toEnd x, fun _ => compress_toEnd x,
    fun _ => expand_toEnd x, compress24_toEnd, gather_toEnd, scatter_toEnd, scatterAdd_toEnd⟩

/-- Settles O35. -/
theorem vectorTasksRun : Obligations.VectorTasksRun := by
  unfold Obligations.VectorTasksRun
  intro s cell d e he ⟨hi, hv, hc, hw⟩ hbad hbreach
  exact ⟨_, vectorOps_commands e he s, issueVx_finishes hi hv hc hw (vectorOps_toEnd cell _ e he ⟨hbad, hbreach⟩)⟩

end Sys2Proof.Claims
end

section
/-! SUPPORT. What keeps a task from its unit (R57, R459 to R464): a void task, an uncorrectable word and a failed check. -/

namespace Sys2Proof.Machine

theorem depAdd_kept (cell ctr n : Nat) (s : State) : CtlKept s (depAdd cell ctr n s) := by
  unfold depAdd
  dsimp only
  generalize decide (ctrMax < depGet s cell ctr + n) = c
  refine .trans ?_ (faultIf_kept c _ _)
  exact .of_eq rfl rfl

/-- The run counts a void task. -/
def voidCounted (cell : Nat) (d : Desc) (s : State) : State :=
  mapRun (fun r => { r with voids := r.voids + 1 }) (issuedWindow cell d s)

section
variable {s : State} {cell cls : Nat} {meant : Desc → Bool} {d : Desc}

/-- A void task signals at once, and its unit never sees it. -/
theorem issueTask_void (hi : issuable? s cell cls meant = some d) (hv : isVoid s cell d = true) (hc : s.dbg.capture = none)
    (reads : Nat → Desc → State → Nat → Nat → Bool) (work : Nat → Desc → State → TaskEnd × State) (h : Health) :
    issueTask cls meant reads work cell h s = settleDrain (settleCell cell
      (perfAdd (clusterOf cell) 0x0C 1 (applySignal cell d (voidCounted cell d s)))) := by
  have hk := issuedWindow_keeps cell d s
  have hv' : isVoid (issuedWindow cell d s) cell d = true := (isVoid_congr (hk.ctr_eq rfl) (hk.job_eq rfl)).trans hv
  have km : Keeps [.ctl] (issuedWindow cell d s) (voidCounted cell d s) := (mapRun_keeps _ _ rfl).2 (.refl _ _)
  have hc' : (voidCounted cell d s).dbg.capture = none :=
    (congrArg Debug.capture ((km.dbg_eq rfl).trans (hk.dbg_eq rfl))).trans hc
  unfold issueTask
  simp only [hi]
  show settleDrain (settleCell cell (if isVoid (issuedWindow cell d s) cell d then
    perfAdd (clusterOf cell) 0x0C 1 (applySignal cell d (traceEvent cell d 2 (voidCounted cell d s))) else _)) = _
  rw [hv', if_pos rfl, traceEvent_silent _ _ _ hc']

/-- What a void task changes: its signal's counter, and of the device no memory, no accumulator and no copy. -/
theorem issueTask_void_effect {r : Run} (hi : issuable? s cell cls meant = some d) (hv : isVoid s cell d = true)
    (hc : s.dbg.capture = none) (hr : s.ctl.run = some r) (hp : 0 < sigIncrement d) (ha : dSigArr d = false)
    (reads : Nat → Desc → State → Nat → Nat → Bool) (work : Nat → Desc → State → TaskEnd × State) (h : Health) :
    let t := issueTask cls meant reads work cell h s
    t.mem = s.mem ∧ t.tiles = s.tiles ∧ t.tier = s.tier ∧ t.ctl.run.map (·.voids) = some (r.voids + 1) ∧
      depGet t cell (sigCounter d) = min (depGet s cell (sigCounter d) + sigIncrement d) 0xFFFFFFFF := by
  intro t
  have ht : t = settleDrain (settleCell cell (perfAdd (clusterOf cell) 0x0C 1
      (depAdd cell (sigCounter d) (sigIncrement d) (voidCounted cell d s)))) := by
    rw [← applySignal_dep hp ha]
    exact issueTask_void hi hv hc reads work h
  generalize hu : voidCounted cell d s = u at ht
  have ku : Keeps [.cells, .ctl] s u := by
    rw [← hu]
    exact (mapRun_keeps _ _ rfl).2 (issuedWindow_keeps cell d s)
  have kt : Keeps [.dbg, .cells, .ctl, .time] (depAdd cell (sigCounter d) (sigIncrement d) u) t := by
    rw [ht]
    exact (settleDrain_keeps _ rfl).2 ((settleCell_keeps _ _ rfl).2 ((perfAdd_keeps _ _ _ _ rfl).2 (.refl _ _)))
  have kd : Keeps [.ctr, .ctl, .rem, .launch] u (depAdd cell (sigCounter d) (sigIncrement d) u) := (depAdd_keeps _ _ _ _ rfl).2 (.refl _ u)
  have kr : CtlKept u t := by
    rw [ht]
    refine .trans ?_ (settleDrain_kept _)
    refine .trans ?_ (settleCell_kept _ _)
    refine .trans (depAdd_kept cell (sigCounter d) (sigIncrement d) u) ?_
    exact .of_eq (ctl_of_allBut (by simp)) (launch_of_allBut (by simp))
  obtain ⟨q, hq, hqv⟩ : ∃ q, u.ctl.run = some q ∧ q.voids = r.voids + 1 := by
    rw [← hu]
    simp [voidCounted, issuedWindow, progress, mapRun, hr]
  obtain ⟨p, hp', hcore⟩ := kr.run hq
  refine ⟨by rw [kt.mem_eq rfl, kd.mem_eq rfl, ku.mem_eq rfl], by rw [kt.tiles_eq rfl, kd.tiles_eq rfl, ku.tiles_eq rfl],
    by rw [kt.tier_eq rfl, kd.tier_eq rfl, ku.tier_eq rfl], ?_, ?_⟩
  · have hvo : p.voids = q.voids := by
      have := congrArg Run.voids hcore
      exact this
    rw [hp', Option.map_some, hvo, hqv]
  · rw [depGet_congr (kt.ctr_eq rfl) (kt.job_eq rfl), depGet_depAdd, depGet_congr (ku.ctr_eq rfl) (ku.job_eq rfl)]
    rfl

end

/-! ## What a failing read leaves -/

/-- The errors note a fault in an enabled cell, to be tested at the latch (R466). -/
def faultNoted (c? : Option Nat) (s : State) : State :=
  match c? with
  | some c =>
    if cellEnabled s c then
      { s with errs := { s.errs with faultCell := some c, cellFaults := (physOf s c, s.time.uptime) :: s.errs.cellFaults } }
    else s
  | none => s

theorem faultNoted_keeps (c? : Option Nat) (s : State) : Keeps [.errs] s (faultNoted c? s) := by
  unfold faultNoted
  split
  · split
    · simp [within]
    · exact .refl _ s
  · exact .refl _ s

theorem faultNoted_errs (c? : Option Nat) {s t : State} (h : t.errs = s.errs) (g : t.time = s.time) :
    (faultNoted c? t).errs = (faultNoted c? s).errs := by
  cases c? with
  | none => exact h
  | some c =>
    have he : cellEnabled t c = cellEnabled s c := by simp only [cellEnabled, h]
    unfold faultNoted
    dsimp only
    rw [he]
    split
    · simp only [physOf, h, g]
    · exact h

theorem faultIn_eq (c? : Option Nat) (cause : Nat) {s : State} (h : stepActive s = true) :
    faultIn c? cause s = stepFault cause (faultNoted c? s) := by
  cases c? with
  | none => rfl
  | some c =>
    unfold faultIn faultNoted
    dsimp only
    split
    · rw [cellFault, if_pos h]
    · rfl

/-- Elements written one by one leave the errors where each write does. -/
theorem eachElement_errs {f : Nat → Nat → Acc → Acc} (h : ∀ r e a, (f r e a).1.errs = a.1.errs) (rows n : Nat) (a : Acc) :
    (eachElement rows n f a).1.errs = a.1.errs := by
  have fold (l : List Nat) (r : Nat) (a : Acc) : (l.foldl (fun a e => f r e a) a).1.errs = a.1.errs := by
    induction l generalizing a with
    | nil => rfl
    | cons e l ih => exact (ih _).trans (h r e a)
  unfold eachElement
  generalize List.range rows = l
  induction l generalizing a with
  | nil => rfl
  | cons r l ih => exact (ih _).trans (fold _ r a)

theorem healWhere_sramCe (c : Nat → Bool) (s : State) : (healWhere c s).errs.sramCe = s.errs.sramCe := by
  unfold healWhere
  split <;> rfl

theorem vxDone_sramCe (x : VxRun) (w : List (Nat × Nat)) (a : Acc) : (vxDone x w a).2.errs.sramCe = a.1.errs.sramCe := by
  have h1 : (vxDone x w a).2.errs = (healWhere (vxCovers x w) (addStepCodes a.2 a.1)).errs :=
    errs_of_allBut (by simp [vxDone])
  have h2 : (addStepCodes a.2 a.1).errs = a.1.errs := errs_of_allBut (by simp)
  rw [h1, healWhere_sramCe, h2]

theorem elementwise_sramCe (usesB ok : Bool) (f : Bool → VxRun → Nat → Nat → FVal) (x : VxRun) :
    (elementwise usesB ok f x).2.errs.sramCe = x.s.errs.sramCe := by
  unfold elementwise
  rw [vxDone_sramCe, eachElement_errs]
  intro r e a
  split
  · rfl
  · split <;> rfl

end Sys2Proof.Machine

namespace Sys2Proof.Claims

open Sys2Proof.Machine

section
variable {s : State} {cell cls : Nat} {meant : Desc → Bool} {d : Desc}

/-- A task that its reads stop leaves the run stopped, and of the device what the reads left. -/
theorem issueTask_stopped {work : Nat → Desc → State → TaskEnd × State} {g : Bool × State} {cause : Nat} (hg : g.1 = false)
    (hf : runFault g.2 = some (some ⟨cause, true, selfId s⟩)) :
    Stopped cause s (settleDrain (settleCell cell (afterReads cell d work g))) ∧
      Keeps [.cells, .ctl, .time] g.2 (settleDrain (settleCell cell (afterReads cell d work g))) := by
  rw [afterReads_stopped work hg]
  refine ⟨?_, (settleDrain_keeps _ rfl).2 ((settleCell_keeps _ _ rfl).2 ((addFlight_keepsCells _ _ _ _).mono rfl))⟩
  show runFault _ = _
  rw [runFault_settleDrain, runFault_settleCell]
  exact hf

/-- What a failing read comes to: the run stopped, memory as it was, and the errors as `f` leaves them. -/
theorem issueTask_fails {h : Health} {cause : Nat} {f : State → State} (hi : issuable? s cell cls meant = some d)
    (hv : isVoid s cell d = false) (hc : s.dbg.capture = none)
    (reads : Nat → Desc → State → Nat → Nat → Bool) (work : Nat → Desc → State → TaskEnd × State)
    (hk : ∀ u, Keeps [.errs] u (f u)) (he : ∀ u v : State, u.errs = v.errs → u.time = v.time → (f u).errs = (f v).errs)
    (hr : stepActive (issuedWindow cell d s) = true →
      taskReads cls cell h (reads cell d (issuedWindow cell d s)) (issuedWindow cell d s) =
        (false, stepFault cause (f (issuedWindow cell d s)))) :
    ∃ t, Host.Outcome.next (issueTask cls meant reads work cell h s) = (.next t : Host.Outcome State Fault Refusal) ∧
      Stopped cause s t ∧ t.mem = s.mem ∧ t.errs = (f s).errs := by
  have ku := issuedWindow_keeps cell d s
  have hau : stepActive (issuedWindow cell d s) = true :=
    stepActive_iff.2 ((runFault_issuedWindow cell d s).trans (stepActive_iff.1 (issuable_active hi).1))
  refine ⟨_, rfl, ?_⟩
  rw [issueTask_eq hi hv hc, hr hau]
  generalize hw : issuedWindow cell d s = u at *
  have kf := hk u
  have hff : runFault (f u) = some none := (runFault_congr (kf.ctl_eq rfl)).trans (stepActive_iff.1 hau)
  have hstop : runFault (stepFault cause (f u)) = some (some ⟨cause, true, selfId s⟩) := by
    rw [runFault_stepFault (stepActive_iff.2 hff), selfId_congr ((kf.fab_eq rfl).trans (ku.fab_eq rfl))]
  obtain ⟨h1, k1⟩ := issueTask_stopped (s := s) (cell := cell) (d := d) (work := work) (g := (false, stepFault cause (f u))) rfl hstop
  have ks : Keeps [.ctl, .rem, .launch] (f u) (stepFault cause (f u)) := (stepFault_keeps _ _ rfl).2 (.refl _ _)
  refine ⟨h1, ?_, ?_⟩
  · rw [k1.mem_eq rfl, ks.mem_eq rfl, kf.mem_eq rfl, ku.mem_eq rfl]
  · rw [k1.errs_eq rfl, ks.errs_eq rfl]
    exact he u s (ku.errs_eq rfl) (ku.time_eq rfl)

/-- A word found uncorrectable in HBM. -/
theorem issueTask_hbmUncorrectable (hi : issuable? s cell cls meant = some d) (hv : isVoid s cell d = false)
    (hc : s.dbg.capture = none) (reads : Nat → Desc → State → Nat → Nat → Bool)
    (work : Nat → Desc → State → TaskEnd × State) (a : Nat) :
    ∃ t, Host.Outcome.next (issueTask cls meant reads work cell (.hbmUncorrectable a) s) =
        (.next t : Host.Outcome State Fault Refusal) ∧
      Stopped 0x14 s t ∧ t.mem = s.mem ∧ t.errs = (hbmUncorrectable a s).errs := by
  refine issueTask_fails hi hv hc reads work (fun u => (hbmUncorrectable_keeps a u rfl).2 (.refl _ u))
    (fun u v h _ => ?_) (fun _ => rfl)
  simp only [hbmUncorrectable, addCount, h]

theorem addCount_active {n m : Nat} {u : State} (h : stepActive u = true) : stepActive (addCount n m u) = true := h

theorem counted_keeps (c? : Option Nat) (n : Nat) (u : State) : Keeps [.errs] u (faultNoted c? (addCount n 1 u)) :=
  .trans ((addCount_keeps n 1 u rfl).2 (.refl _ u)) (faultNoted_keeps _ _)

theorem counted_errs (c? : Option Nat) (n : Nat) {u v : State} (h : u.errs = v.errs) (g : u.time = v.time) :
    (faultNoted c? (addCount n 1 u)).errs = (faultNoted c? (addCount n 1 v)).errs :=
  faultNoted_errs c? (by simp only [addCount, h]) (by simpa only [addCount] using g)

/-- A word found uncorrectable in SRAM. -/
theorem issueTask_sramUncorrectable (hi : issuable? s cell cls meant = some d) (hv : isVoid s cell d = false)
    (hc : s.dbg.capture = none) (reads : Nat → Desc → State → Nat → Nat → Bool)
    (work : Nat → Desc → State → TaskEnd × State) (c? : Option Nat) :
    ∃ t, Host.Outcome.next (issueTask cls meant reads work cell (.sramUncorrectable c?) s) =
        (.next t : Host.Outcome State Fault Refusal) ∧
      Stopped 0x15 s t ∧ t.mem = s.mem ∧ t.errs = (faultNoted c? (addCount tcSramUe 1 s)).errs := by
  refine issueTask_fails hi hv hc reads work (counted_keeps c? tcSramUe) (fun u v => counted_errs c? tcSramUe) (fun ha => ?_)
  rw [taskReads_failing rfl]
  exact congrArg (Prod.mk false) (faultIn_eq c? 0x15 (addCount_active ha))

/-- A check that fails in a cell's own unit. -/
theorem issueTask_unitCheck (hcls : cls ≤ 3) (hi : issuable? s cell cls meant = some d) (hv : isVoid s cell d = false)
    (hc : s.dbg.capture = none) (reads : Nat → Desc → State → Nat → Nat → Bool)
    (work : Nat → Desc → State → TaskEnd × State) :
    ∃ t, Host.Outcome.next (issueTask cls meant reads work cell .unitCheck s) = (.next t : Host.Outcome State Fault Refusal) ∧
      Stopped 0x16 s t ∧ t.mem = s.mem ∧ t.errs = (faultNoted (some cell) (addCount tcUnitChecks 1 s)).errs := by
  refine issueTask_fails hi hv hc reads work (counted_keeps (some cell) tcUnitChecks)
    (fun u v => counted_errs (some cell) tcUnitChecks) (fun ha => ?_)
  rw [taskReads_failing rfl]
  refine congrArg (Prod.mk false) ?_
  rw [unitFault, if_pos hcls]
  exact faultIn_eq (some cell) 0x16 (addCount_active ha)

/-- In an enabled cell the count rises and the cell is noted. -/
theorem counted_in_cell {n : Nat} (h : cellEnabled s cell = true) :
    tblGet (faultNoted (some cell) (addCount n 1 s)).errs.counts n = tblGet s.errs.counts n + 1 ∧
      (faultNoted (some cell) (addCount n 1 s)).errs.faultCell = some cell := by
  have h' : cellEnabled (addCount n 1 s) cell = true := h
  simp only [faultNoted, h', if_true]
  exact ⟨tblGet_tblAdd_self _ _ Nat.one_pos, trivial⟩

theorem hbmUncorrectable_noted (a : Nat) (s : State) :
    tblGet (hbmUncorrectable a s).errs.counts tcHbmUe = tblGet s.errs.counts tcHbmUe + 1 ∧
      a / 64 * 64 ∈ (hbmUncorrectable a s).errs.badBursts := by
  refine ⟨tblGet_tblAdd_self _ _ Nat.one_pos, ?_⟩
  simp only [hbmUncorrectable, addCount]
  split
  · next h => exact List.contains_iff_mem.1 h
  · exact List.mem_cons_self

/-- A corrected word is counted, and the vector task runs to its end. -/
theorem issueAdd_corrected (h : Issues 2 (fun x => bodyOp x == 0x01) cell d s) :
    Taken cell d true (issueVx 0x01 vxAdd cell .sramCorrected s) ∧
      (tblGet s.errs.sramCe (clusterOf cell) < 0xFFFFFFFF →
        tblGet (issueVx 0x01 vxAdd cell .sramCorrected s).errs.sramCe (clusterOf cell) =
          tblGet s.errs.sramCe (clusterOf cell) + 1) := by
  obtain ⟨hi, hv, hc, hw⟩ := h
  have ku := issuedWindow_keeps cell d s
  unfold issueVx
  rw [issueTask_eq hi hv hc]
  generalize hu : sramCorrected (clusterOf cell) (issuedWindow cell d s) = u
  have hg : wordsGood u = true := by
    rw [← hu]
    exact (wordsGood_congr (ku.errs_eq rfl)).trans hw
  have hread : taskReads 2 cell .sramCorrected (vxTakes (vxRunOf cell d (issuedWindow cell d s)) (auxDesc (issuedWindow cell d s)))
      (issuedWindow cell d s) = (true, u) := by
    simp only [taskReads, readHealth, if_true, hu, metHealth_good _ hg]
  rw [hread, afterReads, if_pos rfl]
  have hce : u.errs.sramCe = tblPut s.errs.sramCe (clusterOf cell) (min (tblGet s.errs.sramCe (clusterOf cell) + 1) ctrMax) := by
    rw [← hu, ← ku.errs_eq rfl]
    rfl
  have hcells : (addFlight cell d .waits u).cells = (inUnit cell d s).cells := by
    rw [← hu]
    rfl
  have hrun : runFault (addFlight cell d .waits u) = some none := by
    rw [← hu]
    exact (runFault_inUnit cell d s).trans (stepActive_iff.1 (issuable_active hi).1)
  have hfin := elementwise_finishes true true (fun i x r e => fAdd (opA i x r e) (pathB x i r e))
    (vxRunOf cell d (addFlight cell d .waits u))
  have hsram := elementwise_sramCe true true (fun i x r e => fAdd (opA i x r e) (pathB x i r e))
    (vxRunOf cell d (addFlight cell d .waits u))
  obtain ⟨hk, h1, h2, -⟩ := hfin
  generalize he : elementwise true true (fun i x r e => fAdd (opA i x r e) (pathB x i r e))
    (vxRunOf cell d (addFlight cell d .waits u)) = e at hk h1 h2 hsram
  have hwork : vxAdd (vxRunOf cell d (addFlight cell d .waits u)) = e := he
  rw [hwork]
  refine ⟨?_, fun hlt => ?_⟩
  · have := taken_of_work (s := s) (cell := cell) (d := d) (e := e) (stepActive_iff.2 (h2.trans hrun)) ((hk.cells_eq rfl).trans hcells)
    rwa [h1] at this
  · rw [(workEnds_keeps e).errs_eq rfl, hsram]
    show tblGet u.errs.sramCe _ = _
    rw [hce, tblGet_tblPut_self]
    · simp only [ctrMax]
      omega
    · simp only [ctrMax]
      omega

/-! ## Words known to be uncorrectable -/

/-- What the vector engine takes does not depend on the cells and step control. -/
theorem vxTakes_issuedWindow (cell : Nat) (d : Desc) (s : State) :
    vxTakes (vxRunOf cell d (issuedWindow cell d s)) (auxDesc (issuedWindow cell d s)) = vxTakes (vxView s cell d) (auxDesc s) := by
  conv_lhs => rw [eq_of_keeps_cells_ctl (issuedWindow_keeps cell d s)]
  rfl

theorem badMet_congr {t : State} (h : t.errs = s.errs) (hits : Nat → Nat → Bool) : badMet? hits t = badMet? hits s := by
  unfold badMet? wordsGood
  rw [h]

/-- A task that takes a word known to be uncorrectable is read as if that word had failed now. -/
theorem issueTask_badMet {w : BadWord} (hi : issuable? s cell cls meant = some d) (hv : isVoid s cell d = false)
    (hc : s.dbg.capture = none) (reads : Nat → Desc → State → Nat → Nat → Bool) (work : Nat → Desc → State → TaskEnd × State)
    (hb : badMet? (reads cell d (issuedWindow cell d s)) s = some w) :
    issueTask cls meant reads work cell .clean s = issueTask cls meant reads work cell
      (match w with | .burst a => .hbmUncorrectable a | .sram a => .sramUncorrectable (memoryCell? a)) s := by
  rw [issueTask_eq hi hv hc, issueTask_eq hi hv hc]
  have hb' := (badMet_congr ((issuedWindow_keeps cell d s).errs_eq rfl) (reads cell d (issuedWindow cell d s))).trans hb
  congr 3
  cases w with
  | burst a => simp only [taskReads, readHealth, if_true, metHealth, hb', Bool.false_eq_true, if_false]
  | sram a => simp only [taskReads, readHealth, if_true, metHealth, hb', Bool.false_eq_true, if_false]

end

/-- Settles O31. -/
theorem voidTasksAndReadErrors : Obligations.VoidTasksAndReadErrors := by
  unfold Obligations.VoidTasksAndReadErrors
  refine ⟨?_, ?_, ?_⟩
  · intro s cell d r hv hc hr hp ha i h
    rcases h with ⟨hi, rfl⟩ | ⟨hi, rfl⟩ | ⟨hi, rfl⟩ | ⟨hi, rfl⟩ | ⟨hi, rfl⟩ <;>
      exact ⟨_, rfl, issueTask_void_effect hi hv hc hr hp ha _ _ _⟩
  · intro s cell d a h
    have ⟨hi, hv, hc, _⟩ := h
    have hen := (issuable_active hi).2
    refine ⟨?_, ?_, ?_, ?_, ⟨_, rfl, issueAdd_corrected h⟩⟩
    · obtain ⟨t, ht, hs, hm, he⟩ := issueTask_hbmUncorrectable hi hv hc (fun c d t => vxTakes (vxRunOf c d t) (auxDesc t))
        (fun c d t => vxAdd (vxRunOf c d t)) a
      obtain ⟨h1, h2⟩ := hbmUncorrectable_noted a s
      exact ⟨t, ht, hs, hm, by rw [he, h1], he ▸ h2⟩
    · obtain ⟨t, ht, hs, hm, he⟩ := issueTask_sramUncorrectable hi hv hc (fun c d t => vxTakes (vxRunOf c d t) (auxDesc t))
        (fun c d t => vxAdd (vxRunOf c d t)) none
      exact ⟨t, ht, hs, hm, by rw [he]; rfl⟩
    · obtain ⟨t, ht, hs, hm, he⟩ := issueTask_sramUncorrectable hi hv hc (fun c d t => vxTakes (vxRunOf c d t) (auxDesc t))
        (fun c d t => vxAdd (vxRunOf c d t)) (some cell)
      obtain ⟨h1, h2⟩ := counted_in_cell (n := tcSramUe) hen
      exact ⟨t, ht, hs, hm, by rw [he, h1], by rw [he, h2]⟩
    · obtain ⟨t, ht, hs, hm, he⟩ := issueTask_unitCheck (by decide) hi hv hc
        (fun c d t => vxTakes (vxRunOf c d t) (auxDesc t)) (fun c d t => vxAdd (vxRunOf c d t))
      obtain ⟨h1, h2⟩ := counted_in_cell (n := tcUnitChecks) hen
      exact ⟨t, ht, hs, hm, by rw [he, h1], by rw [he, h2]⟩
  · intro s cell d w hi hv hc hb
    have hb' : badMet? (vxTakes (vxRunOf cell d (issuedWindow cell d s)) (auxDesc (issuedWindow cell d s))) s = some w := by
      rw [vxTakes_issuedWindow]
      exact hb
    have key := issueTask_badMet hi hv hc (fun c d t => vxTakes (vxRunOf c d t) (auxDesc t))
      (fun c d t => vxAdd (vxRunOf c d t)) hb'
    refine ⟨_, rfl, ?_⟩
    show Stopped _ s (issueTask _ _ _ _ _ _ s) ∧ (issueTask _ _ _ _ _ _ s).mem = s.mem
    rw [key]
    cases w with
    | burst a =>
      obtain ⟨t, ht, hs, hm, -⟩ := issueTask_hbmUncorrectable hi hv hc (fun c d t => vxTakes (vxRunOf c d t) (auxDesc t))
        (fun c d t => vxAdd (vxRunOf c d t)) a
      cases ht
      exact ⟨hs, hm⟩
    | sram a =>
      obtain ⟨t, ht, hs, hm, -⟩ := issueTask_sramUncorrectable hi hv hc (fun c d t => vxTakes (vxRunOf c d t) (auxDesc t))
        (fun c d t => vxAdd (vxRunOf c d t)) (memoryCell? a)
      cases ht
      exact ⟨hs, hm⟩

end Sys2Proof.Claims
end

section
/-! SUPPORT. Bit-packed memory (R73): memory as a sequence of bits, what a code reads of it and what storing one changes. -/

namespace Sys2Proof.Machine

/-! ## Bits of a byte string -/

theorem testBit_leNat (l : List Byte) (i : Nat) : (leNat l).testBit i = (l.getD (i / 8) 0).toNat.testBit (i % 8) := by
  induction l generalizing i with
  | nil => simp [leNat]
  | cons b r ih =>
    have h : leNat (b :: r) = 2 ^ 8 * leNat r + b.toNat := by
      simp only [leNat]
      omega
    rw [h, Nat.testBit_two_pow_mul_add _ b.isLt]
    split
    · next hi => rw [Nat.div_eq_of_lt hi, Nat.mod_eq_of_lt hi, List.getD_cons_zero]
    · next hi =>
      have h1 : i / 8 = (i - 8) / 8 + 1 := by omega
      have h2 : i % 8 = (i - 8) % 8 := by omega
      rw [ih, h1, h2, List.getD_cons_succ]

theorem testBit_natLe (n v k j : Nat) (hk : k < n) (hj : j < 8) :
    ((natLe n v).getD k 0).toNat.testBit j = v.testBit (8 * k + j) := by
  induction n generalizing v k with
  | zero => omega
  | succ n ih =>
    cases k with
    | zero =>
      rw [natLe, List.getD_cons_zero, BitVec.toNat_ofNat, Nat.testBit_mod_two_pow]
      simp [hj]
    | succ k =>
      rw [natLe, List.getD_cons_succ, ih _ _ (by omega), show (256 : Nat) = 2 ^ 8 from rfl, Nat.testBit_div_two_pow]
      congr 1
      omega

/-! ## Bits of memory -/

/-- Bit p of memory above a base address. -/
def memBit (m : Mem) (base p : Nat) : Bool := (memGet m (base + p / 8)).toNat.testBit (p % 8)

theorem testBit_memLe (m : Mem) (base pos n j : Nat) (h : pos % 8 + j < 8 * n) :
    (leNat (memRead m (base + pos / 8) n)).testBit (pos % 8 + j) = memBit m base (pos + j) := by
  have hlt : (pos % 8 + j) / 8 < n := by omega
  have h1 : base + pos / 8 + (pos % 8 + j) / 8 = base + (pos + j) / 8 := by omega
  have h2 : (pos % 8 + j) % 8 = (pos + j) % 8 := by omega
  rw [testBit_leNat, List.getD_eq_getElem _ _ (by simpa using hlt), h2]
  simp only [memRead, List.getElem_map, List.getElem_range, h1, memBit]

/-- A code's bits are those of memory at its position. -/
theorem testBit_bitsAt (m : Mem) (base pos width i : Nat) :
    (bitsAt m base pos width).testBit i = (decide (i < width) && memBit m base (pos + i)) := by
  rw [bitsAt, Nat.testBit_mod_two_pow, Nat.testBit_div_two_pow]
  by_cases h : i < width
  · rw [Nat.add_comm i, testBit_memLe _ _ _ _ _ (by omega)]
  · simp [h]

/-- A field of a number replaced by another of its width. -/
theorem testBit_setField (x k w v j : Nat) :
    (x - x / 2 ^ k % 2 ^ w * 2 ^ k + v % 2 ^ w * 2 ^ k).testBit j =
      if k ≤ j ∧ j < k + w then v.testBit (j - k) else x.testBit j := by
  have split3 : x = 2 ^ k * (2 ^ w * (x / 2 ^ k / 2 ^ w) + x / 2 ^ k % 2 ^ w) + x % 2 ^ k := by
    rw [Nat.div_add_mod, Nat.div_add_mod]
  have hnew : x - x / 2 ^ k % 2 ^ w * 2 ^ k + v % 2 ^ w * 2 ^ k =
      2 ^ k * (2 ^ w * (x / 2 ^ k / 2 ^ w) + v % 2 ^ w) + x % 2 ^ k := by
    rw [Nat.mul_comm (x / 2 ^ k % 2 ^ w), Nat.mul_comm (v % 2 ^ w), Nat.mul_add]
    rw [Nat.mul_add] at split3
    generalize 2 ^ k * (x / 2 ^ k % 2 ^ w) = f at *
    generalize 2 ^ k * (2 ^ w * (x / 2 ^ k / 2 ^ w)) = h at *
    generalize 2 ^ k * (v % 2 ^ w) = n at *
    generalize x % 2 ^ k = l at *
    omega
  have hk : x % 2 ^ k < 2 ^ k := Nat.mod_lt _ (Nat.two_pow_pos k)
  have hw : ∀ y : Nat, y % 2 ^ w < 2 ^ w := fun y => Nat.mod_lt _ (Nat.two_pow_pos w)
  have hx : x.testBit j = (2 ^ k * (2 ^ w * (x / 2 ^ k / 2 ^ w) + x / 2 ^ k % 2 ^ w) + x % 2 ^ k).testBit j := by rw [← split3]
  rw [hnew, hx]
  simp only [Nat.testBit_two_pow_mul_add _ hk, Nat.testBit_two_pow_mul_add _ (hw _)]
  by_cases h1 : j < k
  · simp [h1]
  · by_cases h2 : j - k < w
    · rw [if_neg h1, if_pos h2, if_pos (by omega), Nat.testBit_mod_two_pow]
      simp [h2]
    · rw [if_neg h1, if_neg h2, if_neg (by omega), if_neg h1, if_neg h2]

/-- Storing a code changes the bits at its position, and no others. -/
theorem memBit_putBitsAt {m : Mem} (w : memWf m = true) (base pos width v p : Nat) :
    memBit (putBitsAt m base pos width v) base p =
      if pos ≤ p ∧ p < pos + width then v.testBit (p - pos) else memBit m base p := by
  unfold putBitsAt memBit memPutLe memLe
  dsimp only
  rw [memGet_memWrite w, length_natLe]
  by_cases hin : base + pos / 8 ≤ base + p / 8 ∧ base + p / 8 < base + pos / 8 + (pos % 8 + width + 7) / 8
  · have hp : 8 * (base + p / 8 - (base + pos / 8)) + p % 8 = p - 8 * (pos / 8) := by omega
    rw [if_pos hin, testBit_natLe _ _ _ _ (by omega) (Nat.mod_lt _ (by decide)), hp, testBit_setField]
    by_cases hc : pos ≤ p ∧ p < pos + width
    · rw [if_pos hc, if_pos (by omega)]
      congr 1
      omega
    · rw [if_neg hc, if_neg (by omega), testBit_leNat, List.getD_eq_getElem _ _ (by simp; omega)]
      have h1 : base + pos / 8 + (p - 8 * (pos / 8)) / 8 = base + p / 8 := by omega
      have h2 : (p - 8 * (pos / 8)) % 8 = p % 8 := by omega
      simp only [memRead, List.getElem_map, List.getElem_range, h1, h2]
  · rw [if_neg hin, if_neg (by omega)]

end Sys2Proof.Machine

namespace Sys2Proof.Claims

open Sys2Proof.Machine

/-- Settles O34. -/
theorem bitPackedMemoryReadsBack : Obligations.BitPackedMemoryReadsBack := by
  unfold Obligations.BitPackedMemoryReadsBack
  intro m base pos width v w
  refine ⟨memWf_putBitsAt w, ?_, fun q n h => ?_⟩
  · apply Nat.eq_of_testBit_eq
    intro i
    rw [testBit_bitsAt, Nat.testBit_mod_two_pow, memBit_putBitsAt w]
    by_cases hi : i < width
    · rw [if_pos (by omega), Nat.add_sub_cancel_left]
    · simp [hi]
  · apply Nat.eq_of_testBit_eq
    intro i
    rw [testBit_bitsAt, testBit_bitsAt, memBit_putBitsAt w]
    by_cases hi : i < n
    · rw [if_neg (by omega)]
    · simp [hi]

end Sys2Proof.Claims
end

section
/-! SUPPORT. The counterexample to the CP statement: a run whose counts list one code twice. -/

namespace Sys2Proof.Machine

/-- A LINEAR copy without ZSEL of one row of one byte in HBM. -/
def byteCopy : Desc where
  step := 3
  index := 0
  taskId := 3
  waitA := 0
  waitB := 0
  signal := 0
  body := natLe 8 4096 ++ natLe 8 8192 ++ natLe 4 0 ++ natLe 4 0 ++ natLe 4 0 ++ natLe 4 0x000F9000 ++ List.replicate 16 0
  issued := false

/-- A run whose counts list ZSEL_ROWS twice, the first time with 0: nothing in the premises keeps the table canonical. -/
def doubledRun : Run where
  g := ⟨3, 0, false, ⟨3, none, 0, [], [], none⟩, false, 0, 0⟩
  imageId := 5
  draining := false
  tArmed := 0
  tRunning := 0
  tDraining := 0
  fault := none
  voids := 0
  stallTicks := []
  stallEvents := []
  counts := [(ccZselRows, 0), (ccZselRows, 5)]
  offered := []
  accepted := []
  overflow := []
  saved := Lasting.init
  idle := 0

/-- That run, with the copy at the head of the copy queue of cell 0. -/
def doubledCounts : State :=
  { State.reset with
    ctl := { State.reset.ctl with run := some doubledRun }
    errs := { State.reset.errs with mapUp := true, unit := [(0, 0)] }
    cells := [(0, { Cell.init with window := [byteCopy], fetched := 1 })] }

/-- ZSEL_ROWS of the run in the state that a command leaves. -/
def zselRows (o : Host.Outcome State Fault Refusal) : Option Nat :=
  match o with
  | .next t => t.ctl.run.map fun r => tblGet r.counts ccZselRows
  | _ => none

theorem doubledCounts_access :
    cpAccessOk doubledCounts (cpOf byteCopy) (selectedRows doubledCounts 0 (cpOf byteCopy)) = true := by decide +kernel

/-- The copy leaves out no row, and the count rises from 0 to 5. -/
theorem doubledCounts_zselRows : tblGet doubledRun.counts ccZselRows = 0 ∧
    (cpOf byteCopy).rows - (selectedRows doubledCounts 0 (cpOf byteCopy)).length = 0 ∧
    zselRows (exec (.cp 0 .clean) doubledCounts) = some 5 := by decide +kernel

end Sys2Proof.Machine

namespace Sys2Proof.Claims

open Sys2Proof.Machine

theorem doubledCounts_issues : Issues 3 (fun _ => true) 0 byteCopy doubledCounts := by decide +kernel

/-- Refutes O33: CP adds 0 to ZSEL_ROWS of a run whose table lists it first with 0 and then with 5; storing the sum 0 removes the first
entry, and the count reads 5. -/
theorem not_copyTaskRuns : ¬ Obligations.CopyTaskRuns := by
  unfold Obligations.CopyTaskRuns
  intro h
  obtain ⟨-, hok, -⟩ := h doubledCounts 0 byteCopy doubledCounts_issues
  obtain ⟨t, ht, -, -, hz, -⟩ := hok doubledCounts_access
  obtain ⟨h0, hn, h5⟩ := doubledCounts_zselRows
  have hc : zselRows (exec (.cp 0 .clean) doubledCounts) = some 0 := by
    rw [ht]
    exact (hz doubledRun rfl).trans (by rw [h0, hn])
  exact absurd (h5.symm.trans hc) (by decide)

end Sys2Proof.Claims
end

section
/-! SUPPORT. The matrix unit (R95 to R112): the tiles that a task writes, and the rows that it drains. -/

namespace Sys2Proof.Machine

/-! ## Words written one after another -/

/-- 32-bit words stored at their addresses, in order. -/
def putWords (l : List (Nat × Nat)) (m : Mem) : Mem := l.foldl (fun m w => memPutLe m w.1 4 w.2) m

theorem memWf_putWords {m : Mem} (w : memWf m = true) (l : List (Nat × Nat)) : memWf (putWords l m) = true := by
  induction l generalizing m with
  | nil => exact w
  | cons e l ih => exact ih (memWf_memPutLe w)

/-- A byte outside every word keeps its value. -/
theorem memGet_putWords_of_outside {m : Mem} (w : memWf m = true) {l : List (Nat × Nat)} {a : Nat}
    (h : ∀ e ∈ l, a < e.1 ∨ e.1 + 4 ≤ a) : memGet (putWords l m) a = memGet m a := by
  induction l generalizing m with
  | nil => rfl
  | cons e l ih =>
    have he := h e List.mem_cons_self
    refine (ih (memWf_memPutLe w) fun x hx => h x (List.mem_cons_of_mem _ hx)).trans ?_
    rw [memPutLe, memGet_memWrite w, length_natLe, if_neg (by omega)]

theorem memLe_congr {m m' : Mem} {a n : Nat} (h : ∀ i < n, memGet m (a + i) = memGet m' (a + i)) : memLe m a n = memLe m' a n :=
  congrArg leNat (List.map_congr_left fun i hi => h i (List.mem_range.1 hi))

theorem memLe_memPutLe {m : Mem} (w : memWf m = true) (a n v : Nat) : memLe (memPutLe m a n v) a n = v % 256 ^ n := by
  have h := memRead_memWrite w a (natLe n v)
  rw [length_natLe] at h
  rw [memLe, memPutLe, h, leNat_natLe]

/-- Where no two words meet, each reads back. -/
theorem memLe_putWords {m : Mem} (w : memWf m = true) {l : List (Nat × Nat)}
    (h : l.Pairwise fun a b => a.1 + 4 ≤ b.1) {e : Nat × Nat} (he : e ∈ l) : memLe (putWords l m) e.1 4 = e.2 % 2 ^ 32 := by
  induction l generalizing m with
  | nil => cases he
  | cons x l ih =>
    rw [List.pairwise_cons] at h
    rcases List.mem_cons.1 he with rfl | hm
    · have hout : memLe (putWords l (memPutLe m e.1 4 e.2)) e.1 4 = memLe (memPutLe m e.1 4 e.2) e.1 4 :=
        memLe_congr fun i hi => memGet_putWords_of_outside (memWf_memPutLe w) fun y hy => by
          have := h.1 y hy
          omega
      exact hout.trans (memLe_memPutLe w _ _ _)
    · exact ih (memWf_memPutLe w) h.2 hm

/-! ## The tiles -/

/-- The element results of every block, each at its address. -/
def tileWrites (s : State) (cell : Nat) (x : Mx) (steps : List KStep) : List (Nat × Nat) :=
  (List.range x.blocks).flatMap fun b => (List.range 1024).map fun p =>
    (tileAddr cell (x.tile + b) p, (elementResult s cell x steps b p).1)

theorem mem_tileWrites {s : State} {cell : Nat} {x : Mx} {steps : List KStep} {e : Nat × Nat} :
    e ∈ tileWrites s cell x steps ↔
      ∃ b < x.blocks, ∃ p < 1024, (tileAddr cell (x.tile + b) p, (elementResult s cell x steps b p).1) = e := by
  simp only [tileWrites, List.mem_flatMap, List.mem_map, List.mem_range]

/-- A byte outside the blocks is outside each of their elements. -/
theorem tileAddr_outside {cell tile n b p a : Nat} (hb : b < n) (hp : p < 1024)
    (h : a < tileAddr cell tile 0 ∨ tileAddr cell (tile + n) 0 ≤ a) :
    a < tileAddr cell (tile + b) p ∨ tileAddr cell (tile + b) p + 4 ≤ a := by
  have e (t q : Nat) : tileAddr cell t q = 32768 * cell + 4096 * t + 4 * q := by
    unfold tileAddr
    ring
  rw [e, e] at h
  rw [e]
  omega

theorem tileWrites_pairwise (s : State) (cell : Nat) (x : Mx) (steps : List KStep) :
    (tileWrites s cell x steps).Pairwise fun a b => a.1 + 4 ≤ b.1 := by
  unfold tileWrites
  rw [List.pairwise_flatMap]
  refine ⟨fun b _ => ?_, ?_⟩
  · rw [List.pairwise_map]
    exact List.pairwise_lt_range.imp fun h => by
      simp only [tileAddr]
      omega
  · refine List.pairwise_lt_range.imp fun {b c} hbc => ?_
    simp only [List.mem_map, List.mem_range]
    rintro _ ⟨p, hp, rfl⟩ _ ⟨q, hq, rfl⟩
    simp only [tileAddr]
    omega

/-- A run over elements that stores each result keeps the rest of the state. -/
theorem foldl_tiles {α : Type} (g : α → Nat × Nat × Nat) (l : List α) (s : State) (n : Nat) :
    (l.foldl (fun a e => ({ a.1 with tiles := memPutLe a.1.tiles (g e).1 4 (g e).2.1 }, a.2 + (g e).2.2)) (s, n)).1 =
      { s with tiles := putWords (l.map fun e => ((g e).1, (g e).2.1)) s.tiles } := by
  induction l generalizing s n with
  | nil => rfl
  | cons e l ih => rw [List.foldl_cons, ih, List.map_cons, putWords, putWords, List.foldl_cons]

theorem mxProduct_state (cell : Nat) (x : Mx) (steps : List KStep) (s : State) :
    (mxProduct cell x steps s).1 = { s with tiles := putWords (tileWrites s cell x steps) s.tiles } := by
  have h := foldl_tiles (fun e : Nat × Nat => (tileAddr cell (x.tile + e.1) e.2,
    (elementResult s cell x steps e.1 e.2).1, (elementResult s cell x steps e.1 e.2).2))
    ((List.range x.blocks).flatMap fun b => (List.range 1024).map fun p => (b, p)) s 0
  rw [List.foldl_flatMap, List.map_flatMap] at h
  simp only [List.foldl_map, List.map_map] at h
  exact h

section
variable {s t : State} (cell : Nat) (x : Mx)

theorem mapKeeps_congr (h : t.mem = s.mem) : mapKeeps t cell x = mapKeeps s cell x := by
  funext k
  simp only [mapKeeps, h]

theorem kSteps_congr (h : t.mem = s.mem) : kSteps t cell x = kSteps s cell x := by
  simp only [kSteps, keptIndices, mapKeeps_congr cell x h]

theorem elementResult_congr (h : t.mem = s.mem) (g : t.tiles = s.tiles) (steps : List KStep) (b p : Nat) :
    elementResult t cell x steps b p = elementResult s cell x steps b p := by
  have hstep : elementStep t cell x = elementStep s cell x := by
    funext extent i n a k
    simp only [elementStep, stepIndex?, nibbleAt, mapKeeps_congr cell x h, mxAValue, mxBValue, h]
  simp only [elementResult, hstep, g]

theorem tileWrites_congr (h : t.mem = s.mem) (g : t.tiles = s.tiles) (steps : List KStep) :
    tileWrites t cell x steps = tileWrites s cell x steps := by
  simp only [tileWrites, elementResult_congr cell x h g]

theorem drainRow_congr (h : t.tiles = s.tiles) (step : Nat) (out : EFmt) (row pos : Nat) :
    drainRow t cell x step out row pos = drainRow s cell x step out row pos := by
  simp only [drainRow, tileValue, h]

end

/-! ## The drain -/

/-- The bytes of the drained rows over memory. -/
def drainedMem (cell : Nat) (x : Mx) (step : Nat) (s : State) (m : Mem) : Mem :=
  (drainRows x).foldl (fun m r => memWrite m (x.drainAddr + r.1 * x.drainStride)
    (packBits (eBits ((mxFmt? x.outCode).getD (.flt .fp32)))
      ((drainRow s cell x step ((mxFmt? x.outCode).getD (.flt .fp32)) r.1 r.2).map (·.1)))) m

theorem drainedMem_congr {s t : State} (h : t.tiles = s.tiles) (cell : Nat) (x : Mx) (step : Nat) (m : Mem) :
    drainedMem cell x step t m = drainedMem cell x step s m := by
  simp only [drainedMem, drainRow_congr cell x h]

/-- Byte strings written one after another, each with its counts. -/
def putCounted (l : List (Nat × List Byte × List Nat)) (s : State) : State :=
  l.foldl (fun t e => addStepCodes e.2.2 (putBytes e.1 e.2.1 t)) s

theorem putCounted_keeps (l : List (Nat × List Byte × List Nat)) (s : State) :
    Keeps [.mem, .errs, .ctl] s (putCounted l s) ∧ runFault (putCounted l s) = runFault s ∧
      (putCounted l s).mem = l.foldl (fun m e => memWrite m e.1 e.2.1) s.mem := by
  induction l generalizing s with
  | nil => exact ⟨.refl _ s, rfl, rfl⟩
  | cons e l ih =>
    have kp : Keeps [.mem, .errs] s (putBytes e.1 e.2.1 s) := (putBytes_keeps _ _ _ rfl).2 (.refl _ s)
    have kc : Keeps [.ctl] (putBytes e.1 e.2.1 s) (addStepCodes e.2.2 (putBytes e.1 e.2.1 s)) :=
      (addStepCodes_keeps _ _ rfl).2 (.refl _ _)
    obtain ⟨hk, hf, hm⟩ := ih (addStepCodes e.2.2 (putBytes e.1 e.2.1 s))
    refine ⟨.trans (kp.mono rfl) (.trans (kc.mono rfl) hk), hf.trans ?_, hm.trans ?_⟩
    · rw [runFault_addStepCodes, runFault_congr (kp.ctl_eq rfl)]
    · rw [kc.mem_eq rfl]
      rfl

/-- The drained rows, each with its address, its bytes and its counts. -/
def drainWrites (cell : Nat) (x : Mx) (step : Nat) (s : State) : List (Nat × List Byte × List Nat) :=
  (drainRows x).map fun r =>
    let row := drainRow s cell x step ((mxFmt? x.outCode).getD (.flt .fp32)) r.1 r.2
    (x.drainAddr + r.1 * x.drainStride, packBits (eBits ((mxFmt? x.outCode).getD (.flt .fp32))) (row.map (·.1)),
      row.flatMap (·.2))

theorem foldl_drainWrites (cell : Nat) (x : Mx) (step : Nat) (s : State) (m : Mem) :
    (drainWrites cell x step s).foldl (fun m e => memWrite m e.1 e.2.1) m = drainedMem cell x step s m := List.foldl_map

theorem mxDrain_eq {s : State} {r : Run} (hr : s.ctl.run = some r) (cell : Nat) (x : Mx) :
    mxDrain cell x s = putCounted (drainWrites cell x r.g.step.toNat s) s := by
  simp only [mxDrain, hr, putCounted, drainWrites, List.foldl_map]

/-! ## The task -/

/-- The counts of an MX task, on the state that its k-steps have left. -/
def mxCounted (cell : Nat) (x : Mx) (s : State) : State :=
  let steps := kSteps s cell x
  let skipped := x.blocks * (mxStored x - steps.length)
  perfAdd (clusterOf cell) 0x02 (x.blocks * steps.length) (perfAdd (clusterOf cell) 0x03 skipped
    (addStepCount ccMaskRange (maskRange s cell x steps) (addStepCount ccZskipSteps skipped
      (addStepCount ccIntSaturate (mxProduct cell x steps s).2 (mxProduct cell x steps s).1))))

theorem mxWork_eq (cell : Nat) (d : Desc) (s : State) : mxWork cell d s =
    (.finished, if (mxOf d).drain then mxDrain cell (mxOf d) (mxCounted cell (mxOf d) s) else mxCounted cell (mxOf d) s) := rfl

/-- The grant that the run in progress came with. -/
def runGrant (s : State) : Option GStep := s.ctl.run.map (·.g)

theorem runGrant_mapRun {f : Run → Run} (h : ∀ r, (f r).g = r.g) (s : State) : runGrant (mapRun f s) = runGrant s := by
  unfold runGrant mapRun
  cases hr : s.ctl.run with
  | none => simp [hr]
  | some r => simp [h]

theorem runGrant_addStepCount (c n : Nat) (s : State) : runGrant (addStepCount c n s) = runGrant s := by
  refine runGrant_mapRun ?_ s
  intro r
  rfl

theorem runFault_addStepCount (c n : Nat) (s : State) : runFault (addStepCount c n s) = runFault s := by
  refine runFault_mapRun ?_ s
  intro r
  rfl

theorem runGrant_inUnit (cell : Nat) (d : Desc) (s : State) : runGrant (inUnit cell d s) = runGrant s := by
  show runGrant (progress _) = _
  unfold runGrant progress
  cases hr : s.ctl.run with
  | none => simp [hr]
  | some r => simp [hr]

theorem mxCounted_effect (cell : Nat) (x : Mx) (s : State) :
    Keeps [.tiles, .ctl, .dbg] s (mxCounted cell x s) ∧
      (mxCounted cell x s).tiles = putWords (tileWrites s cell x (kSteps s cell x)) s.tiles ∧
      runFault (mxCounted cell x s) = runFault s ∧ runGrant (mxCounted cell x s) = runGrant s := by
  unfold mxCounted
  dsimp only
  generalize hu : addStepCount ccMaskRange _ _ = u
  have hp := mxProduct_state cell x (kSteps s cell x) s
  have ku : Keeps [.ctl] (mxProduct cell x (kSteps s cell x) s).1 u := by
    rw [← hu]
    exact (addStepCount_keeps _ _ _ rfl).2 ((addStepCount_keeps _ _ _ rfl).2 ((addStepCount_keeps _ _ _ rfl).2 (.refl _ _)))
  have hf : runFault u = runFault s := by
    rw [← hu, runFault_addStepCount, runFault_addStepCount, runFault_addStepCount, hp]
    rfl
  have hg : runGrant u = runGrant s := by
    rw [← hu, runGrant_addStepCount, runGrant_addStepCount, runGrant_addStepCount, hp]
    rfl
  have k0 : Keeps [.tiles] s (mxProduct cell x (kSteps s cell x) s).1 := by
    rw [hp]
    simp [within]
  generalize ht : perfAdd (clusterOf cell) 0x02 _ _ = t
  have kt : Keeps [.dbg] u t := by
    rw [← ht]
    exact (perfAdd_keeps _ _ _ _ rfl).2 ((perfAdd_keeps _ _ _ _ rfl).2 (.refl _ _))
  refine ⟨.trans (k0.mono rfl) (.trans (ku.mono rfl) (kt.mono rfl)), ?_, ?_, ?_⟩
  · rw [kt.tiles_eq rfl, ku.tiles_eq rfl, hp]
  · rw [runFault_congr (kt.ctl_eq rfl), hf]
  · rw [runGrant, kt.ctl_eq rfl]
    exact hg

/-- What an MX task leaves of tiles and memory. -/
theorem mxWork_effect {cell : Nat} {d : Desc} {s : State} {g : GStep} (hg : runGrant s = some g) :
    Keeps [.mem, .tiles, .ctl, .errs, .dbg] s (mxWork cell d s).2 ∧ runFault (mxWork cell d s).2 = runFault s ∧
      (mxWork cell d s).2.tiles = putWords (tileWrites s cell (mxOf d) (kSteps s cell (mxOf d))) s.tiles ∧
      (mxWork cell d s).2.mem =
        (if (mxOf d).drain then drainedMem cell (mxOf d) g.step.toNat (mxWork cell d s).2 s.mem else s.mem) := by
  rw [mxWork_eq]
  obtain ⟨hk, ht, hf, hgr⟩ := mxCounted_effect cell (mxOf d) s
  generalize mxCounted cell (mxOf d) s = u at hk ht hf hgr ⊢
  by_cases hd : (mxOf d).drain = true
  · obtain ⟨r, hr, hrg⟩ : ∃ r, u.ctl.run = some r ∧ r.g = g := by
      have := hgr.trans hg
      unfold runGrant at this
      cases hr : u.ctl.run with
      | none => simp [hr] at this
      | some r => exact ⟨r, rfl, by simpa [hr] using this⟩
    simp only [if_pos hd]
    rw [mxDrain_eq hr]
    obtain ⟨kc, hfc, hmc⟩ := putCounted_keeps (drainWrites cell (mxOf d) r.g.step.toNat u) u
    refine ⟨.trans (hk.mono rfl) (kc.mono rfl), hfc.trans hf, (kc.tiles_eq rfl).trans ht, hmc.trans ?_⟩
    rw [foldl_drainWrites, drainedMem_congr (kc.tiles_eq rfl), hk.mem_eq rfl, hrg]
  · simp only [if_neg hd]
    exact ⟨hk.mono rfl, hf, ht, hk.mem_eq rfl⟩

end Sys2Proof.Machine

namespace Sys2Proof.Claims

open Sys2Proof.Machine

/-- Settles O32. -/
theorem matrixTaskRuns : Obligations.MatrixTaskRuns := by
  unfold Obligations.MatrixTaskRuns
  intro s cell d r ⟨_, hwf, _, _⟩ ⟨hi, hv, hc, hw⟩ hr
  have ki := inUnit_keeps cell d s
  obtain ⟨hk, hf, ht, hm⟩ := mxWork_effect (cell := cell) (d := d) (g := r.g)
    ((runGrant_inUnit cell d s).trans (by simp only [runGrant, hr, Option.map_some]))
  obtain ⟨htaken, kt⟩ := issueTask_finishes hi hv hc hw mxReads (hk.cells_eq rfl) hf
  have htiles : (issueTask 1 (fun _ => true) mxReads mxWork cell .clean s).tiles =
      putWords (tileWrites s cell (mxOf d) (kSteps s cell (mxOf d))) s.tiles := by
    rw [kt.tiles_eq rfl, ht, kSteps_congr cell _ (ki.mem_eq rfl), tileWrites_congr cell _ (ki.mem_eq rfl) (ki.tiles_eq rfl),
      ki.tiles_eq rfl]
  refine ⟨_, rfl, htaken, .trans (ki.mono rfl) (.trans (hk.mono rfl) (kt.mono rfl)), fun b p hb hp => ?_, fun a ha => ?_, ?_⟩
  · rw [htiles]
    exact memLe_putWords hwf (tileWrites_pairwise s cell _ _) (mem_tileWrites.2 ⟨b, hb, p, hp, rfl⟩)
  · rw [htiles]
    refine memGet_putWords_of_outside hwf fun e he => ?_
    obtain ⟨b, hb, p, hp, rfl⟩ := mem_tileWrites.1 he
    exact tileAddr_outside hb hp ha
  · have hmem : (issueTask 1 (fun _ => true) mxReads mxWork cell .clean s).mem = (if (mxOf d).drain then
        drainedMem cell (mxOf d) r.g.step.toNat (issueTask 1 (fun _ => true) mxReads mxWork cell .clean s) s.mem else s.mem) := by
      rw [kt.mem_eq rfl, hm, ki.mem_eq rfl, drainedMem_congr (kt.tiles_eq rfl)]
    simp only [drainedMem] at hmem
    exact hmem

end Sys2Proof.Claims
end

section
/-! SUPPORT. Tasks that wait (R255 to R259, R368 to R370): what a task's work notes in its flight, and what a promotion that starts
leaves of the copy. -/

namespace Sys2Proof.Machine

/-! ## A promotion starts -/

/-- A promotion that starts leaves its copy PROMOTING for those that asked, whether or not it waits for a buffer. -/
theorem startCopy_promoting (o : Obj) (k source : Nat) (tags : List Nat) (s : State) :
    ∃ c, copyOf? (startCopy o k source tags s) o.id k = some c ∧ c.state = .promoting ∧ c.hostTags = tags := by
  unfold startCopy
  dsimp only
  generalize hu : putCopy (newCopy o.id k source tags) (displace o k s) = u
  have hc : copyOf? u o.id k = some (newCopy o.id k source tags) := by simp [← hu, newCopy, copyOf?, putCopy]
  by_cases h : k = 2 ∧ o.hbmPool = true
  · obtain ⟨rfl, hp⟩ := h
    rw [if_pos ⟨rfl, hp⟩]
    unfold requestBuffer
    cases ha : allocate? o.pool o.length 0xFFF0 u with
    | some r =>
      have hr : copyOf? r.2 o.id 2 = some (newCopy o.id 2 source tags) :=
        (copyOf_congr ((allocate_keeps ha).tier_eq rfl) _ _).trans hc
      exact ⟨_, copyOf_mapCopy hr (fun _ => ⟨rfl, rfl⟩), rfl, rfl⟩
    | none =>
      have hr : copyOf? ({ u with pools := { u.pools with waits := u.pools.waits ++ [⟨o.pool, o.length, 0xFFF0, 0, some (o.id, 2), none⟩] } } : State)
          o.id 2 = some (newCopy o.id 2 source tags) := hc
      exact ⟨_, copyOf_mapCopy hr (fun _ => ⟨rfl, rfl⟩), rfl, rfl⟩
  · rw [if_neg h]
    exact ⟨_, hc, rfl, rfl⟩

theorem startPromotion_promoting (o : Obj) (through : Bool) (k : Nat) (tags : List Nat) (s : State) :
    ∃ c, copyOf? (startPromotion through o k tags s) o.id k = some c ∧ c.state = .promoting ∧ c.hostTags = tags := by
  unfold startPromotion
  split
  · exact startCopy_promoting _ _ _ _ _
  · exact startCopy_promoting _ _ _ _ _

theorem residency_congr {s t : State} (h : t.tier = s.tier) (o : Obj) (k : Nat) : residency t o k = residency s o k := by
  unfold residency
  rw [copyOf_congr h]

theorem occupant_congr {s t : State} (h : t.tier = s.tier) (o : Obj) (k : Nat) : occupant? t o k = occupant? s o k := by
  simp only [occupant?, objOf?, h]

/-- ENSURE and PREFETCH of an absent object whose frames are free start its promotion. -/
theorem tryPromote_promoting {s : State} {o : Obj} {k : Nat} (hr : residency s o k = .absent) (hf : hasFrame o k = true)
    (hw : o.writable = false) (hk : occupant? s o k = none) (h2 : occupant? s o 2 = none) :
    (copyOf? (tryPromote o k s) o.id k).map (·.state) = some .promoting := by
  unfold tryPromote
  rw [if_pos ⟨hr, hf, hw⟩]
  dsimp only
  rw [frameOccupants_none hk h2]
  obtain ⟨c, hc, hs, -⟩ := startPromotion_promoting o (hbmRoute o k s).1 k (takeDeferred o.id k (hbmRoute o k s).2).1
    (takeDeferred o.id k (hbmRoute o k s).2).2
  simp [hc, hs]

/-- Of an object that is not absent it changes nothing. -/
theorem tryPromote_present {s : State} {o : Obj} {k : Nat} (h : residency s o k ≠ .absent) : tryPromote o k s = s :=
  if_neg fun hc => h hc.1

/-! ## Task records -/

theorem issuable_class {s : State} {cell cls : Nat} {meant : Desc → Bool} {d : Desc} (h : issuable? s cell cls meant = some d) :
    dClass d = cls ∧ meant d = true := by
  unfold issuable? at h
  split at h
  · cases h
  · split at h
    · next hc =>
      cases h
      exact ⟨hc.2.2.1, hc.2.2.2.1⟩
    · cases h

theorem mapFlight_window (cell index : Nat) (g : Flight → Flight) (s : State) :
    (cellOf (mapFlight cell index g s) cell).window = (cellOf s cell).window := by
  unfold mapFlight
  dsimp only
  rw [cellOf_setCell]

theorem runFault_mapFlight (cell index : Nat) (g : Flight → Flight) (s : State) : runFault (mapFlight cell index g s) = runFault s := rfl

theorem inUnit_flight (cell : Nat) (d : Desc) (s : State) : ∃ f, flight? (inUnit cell d s) cell d.index = some f := by
  obtain ⟨f, hf, hi⟩ := List.mem_map.1 (inUnit_cell cell d s).1
  exact Option.isSome_iff_exists.1 (List.find?_isSome.2 ⟨f, hf, by simpa using hi⟩)

/-- The descriptors of a task that its unit has taken are issued. -/
theorem inUnit_issued {cell : Nat} {d : Desc} {s : State} :
    ∀ x ∈ (cellOf (inUnit cell d s) cell).window, x.index = d.index → x.step = d.step → x.issued = true := by
  rw [(inUnit_cell cell d s).2]
  intro x hx hi hs
  obtain ⟨y, -, rfl⟩ := List.mem_map.1 hx
  by_cases q : y.index = d.index ∧ y.step = d.step
  · rw [if_pos q]
  · rw [if_neg q] at hi hs
    exact absurd ⟨hi, hs⟩ q

theorem settled_flight (cell index : Nat) (s : State) : flight? (settleDrain (settleCell cell s)) cell index = flight? s cell index := by
  unfold flight?
  rw [settleDrain_cell, (settleCell_cell cell s).1]

theorem settled_window {cell : Nat} {s : State} {x : Desc} (h : x ∈ (cellOf (settleDrain (settleCell cell s)) cell).window) :
    x ∈ (cellOf s cell).window := by
  rw [settleDrain_cell] at h
  exact (settleCell_cell cell s).2 x h

end Sys2Proof.Machine

namespace Sys2Proof.Claims

open Sys2Proof.Machine

section
variable {s : State} {cell : Nat} {d : Desc} {e : TaskEnd × State} {g : Flight → Flight}

/-- What a task's work notes in its flight stands there when issue has ended, whether or not the run goes on. -/
theorem noted_of_work {β : Type} {φ : Flight → β} {v : β} (hg : ∀ f, (g f).index = f.index) (hv : ∀ f, φ (g f) = v)
    (hφ : ∀ f b, φ { f with finished := b } = φ f) (hc : e.2.cells = (mapFlight cell d.index g (inUnit cell d s)).cells) :
    (flight? (settleDrain (settleCell cell (workEnds cell d e))) cell d.index).map φ = some v := by
  obtain ⟨f, hf⟩ := inUnit_flight cell d s
  have he : flight? e.2 cell d.index = some (g f) := (flight_congr hc _ _).trans (flight_mapFlight hf hg)
  rw [settled_flight, workEnds]
  split
  · have hm := flight_mapFlight (g := fun f => { f with finished := e.1 == .finished }) he (fun _ => rfl)
    rw [hm, Option.map_some, hφ, hv]
  · rw [he, Option.map_some, hv]

/-- With the run active the task stands in flight as its work has ended. -/
theorem taken_of_noted (hg : ∀ f, (g f).index = f.index) (ha : stepActive e.2 = true)
    (hc : e.2.cells = (mapFlight cell d.index g (inUnit cell d s)).cells) :
    Taken cell d (e.1 == .finished) (settleDrain (settleCell cell (workEnds cell d e))) := by
  obtain ⟨f, hf⟩ := inUnit_flight cell d s
  have he : flight? e.2 cell d.index = some (g f) := (flight_congr hc _ _).trans (flight_mapFlight hf hg)
  rw [workEnds, if_pos ha]
  refine ⟨?_, fun x hx => inUnit_issued (cell := cell) (d := d) (s := s) x ?_⟩
  · have hm := flight_mapFlight (g := fun f => { f with finished := e.1 == .finished }) he (fun _ => rfl)
    rw [settled_flight, hm, Option.map_some]
  · have hx' := settled_window hx
    rwa [mapFlight_window, cellOf_congr hc, mapFlight_window] at hx'

theorem stepActive_settled : stepActive (settleDrain (settleCell cell (workEnds cell d e))) = stepActive e.2 := by
  rw [Bool.eq_iff_iff, stepActive_iff, stepActive_iff, runFault_settleDrain, runFault_settleCell, workEnds]
  split <;> rfl

end

/-! ## WAIT_REL and MARK -/

section
variable {s : State} {cell : Nat} {d : Desc}

theorem waitRel_waits {r : Run} (h : Issues 7 (fun z => bodyOp z == 0) cell d s) (hr : s.ctl.run = some r) :
    ∃ t, exec (.waitRel cell .clean) s = .next t ∧ Taken cell d false t ∧ t.mem = s.mem ∧
      (flight? t cell d.index).map (·.until?) = some (some (r.tRunning + bodyField d 24 8)) := by
  obtain ⟨hi, hv, hc, hw⟩ := h
  obtain ⟨q, hq, hqt⟩ : ∃ q, (inUnit cell d s).ctl.run = some q ∧ q.tRunning = r.tRunning := by
    show ∃ q, (progress _).ctl.run = some q ∧ _
    simp [progress, hr]
  have hwork : waitRelWork cell d (inUnit cell d s) = (.waits,
      mapFlight cell d.index (fun f => { f with until? := some (r.tRunning + bodyField d 24 8) }) (inUnit cell d s)) := by
    simp only [waitRelWork, hq, hqt]
  refine ⟨_, rfl, ?_⟩
  rw [issueTask_clean hi hv hc hw, hwork]
  refine ⟨taken_of_noted (s := s) (g := fun f => { f with until? := some (r.tRunning + bodyField d 24 8) }) (fun _ => rfl)
    (stepActive_iff.2 ?_) rfl, ?_,
    noted_of_work (s := s) (g := fun f => { f with until? := some (r.tRunning + bodyField d 24 8) }) (fun _ => rfl)
      (fun _ => rfl) (fun _ _ => rfl) rfl⟩
  · rw [runFault_mapFlight]
    exact stepActive_iff.1 (inUnit_active (issuable_active hi).1)
  · rw [(workEnds_keeps _).mem_eq rfl]
    exact (inUnit_keeps cell d s).mem_eq rfl

theorem accessOk_congr {t : State} (h : t.errs = s.errs) (g : t.unbacked = s.unbacked) (a n : Nat) :
    accessOk t a n = accessOk s a n := by
  simp only [accessOk, cellEnabled, hostBacked, h, g]

theorem accessOk_inUnit (a n : Nat) : accessOk (inUnit cell d s) a n = accessOk s a n :=
  accessOk_congr ((inUnit_keeps cell d s).errs_eq rfl) ((inUnit_keeps cell d s).unbacked_eq rfl) a n

/-- A task whose work finds that it may not access memory ends the step. -/
theorem issueTask_barred {cls cause : Nat} {meant : Desc → Bool} (h : Issues cls meant cell d s)
    (reads : Nat → Desc → State → Nat → Nat → Bool) {work : Nat → Desc → State → TaskEnd × State}
    (hs : (work cell d (inUnit cell d s)).2 = stepFault cause (inUnit cell d s)) :
    Stopped cause s (issueTask cls meant reads work cell .clean s) ∧
      Keeps [.cells, .ctl, .time, .rem, .launch] s (issueTask cls meant reads work cell .clean s) := by
  obtain ⟨hi, hv, hc, hw⟩ := h
  have ki := inUnit_keeps cell d s
  have ks : Keeps [.ctl, .rem, .launch] (inUnit cell d s) (stepFault cause (inUnit cell d s)) := (stepFault_keeps _ _ rfl).2 (.refl _ _)
  rw [issueTask_clean hi hv hc hw]
  refine ⟨stopped_of_work ?_, ?_⟩
  · rw [hs, runFault_stepFault (inUnit_active (issuable_active hi).1), selfId_congr (ki.fab_eq rfl)]
  · refine .trans (ki.mono rfl) (.trans (ks.mono rfl) ?_)
    rw [← hs]
    exact (workEnds_keeps _).mono rfl

theorem mark_runs (h : Issues 7 (fun z => bodyOp z == 1) cell d s) :
    (accessOk s (bodyField d 32 8) 8 = true → ∃ (t : State) (lag : Nat), exec (.mark cell .clean) s = .next t ∧
      Taken cell d true t ∧ lag ≤ 16 ∧ t.mem = memWrite s.mem (bodyField d 32 8) (natLe 8 (s.time.beat - lag))) ∧
    (accessOk s (bodyField d 32 8) 8 = false → ∃ t, exec (.mark cell .clean) s = .next t ∧ Stopped 0x0E s t ∧
      t.mem = s.mem) := by
  have ki := inUnit_keeps cell d s
  refine ⟨fun ha => ?_, fun ha => ?_⟩
  · obtain ⟨hi, hv, hc, hw⟩ := h
    have hwork : markWork cell d (inUnit cell d s) = (.finished,
        putBytes (bodyField d 32 8) (natLe 8 (engineBeat (inUnit cell d s)).1) (engineBeat (inUnit cell d s)).2) :=
      if_pos ((accessOk_inUnit _ _).trans ha)
    have kb := engineBeat_keepsTime (inUnit cell d s)
    have kp : Keeps [.mem, .errs] (engineBeat (inUnit cell d s)).2 (putBytes (bodyField d 32 8)
      (natLe 8 (engineBeat (inUnit cell d s)).1) (engineBeat (inUnit cell d s)).2) := (putBytes_keeps _ _ _ rfl).2 (.refl _ _)
    obtain ⟨hlo, hhi⟩ := engineBeat_lag (inUnit cell d s)
    have hbeat : (inUnit cell d s).time.beat = s.time.beat := by rw [ki.time_eq rfl]
    obtain ⟨ht, kt⟩ := issueTask_finishes hi hv hc hw readsNothing (work := markWork)
      (by rw [hwork]; exact (kp.cells_eq rfl).trans (kb.cells_eq rfl))
      (by rw [hwork]; exact runFault_congr ((kp.ctl_eq rfl).trans (kb.ctl_eq rfl)))
    refine ⟨_, s.time.beat - (engineBeat (inUnit cell d s)).1, rfl, ?_, by omega, ?_⟩
    · rw [hwork] at ht
      exact ht
    · refine (kt.mem_eq rfl).trans ?_
      rw [hwork, putBytes_mem, kb.mem_eq rfl, ki.mem_eq rfl]
      congr 2
      omega
  · have hwork : markWork cell d (inUnit cell d s) = (.finished, stepFault 0x0E (inUnit cell d s)) :=
      if_neg (by rw [accessOk_inUnit, ha]; exact Bool.false_ne_true)
    obtain ⟨hs, hk⟩ := issueTask_barred h readsNothing (work := markWork) (cause := 0x0E) (by rw [hwork])
    exact ⟨_, rfl, hs, hk.mem_eq rfl⟩

/-! ## ENSURE and PREFETCH -/

theorem tqObjects_inUnit (q : Tq) : tqObjects (inUnit cell d s) q = tqObjects s q := by
  conv_lhs => rw [eq_of_keeps_cells_ctl (inUnit_keeps cell d s)]
  rfl

/-- The work of a TQ task that names one object. -/
theorem tqWork_one {u : State} {id : Nat} {o : Obj} (hq : tqObjects u (tqOf d) = [id]) (ho : objOf? u id = some o) :
    tqWork cell d u =
      (if (tqOf d).op = 1 ∧ (isThere (residency (tryPromote o (tqOf d).tier (mapFlight cell d.index
            (fun f => { f with needs := some (id, (tqOf d).tier) }) u)) o (tqOf d).tier) = true ∨
          residency (tryPromote o (tqOf d).tier (mapFlight cell d.index
            (fun f => { f with needs := some (id, (tqOf d).tier) }) u)) o (tqOf d).tier = .promoting) then .finished else .waits,
        tryPromote o (tqOf d).tier (mapFlight cell d.index (fun f => { f with needs := some (id, (tqOf d).tier) }) u)) := by
  simp only [tqWork, hq, ho]

theorem finished_iff (c : Prop) [Decidable c] : ((if c then TaskEnd.finished else .waits) == TaskEnd.finished) = decide c := by
  by_cases h : c <;> simp [h]

end

section
variable {s : State} {cell op : Nat} {d : Desc}

/-- A TQ task that names one object. -/
theorem tq_one (hop : op = 0 ∨ op = 1) (h : Issues 8 (fun z => bodyOp z == op) cell d s) {id : Nat} {o : Obj}
    (hq : tqObjects s (tqOf d) = [id]) (ho : objOf? s id = some o) :
    let t := issueTask 8 (fun z => bodyOp z == op) readsNothing tqWork cell .clean s
    (stepActive t = true → Taken cell d (op == 1 && (isThere (residency t o (tqOf d).tier) ||
      residency t o (tqOf d).tier == .promoting)) t) ∧
    (flight? t cell d.index).map (·.needs) = some (some (id, (tqOf d).tier)) ∧
    (residency s o (tqOf d).tier = .absent → hasFrame o (tqOf d).tier = true → o.writable = false →
      occupant? s o (tqOf d).tier = none → occupant? s o 2 = none →
      (copyOf? t id (tqOf d).tier).map (·.state) = some .promoting) ∧
    (isThere (residency s o (tqOf d).tier) = true → t.tier = s.tier) := by
  obtain ⟨hi, hv, hc, hw⟩ := h
  have ki := inUnit_keeps cell d s
  have hoi : o.id = id := by simpa using List.find?_some ho
  have hop' : (tqOf d).op = op := by
    obtain ⟨h8, hm⟩ := issuable_class hi
    simpa [bodyOp, h8, tqOf] using hm
  intro t
  have ht : t = settleDrain (settleCell cell (workEnds cell d (tqWork cell d (inUnit cell d s)))) := issueTask_clean hi hv hc hw _ _
  have hwork := tqWork_one (cell := cell) (d := d) (u := inUnit cell d s) ((tqObjects_inUnit _).trans hq)
    (show objOf? (inUnit cell d s) id = some o by simp only [objOf?, ki.tier_eq rfl]; exact ho)
  generalize hm : mapFlight cell d.index (fun f => { f with needs := some (id, (tqOf d).tier) }) (inUnit cell d s) = m at hwork
  have km : m.tier = s.tier := by
    rw [← hm]
    exact ki.tier_eq rfl
  have kp : Keeps [.ctl, .tier, .pools, .rem, .time, .launch, .errs] m (tryPromote o (tqOf d).tier m) :=
    (tryPromote_keeps _ _ _ rfl).2 (.refl _ m)
  have hcells : (tqWork cell d (inUnit cell d s)).2.cells = (mapFlight cell d.index
      (fun f => { f with needs := some (id, (tqOf d).tier) }) (inUnit cell d s)).cells := by
    rw [hwork, hm]
    exact kp.cells_eq rfl
  have htier : t.tier = (tryPromote o (tqOf d).tier m).tier := by
    rw [ht, (workEnds_keeps _).tier_eq rfl, hwork]
  refine ⟨fun ha => ?_, ?_, fun h1 h2 h3 h4 h5 => ?_, fun hth => ?_⟩
  · rw [ht, stepActive_settled] at ha
    have hk := taken_of_noted (s := s) (g := fun f => { f with needs := some (id, (tqOf d).tier) }) (fun _ => rfl) ha hcells
    rw [← ht] at hk
    have hend : ((tqWork cell d (inUnit cell d s)).1 == .finished) = (op == 1 && (isThere (residency t o (tqOf d).tier) ||
        residency t o (tqOf d).tier == .promoting)) := by
      rw [hwork, finished_iff, residency_congr htier, hop', Bool.eq_iff_iff]
      simp
    rwa [hend] at hk
  · rw [ht]
    exact noted_of_work (s := s) (g := fun f => { f with needs := some (id, (tqOf d).tier) }) (fun _ => rfl) (fun _ => rfl)
      (fun _ _ => rfl) hcells
  · rw [copyOf_congr htier, ← hoi]
    exact tryPromote_promoting ((residency_congr km o _).trans h1) h2 h3 ((occupant_congr km o _).trans h4) ((occupant_congr km o _).trans h5)
  · rw [htier, tryPromote_present, km]
    rw [residency_congr km]
    intro hab
    rw [hab] at hth
    exact absurd hth (by decide)

theorem tq_none (h : Issues 8 (fun z => bodyOp z == op) cell d s) (hq : tqObjects s (tqOf d) = []) :
    Taken cell d true (issueTask 8 (fun z => bodyOp z == op) readsNothing tqWork cell .clean s) ∧
      (issueTask 8 (fun z => bodyOp z == op) readsNothing tqWork cell .clean s).tier = s.tier := by
  obtain ⟨hi, hv, hc, hw⟩ := h
  have hwork : tqWork cell d (inUnit cell d s) = (.finished, inUnit cell d s) := by
    simp only [tqWork, tqObjects_inUnit, hq]
  obtain ⟨ht, kt⟩ := issueTask_finishes hi hv hc hw readsNothing (work := tqWork) (by rw [hwork]) (by rw [hwork])
  refine ⟨by rwa [hwork] at ht, (kt.tier_eq rfl).trans ?_⟩
  rw [hwork]
  exact (inUnit_keeps cell d s).tier_eq rfl

theorem tq_skew (h : Issues 8 (fun z => bodyOp z == op) cell d s) (hq : 2 ≤ (tqObjects s (tqOf d)).length) :
    Stopped 0x09 s (issueTask 8 (fun z => bodyOp z == op) readsNothing tqWork cell .clean s) ∧
      (issueTask 8 (fun z => bodyOp z == op) readsNothing tqWork cell .clean s).tier = s.tier := by
  have hwork : (tqWork cell d (inUnit cell d s)).2 = stepFault 0x09 (inUnit cell d s) := by
    obtain ⟨a, b, l, hl⟩ : ∃ a b l, tqObjects s (tqOf d) = a :: b :: l := by
      match tqObjects s (tqOf d), hq with
      | a :: b :: l, _ => exact ⟨a, b, l, rfl⟩
    simp only [tqWork, tqObjects_inUnit, hl]
    rfl
  obtain ⟨hs, hk⟩ := issueTask_barred h readsNothing hwork
  exact ⟨hs, hk.tier_eq rfl⟩

end

/-- Settles O42. -/
theorem timeAndTierTasksRun : Obligations.TimeAndTierTasksRun := by
  unfold Obligations.TimeAndTierTasksRun
  intro s cell d
  refine ⟨fun r h hr => waitRel_waits h hr, mark_runs, ?_⟩
  simp only [List.forall_mem_cons, List.not_mem_nil, false_imp_iff, implies_true, and_true]
  exact ⟨fun h => ⟨fun hq => ⟨_, rfl, tq_none h hq⟩, fun id o hq ho => ⟨_, rfl, tq_one (Or.inl rfl) h hq ho⟩,
      fun hq => ⟨_, rfl, tq_skew h hq⟩⟩,
    fun h => ⟨fun hq => ⟨_, rfl, tq_none h hq⟩, fun id o hq ho => ⟨_, rfl, tq_one (Or.inr rfl) h hq ho⟩,
      fun hq => ⟨_, rfl, tq_skew h hq⟩⟩⟩

end Sys2Proof.Claims
end

section
/-! SUPPORT. Promotions and evictions as they end (R251, R254, R263): what the events and pool grants that follow leave of the
copies, with no task to try again. -/

namespace Sys2Proof.Machine

/-! ## What events and pool grants leave of the copies -/

/-- A copy but for its pool buffer. -/
def bareCopy (c : Copy) : Copy := { c with waitsPool := false, buffer := none }

/-- Copies stand but for their pool buffers, the telemetry counts stand, and tasks that may not issue still may not. -/
structure CopiesStand (s t : State) : Prop where
  idle : stepActive s = false → stepActive t = false
  counts : t.errs.counts = s.errs.counts
  copies : t.tier.copies.map bareCopy = s.tier.copies.map bareCopy

theorem stepActive_congr {s t : State} (h : t.ctl = s.ctl) : stepActive t = stepActive s := by simp only [stepActive, h]

namespace CopiesStand
variable {s t u : State}

theorem refl (s : State) : CopiesStand s s := ⟨id, rfl, rfl⟩

theorem trans (h : CopiesStand s t) (g : CopiesStand t u) : CopiesStand s u :=
  ⟨fun q => g.idle (h.idle q), g.counts.trans h.counts, g.copies.trans h.copies⟩

theorem of_keeps {k : List Part} (h : Keeps k s t) (w : within k [.mb, .mem, .cells, .ctr, .job, .exch, .flash, .pools, .rem, .fab,
    .time, .launch, .mgmt, .dbg] = true) : CopiesStand s t := by
  have h := h.mono w
  exact ⟨fun q => (stepActive_congr (h.ctl_eq rfl)).trans q, by rw [h.errs_eq rfl], by rw [h.tier_eq rfl]⟩

theorem foldl {α : Type} {f : State → α → State} (h : ∀ t a, CopiesStand t (f t a)) (l : List α) (s : State) :
    CopiesStand s (l.foldl f s) := by
  induction l generalizing s with
  | nil => exact refl s
  | cons a r ih => exact (h s a).trans (ih _)

/-- A copy is there afterwards, as it was but for its buffer. -/
theorem copyOf (h : CopiesStand s t) (obj tier : Nat) : (copyOf? t obj tier).map bareCopy = (copyOf? s obj tier).map bareCopy := by
  have e (l : List Copy) : (l.map bareCopy).find? (fun c => c.obj == obj && c.tier == tier) =
      (l.find? fun c => c.obj == obj && c.tier == tier).map bareCopy := List.find?_map
  unfold copyOf?
  rw [← e, ← e, h.copies]

theorem copyOf_none (h : CopiesStand s t) {obj tier : Nat} (hn : copyOf? s obj tier = none) : copyOf? t obj tier = none := by
  have := h.copyOf obj tier
  rw [hn] at this
  simpa using this

theorem copyOf_state (h : CopiesStand s t) (obj tier : Nat) :
    (copyOf? t obj tier).map (·.state) = (copyOf? s obj tier).map (·.state) := by
  have := congrArg (Option.map (·.state)) (h.copyOf obj tier)
  rw [Option.map_map, Option.map_map] at this
  exact this

end CopiesStand

theorem deviceFaultCore_copies (cause : Nat) (s : State) : CopiesStand s (deviceFaultCore cause s) := by
  have hmap (u : State) : CopiesStand u (mapRun (fun r => if r.fault.isSome then r
      else { r with fault := some ⟨fcDeviceLost, true, selfId u⟩ }) u) := by
    have k : Keeps [.ctl] u (mapRun (fun r => if r.fault.isSome then r
      else { r with fault := some ⟨fcDeviceLost, true, selfId u⟩ }) u) := (mapRun_keeps _ _ rfl).2 (.refl _ u)
    refine ⟨fun q => ?_, by rw [k.errs_eq rfl], by rw [k.tier_eq rfl]⟩
    unfold mapRun
    cases hr : u.ctl.run with
    | none => exact q
    | some r =>
      simp only [stepActive]
      by_cases hf : r.fault.isSome = true
      · simp [hf, Option.isSome_iff_ne_none.1 hf]
      · simp [hf]
  unfold deviceFaultCore
  dsimp only
  generalize hu : (if s.errs.deviceFault then s else _) = u
  have h1 : CopiesStand s u := by
    rw [← hu]
    split
    · exact .refl s
    · exact .of_keeps (k := [.rem, .launch]) ((soundGongOn_keeps _ _ _ _ _ rfl).2 (.refl _ s)) rfl
  refine h1.trans ((hmap u).trans ?_)
  generalize mapRun _ u = v
  generalize hw : ({ v with
    errs := { v.errs with deviceFault := true }
    mb := { v.mb with evtFault := if v.mb.evtFault = 0 then BitVec.ofNat 16 cause else v.mb.evtFault } } : State) = w
  have h2 : CopiesStand v w := by
    rw [← hw]
    exact ⟨id, rfl, rfl⟩
  refine h2.trans (.trans (t := abortCommands (setCause 3 w).mb.opened (setCause 3 w)) ?_ ?_)
  · exact .of_keeps (k := [.mb]) ((abortCommands_keeps _ _ rfl).2 ((setCause_keeps _ _ rfl).2 (.refl _ w))) rfl
  · exact .of_keeps (k := [.mb, .mgmt]) ((pldmEvent_keeps _ _ _ rfl).2 (by simp [within])) rfl

theorem pushEvents_copies (l : List Event) (s : State) : CopiesStand s (pushEvents l s) := by
  induction l generalizing s with
  | nil => exact .of_keeps (k := [.mb]) (by simp [within, pushEvents]) rfl
  | cons e r ih =>
    unfold pushEvents
    have hq : CopiesStand s { s with mb := { s.mb with queue := e :: r } } := .of_keeps (k := [.mb]) (by simp [within]) rfl
    split
    · exact hq
    · split
      · dsimp only
        split
        · refine .trans ?_ (ih _)
          exact .of_keeps (k := [.mb, .mem]) ((setCause_keeps _ _ rfl).2 (by simp [within])) rfl
        · split
          · exact hq
          · exact hq.trans (deviceFaultCore_copies _ _)
      · exact hq

theorem postEvent_copies (typ st tag : Nat) (d : List Byte) (s : State) : CopiesStand s (postEvent typ st tag d s) :=
  .trans (.of_keeps (k := [.mb]) ((enqueueEvent_keeps _ _ _ _ _ rfl).2 (.refl _ s)) rfl) (pushEvents_copies _ _)

theorem residencyEvents_copies (obj tier op st : Nat) (tags : List Nat) (s : State) :
    CopiesStand s (residencyEvents obj tier op st tags s) := .foldl (fun t tag => postEvent_copies _ _ _ _ t) tags s

theorem grantWait_copies (w : PoolWait) (h : Nat) (s : State) : CopiesStand s (grantWait w h s) := by
  unfold grantWait
  split
  · exact postEvent_copies _ _ _ _ s
  · exact .of_keeps (k := [.flash]) ((giveStage_keeps _ _ _ _ rfl).2 (.refl _ s)) rfl
  · refine ⟨id, rfl, ?_⟩
    simp only [List.map_map]
    refine List.map_congr_left fun c _ => ?_
    simp only [Function.comp_apply]
    split <;> rfl

theorem serveWaits_copies (l : List PoolWait) (s : State) : CopiesStand s (serveWaits l s) := by
  induction l generalizing s with
  | nil => exact .refl s
  | cons w r ih =>
    unfold serveWaits
    split
    · next h t ha =>
      exact .trans (.of_keeps (allocate_keeps ha) rfl) (.trans (grantWait_copies w h t) (ih _))
    · refine .trans ?_ (ih _)
      exact .of_keeps (k := [.pools]) (by simp [within]) rfl

theorem freeBuffer_copies (h : Nat) (s : State) : CopiesStand s (freeBuffer h s) := by
  unfold freeBuffer runWaits
  refine .trans ?_ (serveWaits_copies _ _)
  exact .of_keeps (k := [.pools]) (by simp [within]) rfl

/-! ## A copy is dropped -/

/-- The copies but that of an object in a tier. -/
def withoutCopy (obj tier : Nat) (s : State) : State :=
  { s with tier := { s.tier with copies := s.tier.copies.filter fun x => !(x.obj == obj && x.tier == tier) } }

theorem copyOf_withoutCopy_self (obj tier : Nat) (s : State) : copyOf? (withoutCopy obj tier s) obj tier = none := by
  refine List.find?_eq_none.2 fun c hc hp => ?_
  have hf := (List.mem_filter.1 hc).2
  rw [hp] at hf
  exact Bool.false_ne_true hf

theorem copyOf_withoutCopy_ne {obj tier o' k : Nat} (h : ¬ (o' = obj ∧ k = tier)) (s : State) :
    copyOf? (withoutCopy obj tier s) o' k = copyOf? s o' k := by
  unfold copyOf? withoutCopy
  dsimp only
  rw [List.find?_filter]
  congr 1
  funext c
  by_cases hc : (c.obj == obj && c.tier == tier) = true
  · have hk : (c.obj == o' && c.tier == k) = false := by
      simp only [Bool.and_eq_true, beq_iff_eq] at hc
      simp only [Bool.and_eq_false_iff, beq_eq_false_iff_ne]
      omega
    rw [hk]
    simp
  · rw [Bool.eq_false_iff.2 hc]
    simp only [Bool.not_false, true_and, Bool.decide_eq_true]

theorem dropCopy_copies (obj tier : Nat) (s : State) : CopiesStand (withoutCopy obj tier s) (dropCopy obj tier s) := by
  unfold dropCopy
  split
  · next hn =>
    refine ⟨id, rfl, congrArg (List.map bareCopy) ?_⟩
    refine (List.filter_eq_self.2 fun c hc => ?_).symm
    rw [Bool.eq_false_iff.2 (List.find?_eq_none.1 hn c hc), Bool.not_false]
  · next c _ =>
    have h0 : CopiesStand (withoutCopy obj tier s) { s with
        tier := { s.tier with copies := s.tier.copies.filter fun x => !(x.obj == obj && x.tier == tier) }
        pools := { s.pools with waits := s.pools.waits.filter fun w => w.copy != some (obj, tier) } } := ⟨id, rfl, rfl⟩
    dsimp only
    split
    · exact h0.trans (freeBuffer_copies _ _)
    · exact h0

/-- No copy appears, the telemetry counts stand, and tasks that may not issue still may not. -/
structure NoCopyAppears (s t : State) : Prop where
  idle : stepActive s = false → stepActive t = false
  counts : t.errs.counts = s.errs.counts
  none : ∀ obj tier, copyOf? s obj tier = none → copyOf? t obj tier = none

namespace NoCopyAppears
variable {s t u : State}

theorem refl (s : State) : NoCopyAppears s s := ⟨id, rfl, fun _ _ => id⟩

theorem trans (h : NoCopyAppears s t) (g : NoCopyAppears t u) : NoCopyAppears s u :=
  ⟨fun q => g.idle (h.idle q), g.counts.trans h.counts, fun o k q => g.none o k (h.none o k q)⟩

theorem of_stand (h : CopiesStand s t) : NoCopyAppears s t := ⟨h.idle, h.counts, fun _ _ => h.copyOf_none⟩

end NoCopyAppears

theorem dropCopy_noCopyAppears (obj tier : Nat) (s : State) : NoCopyAppears s (dropCopy obj tier s) := by
  refine .trans (t := withoutCopy obj tier s) ⟨id, rfl, fun o k hn => ?_⟩ (.of_stand (dropCopy_copies obj tier s))
  by_cases h : o = obj ∧ k = tier
  · obtain ⟨rfl, rfl⟩ := h
    exact copyOf_withoutCopy_self _ _ _
  · rw [copyOf_withoutCopy_ne h, hn]

theorem copyOf_dropCopy (obj tier : Nat) (s : State) : copyOf? (dropCopy obj tier s) obj tier = none :=
  (dropCopy_copies obj tier s).copyOf_none (copyOf_withoutCopy_self obj tier s)

/-! ## With no task to try again -/

theorem stepFault_inactive {s : State} (h : stepActive s = false) (cause : Nat) : stepFault cause s = s := by
  unfold stepFault
  cases hr : s.ctl.run with
  | none => rfl
  | some r =>
    cases hf : r.fault with
    | none => simp [stepActive, hr, hf] at h
    | some f => simp only [hf]

theorem faultIf_inactive {s : State} (h : stepActive s = false) (c : Bool) (cause : Nat) : faultIf c cause s = s := by
  unfold faultIf
  split
  · exact stepFault_inactive h cause
  · rfl

theorem retryEnsures_inactive {s : State} (h : stepActive s = false) : retryEnsures s = s := by
  unfold retryEnsures
  rw [h, if_neg Bool.false_ne_true]

theorem failCopy_noCopyAppears {s : State} (h : stepActive s = false) (obj tier : Nat) :
    NoCopyAppears s (failCopy obj tier s) ∧ copyOf? (failCopy obj tier s) obj tier = none := by
  unfold failCopy
  split
  · next hn => exact ⟨.refl s, hn⟩
  · next c _ =>
    dsimp only
    have hd := dropCopy_noCopyAppears obj tier s
    have he : CopiesStand (dropCopy obj tier s) (residencyEvents obj tier 0x04 stStepFault c.pinTags
        (residencyEvents obj tier 0x02 stStepFault c.hostTags (dropCopy obj tier s))) :=
      .trans (residencyEvents_copies _ _ _ _ _ _) (residencyEvents_copies _ _ _ _ _ _)
    rw [faultIf_inactive (he.idle (hd.idle h))]
    exact ⟨hd.trans (.of_stand he), he.copyOf_none (copyOf_dropCopy obj tier s)⟩

theorem failPromotion_noCopyAppears {s : State} (h : stepActive s = false) (obj tier : Nat) :
    NoCopyAppears s (failPromotion obj tier s) ∧ copyOf? (failPromotion obj tier s) obj tier = none := by
  obtain ⟨h1, hn⟩ := failCopy_noCopyAppears h obj tier
  have fold (l : List Nat) (u : State) (hu : stepActive u = false) : NoCopyAppears u (l.foldl (fun t k => failCopy obj k t) u) := by
    induction l generalizing u with
    | nil => exact .refl u
    | cons k r ih =>
      have hk := (failCopy_noCopyAppears hu obj k).1
      exact hk.trans (ih _ (hk.idle hu))
  have h2 : NoCopyAppears (failCopy obj tier s) (failPromotion obj tier s) := fold _ _ (h1.idle h)
  exact ⟨h1.trans h2, h2.none _ _ hn⟩

/-! ## A copy found bad -/

theorem copyOf_dropBad_none {o : Obj} {k : Nat} (s : State) : copyOf? (dropBad o k s) o.id k = none := by
  have hn := List.find?_eq_none.1 (copyOf_dropCopy o.id k s)
  refine List.find?_eq_none.2 fun c hc => ?_
  obtain ⟨x, hx, rfl⟩ := List.mem_map.1 hc
  have := hn x hx
  split <;> exact this

theorem copyOf_dropBad_state {o : Obj} {k tier : Nat} (h : k ≠ tier) (s : State) :
    (copyOf? (dropBad o k s) o.id tier).map (·.state) = (copyOf? s o.id tier).map (·.state) := by
  have hd := (dropCopy_copies o.id k s).copyOf_state o.id tier
  rw [copyOf_withoutCopy_ne (fun q => h q.2.symm)] at hd
  rw [← hd]
  unfold copyOf? dropBad
  dsimp only
  generalize hp : (fun c : Copy => c.obj == o.id && c.tier == tier) = p
  generalize hf : (fun c : Copy => if c.obj == o.id && (c.state == .promoting && c.source == k)
    then { c with source := slowerTier (dropCopy o.id k s) o k } else c) = f
  have hfc : p ∘ f = p := by
    funext c
    rw [← hp, ← hf]
    simp only [Function.comp_apply]
    split <;> rfl
  rw [List.find?_map, hfc, Option.map_map]
  congr 1
  funext c
  rw [← hf]
  simp only [Function.comp_apply]
  split <;> rfl

theorem countBadSource_keepsErrs (o : Obj) (c : Copy) (s : State) : Keeps [.errs] s (countBadSource o c s) :=
  (countBadSource_keeps _ _ _ rfl).2 (.refl _ s)

/-- Where the word is a burst of HBM, it is counted as such. -/
theorem countBadSource_burst {o : Obj} {c : Copy} {s : State} {a : Nat} (h : sourceWord? s o c = some (.burst a)) :
    tblGet (countBadSource o c s).errs.counts tcHbmUe = tblGet s.errs.counts tcHbmUe + 1 := by
  simp only [countBadSource, h]
  exact (Claims.hbmUncorrectable_noted a s).1

/-! ## The end of a promotion -/

section
variable {s : State} {obj tier : Nat} {o : Obj} {c : Copy} {r : PromoteResult}

theorem noteCauses_keepsCells (s : State) : Keeps [.cells] s (noteCauses s) := by simp [within, noteCauses]

theorem promotionEnd_eq (ho : objOf? s obj = some o) (hc : copyOf? s obj tier = some c) (hp : c.state = .promoting)
    (hw : promotionWaits s o c = false) : promotionEndEffect obj tier r s =
      match promoteResult s o c r with
      | .copyBad => if c.source = o.homeTier then s else dropBad o c.source (countBadSource o c (noteCauses s))
      | .homeBad =>
        if c.source = o.homeTier then retryEnsures (failPromotion obj tier (countBadSource o c (noteCauses s))) else s
      | .done =>
        if promotionBarred s o c then retryEnsures (failPromotion obj tier (stepFault fcAddressRange (noteCauses s)))
        else retryEnsures (if sourceReadable s o c.source then finishCopy o c (noteCauses s) else failPromotion obj tier (noteCauses s)) := by
  have hn : ¬ (c.state ≠ .promoting ∨ promotionWaits s o c = true) := by simp [hp, hw]
  simp only [promotionEndEffect, ho, hc, if_neg hn] <;> rfl

/-- A promotion whose source is lost at its home fails, and nothing tries again. -/
theorem retried_failPromotion {u : State} (h : stepActive u = false) :
    retryEnsures (failPromotion obj tier u) = failPromotion obj tier u :=
  retryEnsures_inactive ((failPromotion_noCopyAppears h obj tier).1.idle h)

theorem finishCopy_copies {u : State} (hd : c.doomed = false) {a : Nat} (ha : copyAddr? u o c = some a) :
    CopiesStand (mapCopy o.id c.tier (fun c => { c with
        state := if c.pinTags.isEmpty then .resident else .pinned, hostTags := [], pinTags := [] })
      (countMoved a o.length (putMem a o.length (objectBytes u o c.source) u))) (finishCopy o c u) := by
  have hdd (v : State) : dropDoomed o c v = v := by simp only [dropDoomed, hd, Bool.false_eq_true, if_false]
  unfold finishCopy
  simp only [ha, hdd]
  generalize mapCopy o.id c.tier _ _ = v
  have h1 : CopiesStand v (residencyEvents o.id c.tier 0x04 stOk c.pinTags (residencyEvents o.id c.tier 0x02 stOk c.hostTags v)) :=
    .trans (residencyEvents_copies _ _ _ _ _ _) (residencyEvents_copies _ _ _ _ _ _)
  refine h1.trans ?_
  generalize residencyEvents o.id c.tier 0x04 stOk c.pinTags _ = w
  have kp : Keeps [.ctl] w (progress w) := (progress_keeps _ rfl).2 (.refl _ w)
  refine ⟨fun q => ?_, by rw [kp.errs_eq rfl], by rw [kp.tier_eq rfl]⟩
  rw [Bool.eq_false_iff, Ne, stepActive_iff, runFault_progress, ← stepActive_iff, q]
  exact Bool.false_ne_true

end

end Sys2Proof.Machine

namespace Sys2Proof.Claims

open Sys2Proof.Machine

theorem objOf_id {s : State} {obj : Nat} {o : Obj} (h : objOf? s obj = some o) : o.id = obj := by simpa using List.find?_some h

theorem copyOf_key {s : State} {obj tier : Nat} {c : Copy} (h : copyOf? s obj tier = some c) : c.obj = obj ∧ c.tier = tier := by
  simpa using List.find?_some h

/-! ## Promotions start -/

theorem promotionStart_starts {s : State} {obj tier : Nat} {d : Deferred} {o : Obj}
    (hd : s.tier.deferred.find? (fun z => z.obj == obj && (z.tier == tier && deferredReady s z)) = some d) (he : d.evict = false)
    (ho : objOf? s obj = some o) (hr : residency s o tier = .absent) (h2 : occupant? s o 2 = none) :
    ∃ t, exec (.promotionStart obj tier) s = .next t ∧
      (copyOf? t obj tier).map (fun c => (c.state, c.hostTags)) = some (.promoting, [d.tag]) := by
  obtain ⟨rfl, rfl⟩ : d.obj = obj ∧ d.tier = tier := by
    have := List.find?_some hd
    simp only [Bool.and_eq_true, beq_iff_eq] at this
    exact ⟨this.1, this.2.1⟩
  have hroute : deferredRoute d s = ((hbmRoute o d.tier s).1, true, (hbmRoute o d.tier s).2) := by
    simp [deferredRoute, ho, he, h2]
  have kt := hbmRoute_keeps_time o d.tier s
  generalize hv : ({ (hbmRoute o d.tier s).2 with tier := { (hbmRoute o d.tier s).2.tier with
      deferred := eraseFirst (fun x => x == d) (hbmRoute o d.tier s).2.tier.deferred } } : State) = v
  have hvo : v.tier.objs = s.tier.objs := by rw [← hv, ← kt.tier_eq rfl]
  have hvc : v.tier.copies = s.tier.copies := by rw [← hv, ← kt.tier_eq rfl]
  have hov : objOf? v d.obj = some o := by
    simp only [objOf?, hvo]
    exact ho
  have hrv : residency v o d.tier = .absent := by
    simp only [residency, copyOf?, hvc]
    exact hr
  have hrun : promotionStartEffect d.obj d.tier s = startPromotion (hbmRoute o d.tier s).1 o d.tier [d.tag] v := by
    simp only [promotionStartEffect, hd, hroute, if_true, hv, runDeferred, hov, he, Bool.false_eq_true, if_false, hrv]
  obtain ⟨c, hc, hs, ht⟩ := startPromotion_promoting o (hbmRoute o d.tier s).1 d.tier [d.tag] v
  refine ⟨_, congrArg Host.Outcome.next hrun, ?_⟩
  rw [← objOf_id ho, hc, Option.map_some, hs, ht]

/-! ## Promotions end -/

section
variable {s : State} {obj tier : Nat} {o : Obj} {c : Copy}

theorem promotionEnd_badSource (hi : stepActive s = false) (ho : objOf? s obj = some o) (hc : copyOf? s obj tier = some c)
    (hp : c.state = .promoting) (hw : promotionWaits s o c = false) {w : BadWord} (hb : sourceWord? s o c = some w) :
    exec (.promotionEnd obj tier .done) s =
      exec (.promotionEnd obj tier (if c.source = o.homeTier then .homeBad else .copyBad)) s ∧
    ∀ a : Nat, w = .burst a → ∃ t, exec (.promotionEnd obj tier .done) s = .next t ∧
      tblGet t.errs.counts tcHbmUe = tblGet s.errs.counts tcHbmUe + 1 := by
  have hres : promoteResult s o c .done = if c.source = o.homeTier then .homeBad else .copyBad := by
    simp only [promoteResult, hb, Option.isNone_some, Bool.false_eq_true, if_false]
  refine ⟨?_, fun a ha => ⟨_, rfl, ?_⟩⟩
  · show Host.Outcome.next _ = Host.Outcome.next _
    rw [promotionEnd_eq ho hc hp hw, promotionEnd_eq ho hc hp hw, hres]
    by_cases h : c.source = o.homeTier
    · simp only [if_pos h, promoteResult]
    · simp only [if_neg h, promoteResult]
  · subst ha
    show tblGet (promotionEndEffect obj tier .done s).errs.counts _ = _
    rw [promotionEnd_eq ho hc hp hw, hres]
    have hn := noteCauses_keepsCells s
    have hcount : tblGet (countBadSource o c (noteCauses s)).errs.counts tcHbmUe = tblGet s.errs.counts tcHbmUe + 1 := by
      rw [countBadSource_burst (a := a) (s := noteCauses s) hb, hn.errs_eq rfl]
    have hidle : stepActive (countBadSource o c (noteCauses s)) = false := by
      rw [stepActive_congr ((countBadSource_keepsErrs o c _).ctl_eq rfl), stepActive_congr (hn.ctl_eq rfl), hi]
    by_cases h : c.source = o.homeTier
    · simp only [if_pos h]
      rw [retried_failPromotion hidle, (failPromotion_noCopyAppears hidle obj tier).1.counts, hcount]
    · simp only [if_neg h]
      have hd := (dropCopy_noCopyAppears o.id c.source (countBadSource o c (noteCauses s))).counts
      exact (congrArg (fun t => tblGet t tcHbmUe) hd).trans hcount

theorem promotionEnd_barred (hi : stepActive s = false) (ho : objOf? s obj = some o) (hc : copyOf? s obj tier = some c)
    (hp : c.state = .promoting) (hw : promotionWaits s o c = false) (hb : promotionBarred s o c = true)
    (hs : sourceWord? s o c = none) :
    ∃ t, exec (.promotionEnd obj tier .done) s = .next t ∧ copyOf? t obj tier = none := by
  refine ⟨_, rfl, ?_⟩
  have hidle : stepActive (noteCauses s) = false := (stepActive_congr ((noteCauses_keepsCells s).ctl_eq rfl)).trans hi
  have hres : promoteResult s o c .done = .done := by simp only [promoteResult, hs, Option.isNone_none, if_true]
  show copyOf? (promotionEndEffect obj tier .done s) obj tier = none
  rw [promotionEnd_eq ho hc hp hw, hres]
  simp only [hb, if_true]
  rw [stepFault_inactive hidle, retried_failPromotion hidle]
  exact (failPromotion_noCopyAppears hidle obj tier).2

theorem promotionEnd_completes (hi : stepActive s = false) (ho : objOf? s obj = some o) (hc : copyOf? s obj tier = some c)
    (hp : c.state = .promoting) (hw : promotionWaits s o c = false) {a : Nat} (hb : promotionBarred s o c = false)
    (hr : sourceReadable s o c.source = true) (hs : sourceWord? s o c = none) (ha : copyAddr? s o c = some a)
    (hd : c.doomed = false) :
    ∃ t, exec (.promotionEnd obj tier .done) s = .next t ∧
      (copyOf? t obj tier).map (·.state) = some (if c.pinTags.isEmpty then .resident else .pinned) ∧
      (c.hostTags = [] → c.pinTags = [] → t.mem = memCopy s.mem a o.length (objectBytes s o c.source)) := by
  obtain ⟨hco, hct⟩ := copyOf_key hc
  have hoi := objOf_id ho
  have hn := noteCauses_keepsCells s
  have hidle : stepActive (noteCauses s) = false := (stepActive_congr (hn.ctl_eq rfl)).trans hi
  have hres : promoteResult s o c .done = .done := by simp only [promoteResult, hs, Option.isNone_none, if_true]
  have ha' : copyAddr? (noteCauses s) o c = some a := ha
  have hbytes : objectBytes (noteCauses s) o c.source = objectBytes s o c.source := rfl
  generalize hnu : noteCauses s = u at hn hidle ha' hbytes
  have hstand := finishCopy_copies (o := o) (c := c) (u := u) hd ha'
  generalize hv : countMoved a o.length (putMem a o.length (objectBytes u o c.source) u) = v at hstand
  have kv : Keeps [.dbg] (putMem a o.length (objectBytes u o c.source) u) v := by
    rw [← hv]
    exact (countMoved_keeps _ _ _ rfl).2 (.refl _ _)
  have kp : Keeps [.mem, .errs] u (putMem a o.length (objectBytes u o c.source) u) := (putMem_keeps _ _ _ _ rfl).2 (.refl _ u)
  have kuv : Keeps [.mem, .errs, .dbg] u v := .trans (kp.mono rfl) (kv.mono rfl)
  have hvidle : stepActive v = false := (stepActive_congr (kuv.ctl_eq rfl)).trans hidle
  have hcv : copyOf? v o.id c.tier = some c := by
    rw [copyOf_congr ((kuv.tier_eq rfl).trans (hn.tier_eq rfl)), hoi, hct, hc]
  refine ⟨finishCopy o c u, ?_, ?_, fun hh hpn => ?_⟩
  · show Host.Outcome.next (promotionEndEffect obj tier .done s) = _
    rw [promotionEnd_eq ho hc hp hw, hres]
    simp only [hb, hr, hnu, Bool.false_eq_true, if_false, if_true]
    rw [retryEnsures_inactive (hstand.idle hvidle)]
  · have hstate := hstand.copyOf_state o.id c.tier
    have hm := copyOf_mapCopy (f := fun c : Copy => { c with
      state := if c.pinTags.isEmpty then .resident else .pinned, hostTags := [], pinTags := [] }) hcv (fun _ => ⟨rfl, rfl⟩)
    rw [hm, Option.map_some] at hstate
    rw [← hoi, ← hct]
    exact hstate
  · have hdd (w : State) : dropDoomed o c w = w := by simp only [dropDoomed, hd, Bool.false_eq_true, if_false]
    have hfin : finishCopy o c u = progress (mapCopy o.id c.tier (fun c => { c with
        state := if c.pinTags.isEmpty then .resident else .pinned, hostTags := [], pinTags := [] }) v) := by
      simp only [finishCopy, ha', hv, hdd, hh, hpn, residencyEvents, List.foldl_nil]
    have kf : Keeps [.ctl, .tier] v (finishCopy o c u) := by
      rw [hfin]
      exact (progress_keeps _ rfl).2 ((mapCopy_keeps _ _ _ _ rfl).2 (.refl _ v))
    rw [kf.mem_eq rfl, kv.mem_eq rfl, putMem_mem, hbytes, hn.mem_eq rfl]

theorem promotionEnd_homeBad (hi : stepActive s = false) (ho : objOf? s obj = some o) (hc : copyOf? s obj tier = some c)
    (hp : c.state = .promoting) (hw : promotionWaits s o c = false) (hs : c.source = o.homeTier) :
    ∃ t, exec (.promotionEnd obj tier .homeBad) s = .next t ∧ copyOf? t obj tier = none := by
  refine ⟨_, rfl, ?_⟩
  have hidle : stepActive (countBadSource o c (noteCauses s)) = false := by
    rw [stepActive_congr ((countBadSource_keepsErrs o c _).ctl_eq rfl), stepActive_congr ((noteCauses_keepsCells s).ctl_eq rfl), hi]
  show copyOf? (promotionEndEffect obj tier .homeBad s) obj tier = none
  rw [promotionEnd_eq ho hc hp hw]
  simp only [promoteResult, if_pos hs]
  rw [retried_failPromotion hidle]
  exact (failPromotion_noCopyAppears hidle obj tier).2

theorem promotionEnd_copyBad (ho : objOf? s obj = some o) (hc : copyOf? s obj tier = some c)
    (hp : c.state = .promoting) (hw : promotionWaits s o c = false) (hs : c.source ≠ o.homeTier) (ht : c.source ≠ tier) :
    ∃ t, exec (.promotionEnd obj tier .copyBad) s = .next t ∧ copyOf? t obj c.source = none ∧
      (copyOf? t obj tier).map (·.state) = some .promoting := by
  refine ⟨dropBad o c.source (countBadSource o c (noteCauses s)), ?_, ?_, ?_⟩
  · show Host.Outcome.next (promotionEndEffect obj tier .copyBad s) = _
    rw [promotionEnd_eq ho hc hp hw]
    simp only [promoteResult, if_neg hs]
  · rw [← objOf_id ho]
    exact copyOf_dropBad_none _
  · rw [← objOf_id ho, copyOf_dropBad_state ht, copyOf_congr (((countBadSource_keepsErrs o c _).tier_eq rfl).trans
      ((noteCauses_keepsCells s).tier_eq rfl)), objOf_id ho, hc, Option.map_some, hp]

theorem evictionEnd_absent (hi : stepActive s = false) (hc : copyOf? s obj tier = some c) (he : c.state = .evicting)
    (hr : isRead s obj tier = false) : ∃ t, exec (.evictionEnd obj tier) s = .next t ∧ copyOf? t obj tier = none := by
  refine ⟨_, rfl, ?_⟩
  have hn : ¬ (c.state ≠ .evicting ∨ isRead s obj tier = true) := by simp [he, hr]
  have hd := dropCopy_noCopyAppears obj tier s
  have hs := residencyEvents_copies obj tier 0x03 stOk c.evictTags (dropCopy obj tier s)
  show copyOf? (evictionEndEffect obj tier s) obj tier = none
  simp only [evictionEndEffect, hc, if_neg hn]
  rw [retryEnsures_inactive (hs.idle (hd.idle hi))]
  exact hs.copyOf_none (copyOf_dropCopy obj tier s)

end

/-- Settles O43. -/
theorem promotionsStartAndEnd : Obligations.PromotionsStartAndEnd := by
  unfold Obligations.PromotionsStartAndEnd
  intro s obj tier hi
  refine ⟨fun d o hd he ho hr h2 => promotionStart_starts hd he ho hr h2, fun o c ho hc hp hw => ?_,
    fun c hc he hr => evictionEnd_absent hi hc he hr⟩
  exact ⟨fun w hb => promotionEnd_badSource hi ho hc hp hw hb, fun hb hs => promotionEnd_barred hi ho hc hp hw hb hs,
    fun a hb hr hs ha hd => promotionEnd_completes hi ho hc hp hw hb hr hs ha hd,
    fun hs => promotionEnd_homeBad hi ho hc hp hw hs, fun hs ht => promotionEnd_copyBad ho hc hp hw hs ht⟩

end Sys2Proof.Claims
end

section
/-! SUPPORT. Requests on their way (R323 to R327, R336 to R346, R350): what a sent request adds to remote memory's state, one
request after another, and the tasks of remote memory. -/

namespace Sys2Proof.Machine

/-! ## One request -/

/-- A request stands as it was sent, and its packet waits in the loopback or for its output. -/
def SentAs (me cell index : Nat) (loop : List Packet) (tx : List TxItem) (e : Out × Answer) (r : Request) : Prop :=
  r.dst = e.1.dst ∧ r.cell = cell ∧ r.index = index ∧ r.answerAt = e.2.answerAt ∧ r.landing = e.2.landing ∧ r.bg = e.2.bg ∧
    r.packet.vcop = BitVec.ofNat 8 (32 * e.1.vc + e.1.op) ∧ r.packet.addr = BitVec.ofNat 64 e.1.addr ∧
    r.packet.payload = e.1.payload ∧ r.packet.hcrc = hcrcOf r.packet ∧
    (if e.1.dst % 2 ^ 20 = me then r.packet ∈ loop else ∃ x ∈ tx, x.packet = r.packet)

theorem SentAs.mono {me cell index : Nat} {l l' : List Packet} {x x' : List TxItem} {e : Out × Answer} {r : Request}
    (h : SentAs me cell index l x e r) (hl : l ⊆ l') (hx : x ⊆ x') : SentAs me cell index l' x' e r := by
  obtain ⟨h1, h2, h3, h4, h5, h6, h7, h8, h9, h10, h11⟩ := h
  refine ⟨h1, h2, h3, h4, h5, h6, h7, h8, h9, h10, ?_⟩
  split
  · next hd =>
    rw [if_pos hd] at h11
    exact hl h11
  · next hd =>
    rw [if_neg hd] at h11
    obtain ⟨i, hi, hp⟩ := h11
    exact ⟨i, hx hi, hp⟩

theorem packetOf_hcrc (s : State) (o : Out) (psn : Word) : (packetOf s o psn).hcrc = hcrcOf (packetOf s o psn) := rfl

theorem packetOf_dst (s : State) (o : Out) (psn : Word) : (packetOf s o psn).dst.toNat % 2 ^ 20 = o.dst % 2 ^ 20 := by
  show (BitVec.ofNat 32 (o.dst % 2 ^ 20)).toNat % 2 ^ 20 = _
  rw [BitVec.toNat_ofNat]
  omega

/-- The packets that a task sends, in order: requests as sent after those there were, and nothing taken from the queues. -/
def Posts (cell index : Nat) (outs : List (Out × Answer)) (s t : State) : Prop :=
  t.fab = s.fab ∧ s.rem.loop ⊆ t.rem.loop ∧ s.rem.tx ⊆ t.rem.tx ∧
    ∃ rs, t.rem.requests = s.rem.requests ++ rs ∧ List.Forall₂ (SentAs (selfId s) cell index t.rem.loop t.rem.tx) outs rs

namespace Posts
variable {cell index : Nat} {s t u : State} {o o' : List (Out × Answer)}

theorem nil_of_eq (h : t.fab = s.fab) (g : t.rem = s.rem) : Posts cell index [] s t :=
  ⟨h, by rw [g]; exact fun _ => id, by rw [g]; exact fun _ => id, [], by simp [g], .nil⟩

theorem trans (h : Posts cell index o s t) (g : Posts cell index o' t u) : Posts cell index (o ++ o') s u := by
  obtain ⟨hf, hl, hx, rs, hr, ha⟩ := h
  obtain ⟨gf, gl, gx, qs, gr, ga⟩ := g
  refine ⟨gf.trans hf, fun _ q => gl (hl q), fun _ q => gx (hx q), rs ++ qs, by rw [gr, hr, List.append_assoc], List.rel_append ?_ ?_⟩
  · exact ha.imp fun _ _ h => h.mono gl gx
  · rwa [selfId_congr hf] at ga

theorem before (g : Posts cell index o t u) (h : t.fab = s.fab) (k : t.rem = s.rem) : Posts cell index o s u :=
  trans (nil_of_eq h k) g

theorem after (h : Posts cell index o s t) (g : u.fab = t.fab) (k : u.rem = t.rem) : Posts cell index o s u := by
  have := trans h (nil_of_eq g k)
  rwa [List.append_nil] at this

theorem flatMap {α : Type} {f : State → α → State} {w : α → List (Out × Answer)} (h : ∀ t a, Posts cell index (w a) t (f t a))
    (l : List α) (s : State) : Posts cell index (l.flatMap w) s (l.foldl f s) := by
  induction l generalizing s with
  | nil => exact nil_of_eq rfl rfl
  | cons a r ih => exact trans (h s a) (ih _)

theorem map {α : Type} {f : State → α → State} {w : α → Out × Answer} (h : ∀ t a, Posts cell index [w a] t (f t a))
    (l : List α) (s : State) : Posts cell index (l.map w) s (l.foldl f s) := by
  rw [List.map_eq_flatMap]
  exact flatMap h l s

end Posts

theorem dispatchPacket_posts (p : Packet) (request : Bool) (source : Nat) (s : State) :
    (dispatchPacket p request source s).fab = s.fab ∧ (dispatchPacket p request source s).rem.requests = s.rem.requests ∧
      (dispatchPacket p request source s).rem.pairs = s.rem.pairs ∧
      s.rem.loop ⊆ (dispatchPacket p request source s).rem.loop ∧ s.rem.tx ⊆ (dispatchPacket p request source s).rem.tx ∧
      (if p.dst.toNat % 2 ^ 20 = selfId s then p ∈ (dispatchPacket p request source s).rem.loop
        else ∃ x ∈ (dispatchPacket p request source s).rem.tx, x.packet = p) := by
  unfold dispatchPacket
  split
  · exact ⟨rfl, rfl, rfl, fun _ h => List.mem_append_left _ h, fun _ => id, by simp⟩
  · exact ⟨rfl, rfl, rfl, fun _ => id, fun _ h => List.mem_append_left _ h, by simp⟩

/-- The request that a send adds. -/
def requestOf (cell index : Nat) (o : Out) (a : Answer) (s : State) : Request where
  dst := o.dst
  packet := packetOf s o (pairOf s o.dst).nextPsn
  cluster := clusterOf cell
  cell := cell
  index := index
  step := match s.ctl.run with
    | some r => r.g.step
    | none => 0
  answerAt := a.answerAt
  landing := a.landing
  bg := a.bg
  timer := 0
  sent := 0
  port := none

/-- The state with a request's number and entry, before its packet goes on its way. -/
def withRequest (cell index : Nat) (o : Out) (a : Answer) (s : State) : State :=
  { s with rem := { s.rem with
    pairs := kvPut s.rem.pairs o.dst { pairOf s o.dst with
      nextPsn := (pairOf s o.dst).nextPsn + 1
      atomics := if o.op = 0x08 then (pairOf s o.dst).atomics ++ [(pairOf s o.dst).nextPsn] else (pairOf s o.dst).atomics }
    requests := s.rem.requests ++ [requestOf cell index o a s] } }

theorem sendRequest_eq (cell index : Nat) (o : Out) (a : Answer) (s : State) : sendRequest cell index o a s =
    dispatchPacket (packetOf s o (pairOf s o.dst).nextPsn) true (exchangeSource (clusterOf cell)) (withRequest cell index o a s) := rfl

theorem sendRequest_posts (cell index : Nat) (o : Out) (a : Answer) (s : State) :
    Posts cell index [(o, a)] s (sendRequest cell index o a s) := by
  rw [sendRequest_eq]
  obtain ⟨hf, hr, -, hl, hx, hd⟩ := dispatchPacket_posts (packetOf s o (pairOf s o.dst).nextPsn) true
    (exchangeSource (clusterOf cell)) (withRequest cell index o a s)
  have hs : selfId (withRequest cell index o a s) = selfId s := rfl
  rw [packetOf_dst, hs] at hd
  exact ⟨hf, hl, hx, [requestOf cell index o a s], hr,
    .cons ⟨rfl, rfl, rfl, rfl, rfl, rfl, rfl, rfl, rfl, packetOf_hcrc s o _, hd⟩ .nil⟩

/-! ## The numbers of a pair -/

/-- Requests to one device follow the pair's next PSN. -/
structure Numbered (dest n : Nat) (s t : State) : Prop where
  next : (pairOf t dest).nextPsn = (pairOf s dest).nextPsn + BitVec.ofNat 32 n
  psns : ∃ rs, t.rem.requests = s.rem.requests ++ rs ∧ rs.length = n ∧
    ∀ i r, rs[i]? = some r → r.packet.psn = (pairOf s dest).nextPsn + BitVec.ofNat 32 i

namespace Numbered
variable {dest n m : Nat} {s t u : State}

theorem zero_of_eq (g : t.rem = s.rem) : Numbered dest 0 s t :=
  ⟨by simp [pairOf, g], [], by simp [g], rfl, fun i r h => by simp at h⟩

theorem trans (h : Numbered dest n s t) (g : Numbered dest m t u) : Numbered dest (n + m) s u := by
  obtain ⟨rs, hr, hn, hp⟩ := h.psns
  obtain ⟨qs, gr, gm, gp⟩ := g.psns
  refine ⟨by rw [g.next, h.next, BitVec.ofNat_add, BitVec.add_assoc], rs ++ qs, by rw [gr, hr, List.append_assoc], by simp [hn, gm],
    fun i r hi => ?_⟩
  by_cases hlt : i < rs.length
  · rw [List.getElem?_append_left hlt] at hi
    exact hp i r hi
  · rw [List.getElem?_append_right (by omega)] at hi
    rw [gp _ r hi, h.next, BitVec.add_assoc, ← BitVec.ofNat_add, hn]
    congr 2
    omega

theorem foldl {α : Type} {f : State → α → State} (h : ∀ t a, Numbered dest 1 t (f t a)) (l : List α) (s : State) :
    Numbered dest l.length s (l.foldl f s) := by
  induction l generalizing s with
  | nil => exact zero_of_eq rfl
  | cons a r ih =>
    rw [List.length_cons, Nat.add_comm]
    exact trans (h s a) (ih _)

end Numbered

theorem sendRequest_numbered (cell index : Nat) (o : Out) (a : Answer) (s : State) :
    Numbered o.dst 1 s (sendRequest cell index o a s) := by
  rw [sendRequest_eq]
  obtain ⟨-, hr, hp, -, -, -⟩ := dispatchPacket_posts (packetOf s o (pairOf s o.dst).nextPsn) true
    (exchangeSource (clusterOf cell)) (withRequest cell index o a s)
  refine ⟨?_, [requestOf cell index o a s], hr, rfl, fun i r hi => ?_⟩
  · rw [pairOf, hp, kvGetD, withRequest]
    dsimp only
    rw [kvGet_kvPut_self]
    rfl
  · obtain ⟨rfl, rfl⟩ : i = 0 ∧ r = requestOf cell index o a s := by
      cases i with
      | zero => exact ⟨rfl, by simpa using hi.symm⟩
      | succ i => simp at hi
    simp [requestOf, packetOf, sealPacket]

theorem sendEach_posts (cell index n : Nat) (f : Nat → Out × Answer) (s : State) :
    Posts cell index ((List.range n).map f) s (sendEach cell index n f s) :=
  .map (fun t i => sendRequest_posts cell index (f i).1 (f i).2 t) _ s

theorem sendEach_numbered {cell index n dest : Nat} {f : Nat → Out × Answer} (h : ∀ i, (f i).1.dst = dest) (s : State) :
    Numbered dest n s (sendEach cell index n f s) := by
  have hn := Numbered.foldl (dest := dest) (f := fun t i => sendRequest cell index (f i).1 (f i).2 t)
    (fun t i => by rw [← h i]; exact sendRequest_numbered _ _ _ _ _) (List.range n) s
  rwa [List.length_range] at hn

/-! ## A step fault makes no request -/

theorem queueControls_requests (p : Packet) (l : List Nat) (s : State) : (queueControls p l s).rem.requests = s.rem.requests := by
  induction l generalizing s with
  | nil => rfl
  | cons port r ih =>
    refine (ih _).trans ?_
    unfold queueControl
    split <;> rfl

theorem stepFault_requests (cause : Nat) (s : State) : (stepFault cause s).rem.requests = s.rem.requests := by
  unfold stepFault
  split
  · rfl
  · split
    · rfl
    · exact queueControls_requests _ _ _

end Sys2Proof.Machine

namespace Sys2Proof.Claims

open Sys2Proof.Machine

/-- Requests that a task has posted are those that it sends. -/
theorem sends_of_posts {cell : Nat} {d : Desc} {outs : List (Out × Answer)} {s t : State} (h : Posts cell d.index outs s t) :
    Sends cell d outs s t := by
  obtain ⟨-, -, -, rs, hr, ha⟩ := h
  obtain ⟨hlen, hz⟩ := List.forall₂_iff_zip.1 ha
  refine ⟨by rw [hr, List.length_append, hlen], by rw [hr, List.take_left], fun e he => ?_⟩
  rw [hr, List.drop_left] at he
  exact hz he

section
variable {s : State} {cell : Nat} {d : Desc}

/-- What an FM task does: it sends its packets, numbered on from the pair's next PSN, or is barred from its local memory. -/
abbrev FmSends (cell : Nat) (d : Desc) (op len : Nat) (work : Nat → Desc → State → TaskEnd × State) (outs : List (Out × Answer))
    (s : State) : Prop :=
  (accessOk s (fmOf d).loc len = true → ∃ t, Host.Outcome.next (issueFm op work cell .clean s) =
      (.next t : Host.Outcome State Fault Refusal) ∧ Taken cell d false t ∧ t.mem = s.mem ∧ Sends cell d outs s t ∧
    (pairOf t (fmOf d).dest).nextPsn = (pairOf s (fmOf d).dest).nextPsn + BitVec.ofNat 32 outs.length ∧
    ∀ (i : Nat) (r : Request), i < outs.length → t.rem.requests[s.rem.requests.length + i]? = some r →
      r.packet.psn = (pairOf s (fmOf d).dest).nextPsn + BitVec.ofNat 32 i) ∧
  (accessOk s (fmOf d).loc len = false → ∃ t, Host.Outcome.next (issueFm op work cell .clean s) =
      (.next t : Host.Outcome State Fault Refusal) ∧ Stopped 0x0E s t ∧ t.rem.requests = s.rem.requests)

theorem fm_sends {op len : Nat} {work : Nat → Desc → State → TaskEnd × State} {f : State → State} {outs : List (Out × Answer)}
    (h : Issues 6 (fun z => bodyOp z == op && (isVoid s cell z || requestRoom s cell)) cell d s)
    (hwork : work cell d (inUnit cell d s) = fmGuard (fmOf d).loc len f (inUnit cell d s))
    (hk : Keeps [.rem] (inUnit cell d s) (f (inUnit cell d s)))
    (hp : Posts cell d.index outs (inUnit cell d s) (f (inUnit cell d s)))
    (hn : Numbered (fmOf d).dest outs.length (inUnit cell d s) (f (inUnit cell d s))) : FmSends cell d op len work outs s := by
  have ki := inUnit_keeps cell d s
  refine ⟨fun ha => ⟨_, rfl, ?_⟩, fun ha => ⟨_, rfl, ?_⟩⟩
  · obtain ⟨hi, hv, hc, hw⟩ := h
    have hw1 : work cell d (inUnit cell d s) = (.waits, f (inUnit cell d s)) := by
      rw [hwork]
      exact if_pos ((accessOk_inUnit _ _).trans ha)
    obtain ⟨ht, kt⟩ := issueTask_finishes hi hv hc hw fmReads (work := work) (by rw [hw1]; exact hk.cells_eq rfl)
      (by rw [hw1]; exact runFault_congr (hk.ctl_eq rfl))
    rw [hw1] at ht kt
    unfold issueFm
    have hpost := (hp.before (ki.fab_eq rfl) (ki.rem_eq rfl)).after (kt.fab_eq rfl) (kt.rem_eq rfl)
    have hnum := (Numbered.zero_of_eq (dest := (fmOf d).dest) (ki.rem_eq rfl)).trans (hn.trans (.zero_of_eq (kt.rem_eq rfl)))
    rw [Nat.zero_add, Nat.add_zero] at hnum
    obtain ⟨rs, hr, -, hpsn⟩ := hnum.psns
    refine ⟨ht, ?_, sends_of_posts hpost, hnum.next, fun i r _ hri => hpsn i r ?_⟩
    · rw [kt.mem_eq rfl, hk.mem_eq rfl, ki.mem_eq rfl]
    · rw [hr, List.getElem?_append_right (by omega), Nat.add_sub_cancel_left] at hri
      exact hri
  · have hw0 : (work cell d (inUnit cell d s)).2 = stepFault 0x0E (inUnit cell d s) := by
      rw [hwork, fmGuard, if_neg (by rw [accessOk_inUnit, ha]; exact Bool.false_ne_true)]
      rfl
    refine ⟨(issueTask_barred h fmReads hw0).1, ?_⟩
    obtain ⟨hi, hv, hc, hw⟩ := h
    unfold issueFm
    rw [issueTask_clean hi hv hc hw, (workEnds_keeps _).rem_eq rfl, hw0, stepFault_requests, ki.rem_eq rfl]

/-- One that sends a single packet. -/
theorem fm_sends_one {op len : Nat} {work : Nat → Desc → State → TaskEnd × State} {o : Out} {a : Answer}
    (h : Issues 6 (fun z => bodyOp z == op && (isVoid s cell z || requestRoom s cell)) cell d s) (ho : o.dst = (fmOf d).dest)
    (hwork : work cell d (inUnit cell d s) = fmGuard (fmOf d).loc len (sendRequest cell d.index o a) (inUnit cell d s)) :
    FmSends cell d op len work [(o, a)] s :=
  fm_sends h hwork ((sendRequest_keeps _ _ _ _ _ rfl).2 (.refl _ _)) (sendRequest_posts cell d.index o a _)
    (ho ▸ sendRequest_numbered cell d.index o a (inUnit cell d s))

/-- One that sends a packet for each part of its length. -/
theorem fm_sends_each {op len n : Nat} {work : Nat → Desc → State → TaskEnd × State} {f : Nat → Out × Answer}
    (h : Issues 6 (fun z => bodyOp z == op && (isVoid s cell z || requestRoom s cell)) cell d s)
    (ho : ∀ i, (f i).1.dst = (fmOf d).dest)
    (hwork : work cell d (inUnit cell d s) = fmGuard (fmOf d).loc len (sendEach cell d.index n f) (inUnit cell d s)) :
    FmSends cell d op len work ((List.range n).map f) s :=
  fm_sends (outs := (List.range n).map f) h hwork ((sendEach_keeps _ _ _ _ _ rfl).2 (.refl _ _)) (sendEach_posts cell d.index n f _)
    (by rw [List.length_map, List.length_range]; exact sendEach_numbered ho _)

theorem getBytes_inUnit (a n : Nat) : getBytes (inUnit cell d s) a n = memRead s.mem a n := by
  rw [getBytes, (inUnit_keeps cell d s).mem_eq rfl]

end

/-- Settles O41. -/
theorem remoteTasksSend : Obligations.RemoteTasksSend := by
  unfold Obligations.RemoteTasksSend
  intro s cell d
  refine ⟨fun h => fm_sends_one h rfl rfl, fun h => fm_sends_one h rfl ?_, fun h => fm_sends_one h rfl ?_,
    fun h => fm_sends_each h (fun _ => rfl) ?_, fun h => fm_sends_each h (fun _ => rfl) rfl, fun h => fm_sends_one h rfl ?_⟩
  · simp only [fmStore, getBytes_inUnit]
  · simp only [fmAtomic, getBytes_inUnit]
    rfl
  · simp only [fmPut, getBytes_inUnit]
  · simp only [fmFlagStore, getBytes_inUnit]

end Sys2Proof.Claims
end

section
/-! SUPPORT. Messages of exchanges and collectives (R199 to R218, R383 to R387): what a task that has been taken sees of the device,
and what it sends. -/

namespace Sys2Proof.Machine

/-! ## The device as a taken task sees it -/

/-- A task has been taken from a run: cells and idle time differ. -/
def taskTaken (C : KV Cell) (r : Run) (s : State) : State :=
  { s with cells := C, ctl := { s.ctl with run := some { r with idle := 0 } } }

theorem inUnit_eq {s : State} {r : Run} (hr : s.ctl.run = some r) (cell : Nat) (d : Desc) :
    inUnit cell d s = taskTaken (inUnit cell d s).cells r s := by
  have h : (inUnit cell d s).ctl = { s.ctl with run := some { r with idle := 0 } } := by
    show (progress _).ctl = _
    simp only [progress]
    split
    · next h => exact absurd (hr.symm.trans h) (by simp)
    · next q h =>
      obtain rfl : r = q := Option.some_inj.1 (hr.symm.trans h)
      rfl
  conv_lhs => rw [eq_of_keeps_cells_ctl (inUnit_keeps cell d s), h]
  rfl

/-- What looks at neither cells nor idle time sees the same. -/
theorem view_taken {α : Sort _} (F : State → α) {C : KV Cell} {r : Run} {s : State} (hr : s.ctl.run = some r)
    (h : ∀ u : State, F (taskTaken C r { u with ctl := { u.ctl with run := some r } }) = F { u with ctl := { u.ctl with run := some r } }) :
    F (taskTaken C r s) = F s := by
  have hs : s = { s with ctl := { s.ctl with run := some r } } := by rw [← hr]
  rw [hs]
  exact h s

section
variable {C : KV Cell} {r : Run} {s : State} (hr : s.ctl.run = some r)
include hr

theorem runStep_taken : runStep (taskTaken C r s) = runStep s := view_taken runStep hr fun _ => rfl
theorem payloadRow_taken : payloadRow (taskTaken C r s) = payloadRow s := view_taken payloadRow hr fun _ => rfl
theorem sectionBids_taken : sectionBids (taskTaken C r s) = sectionBids s := view_taken sectionBids hr fun _ => rfl
theorem rowPlans_taken : rowPlans (taskTaken C r s) = rowPlans s := view_taken rowPlans hr fun _ => rfl
theorem acceptedBids_taken : acceptedBids (taskTaken C r s) = acceptedBids s := view_taken acceptedBids hr fun _ => rfl
theorem beyondMask_taken : beyondMask (taskTaken C r s) = beyondMask s := view_taken beyondMask hr fun _ => rfl
theorem homeMessage_taken : homeMessage (taskTaken C r s) = homeMessage s := view_taken homeMessage hr fun _ => rfl
theorem slotAnswers_taken : slotAnswers (taskTaken C r s) = slotAnswers s := view_taken slotAnswers hr fun _ => rfl
theorem exchangeHeader_taken : exchangeHeader (taskTaken C r s) = exchangeHeader s := view_taken exchangeHeader hr fun _ => rfl
theorem collHeader_taken : collHeader (taskTaken C r s) = collHeader s := view_taken collHeader hr fun _ => rfl

theorem payloadRows_taken (f : Xc) (l : Layer) (x : XPlan) (bs : List Bid) :
    payloadRows (taskTaken C r s) f l x bs = payloadRows s f l x bs := by
  induction bs with
  | nil => rfl
  | cons b bs ih => rw [payloadRows, payloadRows, payloadRow_taken hr, ih]

theorem sourceSection_taken (cell kind : Nat) (f : Xc) (l : Layer) (x : XPlan) :
    sourceSection (taskTaken C r s) cell kind f l x = sourceSection s cell kind f l x := by
  have hd : destId (taskTaken C r s) = destId s := rfl
  funext i c
  simp only [sourceSection, sectionBids_taken hr, rowPlans_taken hr, acceptedBids_taken hr, payloadRows_taken hr, hd]

end

theorem run_of_active {s : State} (h : stepActive s = true) : ∃ r, s.ctl.run = some r := by
  cases hr : s.ctl.run with
  | none => simp [stepActive, hr] at h
  | some r => exact ⟨r, rfl⟩

end Sys2Proof.Machine

namespace Sys2Proof.Claims

open Sys2Proof.Machine

/-! ## One message, and those of an exchange -/

theorem sendMessage_posts (cell index op dst : Nat) (header : Nat → List Byte) (body : List Byte) (s : State) :
    Posts cell index (messageOuts op dst header body) s (sendMessage cell index op dst header body s) := by
  have k : Keeps [.dbg] s (perfAdd (clusterOf cell) 0x09 body.length s) := (perfAdd_keeps _ _ _ _ rfl).2 (.refl _ s)
  refine Posts.before ?_ (k.fab_eq rfl) (k.rem_eq rfl)
  exact .map (fun t i => sendRequest_posts cell index _ _ t) _ _

/-- The packets of the messages of an exchange, with the headers that a state gives. -/
def exchangeOuts (u : State) (cell : Nat) (d : Desc) (kind : Nat) (ms : List (Nat × Nat × List Byte)) : List (Out × Answer) :=
  ms.flatMap fun m => messageOuts 0x01 m.1
    (exchangeHeader u (xcOf d).layer kind (xcOf d).round (clusterOf cell) m.2.1 m.2.2.length) m.2.2

theorem sendMessages_posts (cell : Nat) (d : Desc) (kind : Nat) (ms : List (Nat × Nat × List Byte)) (s : State) :
    Posts cell d.index (exchangeOuts s cell d kind ms) s (sendMessages cell d kind ms s) :=
  .flatMap (fun t _ => sendMessage_posts _ _ _ _ _ _ t) ms s

section
variable {s : State} {cell : Nat} {d : Desc}

theorem accessOk_taken (C : KV Cell) (r : Run) (a n : Nat) : accessOk (taskTaken C r s) a n = accessOk s a n :=
  accessOk_congr rfl rfl a n

/-- An exchange task that sends its messages: `w` is the state that they are made of, once the task's memory writes are done. -/
theorem exchange_sends {kind : Nat} {reads : Nat → Desc → State → Nat → Nat → Bool} {work : Nat → Desc → State → TaskEnd × State}
    {w : State} {r : Run} {ms : List (Nat × Nat × List Byte)} (h : Issues 5 (fun z => bodyOp z == kind) cell d s)
    (hr : s.ctl.run = some r) (hw : Keeps [.mem] s w)
    (hwork : work cell d (inUnit cell d s) = (.waits, sendMessages cell d kind ms (taskTaken (inUnit cell d s).cells r w))) :
    ∃ t, Host.Outcome.next (issueTask 5 (fun z => bodyOp z == kind) reads work cell .clean s) =
        (.next t : Host.Outcome State Fault Refusal) ∧ Taken cell d false t ∧ t.mem = w.mem ∧
      Sends cell d (exchangeOuts w cell d kind ms) s t := by
  obtain ⟨hi, hv, hc, hg⟩ := h
  have hrw : w.ctl.run = some r := (congrArg Ctl.run (hw.ctl_eq rfl)).trans hr
  generalize hC : (inUnit cell d s).cells = C at hwork
  have hu : inUnit cell d s = taskTaken C r s := by
    rw [inUnit_eq hr, hC]
  have km : Keeps [.rem, .dbg] (taskTaken C r w) (sendMessages cell d kind ms (taskTaken C r w)) :=
    (sendMessages_keeps _ _ _ _ _ rfl).2 (.refl _ _)
  have hpost : Posts cell d.index (exchangeOuts w cell d kind ms) (taskTaken C r w) (sendMessages cell d kind ms (taskTaken C r w)) := by
    have := sendMessages_posts cell d kind ms (taskTaken C r w)
    rwa [exchangeOuts, exchangeHeader_taken hrw] at this
  have hctl : (taskTaken C r w).ctl = (inUnit cell d s).ctl := by
    rw [hu, taskTaken, hw.ctl_eq rfl]
    rfl
  obtain ⟨ht, kt⟩ := issueTask_finishes hi hv hc hg reads (work := work)
    (by rw [hwork, hC]; exact km.cells_eq rfl)
    (by rw [hwork]; exact runFault_congr ((km.ctl_eq rfl).trans hctl))
  rw [hwork] at ht kt
  refine ⟨_, rfl, ht, ?_, sends_of_posts ((hpost.before (s := s) (hw.fab_eq rfl) (hw.rem_eq rfl)).after (kt.fab_eq rfl) (kt.rem_eq rfl))⟩
  rw [kt.mem_eq rfl]
  exact km.mem_eq rfl

/-- The state that a source task's messages are made of: its presence bits are cleared in the first round. -/
def sourceState (kind : Nat) (f : Xc) (l : Layer) (x : XPlan) (s : State) : State :=
  if kind = 3 ∨ (kind = 0 ∧ f.round = 0) then clearPresence f l x s else s

theorem sourceState_keeps (kind : Nat) (f : Xc) (l : Layer) (x : XPlan) (s : State) : Keeps [.mem] s (sourceState kind f l x s) := by
  unfold sourceState
  split
  · simp [within, clearPresence]
  · exact .refl _ s

theorem sourceState_taken (kind : Nat) (f : Xc) (l : Layer) (x : XPlan) (C : KV Cell) (r : Run) (s : State) :
    sourceState kind f l x (taskTaken C r s) = taskTaken C r (sourceState kind f l x s) := by
  unfold sourceState
  split <;> rfl

/-- The layer and the plan that an exchange task names. -/
def xcLayer (d : Desc) (s : State) : Layer := layerOf s (xcOf d).layer
def xcPlan (d : Desc) (s : State) : XPlan := xplanOf s (xcOf d).plan

/-- The messages of a source task, made of a state. -/
def sourceMessages (x : XPlan) (ms : List (Nat × List Sect)) (u : State) : List (Nat × Nat × List Byte) :=
  ms.map fun m => (destId u x m.1, x.landMask, messageBody m.2)

theorem xcSource_eq {u : State} {kind : Nat} {ms : List (Nat × List Sect)} (hp : parityAdmits (xcPlan d u) (runStep u) = true)
    (hb : beyondMask u (xcOf d) (xcPlan d u) = false)
    (ha : kind ≠ 0 → accessOk u (xcOf d).data (((xcOf d).count - 1) * (xcOf d).stride + (xcPlan d u).rowBytes) = true)
    (hm : sections (sourceSection (sourceState kind (xcOf d) (xcLayer d u) (xcPlan d u) u) cell kind (xcOf d) (xcLayer d u) (xcPlan d u))
      (xcPlan d u) (List.range (xcPlan d u).destCount) = some ms) :
    xcSource kind cell d u = (.waits, sendMessages cell d kind
      (sourceMessages (xcPlan d u) ms (sourceState kind (xcOf d) (xcLayer d u) (xcPlan d u) u))
      (sourceState kind (xcOf d) (xcLayer d u) (xcPlan d u) u)) := by
  have hacc : ¬ (kind ≠ 0 ∧ accessOk u (xcOf d).data (((xcOf d).count - 1) * (xcOf d).stride + (xcPlan d u).rowBytes) = false) :=
    fun q => Bool.noConfusion ((ha q.1).symm.trans q.2)
  unfold xcLayer xcPlan at *
  unfold xcSource
  dsimp only
  rw [hp, if_neg (by simp), hb, if_neg Bool.false_ne_true, if_neg hacc]
  unfold sourceState at hm ⊢
  simp only [hm]
  rfl

theorem source_sends {kind : Nat} {reads : Nat → Desc → State → Nat → Nat → Bool} (h : Issues 5 (fun z => bodyOp z == kind) cell d s)
    (hp : parityAdmits (xcPlan d s) (runStep s) = true) (hb : beyondMask s (xcOf d) (xcPlan d s) = false)
    (ha : kind ≠ 0 → accessOk s (xcOf d).data (((xcOf d).count - 1) * (xcOf d).stride + (xcPlan d s).rowBytes) = true)
    {ms : List (Nat × List Sect)}
    (hm : sections (sourceSection (sourceState kind (xcOf d) (xcLayer d s) (xcPlan d s) s) cell kind (xcOf d) (xcLayer d s) (xcPlan d s))
      (xcPlan d s) (List.range (xcPlan d s).destCount) = some ms) :
    ∃ t, Host.Outcome.next (issueTask 5 (fun z => bodyOp z == kind) reads (xcSource kind) cell .clean s) =
        (.next t : Host.Outcome State Fault Refusal) ∧ Taken cell d false t ∧
      t.mem = (sourceState kind (xcOf d) (xcLayer d s) (xcPlan d s) s).mem ∧
      Sends cell d (exchangeOuts (sourceState kind (xcOf d) (xcLayer d s) (xcPlan d s) s) cell d kind
        (sourceMessages (xcPlan d s) ms (sourceState kind (xcOf d) (xcLayer d s) (xcPlan d s) s))) s t := by
  obtain ⟨r, hr⟩ := run_of_active (issuable_active h.1).1
  have hwk := sourceState_keeps kind (xcOf d) (xcLayer d s) (xcPlan d s) s
  refine exchange_sends h hr hwk ?_
  have hu := inUnit_eq hr cell d
  generalize (inUnit cell d s).cells = C at hu
  rw [hu]
  have hplan : xcPlan d (taskTaken C r s) = xcPlan d s := rfl
  have hlayer : xcLayer d (taskTaken C r s) = xcLayer d s := rfl
  have heq := xcSource_eq (cell := cell) (d := d) (u := taskTaken C r s) (kind := kind) (ms := ms)
    (by rw [hplan, runStep_taken hr, hp]) (by rw [hplan, beyondMask_taken hr, hb]) (fun h0 => by rw [hplan, accessOk_taken, ha h0])
    (by rw [hplan, hlayer, sourceState_taken, sourceSection_taken ((congrArg Ctl.run (hwk.ctl_eq rfl)).trans hr), hm])
  rw [hplan, hlayer, sourceState_taken] at heq
  rw [heq]
  rfl

/-- The answers of a home task. -/
def homeAnswers (kind : Nat) (d : Desc) (s : State) : List (Nat × List Byte) :=
  if kind = 4 then (List.range (xcOf d).slotCount).flatMap fun i =>
    slotAnswers s (xcOf d) (xcLayer d s) (xcPlan d s) ((xcOf d).slotFirst + i) else []

/-- The messages of a home task. -/
def homeMessages (kind : Nat) (d : Desc) (s : State) : List (Nat × Nat × List Byte) :=
  (List.range (xcPlan d s).fwdSenders).map fun k =>
    (srcEntry s (xcPlan d s) k % 2 ^ 20, 2 ^ (srcEntry s (xcPlan d s) k / 2 ^ 20),
      homeMessage s kind (xcOf d) (xcPlan d s) (homeAnswers kind d s) k)

theorem xcHome_eq {u : State} {kind : Nat} (hp : parityAdmits (xcPlan d u) (runStep u) = true)
    (ha : kind = 4 → accessOk u (xcOf d).work ((xcOf d).slotCount * workBytes (xcLayer d u)) = true ∧
      accessOk u (xcOf d).data (((xcOf d).slotCount * (xcPlan d u).rowRoom - 1) * (xcOf d).stride + (xcPlan d u).ansBytes) = true) :
    xcHome kind cell d u = (.waits, sendMessages cell d kind (homeMessages kind d u) u) := by
  have hacc : ¬ (kind = 4 ∧ (accessOk u (xcOf d).work ((xcOf d).slotCount * workBytes (xcLayer d u)) = false ∨
      accessOk u (xcOf d).data (((xcOf d).slotCount * (xcPlan d u).rowRoom - 1) * (xcOf d).stride + (xcPlan d u).ansBytes) = false)) := by
    rintro ⟨h4, h1⟩
    rw [(ha h4).1, (ha h4).2] at h1
    rcases h1 with h1 | h1 <;> cases h1
  unfold xcLayer xcPlan at *
  unfold xcHome
  dsimp only
  rw [hp, if_neg (by simp), if_neg hacc]
  rfl

theorem homeMessages_taken {C : KV Cell} {r : Run} (hr : s.ctl.run = some r) (kind : Nat) :
    homeMessages kind d (taskTaken C r s) = homeMessages kind d s := by
  have hplan : xcPlan d (taskTaken C r s) = xcPlan d s := rfl
  have hlayer : xcLayer d (taskTaken C r s) = xcLayer d s := rfl
  have hsrc : srcEntry (taskTaken C r s) = srcEntry s := rfl
  unfold homeMessages homeAnswers
  rw [hplan, hlayer, hsrc, slotAnswers_taken hr, homeMessage_taken hr]

theorem home_sends {kind : Nat} {reads : Nat → Desc → State → Nat → Nat → Bool} (h : Issues 5 (fun z => bodyOp z == kind) cell d s)
    (hp : parityAdmits (xcPlan d s) (runStep s) = true)
    (ha : kind = 4 → accessOk s (xcOf d).work ((xcOf d).slotCount * workBytes (xcLayer d s)) = true ∧
      accessOk s (xcOf d).data (((xcOf d).slotCount * (xcPlan d s).rowRoom - 1) * (xcOf d).stride + (xcPlan d s).ansBytes) = true) :
    ∃ t, Host.Outcome.next (issueTask 5 (fun z => bodyOp z == kind) reads (xcHome kind) cell .clean s) =
        (.next t : Host.Outcome State Fault Refusal) ∧ Taken cell d false t ∧ t.mem = s.mem ∧
      Sends cell d (exchangeOuts s cell d kind (homeMessages kind d s)) s t := by
  obtain ⟨r, hr⟩ := run_of_active (issuable_active h.1).1
  refine exchange_sends h hr (.refl _ s) ?_
  have hu := inUnit_eq hr cell d
  generalize (inUnit cell d s).cells = C at hu
  have hplan : xcPlan d (taskTaken C r s) = xcPlan d s := rfl
  have hlayer : xcLayer d (taskTaken C r s) = xcLayer d s := rfl
  rw [hu, xcHome_eq (by rw [hplan, runStep_taken hr, hp])
    (fun h4 => by rw [hplan, hlayer, accessOk_taken, accessOk_taken]; exact ha h4), homeMessages_taken hr]

end

/-- Settles O39. -/
theorem exchangeTasksSend : Obligations.ExchangeTasksSend := by
  unfold Obligations.ExchangeTasksSend
  intro s cell d f l x outs hp
  refine ⟨List.forall_mem_cons.2 ⟨?_, List.forall_mem_cons.2 ⟨?_, List.forall_mem_cons.2 ⟨?_, by simp⟩⟩⟩,
    List.forall_mem_cons.2 ⟨?_, List.forall_mem_cons.2 ⟨?_, by simp⟩⟩⟩
  · exact fun h hb ha ms hm => source_sends (kind := 0) h hp hb ha hm
  · exact fun h hb ha ms hm => source_sends (kind := 2) h hp hb ha hm
  · exact fun h hb ha ms hm => source_sends (kind := 3) h hp hb ha hm
  · exact fun h ha => home_sends (kind := 1) h hp ha
  · exact fun h ha => home_sends (kind := 4) h hp ha

end Sys2Proof.Claims
end

section
/-! SUPPORT. Collectives (R383 to R387): the chunks that a task sends, and the sum that it writes. -/

namespace Sys2Proof.Claims

open Sys2Proof.Machine

/-- The packets of a collective's messages to every other rank, with the headers and the members that a state gives. -/
def rankOuts (u : State) (d : Desc) (phase : Nat) (c : CPlan) (body : Nat → List Byte) : List (Out × Answer) :=
  ((List.range c.members).filter fun q => q != c.rank).flatMap fun q =>
    messageOuts 0x02 (memberId u c q) (collHeader u (collPlan d) phase c (body q).length) (body q)

theorem sendRanks_posts (cell : Nat) (d : Desc) (phase : Nat) (c : CPlan) (body : Nat → List Byte) (s : State) :
    Posts cell d.index (rankOuts s d phase c body) s (sendRanks cell d phase c body s) :=
  .flatMap (fun t _ => sendMessage_posts _ _ _ _ _ _ t) _ s

theorem sendRanks_keepsRem (cell : Nat) (d : Desc) (phase : Nat) (c : CPlan) (body : Nat → List Byte) (s : State) :
    Keeps [.rem, .dbg] s (sendRanks cell d phase c body s) := (sendRanks_keeps _ _ _ _ _ _ rfl).2 (.refl _ s)

theorem mapFlight_cells_congr {s t : State} (h : t.cells = s.cells) (cell index : Nat) (g : Flight → Flight) :
    (mapFlight cell index g t).cells = (mapFlight cell index g s).cells := by
  simp only [mapFlight, setCell, cellOf_congr h, h]

theorem mapFlight_keepsCells (cell index : Nat) (g : Flight → Flight) (s : State) : Keeps [.cells] s (mapFlight cell index g s) :=
  (mapFlight_keeps _ _ _ _ rfl).2 (.refl _ s)

theorem rankOuts_congr {s t : State} (hm : t.mem = s.mem) (hj : t.job = s.job) (hc : t.ctl = s.ctl) (d : Desc) (phase : Nat) (c : CPlan)
    (body : Nat → List Byte) : rankOuts t d phase c body = rankOuts s d phase c body := by
  have hmem : memberId t = memberId s := by
    funext c q
    rw [memberId, memberId, hm]
  have hhead : collHeader t = collHeader s := by
    funext p k c n o
    rw [collHeader, collHeader, runStep, runStep, hj, hc]
  rw [rankOuts, rankOuts, hmem, hhead]

section
variable {s : State} {cell : Nat} {d : Desc}

/-- The scatter sends every other rank its chunk, and the sum is still to be made. -/
theorem scatter_sends {op : Nat} (h : Issues 5 (fun z => bodyOp z == op) cell d s) :
    ∃ t, Host.Outcome.next (issueTask 5 (fun z => bodyOp z == op) scatterReads collScatter cell .clean s) =
        (.next t : Host.Outcome State Fault Refusal) ∧ Taken cell d false t ∧ t.mem = s.mem ∧
      (flight? t cell d.index).map (·.parts) = some [0] ∧
      Sends cell d (rankOuts s d 0 (cplanOf s (collPlan d)) fun q => memRead s.mem
        ((cplanOf s (collPlan d)).src + 16 * chunkStart (cplanOf s (collPlan d)) q) (chunkLen (cplanOf s (collPlan d)) q)) s t := by
  obtain ⟨hi, hv, hc, hw⟩ := h
  obtain ⟨r, hr⟩ := run_of_active (issuable_active hi).1
  have ki := inUnit_keeps cell d s
  generalize hbody : (fun q => memRead s.mem ((cplanOf s (collPlan d)).src + 16 * chunkStart (cplanOf s (collPlan d)) q)
    (chunkLen (cplanOf s (collPlan d)) q)) = body
  generalize hv' : sendRanks cell d 0 (cplanOf s (collPlan d)) body (inUnit cell d s) = v
  have hwork : collScatter cell d (inUnit cell d s) = (.waits, mapFlight cell d.index (fun t => { t with parts := [0] }) v) := by
    have hplan : cplanOf (inUnit cell d s) (collPlan d) = cplanOf s (collPlan d) := by rw [cplanOf, ki.job_eq rfl]; rfl
    rw [collScatter, hplan, ← hv', ← hbody]
    simp only [getBytes_inUnit]
  have kv : Keeps [.rem, .dbg] (inUnit cell d s) v := hv' ▸ sendRanks_keepsRem _ _ _ _ _ _
  have hcells : (mapFlight cell d.index (fun t => { t with parts := [0] }) v).cells =
      (mapFlight cell d.index (fun t => { t with parts := [0] }) (inUnit cell d s)).cells := mapFlight_cells_congr (kv.cells_eq rfl) _ _ _
  have ke := mapFlight_keepsCells cell d.index (fun t => { t with parts := [0] }) v
  have hact : stepActive (mapFlight cell d.index (fun t => { t with parts := [0] }) v) = true := by
    refine stepActive_iff.2 ?_
    rw [runFault_mapFlight, runFault_congr (kv.ctl_eq rfl)]
    exact stepActive_iff.1 (inUnit_active (issuable_active hi).1)
  have hpost : Posts cell d.index (rankOuts s d 0 (cplanOf s (collPlan d)) body) (inUnit cell d s) v := by
    have := sendRanks_posts cell d 0 (cplanOf s (collPlan d)) body (inUnit cell d s)
    rw [hv'] at this
    have hrank : rankOuts (inUnit cell d s) d 0 (cplanOf s (collPlan d)) body = rankOuts s d 0 (cplanOf s (collPlan d)) body := by
      have hmem : memberId (inUnit cell d s) = memberId s := by
        funext c q
        rw [memberId, memberId, ki.mem_eq rfl]
      rw [rankOuts, rankOuts, hmem, inUnit_eq hr, collHeader_taken hr]
    rwa [hrank] at this
  refine ⟨_, rfl, ?_⟩
  rw [issueTask_clean hi hv hc hw, hwork]
  generalize he : (TaskEnd.waits, mapFlight cell d.index (fun t => { t with parts := [0] }) v) = e
  have hcells' : e.2.cells = (mapFlight cell d.index (fun t => { t with parts := [0] }) (inUnit cell d s)).cells := by
    rw [← he]
    exact hcells
  have kw := workEnds_keeps (cell := cell) (d := d) e
  have htaken := taken_of_noted (s := s) (d := d) (cell := cell) (e := e) (g := fun t => { t with parts := [0] }) (fun _ => rfl)
    (by rw [← he]; exact hact) hcells'
  refine ⟨?_, ?_, noted_of_work (s := s) (g := fun t => { t with parts := [0] }) (fun _ => rfl) (fun _ => rfl) (fun _ _ => rfl) hcells', ?_⟩
  · rw [← he] at htaken ⊢
    exact htaken
  · rw [kw.mem_eq rfl, ← he]
    exact ((ke.mem_eq rfl).trans (kv.mem_eq rfl)).trans (ki.mem_eq rfl)
  · refine sends_of_posts ((hpost.before (ki.fab_eq rfl) (ki.rem_eq rfl)).after ?_ ?_)
    · rw [kw.fab_eq rfl, ← he]
      exact ke.fab_eq rfl
    · rw [kw.rem_eq rfl, ← he]
      exact ke.rem_eq rfl

/-- COLLECTIVE_SUM makes the sum once every other rank's chunk has landed. -/
theorem collectiveSum_eq {g : Flight} (hg : flight? s cell d.index = some g) (hd : g.desc = d) (hp : g.parts = [0])
    (ha : stepActive s = true) (h5 : dClass d = 5) (h8 : 8 ≤ bodyOp d)
    (hl : (cplanOf s (collPlan d)).members - 1 ≤ arrGet s (clusterOf cell) (cplanOf s (collPlan d)).ctr) (hw : wordsGood s = true) :
    collectiveSumEffect cell d.index .clean s = collSum cell d s := by
  subst hd
  unfold collectiveSumEffect
  simp only [hg]
  rw [if_pos ⟨ha, h5, h8, hp, hl⟩]
  simp only [taskReads, readHealth, if_true, metHealth_good _ hw]

/-- ALL_REDUCE writes the sum and sends it to every other rank. -/
theorem collSum_allReduce {g : Flight} (hg : flight? s cell d.index = some g) (h8 : bodyOp d = 8) :
    (collSum cell d s).mem = memWrite s.mem ((cplanOf s (collPlan d)).dst + 16 * chunkStart (cplanOf s (collPlan d))
        (cplanOf s (collPlan d)).rank) (collSums s (cplanOf s (collPlan d))) ∧
      (flight? (collSum cell d s) cell d.index).map (·.parts) = some [1] ∧
      Sends cell d (rankOuts (collSum cell d s) d 1 (cplanOf s (collPlan d)) fun _ => collSums s (cplanOf s (collPlan d))) s
        (collSum cell d s) := by
  generalize hc : cplanOf s (collPlan d) = c
  generalize hsum : collSums s c = sums
  generalize hu : putBytes (c.dst + 16 * chunkStart c c.rank) sums s = u
  generalize hv : sendRanks cell d 1 c (fun _ => sums) u = v
  have heq : collSum cell d s = mapFlight cell d.index (fun t => { t with parts := [1] }) v := by
    rw [collSum, hc, hsum, if_pos h8, ← hv, ← hu]
  have ku : Keeps [.mem, .errs] s u := hu ▸ (putBytes_keeps _ _ _ rfl).2 (.refl _ s)
  have kv : Keeps [.rem, .dbg] u v := hv ▸ sendRanks_keepsRem _ _ _ _ _ _
  have ke := mapFlight_keepsCells cell d.index (fun t => { t with parts := [1] }) v
  have hpost : Posts cell d.index (rankOuts u d 1 c fun _ => sums) u v := hv ▸ sendRanks_posts _ _ _ _ _ _
  have hflight : flight? v cell d.index = some g := (flight_congr ((kv.cells_eq rfl).trans (ku.cells_eq rfl)) _ _).trans hg
  rw [heq]
  refine ⟨?_, ?_, sends_of_posts ?_⟩
  · rw [ke.mem_eq rfl, kv.mem_eq rfl, ← hu, putBytes_mem]
  · have hm := flight_mapFlight (g := fun t => { t with parts := [1] }) hflight (fun _ => rfl)
    rw [hm, Option.map_some]
  · rw [rankOuts_congr ((ke.mem_eq rfl).trans (kv.mem_eq rfl)) ((ke.job_eq rfl).trans (kv.job_eq rfl)) ((ke.ctl_eq rfl).trans (kv.ctl_eq rfl))]
    exact (hpost.before (ku.fab_eq rfl) (ku.rem_eq rfl)).after (ke.fab_eq rfl) (ke.rem_eq rfl)

theorem collSum_reduceScatter {g : Flight} (hg : flight? s cell d.index = some g) (h9 : bodyOp d = 9) :
    (collSum cell d s).mem = memWrite s.mem (cplanOf s (collPlan d)).dst (collSums s (cplanOf s (collPlan d))) ∧
      (flight? (collSum cell d s) cell d.index).map (·.parts) = some [] := by
  have heq : collSum cell d s = mapFlight cell d.index (fun t => { t with parts := [] })
      (putBytes (cplanOf s (collPlan d)).dst (collSums s (cplanOf s (collPlan d))) s) := by
    rw [collSum, if_neg (by omega)]
  have ku : Keeps [.mem, .errs] s (putBytes (cplanOf s (collPlan d)).dst (collSums s (cplanOf s (collPlan d))) s) :=
    (putBytes_keeps _ _ _ rfl).2 (.refl _ s)
  rw [heq]
  refine ⟨((mapFlight_keepsCells _ _ _ _).mem_eq rfl).trans (putBytes_mem _ _ _), ?_⟩
  have hm := flight_mapFlight (g := fun t => { t with parts := [] }) ((flight_congr (ku.cells_eq rfl) cell d.index).trans hg) (fun _ => rfl)
  rw [hm, Option.map_some]

end

/-- Settles O40. -/
theorem collectiveTasksRun : Obligations.CollectiveTasksRun := by
  unfold Obligations.CollectiveTasksRun
  intro s cell d c others outs
  refine ⟨List.forall_mem_cons.2 ⟨?_, List.forall_mem_cons.2 ⟨?_, by simp⟩⟩, fun g hg hd hp ha h5 hl hw => ⟨fun h8 => ?_, fun h9 => ?_⟩⟩
  · exact fun h => scatter_sends (op := 8) h
  · exact fun h => scatter_sends (op := 9) h
  · have heq := collectiveSum_eq hg hd hp ha h5 (by omega) hl hw
    exact ⟨collSum cell d s, congrArg Host.Outcome.next heq, collSum_allReduce hg h8⟩
  · have heq := collectiveSum_eq hg hd hp ha h5 (by omega) hl hw
    exact ⟨collSum cell d s, congrArg Host.Outcome.next heq, collSum_reduceScatter hg h9⟩

end Sys2Proof.Claims
end

section
/-! SUPPORT. The routing engine (R164 to R193): the records and lists that a task writes, and the rows that a slot accepts. -/

namespace Sys2Proof.Machine

/-! ## Byte strings at their addresses -/

theorem writeAll_mem (w : List (Nat × List Byte)) (s : State) :
    (writeAll w s).mem = w.foldl (fun m x => memWrite m x.1 x.2) s.mem := by
  unfold writeAll
  induction w generalizing s with
  | nil => rfl
  | cons e r ih => exact ih _

theorem writeAll_mem_congr {s t : State} (h : t.mem = s.mem) (w : List (Nat × List Byte)) : (writeAll w t).mem = (writeAll w s).mem := by
  rw [writeAll_mem, writeAll_mem, h]

/-- The bytes of the bid lists, each at its address. -/
def listWrites (x : XPlan) (bids : List (Nat × Bid)) : List (Nat × List Byte) :=
  (List.range x.destCount).map fun k => (x.listAddr + k * listPitch x, listBytes bids k)

section
variable {s0 s : State} {layer : Nat} {l : Layer} {x : XPlan} {spill : Bool} {records : List (Nat × List Byte)} {props : List Proposal}

theorem finishLists_ok {bids : List (Nat × Bid)} (h : sortBids s0 layer l x spill (sortBy propLt props) [] = (none, bids)) :
    finishLists s0 layer l x spill records props s = (.finished, writeAll (listWrites x bids) (writeAll records s)) := by
  simp only [finishLists, h] <;> rfl

theorem finishLists_fault {c : Nat} (h : (sortBids s0 layer l x spill (sortBy propLt props) []).1 = some c) :
    ∃ u, Keeps [.mem, .time, .errs] s u ∧ (finishLists s0 layer l x spill records props s).2 = stepFault c u := by
  unfold finishLists
  split
  · next cause bids hb =>
    rw [hb] at h
    obtain rfl : cause = c := Option.some_inj.1 h
    exact ⟨_, (writeSome_keeps _ _ rfl).2 (.refl _ s), rfl⟩
  · next bids hb =>
    rw [hb] at h
    cases h

end

/-! ## What a taken task sees -/

section
variable {C : KV Cell} {r : Run} {s : State} (hr : s.ctl.run = some r)

theorem rtAccess_taken (l : List (Nat × Nat)) : rtAccess (taskTaken C r s) l = rtAccess s l := by
  have h (a n : Nat) : accessOk (taskTaken C r s) a n = accessOk s a n := rfl
  simp only [rtAccess, h]

theorem sortBids_taken (layer : Nat) (l : Layer) (x : XPlan) (spill : Bool) (ps : List Proposal) (acc : List (Nat × Bid)) :
    sortBids (taskTaken C r s) layer l x spill ps acc = sortBids s layer l x spill ps acc := by
  have hp : placementOf (taskTaken C r s) = placementOf s := rfl
  have hd : destIndex? (taskTaken C r s) = destIndex? s := rfl
  induction ps generalizing acc with
  | nil => rfl
  | cons p ps ih => simp only [sortBids, hp, hd, ih]

theorem acceptFault_taken (layer : Nat) (l : Layer) (x : XPlan) (bs : List Landed) :
    acceptFault? (taskTaken C r s) layer l x bs = acceptFault? s layer l x bs := by
  have hp : placementOf (taskTaken C r s) = placementOf s := rfl
  have hi : selfId (taskTaken C r s) = selfId s := rfl
  induction bs with
  | nil => rfl
  | cons b bs ih => simp only [acceptFault?, hp, hi, ih]

include hr

theorem landedBids_taken : landedBids (taskTaken C r s) = landedBids s := view_taken landedBids hr fun _ => rfl
theorem spillRecords_taken : spillRecords (taskTaken C r s) = spillRecords s := view_taken spillRecords hr fun _ => rfl
theorem spillProposals_taken : spillProposals (taskTaken C r s) = spillProposals s := view_taken spillProposals hr fun _ => rfl

end

/-! ## ROUTE -/

/-- What ROUTE counts and keeps before it writes its records. -/
def routeNoted (cell : Nat) (f : Rt) (s : State) : State :=
  let l := layerOf s f.layer
  let routed := routedTokens s f
  let s1 := addStepCount ccRouteNan (routed.filter fun r => r.1.nan).length
    (addStepCount ccTokenUnrouted (routed.filter fun r => r.2.1.isEmpty).length
      (addStepCount ccChoiceTrim ((routed.map fun r => r.2.2).foldl (· + ·) 0) (countCompares cell f l s)))
  if l.policy = 3 then { s1 with exch := { s1.exch with
    cands := routed.foldl (fun m r => kvPut m (f.layer * 65536 + r.1.index) (r.1.cands.take 32)) s1.exch.cands } } else s1

theorem routeNoted_keeps (cell : Nat) (f : Rt) (s : State) : Keeps [.ctl, .exch, .dbg] s (routeNoted cell f s) ∧
    runFault (routeNoted cell f s) = runFault s := by
  unfold routeNoted
  dsimp only
  generalize hu : addStepCount ccRouteNan _ _ = u
  have kc : Keeps [.dbg] s (countCompares cell f (layerOf s f.layer) s) := (countCompares_keeps _ _ _ _ rfl).2 (.refl _ s)
  have ku : Keeps [.ctl, .dbg] s u := by
    rw [← hu]
    exact (addStepCount_keeps _ _ _ rfl).2 ((addStepCount_keeps _ _ _ rfl).2 ((addStepCount_keeps _ _ _ rfl).2 (kc.mono rfl)))
  have hf : runFault u = runFault s := by
    rw [← hu, runFault_addStepCount, runFault_addStepCount, runFault_addStepCount, runFault_congr (kc.ctl_eq rfl)]
  split
  · exact ⟨.trans (t := u) (ku.mono rfl) (by simp [within]), hf⟩
  · exact ⟨ku.mono rfl, hf⟩

theorem rtRoute_eq {cell : Nat} {d : Desc} {s : State} (hp : parityAdmits (xplanOf s (rtOf d).plan) (runStep s) = true)
    (ha : rtAccess s (routeSpans s (rtOf d)) = true) :
    rtRoute cell d s =
      ((finishLists s (rtOf d).layer (layerOf s (rtOf d).layer) (xplanOf s (rtOf d).plan) false (routeRecords s (rtOf d))
        (routeProposals s (rtOf d)) (routeNoted cell (rtOf d) s)).1,
      mapFlight cell d.index (fun t => { t with parts := borrowed cell (rtOf d) })
        (finishLists s (rtOf d).layer (layerOf s (rtOf d).layer) (xplanOf s (rtOf d).plan) false (routeRecords s (rtOf d))
          (routeProposals s (rtOf d)) (routeNoted cell (rtOf d) s)).2) := by
  unfold rtRoute
  dsimp only
  rw [hp, ha, if_neg (by simp), if_neg (by simp)]
  rfl

/-! ## ACCEPT -/

/-- The rows of a slot once capacity has been applied to its bids. -/
def acceptedRows (l : Layer) (src : Nat → Nat) (bids : List Landed) (slot : Nat) (before : List (Nat × Nat × Nat)) :
    List (Nat × Nat × Nat) :=
  sortBy (fun (a b : Nat × Nat × Nat) => decide (a.1 < b.1))
    (before ++ ((sortBy bidLt (bids.filter fun b => b.slot == slot)).take (l.capacity - before.length)).map
      fun b => (b.bid.token, src b.sender, b.place))

theorem foldl_putAcceptBit_keeps (x : XPlan) (v : Bool) (bs : List Landed) (s : State) :
    Keeps [.mem] s (bs.foldl (fun t b => putAcceptBit x b v t) s) := by
  induction bs generalizing s with
  | nil => exact .refl _ s
  | cons b bs ih => exact .trans ((putAcceptBit_keeps _ _ _ _ rfl).2 (.refl _ s)) (ih _)

/-- The answers to the bids that were admitted and to those that were not. -/
theorem acceptBits_keeps (x : XPlan) (admitted refused : List Landed) (s : State) :
    Keeps [.mem] s (refused.foldl (fun t b => putAcceptBit x b false t) (admitted.foldl (fun t b => putAcceptBit x b true t) s)) :=
  .trans (foldl_putAcceptBit_keeps x true admitted s) (foldl_putAcceptBit_keeps x false refused _)

theorem foldl_depSet_keeps (g : Nat → Nat) (ctr v : Nat) (l : List Nat) (s : State) :
    Keeps [.ctr] s (l.foldl (fun t i => depSet (g i) ctr v t) s) := by
  induction l generalizing s with
  | nil => exact .refl _ s
  | cons i l ih => exact .trans ((depSet_keeps _ _ _ _ rfl).2 (.refl _ s)) (ih _)

/-- Capacity at one slot sets the rows of that slot and lets the run go on. -/
theorem acceptSlot_effect (f : Rt) (l : Layer) (x : XPlan) (src : Nat → Nat) (bids : List Landed) (slot : Nat) (s : State) :
    (acceptSlot f l x src bids slot s).exch.work = kvPut s.exch.work (f.layer * 4096 + slot)
        (acceptedRows l src bids slot (workOf s f.layer slot)) ∧
      runFault (acceptSlot f l x src bids slot s) = runFault s := by
  unfold acceptSlot acceptedRows
  dsimp only
  generalize hu : (if l.negotiated then _ else addStepCount ccEagerDiscard _ s) = u
  have hux : u.exch = s.exch ∧ runFault u = runFault s := by
    rw [← hu]
    split
    · have k := acceptBits_keeps x ((sortBy bidLt (bids.filter fun b => b.slot == slot)).take (l.capacity - (workOf s f.layer slot).length))
        ((sortBy bidLt (bids.filter fun b => b.slot == slot)).drop (l.capacity - (workOf s f.layer slot).length)) s
      exact ⟨k.exch_eq rfl, runFault_congr (k.ctl_eq rfl)⟩
    · exact ⟨exch_of_allBut (by simp), runFault_addStepCount _ _ _⟩
  generalize hv : mapRun _ u = v
  have hvx : v.exch = u.exch ∧ runFault v = runFault u := by
    rw [← hv]
    refine ⟨exch_of_allBut (by simp), runFault_mapRun ?_ _⟩
    intro q
    rfl
  generalize sortBy _ (workOf s f.layer slot ++ _) = rows
  have hw : v.exch.work = s.exch.work := by rw [hvx.1, hux.1]
  rw [hw]
  generalize hy : putBytes _ _ ({ v with exch := { v.exch with work := kvPut s.exch.work (f.layer * 4096 + slot) rows } } : State) = y
  have hyx : y.exch.work = kvPut s.exch.work (f.layer * 4096 + slot) rows ∧ runFault y = runFault v := by
    rw [← hy]
    exact ⟨rfl, rfl⟩
  split
  · have k := foldl_depSet_keeps (fun i => f.cellFirst + (slot - f.slotFirst) * f.cellsPerSlot + i) f.countCtr (rows.length + 1)
      (List.range f.cellsPerSlot) y
    refine ⟨?_, ?_⟩
    · rw [k.exch_eq rfl]
      exact hyx.1
    · rw [runFault_congr (k.ctl_eq rfl), hyx.2, hvx.2, hux.2]
  · exact ⟨hyx.1, by rw [hyx.2, hvx.2, hux.2]⟩

section
variable (f : Rt) (l : Layer) (x : XPlan) (src : Nat → Nat) (bids : List Landed) (s : State)

theorem workOf_acceptSlot_self (slot : Nat) : workOf (acceptSlot f l x src bids slot s) f.layer slot =
    acceptedRows l src bids slot (workOf s f.layer slot) := by
  rw [workOf, (acceptSlot_effect f l x src bids slot s).1, kvGetD, kvGet_kvPut_self]
  rfl

theorem workOf_acceptSlot_ne {slot other : Nat} (h : other ≠ slot) :
    workOf (acceptSlot f l x src bids slot s) f.layer other = workOf s f.layer other := by
  rw [workOf, (acceptSlot_effect f l x src bids slot s).1, kvGetD, kvGet_kvPut_ne _ _ (by omega)]
  rfl

/-- Slot after slot, each once. -/
theorem workOf_acceptSlots (n : Nat) :
    (∀ i < n, workOf ((List.range n).foldl (fun t i => acceptSlot f l x src bids (f.slotFirst + i) t) s) f.layer (f.slotFirst + i) =
        acceptedRows l src bids (f.slotFirst + i) (workOf s f.layer (f.slotFirst + i))) ∧
      (∀ slot, f.slotFirst + n ≤ slot →
        workOf ((List.range n).foldl (fun t i => acceptSlot f l x src bids (f.slotFirst + i) t) s) f.layer slot = workOf s f.layer slot) ∧
      runFault ((List.range n).foldl (fun t i => acceptSlot f l x src bids (f.slotFirst + i) t) s) = runFault s := by
  induction n with
  | zero => exact ⟨fun i hi => absurd hi (Nat.not_lt_zero i), fun _ _ => rfl, rfl⟩
  | succ n ih =>
    obtain ⟨h1, h2, h3⟩ := ih
    rw [List.range_succ, List.foldl_append, List.foldl_cons, List.foldl_nil]
    refine ⟨fun i hi => ?_, fun slot hs => ?_, ?_⟩
    · by_cases hin : i = n
      · subst hin
        rw [workOf_acceptSlot_self, h2 _ (Nat.le_refl _)]
      · rw [workOf_acceptSlot_ne _ _ _ _ _ _ (by omega), h1 i (by omega)]
    · rw [workOf_acceptSlot_ne _ _ _ _ _ _ (by omega), h2 slot (by omega)]
    · rw [(acceptSlot_effect f l x src bids _ _).2, h3]

theorem acceptSlots_keeps (n : Nat) : Keeps [.mem, .ctr, .ctl, .exch, .errs] s
    ((List.range n).foldl (fun t i => acceptSlot f l x src bids (f.slotFirst + i) t) s) := by
  generalize List.range n = is
  induction is generalizing s with
  | nil => exact .refl _ s
  | cons i is ih => exact .trans ((acceptSlot_keeps _ _ _ _ _ _ _ rfl).2 (.refl _ s)) (ih _)

end

theorem rtAccept_eq {cell : Nat} {d : Desc} {s : State} (hp : parityAdmits (xplanOf s (rtOf d).plan) (runStep s) = true)
    (ha : rtAccess s [((rtOf d).out, (rtOf d).slotCount * workBytes (layerOf s (rtOf d).layer))] = true) :
    rtAccept cell d s =
      match acceptFault? s (rtOf d).layer (layerOf s (rtOf d).layer) (xplanOf s (rtOf d).plan)
        ((List.range (xplanOf s (rtOf d).plan).fwdSenders).flatMap fun k => landedBids s (rtOf d).layer (rtOf d).plan (rtOf d).round k) with
      | some cause => (.waits, stepFault cause s)
      | none => (.finished, (List.range (rtOf d).slotCount).foldl (fun t i =>
          acceptSlot (rtOf d) (layerOf s (rtOf d).layer) (xplanOf s (rtOf d).plan) (srcEntry s (xplanOf s (rtOf d).plan))
            ((List.range (xplanOf s (rtOf d).plan).fwdSenders).flatMap fun k => landedBids s (rtOf d).layer (rtOf d).plan (rtOf d).round k)
            ((rtOf d).slotFirst + i) t) s) := by
  unfold rtAccept
  dsimp only
  rw [hp, ha, if_neg (by simp), if_neg (by simp)] <;> rfl

/-! ## SPILL -/

theorem rtSpill_last {cell : Nat} {d : Desc} {s : State} (hp : parityAdmits (xplanOf s (rtOf d).plan) (runStep s) = true)
    (ha : rtAccess s [((rtOf d).out, (rtOf d).count * recordBytes (layerOf s (rtOf d).layer))] = true)
    (hl : (rtOf d).round = (layerOf s (rtOf d).layer).spillRounds + 1) :
    rtSpill cell d s = (.finished, writeAll (spillRecords s cell (rtOf d)) (addStepCount ccSpillLost
      (((spillTokens s cell (rtOf d)).map fun r => r.2.2.2.2).foldl (· + ·) 0) s)) := by
  unfold rtSpill
  dsimp only
  rw [hp, ha, if_neg (by simp), if_neg (by simp), if_pos hl]

theorem rtSpill_round {cell : Nat} {d : Desc} {s : State} (hp : parityAdmits (xplanOf s (rtOf d).plan) (runStep s) = true)
    (ha : rtAccess s [((rtOf d).out, (rtOf d).count * recordBytes (layerOf s (rtOf d).layer))] = true)
    (hl : (rtOf d).round ≠ (layerOf s (rtOf d).layer).spillRounds + 1) :
    rtSpill cell d s = finishLists s (rtOf d).layer (layerOf s (rtOf d).layer) (xplanOf s (rtOf d).plan) true
      (spillRecords s cell (rtOf d)) (spillProposals s cell (rtOf d)) s := by
  unfold rtSpill
  dsimp only
  rw [hp, ha, if_neg (by simp), if_neg (by simp), if_neg hl]

end Sys2Proof.Machine

namespace Sys2Proof.Claims

open Sys2Proof.Machine

section
variable {s : State} {cell : Nat} {d : Desc}

theorem rtAccess_one {a n : Nat} (h : accessOk s a n = true) : rtAccess s [(a, n)] = true := by simp [rtAccess, h]

/-- ROUTE writes its records and its lists. -/
theorem route_writes (h : Issues 4 (fun z => bodyOp z == 0) cell d s)
    (hp : parityAdmits (xplanOf s (rtOf d).plan) (runStep s) = true) (ha : rtAccess s (routeSpans s (rtOf d)) = true)
    {bids : List (Nat × Bid)} (hb : sortBids s (rtOf d).layer (layerOf s (rtOf d).layer) (xplanOf s (rtOf d).plan) false
      (sortBy propLt (routeProposals s (rtOf d))) [] = (none, bids)) :
    ∃ t, exec (.route cell .clean) s = .next t ∧ Taken cell d true t ∧
      t.mem = (writeAll (listWrites (xplanOf s (rtOf d).plan) bids) (writeAll (routeRecords s (rtOf d)) s)).mem ∧
      (flight? t cell d.index).map (·.parts) = some (borrowed cell (rtOf d)) := by
  obtain ⟨hi, hv, hc, hw⟩ := h
  obtain ⟨r, hr⟩ := run_of_active (issuable_active hi).1
  have hu := inUnit_eq hr cell d
  generalize hC : (inUnit cell d s).cells = C at hu
  have hwork := rtRoute_eq (cell := cell) (d := d) (s := taskTaken C r s) (by rw [runStep_taken hr]; exact hp)
    ((rtAccess_taken _).trans ha)
  have hfin := finishLists_ok (records := routeRecords s (rtOf d)) (s := routeNoted cell (rtOf d) (taskTaken C r s))
    ((sortBids_taken (C := C) (r := r) _ _ _ _ _ _).trans hb)
  have hrec : routeRecords (taskTaken C r s) (rtOf d) = routeRecords s (rtOf d) := rfl
  have hpro : routeProposals (taskTaken C r s) (rtOf d) = routeProposals s (rtOf d) := rfl
  have hlay : layerOf (taskTaken C r s) (rtOf d).layer = layerOf s (rtOf d).layer := rfl
  have hpla : xplanOf (taskTaken C r s) (rtOf d).plan = xplanOf s (rtOf d).plan := rfl
  rw [hrec, hpro, hlay, hpla, hfin, ← hu] at hwork
  obtain ⟨kn, hf⟩ := routeNoted_keeps cell (rtOf d) (inUnit cell d s)
  generalize routeNoted cell (rtOf d) (inUnit cell d s) = n at hwork kn hf
  generalize hy : writeAll (listWrites (xplanOf s (rtOf d).plan) bids) (writeAll (routeRecords s (rtOf d)) n) = y at hwork
  have ky : Keeps [.mem, .errs] n y := by
    rw [← hy]
    exact (writeAll_keeps _ _ rfl).2 ((writeAll_keeps _ _ rfl).2 (.refl _ n))
  have hcells : (mapFlight cell d.index (fun t => { t with parts := borrowed cell (rtOf d) }) y).cells =
      (mapFlight cell d.index (fun t => { t with parts := borrowed cell (rtOf d) }) (inUnit cell d s)).cells :=
    mapFlight_cells_congr ((ky.cells_eq rfl).trans (kn.cells_eq rfl)) _ _ _
  have hact : stepActive (mapFlight cell d.index (fun t => { t with parts := borrowed cell (rtOf d) }) y) = true := by
    refine stepActive_iff.2 ?_
    rw [runFault_mapFlight, runFault_congr (ky.ctl_eq rfl), hf]
    exact stepActive_iff.1 (inUnit_active (issuable_active hi).1)
  refine ⟨_, rfl, ?_⟩
  rw [issueTask_clean hi hv hc hw, hwork]
  refine ⟨taken_of_noted (s := s) (e := (.finished, mapFlight cell d.index (fun t => { t with parts := borrowed cell (rtOf d) }) y))
      (g := fun t => { t with parts := borrowed cell (rtOf d) }) (fun _ => rfl) hact hcells, ?_,
    noted_of_work (s := s) (e := (.finished, mapFlight cell d.index (fun t => { t with parts := borrowed cell (rtOf d) }) y))
      (g := fun t => { t with parts := borrowed cell (rtOf d) }) (fun _ => rfl) (fun _ => rfl) (fun _ _ => rfl) hcells⟩
  rw [(workEnds_keeps _).mem_eq rfl, (mapFlight_keepsCells _ _ _ _).mem_eq rfl, ← hy]
  exact writeAll_mem_congr (writeAll_mem_congr ((kn.mem_eq rfl).trans ((inUnit_keeps cell d s).mem_eq rfl)) _) _

/-- Lists that meet a fault end the step with it. -/
theorem route_stops (h : Issues 4 (fun z => bodyOp z == 0) cell d s)
    (hp : parityAdmits (xplanOf s (rtOf d).plan) (runStep s) = true) (ha : rtAccess s (routeSpans s (rtOf d)) = true)
    {c : Nat} (hb : (sortBids s (rtOf d).layer (layerOf s (rtOf d).layer) (xplanOf s (rtOf d).plan) false
      (sortBy propLt (routeProposals s (rtOf d))) []).1 = some c) :
    ∃ t, exec (.route cell .clean) s = .next t ∧ Stopped c s t := by
  obtain ⟨hi, hv, hc, hw⟩ := h
  obtain ⟨r, hr⟩ := run_of_active (issuable_active hi).1
  have hu := inUnit_eq hr cell d
  generalize hC : (inUnit cell d s).cells = C at hu
  have hwork := rtRoute_eq (cell := cell) (d := d) (s := taskTaken C r s) (by rw [runStep_taken hr]; exact hp)
    ((rtAccess_taken _).trans ha)
  have hsort := congrArg Prod.fst (sortBids_taken (C := C) (r := r) (s := s) (rtOf d).layer (layerOf s (rtOf d).layer)
    (xplanOf s (rtOf d).plan) false (sortBy propLt (routeProposals s (rtOf d))) [])
  obtain ⟨y, ky, hy⟩ := finishLists_fault (records := routeRecords s (rtOf d)) (s := routeNoted cell (rtOf d) (taskTaken C r s))
    (hsort.trans hb)
  have hrec : routeRecords (taskTaken C r s) (rtOf d) = routeRecords s (rtOf d) := rfl
  have hpro : routeProposals (taskTaken C r s) (rtOf d) = routeProposals s (rtOf d) := rfl
  have hlay : layerOf (taskTaken C r s) (rtOf d).layer = layerOf s (rtOf d).layer := rfl
  have hpla : xplanOf (taskTaken C r s) (rtOf d).plan = xplanOf s (rtOf d).plan := rfl
  rw [hrec, hpro, hlay, hpla, hy, ← hu] at hwork
  rw [← hu] at ky
  obtain ⟨kn, hf⟩ := routeNoted_keeps cell (rtOf d) (inUnit cell d s)
  have hyf : runFault y = some none := by
    rw [runFault_congr (ky.ctl_eq rfl), hf]
    exact stepActive_iff.1 (inUnit_active (issuable_active hi).1)
  refine ⟨_, rfl, ?_⟩
  rw [issueTask_clean hi hv hc hw]
  refine stopped_of_work ?_
  rw [hwork]
  show runFault (stepFault c y) = _
  rw [runFault_stepFault (stepActive_iff.2 hyf),
    selfId_congr ((ky.fab_eq rfl).trans ((kn.fab_eq rfl).trans ((inUnit_keeps cell d s).fab_eq rfl)))]

/-- ACCEPT applies capacity at each of its slots, or ends the step with the fault of a bid. -/
theorem accept_runs (h : Issues 4 (fun z => bodyOp z == 1) cell d s)
    (hp : parityAdmits (xplanOf s (rtOf d).plan) (runStep s) = true)
    (ha : accessOk s (rtOf d).out ((rtOf d).slotCount * workBytes (layerOf s (rtOf d).layer)) = true) {bids : List Landed}
    (hbids : bids = (List.range (xplanOf s (rtOf d).plan).fwdSenders).flatMap fun k =>
      landedBids s (rtOf d).layer (rtOf d).plan (rtOf d).round k) :
    (acceptFault? s (rtOf d).layer (layerOf s (rtOf d).layer) (xplanOf s (rtOf d).plan) bids = none →
      ∃ t, exec (.accept cell .clean) s = .next t ∧ Taken cell d true t ∧ ∀ i : Nat, i < (rtOf d).slotCount →
        workOf t (rtOf d).layer ((rtOf d).slotFirst + i) = acceptedRows (layerOf s (rtOf d).layer)
          (srcEntry s (xplanOf s (rtOf d).plan)) bids ((rtOf d).slotFirst + i) (workOf s (rtOf d).layer ((rtOf d).slotFirst + i))) ∧
    (∀ c : Nat, acceptFault? s (rtOf d).layer (layerOf s (rtOf d).layer) (xplanOf s (rtOf d).plan) bids = some c →
      ∃ t, exec (.accept cell .clean) s = .next t ∧ Stopped c s t ∧ t.mem = s.mem) := by
  have hi := h.1
  obtain ⟨r, hr⟩ := run_of_active (issuable_active hi).1
  have hu := inUnit_eq hr cell d
  generalize hC : (inUnit cell d s).cells = C at hu
  have hwork := rtAccept_eq (cell := cell) (d := d) (s := taskTaken C r s) (by rw [runStep_taken hr]; exact hp)
    ((rtAccess_taken _).trans (rtAccess_one ha))
  have hlay : layerOf (taskTaken C r s) (rtOf d).layer = layerOf s (rtOf d).layer := rfl
  have hpla : xplanOf (taskTaken C r s) (rtOf d).plan = xplanOf s (rtOf d).plan := rfl
  have hsrc : srcEntry (taskTaken C r s) = srcEntry s := rfl
  rw [hlay, hpla, hsrc, landedBids_taken hr, ← hbids, acceptFault_taken, ← hu] at hwork
  refine ⟨fun hn => ⟨_, rfl, ?_⟩, fun c hf => ⟨_, rfl, ?_⟩⟩
  · obtain ⟨-, hv, hc, hw⟩ := h
    rw [hn] at hwork
    have hk := acceptSlots_keeps (rtOf d) (layerOf s (rtOf d).layer) (xplanOf s (rtOf d).plan) (srcEntry s (xplanOf s (rtOf d).plan)) bids
      (inUnit cell d s) (rtOf d).slotCount
    obtain ⟨hrows, -, hfault⟩ := workOf_acceptSlots (rtOf d) (layerOf s (rtOf d).layer) (xplanOf s (rtOf d).plan)
      (srcEntry s (xplanOf s (rtOf d).plan)) bids (inUnit cell d s) (rtOf d).slotCount
    obtain ⟨ht, kt⟩ := issueTask_finishes hi hv hc hw acceptReads (work := rtAccept) (by rw [hwork]; exact hk.cells_eq rfl)
      (by rw [hwork]; exact hfault)
    rw [hwork] at ht kt
    refine ⟨ht, fun i hlt => ?_⟩
    rw [workOf, kt.exch_eq rfl]
    refine (hrows i hlt).trans ?_
    rw [workOf, (inUnit_keeps cell d s).exch_eq rfl]
    rfl
  · rw [hf] at hwork
    obtain ⟨hs, hk⟩ := issueTask_barred h acceptReads (work := rtAccept) (cause := c) (by rw [hwork])
    exact ⟨hs, hk.mem_eq rfl⟩

/-- SPILL after the last round writes its records. -/
theorem spill_last (h : Issues 4 (fun z => bodyOp z == 2) cell d s)
    (hp : parityAdmits (xplanOf s (rtOf d).plan) (runStep s) = true)
    (ha : accessOk s (rtOf d).out ((rtOf d).count * recordBytes (layerOf s (rtOf d).layer)) = true)
    (hl : (rtOf d).round = (layerOf s (rtOf d).layer).spillRounds + 1) :
    ∃ t, exec (.spill cell .clean) s = .next t ∧ Taken cell d true t ∧ t.mem = (writeAll (spillRecords s cell (rtOf d)) s).mem := by
  obtain ⟨hi, hv, hc, hw⟩ := h
  obtain ⟨r, hr⟩ := run_of_active (issuable_active hi).1
  have hu := inUnit_eq hr cell d
  generalize hC : (inUnit cell d s).cells = C at hu
  have hwork := rtSpill_last (cell := cell) (d := d) (s := taskTaken C r s) (by rw [runStep_taken hr]; exact hp)
    ((rtAccess_taken _).trans (rtAccess_one ha)) hl
  rw [spillRecords_taken hr, ← hu] at hwork
  generalize hn : addStepCount ccSpillLost _ (inUnit cell d s) = n at hwork
  have kn : Keeps [.ctl] (inUnit cell d s) n := hn ▸ (addStepCount_keeps _ _ _ rfl).2 (.refl _ _)
  have hf : runFault n = runFault (inUnit cell d s) := hn ▸ runFault_addStepCount _ _ _
  have ky : Keeps [.mem, .errs] n (writeAll (spillRecords s cell (rtOf d)) n) := (writeAll_keeps _ _ rfl).2 (.refl _ n)
  obtain ⟨ht, kt⟩ := issueTask_finishes hi hv hc hw spillReads (work := rtSpill)
    (by rw [hwork]; exact (ky.cells_eq rfl).trans (kn.cells_eq rfl)) (by rw [hwork]; exact (runFault_congr (ky.ctl_eq rfl)).trans hf)
  rw [hwork] at ht kt
  exact ⟨_, rfl, ht, (kt.mem_eq rfl).trans (writeAll_mem_congr ((kn.mem_eq rfl).trans ((inUnit_keeps cell d s).mem_eq rfl)) _)⟩

/-- SPILL in a round before writes its lists too. -/
theorem spill_round (h : Issues 4 (fun z => bodyOp z == 2) cell d s)
    (hp : parityAdmits (xplanOf s (rtOf d).plan) (runStep s) = true)
    (ha : accessOk s (rtOf d).out ((rtOf d).count * recordBytes (layerOf s (rtOf d).layer)) = true)
    (hl : (rtOf d).round ≠ (layerOf s (rtOf d).layer).spillRounds + 1) {bids : List (Nat × Bid)}
    (hb : sortBids s (rtOf d).layer (layerOf s (rtOf d).layer) (xplanOf s (rtOf d).plan) true
      (sortBy propLt (spillProposals s cell (rtOf d))) [] = (none, bids)) :
    ∃ t, exec (.spill cell .clean) s = .next t ∧ Taken cell d true t ∧
      t.mem = (writeAll (listWrites (xplanOf s (rtOf d).plan) bids) (writeAll (spillRecords s cell (rtOf d)) s)).mem := by
  obtain ⟨hi, hv, hc, hw⟩ := h
  obtain ⟨r, hr⟩ := run_of_active (issuable_active hi).1
  have hu := inUnit_eq hr cell d
  generalize hC : (inUnit cell d s).cells = C at hu
  have hwork := rtSpill_round (cell := cell) (d := d) (s := taskTaken C r s) (by rw [runStep_taken hr]; exact hp)
    ((rtAccess_taken _).trans (rtAccess_one ha)) hl
  rw [spillRecords_taken hr, spillProposals_taken hr] at hwork
  have hfin := finishLists_ok (records := spillRecords s cell (rtOf d)) (s := taskTaken C r s)
    ((sortBids_taken (C := C) (r := r) _ _ _ _ _ _).trans hb)
  have hlay : layerOf (taskTaken C r s) (rtOf d).layer = layerOf s (rtOf d).layer := rfl
  have hpla : xplanOf (taskTaken C r s) (rtOf d).plan = xplanOf s (rtOf d).plan := rfl
  rw [hlay, hpla, hfin, ← hu] at hwork
  have ky : Keeps [.mem, .errs] (inUnit cell d s) (writeAll (listWrites (xplanOf s (rtOf d).plan) bids)
      (writeAll (spillRecords s cell (rtOf d)) (inUnit cell d s))) :=
    (writeAll_keeps _ _ rfl).2 ((writeAll_keeps _ _ rfl).2 (.refl _ _))
  obtain ⟨ht, kt⟩ := issueTask_finishes hi hv hc hw spillReads (work := rtSpill)
    (by rw [hwork]; exact ky.cells_eq rfl) (by rw [hwork]; exact runFault_congr (ky.ctl_eq rfl))
  rw [hwork] at ht kt
  exact ⟨_, rfl, ht, (kt.mem_eq rfl).trans (writeAll_mem_congr (writeAll_mem_congr ((inUnit_keeps cell d s).mem_eq rfl) _) _)⟩

/-- A borrowed engine's part leaves the ROUTE that waits for it. -/
theorem routePart_leaves {cl : Nat} {e : Nat × Cell} {g : Flight}
    (he : s.cells.find? (fun y => y.2.flight.any (waitsPart cl)) = some e) (hg : e.2.flight.find? (waitsPart cl) = some g) :
    ∃ t, exec (.routePart cl) s = .next t ∧ Keeps [.cells, .ctl] s t ∧
      ∀ h ∈ (cellOf t e.1).flight, h.index = g.index → cl ∉ h.parts := by
  have heq : routePartEffect cl s = mapFlight e.1 g.index (fun t => { t with parts := t.parts.filter fun c => c != cl }) s := by
    simp only [routePartEffect, he, hg]
  refine ⟨_, congrArg Host.Outcome.next heq, (mapFlight_keepsCells _ _ _ _).mono rfl, fun h hm hx => ?_⟩
  unfold mapFlight at hm
  dsimp only at hm
  rw [cellOf_setCell] at hm
  obtain ⟨y, -, rfl⟩ := List.mem_map.1 hm
  by_cases q : y.index = g.index
  · rw [if_pos q]
    simp
  · rw [if_neg q] at hx
    exact absurd hx q

end

/-- Settles O38. -/
theorem routingTasksRun : Obligations.RoutingTasksRun := by
  unfold Obligations.RoutingTasksRun
  intro s cell d f l x lists
  exact ⟨fun h hp ha => ⟨fun bids hb => route_writes h hp ha hb, fun c hb => route_stops h hp ha hb⟩,
    fun h hp ha => accept_runs h hp ha rfl,
    fun h hp ha => ⟨fun hl => spill_last h hp ha hl, fun hl bids hb => spill_round h hp ha hl hb⟩,
    fun cl e g he hg => routePart_leaves he hg⟩

end Sys2Proof.Claims
end

section
/-! SUPPORT. The test port, the test registers and the probes (R503 to R508, R511). -/

namespace Sys2Proof.Machine

theorem jtagActs_device {s : State} (h1 : s.boot.stage ≠ .romWait) (h2 : s.boot.stage ≠ .failed) :
    jtagActs s ≠ .extest ∧ jtagActs s ≠ .clamp ∧ jtagActs s ≠ .highz := by
  have hm : scanMayDrive s = false := by simp [scanMayDrive, h1, h2]
  unfold jtagActs
  rw [hm]
  cases s.dbg.ir <;> simp

/-- The device drives its pins in every stage in which no scan may. -/
theorem pinSource_device {s : State} (h1 : s.boot.stage ≠ .romWait) (h2 : s.boot.stage ≠ .failed) (hf : s.pins.floated = false) :
    pinSource s = .device := by
  obtain ⟨he, hc, hz⟩ := jtagActs_device h1 h2
  unfold pinSource
  rw [hf, if_neg (by simp)]
  cases ha : jtagActs s with
  | extest => exact absurd ha he
  | clamp => exact absurd ha hc
  | highz => exact absurd ha hz
  | samplePreload | idcode | ijtag | bypass => rfl

section
variable {s : State}

theorem dataShown_idcode (h : s.dbg.ir = .idcode) : dataShown? s = some ((List.range 32).map idcodeRegister.getLsbD) := by
  simp only [dataShown?, dataRegister, jtagActs, h]

theorem dataShown_bypass (h : s.dbg.ir = .bypass) : dataShown? s = some [false] := by
  simp only [dataShown?, dataRegister, jtagActs, h]

theorem ijtagReached_eq (h : s.dbg.ir = .ijtag) : ijtagReached s = !s.boot.locks.getLsbD 2 := by
  simp [ijtagReached, jtagActs, h, locked]

theorem dataRegister_ijtag (h : s.dbg.ir = .ijtag) :
    dataRegister s = if s.boot.locks.getLsbD 2 then .lockedBit else .network := by
  have ha : jtagActs s = .ijtag := by simp only [jtagActs, h]
  unfold dataRegister
  rw [ha, ijtagReached_eq h]
  cases s.boot.locks.getLsbD 2 <;> rfl

/-- JTAG_LOCK keeps the network and its second selector out of reach (R507). -/
theorem ijtag_shown (h : s.dbg.ir = .ijtag) (v : Nat) :
    (s.boot.locks.getLsbD 2 = true → dataShown? s = some [false] ∧ networkProbe s v = none) ∧
      (s.boot.locks.getLsbD 2 = false → dataRegister s = .network ∧ networkProbe s v = some (probeLevel s v)) := by
  refine ⟨fun hl => ⟨?_, ?_⟩, fun hl => ⟨?_, ?_⟩⟩
  · rw [dataShown?, dataRegister_ijtag h, hl]
    rfl
  · rw [networkProbe, ijtagReached_eq h, hl]
    rfl
  · rw [dataRegister_ijtag h, hl]
    rfl
  · rw [networkProbe, ijtagReached_eq h, hl]
    rfl

end

/-! ## Instructions of the test port -/

section
variable {s : State} (hp : s.pins.pwrgd = true)
include hp

theorem loadIr_powered (i : JtagIr) : loadIr i s = { s with dbg := { s.dbg with ir := i } } := if_pos hp

/-- An instruction that scans loads the cells, and captures the levels of the lands. -/
theorem loadIr_scanCells (i : JtagIr) (v : List Bool) : loadIr i (scanCells v s) = { s with
    dbg := { s.dbg with
      ir := i, boundary := chainCells v
      captured := (List.range Config.chainLength).map fun k => Config.pinLevel k s.time.freeUses }
    time := { s.time with freeUses := s.time.freeUses + 1 } } := by
  rw [scanCells, if_pos hp]
  exact if_pos hp

end

/-! ## Test registers -/

theorem getLsbD_setMaskBit (m : BitVec 16) {i j : Nat} (b : Bool) (hj : j < 16) :
    (setMaskBit m i b).getLsbD j = if j = i then b else m.getLsbD j := by
  unfold setMaskBit
  by_cases h : j = i
  · subst h
    cases b <;> simp [hj]
  · have hs : (1#16 <<< i).getLsbD j = false := by
      rw [BitVec.getLsbD_shiftLeft, BitVec.getLsbD_one]
      by_cases hlt : j < i
      · simp [hlt]
      · simp [show j - i ≠ 0 by omega]
    cases b
    · rw [if_neg (by simp), BitVec.getLsbD_and, BitVec.getLsbD_not, hs, if_neg h]
      simp [hj]
    · rw [if_pos rfl, BitVec.getLsbD_or, hs, if_neg h, Bool.or_false]

end Sys2Proof.Machine

namespace Sys2Proof.Claims

open Sys2Proof.Machine

section
variable {s : State}

/-- The test registers take a write from the host, but for the fields that a lock guards. -/
theorem testRegisters_written (v : Word) (i : Nat) (hs : s.boot.stage = .ready) (hl : hostLink s = true) :
    (i < 16 → exec (.tmxSel i v) s = .next (if s.boot.locks.getLsbD 0 then s
      else { s with dbg := { s.dbg with tmxSel := tblPut s.dbg.tmxSel i (v.toNat % 4096) } })) ∧
    (∃ t, exec (.tmxCtl v) s = .next t ∧ Keeps [.dbg, .boot] s t ∧
      t.dbg.tmxDrive = (if s.boot.locks.getLsbD 0 then s.dbg.tmxDrive else v.getLsbD 0) ∧
      t.boot.pinLoop = (if s.boot.locks.getLsbD 1 then s.boot.pinLoop else v.getLsbD 8)) ∧
    (i < 16 → ∃ t, exec (.clPerfSel i v) s = .next t ∧ Keeps [.dbg, .boot] s t ∧
      t.dbg.perfSel = tblPut s.dbg.perfSel i (v.toNat % 256) ∧ t.dbg.perf = tblPut s.dbg.perf i 0 ∧
      (∀ j : Nat, j < 16 → t.boot.perfFreeze.getLsbD j =
        if j = i ∧ s.boot.locks.getLsbD 1 = false then v.getLsbD 15 else s.boot.perfFreeze.getLsbD j)) := by
  have hf : firmwareUp s = true := by simp [firmwareUp, hs]
  refine ⟨fun hi => ?_, ⟨_, rfl, ?_⟩, fun hi => ⟨_, rfl, ?_⟩⟩
  · show Host.Outcome.next (if hostLink s then writeTmxSel i v s else s) = _
    rw [if_pos hl, writeTmxSel]
    cases hk : s.boot.locks.getLsbD 0
    · rw [if_pos ⟨hf, hi, hk⟩, if_neg (by simp)]
    · rw [if_neg (by simp [locked, hk]), if_pos rfl]
  · rw [if_pos hl, writeTmxCtl, if_pos hf]
    exact ⟨by simp [within], rfl, rfl⟩
  · rw [if_pos hl, writeClPerfSel, if_pos ⟨hf, hi⟩]
    refine ⟨by simp [within], rfl, rfl, fun j hj => ?_⟩
    show (if locked 1 s then s.boot.perfFreeze else setMaskBit s.boot.perfFreeze i (v.getLsbD 15)).getLsbD j = _
    unfold locked
    cases s.boot.locks.getLsbD 1
    · rw [if_neg (by simp), getLsbD_setMaskBit _ _ hj]
      simp
    · simp

/-- What a pin TMX_OUT shows (R503, R508). -/
theorem tmxOut_shows (i : Nat) :
    (s.dbg.tmxDrive = false ∨ pinSource s ≠ .device → tmxOut s i = none) ∧
    (s.dbg.tmxDrive = true → pinSource s = .device →
      let v := tblGet s.dbg.tmxSel (if s.boot.pinLoop then 0 else i)
      (v = 0xA00 → tmxOut s i = some (decide ((engineBeat s).1 / 1024 % 2 = 1))) ∧
      (∀ r : Run, v = 0xA02 → s.ctl.run = some r → r.fault.isSome = true → tmxOut s i = some true) ∧
      (v = 0xA02 → s.ctl.run = none → tmxOut s i = some (waitingGong? s).isSome) ∧
      (0xA03 < v → tmxOut s i = some false)) := by
  refine ⟨fun h => if_neg ?_, fun hd hp => ?_⟩
  · rintro ⟨hd, hp⟩
    rcases h with h | h
    · rw [hd] at h
      cases h
    · exact h hp
  · intro v
    have ho : tmxOut s i = some (probeLevel s v) := if_pos ⟨hd, hp⟩
    rw [ho]
    refine ⟨fun hv => ?_, fun r hv hr hf => ?_, fun hv hr => ?_, fun hv => ?_⟩
    · rw [hv]
      rfl
    · rw [hv, show probeLevel s 0xA02 = gongHigh s from rfl, gongHigh, hr]
      show some (r.fault.isSome || _) = _
      rw [hf, Bool.true_or]
    · rw [hv, show probeLevel s 0xA02 = gongHigh s from rfl, gongHigh, hr]
      rfl
    · have hr : probePoint v = .reserved := by
        unfold probePoint
        rw [if_neg (by omega), if_neg (by omega), if_neg (by omega), if_neg (by omega), if_neg (by omega), if_neg (by omega)]
      rw [probeLevel, hr]

end

/-- Settles O59. -/
theorem testAccess : Obligations.TestAccess := by
  unfold Obligations.TestAccess
  refine ⟨fun s hp => ?_, fun s v i hs hl => testRegisters_written v i hs hl, fun s i => tmxOut_shows i⟩
  intro loads scans
  have hload (i : JtagIr) : loadIr i s = loads i := loadIr_powered hp i
  have hscan (i : JtagIr) (v : List Bool) : loadIr i (scanCells v s) = scans i v := loadIr_scanCells hp i v
  refine ⟨congrArg _ (hload _), congrArg _ (hload _), congrArg _ (hload _), congrArg _ (hload _), congrArg _ (hload _),
    fun code hc => ?_, fun v => ⟨congrArg _ (hscan _ v), ?_⟩, dataShown_idcode, dataShown_bypass, fun h v => ijtag_shown h v,
    fun h1 h2 hf => pinSource_device h1 h2 hf⟩
  · show Host.Outcome.next (if namedIr code.toNat then s else loadIr .bypass s) = _
    rw [if_neg (by simp [hc]), hload]
  · show Host.Outcome.next (loadIr .extest (if scanMayDrive s then scanCells v s else s)) = _
    cases scanMayDrive s
    · exact congrArg _ (hload _)
    · exact congrArg _ (hscan _ v)

end Sys2Proof.Claims
end

section
/-! SUPPORT. Device faults and lost clocks (R468, R469, R495). -/

namespace Sys2Proof.Machine

/-! ## Ports -/

section
variable (s : State) (port : Nat)

theorem portOf_mapPort_self (f : Port → Port) : portOf (mapPort port f s) port = f (portOf s port) := portOf_setPort port _ s

theorem portOf_mapPort_ne (f : Port → Port) {other : Nat} (h : other ≠ port) : portOf (mapPort port f s) other = portOf s other :=
  portOf_setPort_ne _ s h

variable {s}

theorem portOf_congr {t : State} (h : t.fab = s.fab) : portOf t port = portOf s port := by rw [portOf, portOf, h]

variable (s)

/-- A port that leaves service takes the state and forgets its NAKs. -/
theorem portOf_leaveService_self (st : PortState) (part : Bool) : portOf (leaveService port st part s) port = { portOf s port with
    state := st, naks := 0
    retrains := if st = .training ∧ (portOf s port).trained = true then (portOf s port).retrains + 1 else (portOf s port).retrains } := by
  unfold leaveService
  dsimp only
  rw [portOf_mapPort_self]
  split
  · rw [portOf_congr (s := s) port (fab_of_allBut (by simp))]
  · rfl

theorem portOf_leaveService_ne (st : PortState) (part : Bool) {other : Nat} (h : other ≠ port) :
    portOf (leaveService port st part s) other = portOf s other := by
  unfold leaveService
  dsimp only
  rw [portOf_mapPort_ne _ _ _ h]
  split
  · exact portOf_congr other (fab_of_allBut (by simp))
  · rfl

/-! ## A port whose reference clock stops -/

theorem portLosesClock_self (h : (portOf s port).state ≠ .disabled) : (portOf (portLosesClock s port) port).state = .down := by
  unfold portLosesClock
  dsimp only
  split
  · next hs => exact hs.resolve_left h
  · rw [portOf_leaveService_self]

theorem portLosesClock_ne {other : Nat} (h : other ≠ port) : portOf (portLosesClock s port) other = portOf s other := by
  unfold portLosesClock
  dsimp only
  split
  · rfl
  · rw [portOf_leaveService_ne _ _ _ _ h]
    rfl

variable {port}

theorem portLosesClock_down {other : Nat} (h : (portOf s port).state = .down) : (portOf (portLosesClock s other) port).state = .down := by
  by_cases hp : port = other
  · subst hp
    exact portLosesClock_self s port (by rw [h]; simp)
  · rw [portLosesClock_ne _ _ hp, h]

end

theorem portsLoseClock_down {port : Nat} {l : List Nat} {s : State} (h : (portOf s port).state = .down) :
    (portOf (l.foldl portLosesClock s) port).state = .down := by
  induction l generalizing s with
  | nil => exact h
  | cons p l ih => exact ih (portLosesClock_down s h)

theorem portsLoseClock_mem {port : Nat} {l : List Nat} {s : State} (hm : port ∈ l) (h : (portOf s port).state ≠ .disabled) :
    (portOf (l.foldl portLosesClock s) port).state = .down := by
  induction l generalizing s with
  | nil => cases hm
  | cons p l ih =>
    by_cases hp : port = p
    · subst hp
      exact portsLoseClock_down (l := l) (portLosesClock_self s port h)
    · exact ih ((List.mem_cons.1 hm).resolve_left hp) (by rw [portLosesClock_ne _ _ hp]; exact h)

/-! ## Device faults -/

theorem deviceFaultCore_errs (cause : Nat) (s : State) : (deviceFaultCore cause s).errs = { s.errs with deviceFault := true } := by
  unfold deviceFaultCore
  dsimp only
  generalize hu : (if s.errs.deviceFault then s
    else soundGongOn (faultPorts cause s) (gongRun s).1 (gongRun s).2 fcDeviceLost s) = u
  have he : u.errs = s.errs := by
    rw [← hu]
    split
    · rfl
    · exact errs_of_allBut (by simp)
  generalize hv : mapRun (fun r => if r.fault.isSome then r
    else { r with fault := some ⟨fcDeviceLost, true, selfId u⟩ }) u = v
  have hv' : v.errs = s.errs := by
    rw [← hv, ← he]
    exact ((mapRun_keeps _ _ (k := [.ctl]) rfl).2 (.refl _ u)).errs_eq rfl
  rw [errs_of_allBut ((pldmEvent_keeps (k := allBut .errs) _ _ _ (by simp)).2 (.refl _ _))]
  show (abortCommands _ _).errs = _
  rw [abortCommands_errs, ← hv']
  rfl

end Sys2Proof.Machine

namespace Sys2Proof.Claims

open Sys2Proof.Machine

theorem deviceFault_errs (cause : Nat) (s : State) : (deviceFault cause s).errs = { s.errs with deviceFault := true } :=
  ((deviceFault_after_core cause s).2.errs_eq rfl).trans (deviceFaultCore_errs cause s)

theorem deviceFault_time (cause : Nat) (s : State) : (deviceFault cause s).time = s.time :=
  ((deviceFault_keeps (k := [.mb, .mem, .ctl, .rem, .launch, .mgmt, .errs]) cause s rfl).2 (.refl _ s)).time_eq rfl

theorem faultWhile_runs {s : State} (h : firmwareRuns s = true) (cause : Nat) : faultWhile true cause s = deviceFault cause s := by
  rw [faultWhile, Bool.true_and, if_pos h]

theorem faultNow_runs {s : State} (h : engineRuns s = true) (cause : Nat) : faultNow cause s = deviceFault cause s := if_pos h

theorem firmwareRuns_powered {s : State} (h : firmwareRuns s = true) : s.pins.pwrgd = true := by
  simp only [firmwareRuns, engineRuns, Bool.and_eq_true] at h
  exact h.1.1

theorem engineRuns_powered {s : State} (h : engineRuns s = true) : s.pins.pwrgd = true := by
  simp only [engineRuns, Bool.and_eq_true] at h
  exact h.1

/-- A port die without a module left is lost. -/
theorem portDieLost_raised {s : State} (h : firmwareRuns s = true) (b : Bool) :
    Raised 6 s (portDieLost b s) ∧ (if b then (portDieLost b s).errs.dieModulesB = 0 else (portDieLost b s).errs.dieModulesA = 0) := by
  have hd : portDieLost b s = deviceFault 6 (dropDie b s) := faultWhile_runs (s := dropDie b s) h 6
  rw [hd]
  refine ⟨raised_deviceFault 6 (dropDie b s), ?_⟩
  rw [deviceFault_errs]
  cases b
  · rfl
  · rfl

/-- The causes that the running firmware raises. -/
theorem firmware_faults {s : State} (h : firmwareRuns s = true) :
    (∃ t, exec .firmwareWatchdog s = .next t ∧ Raised 4 s t) ∧
    (∀ k : Nat, ∃ t, exec (.hbmStackLost k) s = .next t ∧ Raised 5 s t) ∧
    (∀ k : Nat, exec (.hbmRetrain k true) s = .next s ∧ ∃ t, exec (.hbmRetrain k false) s = .next t ∧ Raised 5 s t) ∧
    (∀ b : Bool, s.pins.pwrgd = true → ∃ t, exec (.portDieLost b) s = .next t ∧ Raised 6 s t ∧
      (if b then t.errs.dieModulesB = 0 else t.errs.dieModulesA = 0)) ∧
    (s.errs.dieModulesA = 1 → ∃ t, exec (.portDieModuleFail false) s = .next t ∧ Raised 6 s t ∧ t.errs.dieModulesA = 0) ∧
    (s.errs.dieModulesB = 1 → ∃ t, exec (.portDieModuleFail true) s = .next t ∧ Raised 6 s t ∧ t.errs.dieModulesB = 0) := by
  have hp := firmwareRuns_powered h
  have hlost (b : Bool) : exec (.portDieLost b) s = .next (portDieLost b s) := congrArg Host.Outcome.next (if_pos hp)
  have hfail (b : Bool) (hb : dieModules b s.errs = 1) : exec (.portDieModuleFail b) s = .next (portDieLost b s) := by
    refine congrArg Host.Outcome.next ((if_pos hp).trans ?_)
    rw [dieModuleFails, if_neg (by omega), if_pos hb]
  refine ⟨⟨_, congrArg Host.Outcome.next (faultWhile_runs h 4), raised_deviceFault 4 s⟩, fun k => ⟨deviceFault 5 (loseStack s), ?_, ?_⟩,
    fun k => ⟨?_, deviceFault 5 (loseStack s), ?_, ?_⟩, fun b _ => ⟨_, hlost b, portDieLost_raised h b⟩,
    fun hb => ⟨_, hfail false hb, ?_⟩, fun hb => ⟨_, hfail true hb, ?_⟩⟩
  · exact congrArg Host.Outcome.next ((if_pos hp).trans (faultWhile_runs (s := loseStack s) h 5))
  · exact raised_deviceFault 5 (loseStack s)
  · exact congrArg Host.Outcome.next (if_neg (by simp))
  · exact congrArg Host.Outcome.next (if_pos ⟨rfl, h⟩)
  · exact raised_deviceFault 5 (loseStack s)
  · exact portDieLost_raised h false
  · exact portDieLost_raised h true

/-- The causes that a stopped reference clock raises at every stage. -/
theorem clock_faults {s : State} (h : engineRuns s = true) :
    (∃ t, exec (.refclkLoss (.core false)) s = .next t ∧ Raised 6 s t ∧ t.time.stopped = true) ∧
    (∃ t, exec (.refclkLoss (.core true)) s = .next t ∧ Raised 6 s t ∧ t.time.stopped = s.time.stopped) ∧
    (∀ i : Nat, ∃ t, exec (.refclkLoss (.hbm i)) s = .next t ∧ Raised 5 s t) := by
  have hp := engineRuns_powered h
  have hx (c : RefClk) : exec (.refclkLoss c) s = .next (refclkLossEffect c s) := congrArg Host.Outcome.next (if_pos hp)
  have hcore (b : Bool) : faultNow 6 (dropDie b s) = deviceFault 6 (dropDie b s) := faultNow_runs (s := dropDie b s) h 6
  have hraised (b : Bool) : Raised 6 s (deviceFault 6 (dropDie b s)) := raised_deviceFault 6 (dropDie b s)
  refine ⟨⟨_, hx _, ?_⟩, ⟨_, hx _, ?_⟩, fun i => ⟨_, hx _, ?_⟩⟩
  · unfold refclkLossEffect
    dsimp only
    rw [hcore, if_neg (by simp)]
    exact ⟨hraised false, rfl⟩
  · unfold refclkLossEffect
    dsimp only
    rw [hcore, if_pos rfl]
    exact ⟨hraised true, congrArg Time.stopped (deviceFault_time 6 (dropDie true s))⟩
  · unfold refclkLossEffect
    dsimp only
    rw [faultNow_runs (s := loseStack s) h 5]
    exact raised_deviceFault 5 (loseStack s)

/-- Settles O56. -/
theorem deviceFaultsAreRaised : Obligations.DeviceFaultsAreRaised := by
  unfold Obligations.DeviceFaultsAreRaised
  intro s
  refine ⟨firmware_faults, clock_faults, fun b quad port hp _ hd hlo hhi => ⟨_, congrArg Host.Outcome.next (if_pos hp), ?_⟩,
    fun hp h => congrArg Host.Outcome.next ((if_pos hp).trans ?_), fun hp h => congrArg Host.Outcome.next ((if_pos hp).trans ?_)⟩
  · refine portsLoseClock_mem (List.mem_map.2 ⟨port - ((if b then 64 else 0) + 16 * quad), List.mem_range.2 ?_, ?_⟩) hd
    · omega
    · omega
  · have hm : dieModules false s.errs = s.errs.dieModulesA := rfl
    rw [dieModuleFails, hm, if_neg (by omega), if_neg (by omega), if_neg (by simp)]
  · have hm : dieModules true s.errs = s.errs.dieModulesB := rfl
    rw [dieModuleFails, hm, if_neg (by omega), if_neg (by omega), if_pos rfl]

end Sys2Proof.Claims
end

section
/-! SUPPORT. Samples of the sensors, the governor and the telemetry snapshot (R439, R482 to R484, R490, R491). -/

namespace Sys2Proof.Machine

/-! ## Samples -/

theorem foldl_max_bounds (l : List Int) (a : Int) : a ≤ l.foldl max a ∧ ∀ j ∈ l, j ≤ l.foldl max a := by
  induction l generalizing a with
  | nil => exact ⟨Int.le_refl a, by simp⟩
  | cons b l ih =>
    obtain ⟨h1, h2⟩ := ih (max a b)
    refine ⟨Int.le_trans (Int.le_max_left a b) h1, fun j hj => ?_⟩
    rcases List.mem_cons.1 hj with rfl | hj
    · exact Int.le_trans (Int.le_max_right a j) h1
    · exact h2 j hj

/-- No junction is hotter than TJ_MAX. -/
theorem le_tjMax (x : Sample) {j : Int} (h : j ∈ x.junctions) : j ≤ tjMax x := by
  unfold tjMax
  cases hx : x.junctions with
  | nil =>
    rw [hx] at h
    cases h
  | cons a r =>
    rw [hx] at h
    obtain ⟨h1, h2⟩ := foldl_max_bounds r a
    rcases List.mem_cons.1 h with rfl | h
    · exact h1
    · exact h2 j h

/-- Of the management plane only what was sent has changed. -/
def SentOnly (s t : State) : Prop := ({ t.mgmt with out := [] } : Mgmt) = { s.mgmt with out := [] }

namespace SentOnly
variable {s t u : State}

theorem refl (s : State) : SentOnly s s := rfl
theorem trans (h : SentOnly s t) (g : SentOnly t u) : SentOnly s u := Eq.trans g h
theorem of_eq (h : t.mgmt = s.mgmt) : SentOnly s t := by unfold SentOnly; rw [h]
theorem sample (h : SentOnly s t) : t.mgmt.sample = s.mgmt.sample := by have := congrArg Mgmt.sample h; exact this
theorem powerHist (h : SentOnly s t) : t.mgmt.powerHist = s.mgmt.powerHist := by have := congrArg Mgmt.powerHist h; exact this
theorem trip (h : SentOnly s t) : t.mgmt.trip = s.mgmt.trip := by have := congrArg Mgmt.trip h; exact this
theorem vcoreSet (h : SentOnly s t) : t.mgmt.vcoreSet = s.mgmt.vcoreSet := by have := congrArg Mgmt.vcoreSet h; exact this
theorem vsramSet (h : SentOnly s t) : t.mgmt.vsramSet = s.mgmt.vsramSet := by have := congrArg Mgmt.vsramSet h; exact this
theorem vcoreMisses (h : SentOnly s t) : t.mgmt.vcoreMisses = s.mgmt.vcoreMisses := by
  have := congrArg Mgmt.vcoreMisses h; exact this
theorem limitUnmet (h : SentOnly s t) : t.mgmt.limitUnmet = s.mgmt.limitUnmet := by have := congrArg Mgmt.limitUnmet h; exact this

end SentOnly

theorem pldmEvent_sentOnly (id : Nat) (data : List Byte) (s : State) : SentOnly s (pldmEvent id data s) := by
  unfold pldmEvent
  split
  · exact .refl s
  · rfl

theorem deviceFaultCore_sentOnly (cause : Nat) (s : State) : SentOnly s (deviceFaultCore cause s) := by
  unfold deviceFaultCore
  dsimp only
  refine .trans (.of_eq ?_) (pldmEvent_sentOnly _ _ _)
  refine (((abortCommands_keeps (k := [.mb]) _ _ rfl).2 (.refl _ _)).mgmt_eq rfl).trans ?_
  refine (((mapRun_keeps _ _ (k := [.ctl]) rfl).2 (.refl _ _)).mgmt_eq rfl).trans ?_
  split
  · rfl
  · exact mgmt_of_allBut (by simp)

/-- THROTTLING notes whether it has been sent, and nothing that a sample says. -/
theorem noteThrottling_sample (s : State) : Keeps [.mgmt] s (noteThrottling s) ∧ (noteThrottling s).mgmt.sample = s.mgmt.sample ∧
    (noteThrottling s).mgmt.powerHist = s.mgmt.powerHist ∧ (noteThrottling s).mgmt.trip = s.mgmt.trip := by
  unfold noteThrottling
  dsimp only
  split
  · have h := pldmEvent_sentOnly 1 [] { s with mgmt := { s.mgmt with throttled := true } }
    exact ⟨(pldmEvent_keeps _ _ _ rfl).2 (by simp [within]), h.sample, h.powerHist, h.trip⟩
  · split
    · exact ⟨by simp [within], rfl, rfl, rfl⟩
    · exact ⟨.refl _ s, rfl, rfl, rfl⟩

/-! ## The governor -/

theorem raiseUnmet_marks (s : State) : (raiseUnmet s).mgmt.limitUnmet = true ∧ (raiseUnmet s).mgmt.vcoreSet = s.mgmt.vcoreSet ∧
    (raiseUnmet s).mgmt.vsramSet = s.mgmt.vsramSet ∧ (raiseUnmet s).mgmt.vcoreMisses = s.mgmt.vcoreMisses := by
  unfold raiseUnmet
  split
  · next h => exact ⟨h, rfl, rfl, rfl⟩
  · have h := pldmEvent_sentOnly 2 [] { s with mgmt := { s.mgmt with limitUnmet := true } }
    exact ⟨h.limitUnmet, h.vcoreSet, h.vsramSet, h.vcoreMisses⟩

section
variable {s : State} (mv : Nat)

theorem commandVcore_acked (h : s.mgmt.vcoreMisses < 3) :
    commandVcore mv true s = { s with mgmt := { s.mgmt with vcoreSet := mv, vcoreMisses := 0 } } := by
  rw [commandVcore, if_neg (by omega), if_pos rfl]

theorem commandVsram_acked (h : s.mgmt.vsramMisses < 3) :
    commandVsram mv true s = { s with mgmt := { s.mgmt with vsramSet := mv, vsramMisses := 0 } } := by
  rw [commandVsram, if_neg (by omega), if_pos rfl]

/-- A command that VCORE does not acknowledge counts, and the third raises LIMIT_UNMET. -/
theorem commandVcore_missed (h : s.mgmt.vcoreMisses < 3) :
    (commandVcore mv false s).mgmt.vcoreSet = s.mgmt.vcoreSet ∧ (commandVcore mv false s).mgmt.vsramSet = s.mgmt.vsramSet ∧
      (commandVcore mv false s).mgmt.vcoreMisses = s.mgmt.vcoreMisses + 1 ∧
      (s.mgmt.vcoreMisses = 2 → (commandVcore mv false s).mgmt.limitUnmet = true) := by
  rw [commandVcore, if_neg (by omega), if_neg (by simp)]
  dsimp only
  split
  · obtain ⟨h1, h2, h3, h4⟩ := raiseUnmet_marks { s with mgmt := { s.mgmt with vcoreMisses := s.mgmt.vcoreMisses + 1 } }
    exact ⟨h2, h3, h4, fun _ => h1⟩
  · next hn => exact ⟨rfl, rfl, rfl, fun h2 => absurd (by rw [h2]) hn⟩

end

/-! ## The snapshot -/

theorem telMem_congr {s t : State} (seq : Nat) (hb : t.time.beat = s.time.beat) (ht : t.tier = s.tier) (hm : t.mgmt = s.mgmt)
    (he : t.errs = s.errs) (hr : t.rem = s.rem) (hf : t.fab = s.fab) : telMem t seq = telMem s seq := by
  have hp : portFields t = portFields s := by
    funext p
    rw [portFields, portFields, portOf_congr p hf]
  simp only [telMem, meanPower, refuseWord, hb, ht, hm, he, hr, hp]

end Sys2Proof.Machine

namespace Sys2Proof.Claims

open Sys2Proof.Machine

theorem deviceFault_sentOnly (cause : Nat) (s : State) : SentOnly s (deviceFault cause s) :=
  (deviceFaultCore_sentOnly cause s).trans (.of_eq ((deviceFault_after_core cause s).2.mgmt_eq rfl))

theorem deviceFault_pins (cause : Nat) (s : State) : (deviceFault cause s).pins = s.pins :=
  ((deviceFault_keeps (k := [.mb, .mem, .ctl, .rem, .launch, .mgmt, .errs]) cause s rfl).2 (.refl _ s)).pins_eq rfl

theorem noteTrip_sentOnly (s : State) : SentOnly s (noteTrip s) := by
  unfold noteTrip
  split
  · exact .trans (t := { s with pins := { s.pins with thermtrip := true } }) (.refl s)
      ((pldmEvent_sentOnly _ _ _).trans (deviceFault_sentOnly _ _))
  · exact .refl s

/-- A junction at TRIP asserts the output and is a device fault. -/
theorem noteTrip_trips {s : State} (h : (s.mgmt.trip : Int) ≤ tjMax s.mgmt.sample) (hp : s.pins.thermtrip = false) :
    (noteTrip s).pins.thermtrip = true ∧ Raised 7 s (noteTrip s) := by
  rw [noteTrip, if_pos ⟨h, hp⟩]
  have kp : Keeps [.mgmt] { s with pins := { s.pins with thermtrip := true } }
      (pldmEvent 3 [] { s with pins := { s.pins with thermtrip := true } }) := (pldmEvent_keeps _ _ _ rfl).2 (.refl _ _)
  refine ⟨?_, ?_⟩
  · rw [deviceFault_pins, kp.pins_eq rfl]
  · obtain ⟨h1, h2, h3, h4⟩ := raised_deviceFault 7 (pldmEvent 3 [] { s with pins := { s.pins with thermtrip := true } })
    exact ⟨h1, h2, h3, fun h0 => h4 (by rw [kp.mb_eq rfl]; exact h0)⟩

section
variable {s : State} (hp : s.pins.pwrgd = true)
include hp

/-- A sample is kept, and trips where a junction is at TRIP. -/
theorem sensorSample_kept (x : Sample) : ∃ t, exec (.sensorSample x) s = .next t ∧ t.mgmt.sample = x ∧
    t.mgmt.powerHist = packageMw x :: s.mgmt.powerHist.take 99999 ∧
    (∀ j ∈ x.junctions, (s.mgmt.trip : Int) ≤ j → s.pins.thermtrip = false → t.pins.thermtrip = true ∧ Raised 7 s t) := by
  refine ⟨_, congrArg Host.Outcome.next (if_pos hp), ?_⟩
  unfold sensorSampleEffect
  dsimp only
  generalize hu : ({ s with mgmt := _, dbg := _ } : State) = u
  have hs : u.mgmt.sample = x := by rw [← hu]
  have hh : u.mgmt.powerHist = packageMw x :: s.mgmt.powerHist.take 99999 := by rw [← hu]
  have ht : u.mgmt.trip = s.mgmt.trip := by rw [← hu]
  have hpins : u.pins = s.pins := by rw [← hu]
  have hmb : u.mb = s.mb := by rw [← hu]
  obtain ⟨kt, ts, th, tt⟩ := noteThrottling_sample u
  have k := noteTrip_sentOnly (noteThrottling u)
  refine ⟨k.sample.trans (ts.trans hs), k.powerHist.trans (th.trans hh), fun j hj hle hn => ?_⟩
  obtain ⟨h1, h2, h3, h4, h5⟩ := noteTrip_trips (s := noteThrottling u)
    (by rw [tt, ht, ts, hs]; exact Int.le_trans hle (le_tjMax x hj)) (by rw [kt.pins_eq rfl, hpins]; exact hn)
  exact ⟨h1, h2, h3, h4, fun h0 => h5 (by rw [kt.mb_eq rfl, hmb]; exact h0)⟩

theorem exec_governorStep (a : AvsAck) : exec (.governorStep a) s = .next (governorStepEffect a s) :=
  congrArg Host.Outcome.next (if_pos hp)

/-- A figure above its limit lowers both setpoints. -/
theorem governor_lowers (hr : s.mgmt.vsramMisses < 3) (hc : s.mgmt.vcoreMisses < 3) (hf : figureAbove 100 s = true)
    (hv : 600 < s.mgmt.vcoreSet) : ∃ t, exec (.governorStep ⟨true, true⟩) s = .next t ∧
      Keeps [.mgmt] s t ∧ t.mgmt.vcoreSet = s.mgmt.vcoreSet - 5 ∧ t.mgmt.vsramSet = s.mgmt.vcoreSet - 5 + 50 := by
  refine ⟨_, exec_governorStep hp _, ?_⟩
  rw [governorStepEffect, if_pos hf, if_neg (by omega)]
  unfold lowerSetpoints
  dsimp only
  rw [commandVcore_acked _ hc, if_pos rfl, commandVsram_acked]
  · exact ⟨by simp [within], rfl, rfl⟩
  · exact hr

/-- A command to VCORE that goes without an answer leaves both setpoints. -/
theorem governor_misses (hc : s.mgmt.vcoreMisses < 3) (hf : figureAbove 100 s = true) (hv : 600 < s.mgmt.vcoreSet) :
    ∃ t, exec (.governorStep ⟨true, false⟩) s = .next t ∧
      t.mgmt.vcoreSet = s.mgmt.vcoreSet ∧ t.mgmt.vsramSet = s.mgmt.vsramSet ∧
      t.mgmt.vcoreMisses = s.mgmt.vcoreMisses + 1 ∧ (s.mgmt.vcoreMisses = 2 → t.mgmt.limitUnmet = true) := by
  refine ⟨_, exec_governorStep hp _, ?_⟩
  rw [governorStepEffect, if_pos hf, if_neg (by omega)]
  unfold lowerSetpoints
  dsimp only
  have hm := commandVcore_missed (s.mgmt.vcoreSet - 5) hc
  rw [if_neg (by rw [hm.1]; omega)]
  exact hm

/-- After 100 samples inside every limit both setpoints rise. -/
theorem governor_raises (hr : s.mgmt.vsramMisses < 3) (hc : s.mgmt.vcoreMisses < 3) (hf : figureAbove 100 s = false)
    (hi : 100 ≤ s.mgmt.insideRun) (hv : s.mgmt.vcoreSet < 900) : ∃ t, exec (.governorStep ⟨true, true⟩) s = .next t ∧
      Keeps [.mgmt] s t ∧ t.mgmt.vcoreSet = s.mgmt.vcoreSet + 5 ∧ t.mgmt.vsramSet = s.mgmt.vcoreSet + 5 + 50 := by
  refine ⟨_, exec_governorStep hp _, ?_⟩
  rw [governorStepEffect, if_neg (by simp [hf])]
  dsimp only
  rw [if_pos ⟨hi, hv⟩]
  unfold raiseSetpoints
  dsimp only
  rw [commandVsram_acked, if_pos (Nat.le_refl _), commandVcore_acked]
  · exact ⟨by simp [within], rfl, rfl⟩
  · exact hc
  · exact hr

/-- TEL_UPDATE makes a whole snapshot. -/
theorem telUpdate_whole (hs : s.boot.stage = .ready) : ∃ t, exec .telUpdate s = .next t ∧ Keeps [.tier, .time, .dbg, .fab] s t ∧
    t.dbg.telSeq = s.dbg.telSeq + 2 ∧ t.dbg.telWriting = false ∧
    t.dbg.tel = telMem { s with tier := t.tier, fab := t.fab } t.dbg.telSeq.toNat := by
  refine ⟨_, congrArg Host.Outcome.next (if_pos ⟨hp, hs⟩), ?_⟩
  unfold telUpdateEffect
  dsimp only
  have kc : Keeps [.fab] s (countFec s) := (countFec_keeps _ rfl).2 (.refl _ s)
  have kf : Keeps [.tier, .time] (countFec s) (freeOccupancy (countFec s)) := by unfold freeOccupancy; simp [within]
  have hb : (freeOccupancy (countFec s)).time.beat = s.time.beat :=
    (show (freeOccupancy (countFec s)).time.beat = (countFec s).time.beat from rfl).trans (congrArg Time.beat (kc.time_eq rfl))
  generalize freeOccupancy (countFec s) = u at kf hb
  have k : Keeps [.tier, .time, .fab] s u := (kc.mono rfl).trans (kf.mono rfl)
  rw [k.dbg_eq rfl]
  exact ⟨.trans (t := u) (k.mono rfl) (by simp [within]), rfl, rfl,
    telMem_congr _ hb rfl (k.mgmt_eq rfl) (k.errs_eq rfl) (k.rem_eq rfl) rfl⟩

end

/-- Settles O58. -/
theorem governorAndTelemetry : Obligations.GovernorAndTelemetry := by
  unfold Obligations.GovernorAndTelemetry
  intro s hp
  exact ⟨sensorSample_kept hp,
    fun hr hc => ⟨governor_lowers hp hr hc, governor_misses hp hc, governor_raises hp hr hc⟩, telUpdate_whole hp⟩

end Sys2Proof.Claims
end

section
/-! SUPPORT. The management plane (R474 to R482, R485, R486). -/

namespace Sys2Proof.Machine

/-! ## Ports of the fabric -/

/-- Of the fabric only ports have changed. -/
def PortsOnly (s t : State) : Prop := ({ t.fab with ports := [] } : Fabric) = { s.fab with ports := [] }

namespace PortsOnly
variable {s t u : State}

theorem refl (s : State) : PortsOnly s s := rfl
theorem trans (h : PortsOnly s t) (g : PortsOnly t u) : PortsOnly s u := Eq.trans g h
theorem of_eq (h : t.fab = s.fab) : PortsOnly s t := by unfold PortsOnly; rw [h]
theorem active (h : PortsOnly s t) : t.fab.active = s.fab.active := by have := congrArg Fabric.active h; exact this
theorem hasActive (h : PortsOnly s t) : t.fab.hasActive = s.fab.hasActive := by have := congrArg Fabric.hasActive h; exact this
theorem shadowReady (h : PortsOnly s t) : t.fab.shadowReady = s.fab.shadowReady := by
  have := congrArg Fabric.shadowReady h; exact this

theorem foldl {α : Type} {f : State → α → State} (h : ∀ t a, PortsOnly t (f t a)) (l : List α) (s : State) :
    PortsOnly s (l.foldl f s) := by
  induction l generalizing s with
  | nil => exact refl s
  | cons a r ih => exact (h s a).trans (ih _)

end PortsOnly

theorem mapPort_portsOnly (port : Nat) (f : Port → Port) (s : State) : PortsOnly s (mapPort port f s) := rfl

theorem leaveService_portsOnly (port : Nat) (st : PortState) (part : Bool) (s : State) : PortsOnly s (leaveService port st part s) := by
  unfold leaveService
  dsimp only
  refine .trans (.of_eq ?_) (mapPort_portsOnly _ _ _)
  split
  · exact fab_of_allBut (by simp)
  · rfl

theorem settlePorts_portsOnly (tables : Bool) (s : State) : PortsOnly s (settlePorts tables s) := by
  refine PortsOnly.foldl (fun t port => ?_) _ _
  unfold settlePort
  dsimp only
  split
  · split
    · exact mapPort_portsOnly _ _ _
    · exact .refl t
  · split
    · exact .refl t
    · exact .trans (t := (freeChoice t).2) (.refl t) (leaveService_portsOnly _ _ _ _)

theorem tableSwap_ready {s : State} (h : s.fab.shadowReady = true) : tableSwap s = settlePorts true
    { s with fab := { s.fab with active := s.fab.shadow, hasActive := true, shadowReady := false } } := if_pos h

theorem takePhysId_rest (v : Nat) (s : State) :
    Keeps [.fab, .time, .errs] { s with mgmt := { s.mgmt with physId := BitVec.ofNat 24 v } } (takePhysId v s) := by
  unfold takePhysId
  dsimp only
  generalize upPorts _ = ports
  generalize hu : settlePorts false _ = u
  have ku : Keeps [.fab, .time, .errs] { s with mgmt := { s.mgmt with physId := BitVec.ofNat 24 v } } u :=
    hu ▸ (settlePorts_keeps _ _ rfl).2 (.refl _ _)
  refine ku.trans ?_
  clear hu ku
  induction ports generalizing u with
  | nil => exact .refl _ u
  | cons p r ih => exact .trans ((retrain_keeps _ _ rfl).2 (.refl _ u)) (ih _)

/-! ## A port's configuration -/

section
variable (port : Nat) (s : State)

theorem portOf_retrain : portOf (retrain port s) port = { portOf s port with
    state := .training, naks := 0
    retrains := if (portOf s port).trained = true then (portOf s port).retrains + 1 else (portOf s port).retrains } := by
  unfold retrain
  dsimp only
  rw [portOf_leaveService_self]
  simp only [true_and]
  rfl

theorem retrainEnabled_medium : (portOf (retrainEnabled port s) port).medium = (portOf s port).medium := by
  unfold retrainEnabled
  cases (portOf s port).state with
  | training | upFull | upHalf | down =>
    dsimp only
    rw [portOf_retrain]
  | disabled | miscabled => rfl

variable {port s}

theorem retrainEnabled_up (h : portUp s port = true) : (portOf (retrainEnabled port s) port).state = .training := by
  unfold portUp portIsUp at h
  unfold retrainEnabled
  cases hs : (portOf s port).state with
  | upFull | upHalf => exact congrArg Port.state (portOf_retrain port s)
  | training | disabled | down | miscabled =>
    rw [hs] at h
    cases h

end

/-! ## How a request is taken -/

section
variable {meant : Nat → Bool} {n : Nat} {body : MgmtBody} {q : MgmtReq} {s : State}

theorem takeFrame_ethernet (dst src : BitVec 48) (e : BitVec 16) (good : Bool) (f : State → State) (s : State) :
    takeFrame (.ethernet dst src e good) f s =
      if good = false then { s with mgmt := { s.mgmt with badFcs := s.mgmt.badFcs + 1 } }
      else if e = 0x88B5 ∧ (dst = Config.macAddress ∨ dst = broadcastMac) then f s else s := rfl

theorem runMgmt_badFcs (hp : s.pins.pwrgd = true) {dst src : BitVec 48} {e : BitVec 16} (hv : q.via = .ethernet dst src e false) :
    runMgmt meant n body q s = { s with mgmt := { s.mgmt with badFcs := s.mgmt.badFcs + 1 } } := by
  rw [runMgmt, if_pos hp, hv, takeFrame_ethernet, if_pos rfl]

theorem runMgmt_ignored (hp : s.pins.pwrgd = true) {dst src : BitVec 48} {e : BitVec 16} (hv : q.via = .ethernet dst src e true)
    (h : e ≠ 0x88B5 ∨ (dst ≠ Config.macAddress ∧ dst ≠ broadcastMac)) : runMgmt meant n body q s = s := by
  rw [runMgmt, if_pos hp, hv, takeFrame_ethernet, if_neg (by simp), if_neg]
  rintro ⟨he, hd⟩
  rcases h with h | ⟨h1, h2⟩
  · exact h he
  · exact hd.elim h1 h2

end

end Sys2Proof.Machine

namespace Sys2Proof.Claims

open Sys2Proof.Machine

/-- A frame or an I3C message that the device takes. -/
theorem takeFrame_heard {via : MgmtVia} (h : Heard via) (f : State → State) (s : State) : takeFrame via f s = f s := by
  rcases h with rfl | ⟨dst, src, rfl, hd⟩
  · rfl
  · rw [takeFrame_ethernet, if_neg (by simp), if_pos ⟨rfl, hd⟩]

section
variable {q : MgmtReq} {s : State} {code n : Nat}

/-- A request that can be served is answered with what it does. -/
theorem runMgmt_serves (h : Asks q code n s) {meant : Nat → Bool} (hm : meant code = true) {body : MgmtBody} {st : Nat}
    {res : List Byte} {t : State} (hb : body q s = (st, res, t)) : runMgmt meant n body q s = mgmtRespond q st res t := by
  obtain ⟨hv, hp, hc, hf, hr, hn⟩ := h
  rw [runMgmt, if_pos hp, takeFrame_heard hv, serveMgmt, if_pos ⟨hc ▸ hm, hf⟩, if_neg (by simp [hr, hn]), hb]

theorem afterReady_ready (hs : s.boot.stage = .ready) (body : MgmtBody) : afterReady body q s = body q s := if_pos hs

theorem mgmtRespond_keeps (st : Nat) (res : List Byte) (s : State) : Keeps [.mgmt] s (mgmtRespond q st res s) := by
  unfold mgmtRespond
  simp [within]

/-- What an answer's state is, from what the request has done. -/
theorem responds_of {st : Nat} {res : List Byte} {t : State} (h : t.mgmt.out = s.mgmt.out) : Responds q st res s (mgmtRespond q st res t) := by
  show _ :: t.mgmt.out = _
  rw [h]

/-! ## State, identity and tables -/

theorem setPhysId_answered (h : Asks q 0x02 4 s) (hv : arg q 0 4 < 2 ^ 24) : ∃ t, exec (.setPhysId q) s = .next t ∧
    Responds q stOk [] s t ∧ t.mgmt.physId = BitVec.ofNat 24 (arg q 0 4) := by
  have hm : (takePhysId (arg q 0 4) s).mgmt = { s.mgmt with physId := BitVec.ofNat 24 (arg q 0 4) } :=
    (takePhysId_rest (arg q 0 4) s).mgmt_eq rfl
  have hb : mgmtSetPhysId q s = (stOk, [], takePhysId (arg q 0 4) s) := if_pos hv
  generalize takePhysId (arg q 0 4) s = u at hm hb
  refine ⟨_, congrArg Host.Outcome.next (runMgmt_serves h rfl hb), responds_of (by rw [hm]), ?_⟩
  show u.mgmt.physId = _
  rw [hm]

theorem tableWrite_answered (h : Asks q 0x03 8 s) (h1 : 4 ≤ arg q 4 2) (h2 : arg q 4 2 ≤ 1024) (h3 : arg q 4 2 % 4 = 0)
    (h4 : arg q 0 4 + arg q 4 2 ≤ 140288) (h5 : arg q 6 2 = 0) (h6 : 8 + arg q 4 2 ≤ q.args.length) :
    ∃ t, exec (.tableWrite q) s = .next t ∧ Keeps [.fab, .mgmt] s t ∧ Responds q stOk [] s t ∧
      t.fab.shadow = memWrite s.fab.shadow (arg q 0 4) ((q.args.drop 8).take (arg q 4 2)) ∧
      t.fab.shadowReady = false ∧ t.fab.active = s.fab.active := by
  refine ⟨_, congrArg Host.Outcome.next (runMgmt_serves h rfl (if_pos ⟨h1, h2, h3, h4, h5, h6⟩)), ?_, responds_of rfl, rfl, rfl, rfl⟩
  exact .trans (t := { s with fab := _ }) (by simp [within]) ((mgmtRespond_keeps _ _ _).mono rfl)

theorem tableReady_answered (h : Asks q 0x04 0 s) :
    (tableRefused s.fab.shadow = true → ∃ t, exec (.tableReady q) s = .next t ∧ Responds q stBadArg [] s t ∧
      t.fab.shadowReady = false ∧ t.fab.active = s.fab.active) ∧
    (tableRefused s.fab.shadow = false → s.ctl.run.isSome = true → ∃ t, exec (.tableReady q) s = .next t ∧
      Responds q stOk [] s t ∧ t.fab.shadowReady = true ∧ t.fab.active = s.fab.active) ∧
    (tableRefused s.fab.shadow = false → s.ctl.run = none → ∃ t, exec (.tableReady q) s = .next t ∧
      Responds q stOk [] s t ∧ t.fab.shadowReady = false ∧ t.fab.active = s.fab.shadow ∧ t.fab.hasActive = true) := by
  refine ⟨fun hr => ?_, fun hr hrun => ?_, fun hr hrun => ?_⟩
  · exact ⟨_, congrArg Host.Outcome.next (runMgmt_serves h rfl (if_pos hr)), responds_of rfl, rfl, rfl⟩
  · have hb : mgmtTableReady q s = (stOk, [], { s with fab := { s.fab with shadowReady := true } }) := by
      rw [mgmtTableReady, if_neg (by simp [hr])]
      exact congrArg (fun u : State => (stOk, ([] : List Byte), u)) (if_pos hrun)
    exact ⟨_, congrArg Host.Outcome.next (runMgmt_serves h rfl hb), responds_of rfl, rfl, rfl⟩
  · have hb : mgmtTableReady q s = (stOk, [], tableSwap { s with fab := { s.fab with shadowReady := true } }) := by
      rw [mgmtTableReady, if_neg (by simp [hr])]
      exact congrArg (fun u : State => (stOk, ([] : List Byte), u)) (if_neg (by simp [stepRunning, hrun]))
    rw [tableSwap_ready (s := { s with fab := { s.fab with shadowReady := true } }) rfl] at hb
    generalize hu : ({ s with fab := { s.fab with active := s.fab.shadow, hasActive := true, shadowReady := false } } : State) = u at hb
    have k := settlePorts_portsOnly true u
    have km := (settlePorts_keeps (k := [.fab, .time, .errs]) true u rfl).2 (.refl _ u)
    generalize settlePorts true u = w at hb k km
    refine ⟨_, congrArg Host.Outcome.next (runMgmt_serves h rfl hb), responds_of ((congrArg Mgmt.out (km.mgmt_eq rfl)).trans ?_),
      k.shadowReady.trans ?_, k.active.trans ?_, k.hasActive.trans ?_⟩
    all_goals rw [← hu]

/-- A request that leaves the device as it is. -/
theorem answered_unchanged (h : Asks q code n s) {meant : Nat → Bool} (hm : meant code = true) {body : MgmtBody} {st : Nat}
    {res : List Byte} (hb : body q s = (st, res, s)) :
    ∃ t, Host.Outcome.next (φ := Fault) (ρ := Refusal) (runMgmt meant n body q s) = .next t ∧
      Keeps [.mgmt] s t ∧ Responds q st res s t :=
  ⟨_, congrArg Host.Outcome.next (runMgmt_serves h hm hb), mgmtRespond_keeps _ _ _, rfl⟩

theorem tableRead_answered (h : Asks q 0x05 10 s) (h1 : arg q 0 1 ≤ 1) (h2 : arg q 1 3 = 0) (h3 : 4 ≤ arg q 8 2)
    (h4 : arg q 8 2 ≤ 1024) (h5 : arg q 4 4 + arg q 8 2 ≤ 140288) : ∃ t, exec (.tableRead q) s = .next t ∧ Keeps [.mgmt] s t ∧
      Responds q stOk (memRead (if arg q 0 1 = 0 then s.fab.active else s.fab.shadow) (arg q 4 4) (arg q 8 2)) s t :=
  answered_unchanged h rfl (if_pos ⟨h1, h2, h3, h4, h5⟩)

/-! ## Limits and shares -/

theorem setPower_answered (h : Asks q 0x06 4 s) (h1 : 600 ≤ arg q 0 2) (h2 : arg q 0 2 ≤ arg q 2 2) (h3 : arg q 2 2 ≤ 2400) :
    ∃ t, exec (.setPower q) s = .next t ∧ Keeps [.mgmt] s t ∧ Responds q stOk [] s t ∧
      (s.boot.stage = .ready → t.mgmt.sustainedW = arg q 0 2 ∧ t.mgmt.burstW = arg q 2 2) ∧
      (s.boot.stage ≠ .ready → t.mgmt.powerNext = some (arg q 0 2, arg q 2 2)) := by
  have hx := congrArg (Host.Outcome.next (φ := Fault) (ρ := Refusal))
    (runMgmt_serves h rfl (meant := isCode 0x06) (body := mgmtSetPower) (if_pos ⟨h1, h2, h3⟩))
  by_cases hs : s.boot.stage = .ready
  · rw [if_pos hs] at hx
    exact ⟨_, hx, by unfold mgmtRespond; simp [within], responds_of rfl, fun _ => ⟨rfl, rfl⟩, fun hn => absurd hs hn⟩
  · rw [if_neg hs] at hx
    exact ⟨_, hx, by unfold mgmtRespond; simp [within], responds_of rfl, fun hn => absurd hn hs, fun _ => rfl⟩

theorem setThermal_answered (h : Asks q 0x07 4 s) (h1 : 700 ≤ arg q 0 2) (h2 : arg q 0 2 ≤ 1020) (h3 : arg q 0 2 + 50 ≤ arg q 2 2)
    (h4 : arg q 2 2 ≤ 1100) : ∃ t, exec (.setThermal q) s = .next t ∧ Keeps [.mgmt] s t ∧ Responds q stOk [] s t ∧
      (s.boot.stage = .ready → t.mgmt.throttle = arg q 0 2 ∧ t.mgmt.trip = arg q 2 2) := by
  have hx := congrArg (Host.Outcome.next (φ := Fault) (ρ := Refusal))
    (runMgmt_serves h rfl (meant := isCode 0x07) (body := mgmtSetThermal) (if_pos ⟨h1, h2, h3, h4⟩))
  by_cases hs : s.boot.stage = .ready
  · rw [if_pos hs] at hx
    exact ⟨_, hx, by unfold mgmtRespond; simp [within], responds_of rfl, fun _ => ⟨rfl, rfl⟩⟩
  · rw [if_neg hs] at hx
    exact ⟨_, hx, by unfold mgmtRespond; simp [within], responds_of rfl, fun hn => absurd hn hs⟩

theorem setShares_answered (h : Asks q 0x08 12 s) (hs : s.boot.stage = .ready) (h1 : 1000 ≤ arg q 0 4) (h2 : arg q 0 4 ≤ 100000)
    (h3 : 10000 ≤ arg q 4 4) (h4 : arg q 4 4 ≤ 250000) (h5 : 1000 ≤ arg q 8 4) (h6 : arg q 8 4 ≤ 50000) :
    ∃ t, exec (.setShares q) s = .next t ∧ Keeps [.mgmt] s t ∧ Responds q stOk [] s t ∧ t.mgmt.shareHbm = arg q 0 4 ∧
      t.mgmt.shareNand = arg q 4 4 ∧ t.mgmt.shareFabric = arg q 8 4 := by
  refine ⟨_, congrArg Host.Outcome.next
    (runMgmt_serves h rfl ((afterReady_ready hs _).trans (if_pos ⟨h1, h2, h3, h4, h5, h6⟩))), ?_, responds_of rfl, rfl, rfl, rfl⟩
  unfold mgmtRespond
  simp [within]

/-! ## Snapshots, attestation and reset -/

theorem getSnapshot_answered (h : Asks q 0x09 6 s) (hs : s.boot.stage = .ready) (h1 : 4 ≤ arg q 4 2) (h2 : arg q 4 2 ≤ 1024)
    (h3 : arg q 0 4 + arg q 4 2 ≤ 9216) : ∃ t, exec (.getSnapshot q) s = .next t ∧ Keeps [.mgmt] s t ∧
      Responds q stOk (natLe 4 (telSeqShown s).toNat ++ telRead s (arg q 0 4) (arg q 4 2)) s t ∧
      (s.dbg.telWriting = false →
        Responds q stOk (natLe 4 s.dbg.telSeq.toNat ++ memRead s.dbg.tel (arg q 0 4) (arg q 4 2)) s t) := by
  obtain ⟨t, hx, hk, hr⟩ := answered_unchanged h (meant := isCode 0x09) rfl
    ((afterReady_ready hs mgmtGetSnapshot).trans (if_pos ⟨h1, h2, h3⟩))
  refine ⟨t, hx, hk, hr, fun hw => ?_⟩
  rw [telSeqShown, telRead, if_neg (by simp [hw]), if_neg (by simp [hw])] at hr
  exact hr

theorem mgmtAttest_answered (h : Asks q 0x0A 32 s) (hs : s.boot.stage = .ready) : ∃ t, exec (.mgmtAttest q) s = .next t ∧
    Keeps [.mgmt] s t ∧ Responds q stOk (natLe 4 (reportBytes s)) s t ∧ t.mgmt.report = some (attestReport (q.args.take 32) s) := by
  refine ⟨_, congrArg Host.Outcome.next (runMgmt_serves h rfl (afterReady_ready hs _)), ?_, responds_of rfl, rfl⟩
  unfold mgmtRespond
  simp [within]

theorem attestRead_answered {m : Mem} (h : Asks q 0x0B 6 s) (hs : s.boot.stage = .ready) (hm : s.mgmt.report = some m)
    (h1 : 4 ≤ arg q 4 2) (h2 : arg q 4 2 ≤ 1024) (h3 : arg q 0 4 + arg q 4 2 ≤ s.mgmt.reportLen) :
    ∃ t, exec (.attestRead q) s = .next t ∧ Keeps [.mgmt] s t ∧ Responds q stOk (memRead m (arg q 0 4) (arg q 4 2)) s t := by
  refine answered_unchanged h rfl ((afterReady_ready hs _).trans ?_)
  unfold mgmtAttestRead
  rw [hm]
  exact if_pos ⟨h1, h2, h3⟩

theorem reset_answered (h : Asks q 0x0C 2 s) :
    (arg q 0 2 = 0xA5C3 → s.boot.resetting = true → ∃ t, exec (.reset q) s = .next t ∧ Keeps [.mgmt] s t ∧
      Responds q stOk [] s t) ∧
    (arg q 0 2 = 0xA5C3 → s.boot.resetting = false → ∃ t, exec (.reset q) s = .next t ∧ Responds q stOk [] s t ∧
      t.boot.stage = .romWait ∧ t.boot.resetCause = 2 ∧ t.mgmt.physId = s.mgmt.physId ∧
      t.mgmt.sustainedW = s.mgmt.sustainedW ∧ t.job.opened = false) ∧
    (arg q 0 2 ≠ 0xA5C3 → ∃ t, exec (.reset q) s = .next t ∧ Keeps [.mgmt] s t ∧ Responds q stBadArg [] s t) := by
  refine ⟨fun hk hr => ?_, fun hk hr => ?_, fun hk => answered_unchanged h rfl (if_neg hk)⟩
  · refine answered_unchanged h rfl ((if_pos hk).trans ?_)
    rw [requestReset, if_pos hr]
  · have hb : mgmtReset q s = (stOk, [], fullReset 2 s) := by
      rw [mgmtReset, if_pos hk, requestReset, if_neg (by simp [hr])]
    exact ⟨_, congrArg Host.Outcome.next (runMgmt_serves h rfl hb), responds_of rfl, rfl, rfl, rfl, rfl, rfl⟩

/-! ## Ports, control messages and sensors -/

theorem portConfig_answered (h : Asks q 0x0D 24 s) (ho : portConfigOk q = true) :
    (arg q 2 1 = 1 → ∃ t, exec (.portConfig q) s = .next t ∧ Keeps [.mgmt] s t ∧ Responds q stOk
      (natLe 1 (arg q 0 1) ++ natLe 1 (portOf s (arg q 0 1)).medium ++ natLe 2 1 ++
        padTo 16 (portOf s (arg q 0 1)).lanes ++ natLe 4 0) s t) ∧
    (arg q 2 1 = 0 → ∃ t, exec (.portConfig q) s = .next t ∧ Responds q stOk [] s t ∧
      (portOf t (arg q 0 1)).medium = arg q 1 1 ∧ (portUp s (arg q 0 1) = true →
        (portOf t (arg q 0 1)).state = .training)) := by
  have hq : ¬ (!portConfigOk q) = true := by simp [ho]
  refine ⟨fun hm => answered_unchanged h rfl ((if_neg hq).trans (if_pos hm)), fun hm => ?_⟩
  have hx := congrArg (Host.Outcome.next (φ := Fault) (ρ := Refusal))
    (runMgmt_serves h rfl (meant := isCode 0x0D) (body := mgmtPortConfig) ((if_neg hq).trans (if_neg (by omega))))
  generalize hu : mapPort (arg q 0 1) _ s = u at hx
  have hp : portOf u (arg q 0 1) = { portOf s (arg q 0 1) with
      medium := arg q 1 1, lanes := padTo 16 ((q.args.drop 4).take 16) } := by
    rw [← hu, portOf_mapPort_self]
  have km : u.mgmt = s.mgmt := by rw [← hu]; rfl
  have k : Keeps [.fab, .time, .errs] u (retrainEnabled (arg q 0 1) u) := (retrainEnabled_keeps _ _ rfl).2 (.refl _ u)
  refine ⟨_, hx, responds_of (congrArg Mgmt.out ((k.mgmt_eq rfl).trans km)), ?_, fun hup => ?_⟩
  · exact (retrainEnabled_medium (arg q 0 1) u).trans (by rw [hp])
  · exact retrainEnabled_up (by unfold portUp at hup ⊢; rw [hp]; exact hup)

end

section
variable {s : State} {via : MgmtVia} (hv : Heard via) (hp : s.pins.pwrgd = true) (endpoint : Nat)
include hv hp

theorem mctpControl_answered (code : Nat) : ∃ t b, exec (.mctpControl ⟨endpoint, via⟩ code) s = .next t ∧
    t.mgmt.out = ⟨endpoint, b, replyMac via⟩ :: s.mgmt.out :=
  ⟨_, _, congrArg Host.Outcome.next ((if_pos hp).trans (takeFrame_heard hv _ s)), rfl⟩

theorem exec_pldmRequest (r : PldmReq) : exec (.pldmRequest ⟨endpoint, via⟩ r) s = .next (pldmEffect via endpoint r s) :=
  congrArg Host.Outcome.next ((if_pos hp).trans (takeFrame_heard hv _ s))

theorem pldm_answered :
    (∀ id v : Nat, sensorValue? s id = some v → ∃ t, exec (.pldmRequest ⟨endpoint, via⟩ (.sensorReading id)) s = .next t ∧
      t.mgmt.out = ⟨endpoint, natLe 2 id ++ natLe 4 v, replyMac via⟩ :: s.mgmt.out) ∧
    (∀ r : Nat, ∃ t b, exec (.pldmRequest ⟨endpoint, via⟩ (.setEventReceiver r)) s = .next t ∧ t.mgmt.receiver = some r ∧
      t.mgmt.receiverMac = replyMac via ∧ t.mgmt.out = ⟨endpoint, b, replyMac via⟩ :: s.mgmt.out) ∧
    (∀ code : Nat, ∀ r ∈ [PldmReq.base code, .monitoring code], ∃ t b,
      exec (.pldmRequest ⟨endpoint, via⟩ r) s = .next t ∧ t.mgmt.out = ⟨endpoint, b, replyMac via⟩ :: s.mgmt.out) := by
  refine ⟨fun id v h => ⟨_, exec_pldmRequest hv hp endpoint _, ?_⟩, fun r => ⟨_, _, exec_pldmRequest hv hp endpoint _, rfl, rfl, rfl⟩,
    fun code => List.forall_mem_cons.2 ⟨⟨_, _, exec_pldmRequest hv hp endpoint _, rfl⟩,
      List.forall_mem_cons.2 ⟨⟨_, _, exec_pldmRequest hv hp endpoint _, rfl⟩, by simp⟩⟩⟩
  unfold pldmEffect
  dsimp only
  rw [h]
  rfl

end

section
variable {q : MgmtReq} {s : State} {dst src : BitVec 48} {etherType : BitVec 16} {good : Bool}

/-- The requests of the plane, each with its code. -/
def planeRequests (q : MgmtReq) : List (Nat × Instr) :=
  [(0x01, .getState q), (0x02, .setPhysId q), (0x03, .tableWrite q), (0x04, .tableReady q),
    (0x05, .tableRead q), (0x06, .setPower q), (0x07, .setThermal q), (0x08, .setShares q), (0x09, .getSnapshot q),
    (0x0A, .mgmtAttest q), (0x0B, .attestRead q), (0x0C, .reset q), (0x0D, .portConfig q)]

/-- Every request of the plane comes in by `runMgmt`. -/
theorem exec_planeRequest {e : Nat × Instr} (h : e ∈ planeRequests q) (s : State) :
    ∃ meant n body, exec e.2 s = .next (runMgmt meant n body q s) := by
  unfold planeRequests at h
  simp only [List.mem_cons, List.not_mem_nil, or_false] at h
  rcases h with rfl | rfl | rfl | rfl | rfl | rfl | rfl | rfl | rfl | rfl | rfl | rfl | rfl <;> exact ⟨_, _, _, rfl⟩

theorem frame_ignored (hp : s.pins.pwrgd = true) (hv : q.via = .ethernet dst src etherType good) {e : Nat × Instr}
    (h : e ∈ planeRequests q) :
    (good = false → exec e.2 s = .next { s with mgmt := { s.mgmt with badFcs := s.mgmt.badFcs + 1 } }) ∧
    (good = true → (etherType ≠ 0x88B5 ∨ (dst ≠ Config.macAddress ∧ dst ≠ broadcastMac)) → exec e.2 s = .next s) := by
  obtain ⟨meant, n, body, hx⟩ := exec_planeRequest h s
  rw [hx]
  refine ⟨fun hg => congrArg _ ?_, fun hg ho => congrArg _ ?_⟩
  · exact runMgmt_badFcs hp (hg ▸ hv)
  · exact runMgmt_ignored hp (hg ▸ hv) ho

end

/-- Settles O57. -/
theorem managementRequestsAreAnswered : Obligations.ManagementRequestsAreAnswered := by
  unfold Obligations.ManagementRequestsAreAnswered
  intro s q
  exact ⟨fun h => congrArg Host.Outcome.next (runMgmt_serves h rfl rfl), setPhysId_answered, tableWrite_answered,
    tableReady_answered, tableRead_answered, setPower_answered, setThermal_answered, setShares_answered, getSnapshot_answered,
    mgmtAttest_answered, fun m => attestRead_answered, reset_answered, portConfig_answered,
    fun code hc h => answered_unchanged h (by rcases hc with rfl | hc <;> simp [*]) rfl,
    fun via endpoint hv hp => ⟨mctpControl_answered hv hp endpoint, pldm_answered hv hp endpoint⟩,
    fun dst src etherType good hp hv e he _ => frame_ignored hp hv he⟩

end Sys2Proof.Claims
end

section
/-! SUPPORT. Patrol scrubs and the cell test (R459 to R473). -/

namespace Sys2Proof.Machine

/-! ## Errors but for a device fault -/

/-- Of the errors and repairs only a device fault may have been raised. -/
def FaultOnly (s t : State) : Prop := t.errs = { s.errs with deviceFault := t.errs.deviceFault }

namespace FaultOnly
variable {s t u : State}

theorem refl (s : State) : FaultOnly s s := rfl
theorem of_eq (h : t.errs = s.errs) : FaultOnly s t := by unfold FaultOnly; rw [h]

theorem trans (h : FaultOnly s t) (g : FaultOnly t u) : FaultOnly s u := by
  unfold FaultOnly at h g ⊢
  rw [g, h]

theorem foldl {α : Type} {f : State → α → State} (h : ∀ t a, FaultOnly t (f t a)) (l : List α) (s : State) :
    FaultOnly s (l.foldl f s) := by
  induction l generalizing s with
  | nil => exact refl s
  | cons a r ih => exact (h s a).trans (ih _)

theorem bad (h : FaultOnly s t) : t.errs.bad = s.errs.bad := by rw [h]
theorem unit (h : FaultOnly s t) : t.errs.unit = s.errs.unit := by rw [h]
theorem testing (h : FaultOnly s t) : t.errs.testing = s.errs.testing := by rw [h]
theorem badBursts (h : FaultOnly s t) : t.errs.badBursts = s.errs.badBursts := by rw [h]
theorem counts (h : FaultOnly s t) : t.errs.counts = s.errs.counts := by rw [h]

end FaultOnly

theorem deviceFaultCore_faultOnly (cause : Nat) (s : State) : FaultOnly s (deviceFaultCore cause s) := by
  unfold FaultOnly
  rw [deviceFaultCore_errs]

theorem pushEvents_faultOnly (l : List Event) (s : State) : FaultOnly s (pushEvents l s) := by
  induction l generalizing s with
  | nil => exact .of_eq rfl
  | cons e r ih =>
    unfold pushEvents
    split
    · exact .of_eq rfl
    · split
      · dsimp only
        split
        · refine .trans (t := setCause 1 _) (.of_eq ?_) (ih _)
          exact errs_of_allBut (by simp)
        · split
          · exact .of_eq rfl
          · exact .trans (t := { s with mb := { s.mb with queue := e :: r } }) (.of_eq rfl) (deviceFaultCore_faultOnly _ _)
      · exact .of_eq rfl

theorem postEvent_faultOnly (typ st tag : Nat) (d : List Byte) (s : State) : FaultOnly s (postEvent typ st tag d s) :=
  .trans (t := enqueueEvent typ st tag d s) (.of_eq (errs_of_allBut (by simp))) (pushEvents_faultOnly _ _)

theorem grantWait_faultOnly (w : PoolWait) (h : Nat) (s : State) : FaultOnly s (grantWait w h s) := by
  unfold grantWait
  split
  · exact postEvent_faultOnly _ _ _ _ s
  · exact .of_eq (((giveStage_keeps (k := [.flash]) _ _ _ _ rfl).2 (.refl _ s)).errs_eq rfl)
  · exact .of_eq rfl

theorem serveWaits_faultOnly (l : List PoolWait) (s : State) : FaultOnly s (serveWaits l s) := by
  induction l generalizing s with
  | nil => exact .refl s
  | cons w r ih =>
    unfold serveWaits
    split
    · next h t ha => exact .trans (.of_eq ((allocate_keeps ha).errs_eq rfl)) (.trans (grantWait_faultOnly w h t) (ih _))
    · exact .trans (.of_eq rfl) (ih _)

theorem freeBuffer_faultOnly (h : Nat) (s : State) : FaultOnly s (freeBuffer h s) :=
  .trans (.of_eq rfl) (serveWaits_faultOnly _ _)

theorem dropCopy_faultOnly (obj tier : Nat) (s : State) : FaultOnly s (dropCopy obj tier s) := by
  unfold dropCopy
  split
  · exact .refl s
  · dsimp only
    split
    · exact .trans (.of_eq rfl) (freeBuffer_faultOnly _ _)
    · exact .of_eq rfl

theorem dropBad_faultOnly (o : Obj) (tier : Nat) (s : State) : FaultOnly s (dropBad o tier s) :=
  .trans (dropCopy_faultOnly o.id tier s) (.of_eq rfl)

/-! ## What is known of HBM -/

/-- The bursts known to be uncorrectable and their count are as they were. -/
structure BurstsStand (s t : State) : Prop where
  bursts : t.errs.badBursts = s.errs.badBursts
  count : tblGet t.errs.counts tcHbmUe = tblGet s.errs.counts tcHbmUe

namespace BurstsStand
variable {s t u : State}

theorem refl (s : State) : BurstsStand s s := ⟨rfl, rfl⟩
theorem trans (h : BurstsStand s t) (g : BurstsStand t u) : BurstsStand s u := ⟨g.bursts.trans h.bursts, g.count.trans h.count⟩
theorem of_eq (h : t.errs = s.errs) : BurstsStand s t := ⟨by rw [h], by rw [h]⟩
theorem of_fault (h : FaultOnly s t) : BurstsStand s t := ⟨h.badBursts, by rw [h.counts]⟩

theorem foldl {α : Type} {f : State → α → State} (h : ∀ t a, BurstsStand t (f t a)) (l : List α) (s : State) :
    BurstsStand s (l.foldl f s) := by
  induction l generalizing s with
  | nil => exact refl s
  | cons a r ih => exact (h s a).trans (ih _)

end BurstsStand

theorem startCopy_bursts (o : Obj) (tier source : Nat) (tags : List Nat) (s : State) : BurstsStand s (startCopy o tier source tags s) :=
  .of_eq (((startCopy_keeps (k := [.tier, .pools]) _ _ _ _ _ rfl).2 (.refl _ s)).errs_eq rfl)

theorem startPromotion_bursts (through : Bool) (o : Obj) (tier : Nat) (tags : List Nat) (s : State) :
    BurstsStand s (startPromotion through o tier tags s) := by
  unfold startPromotion
  split
  · exact (startCopy_bursts _ _ _ _ _).trans (startCopy_bursts _ _ _ _ _)
  · dsimp only
    refine .trans ?_ (startCopy_bursts _ _ _ _ _)
    split
    · exact ⟨rfl, tblGet_tblAdd_ne _ _ (by decide)⟩
    · exact .refl s

theorem tryPromote_bursts (o : Obj) (tier : Nat) (s : State) : BurstsStand s (tryPromote o tier s) := by
  unfold tryPromote
  split
  · dsimp only
    have hr : BurstsStand s (hbmRoute o tier s).2 := .of_eq (((hbmRoute_keeps (k := [.time]) _ _ _ rfl).2 (.refl _ s)).errs_eq rfl)
    split
    · exact .of_eq (((stepFault_keeps (k := [.ctl, .rem, .launch]) _ _ rfl).2 (.refl _ s)).errs_eq rfl)
    · split
      · exact .refl s
      · refine hr.trans (.trans (.of_eq ?_) (startPromotion_bursts _ _ _ _ _))
        exact ((takeDeferred_keeps (k := [.tier]) _ _ _ rfl).2 (.refl _ _)).errs_eq rfl
  · exact .refl s

theorem retryEnsures_bursts (s : State) : BurstsStand s (retryEnsures s) := by
  unfold retryEnsures
  split
  · refine .trans (BurstsStand.foldl (fun t n => ?_) (neededCopies s) s)
      (.of_eq (((settlePrefetches_keeps (k := [.cells]) _ rfl).2 (.refl _ _)).errs_eq rfl))
    split
    · exact tryPromote_bursts _ _ t
    · exact .refl t
  · exact .refl s

theorem copyUncorrectable_bursts (c : Copy) (s : State) : BurstsStand s (copyUncorrectable c s) := by
  unfold copyUncorrectable
  split
  · exact .refl s
  · split
    · exact .of_eq rfl
    · exact .refl s
    · exact .refl s
    · exact .trans (.of_fault (dropBad_faultOnly _ _ _)) (retryEnsures_bursts _)
    · exact .trans (.of_fault (dropBad_faultOnly _ _ _)) (retryEnsures_bursts _)

/-! ## Scrubs of HBM -/

theorem hbmCorrected_counts (a : Nat) (s : State) : Keeps [.errs] s (hbmCorrected a s) ∧
    tblGet (hbmCorrected a s).errs.counts tcHbmCe = tblGet s.errs.counts tcHbmCe + 1 := by
  refine ⟨(hbmCorrected_keeps _ _ rfl).2 (.refl _ s), ?_⟩
  have h1 : tblGet (tblAdd s.errs.counts tcHbmCe 1) tcHbmCe = tblGet s.errs.counts tcHbmCe + 1 := tblGet_tblAdd_self _ _ Nat.one_pos
  unfold hbmCorrected
  dsimp only
  split
  · exact (tblGet_tblAdd_ne _ _ (by decide)).trans h1
  · exact h1

theorem hbmUncorrectable_counts (a : Nat) (s : State) :
    tblGet (hbmUncorrectable a s).errs.counts tcHbmUe = tblGet s.errs.counts tcHbmUe + 1 ∧
      a / 64 * 64 ∈ (hbmUncorrectable a s).errs.badBursts := by
  refine ⟨tblGet_tblAdd_self _ _ Nat.one_pos, ?_⟩
  show a / 64 * 64 ∈ (if s.errs.badBursts.contains (a / 64 * 64) then s.errs.badBursts else a / 64 * 64 :: s.errs.badBursts)
  split
  · next h => exact List.contains_iff_mem.1 h
  · exact List.mem_cons_self

/-- A complete copy that was found bad is no longer there. -/
theorem copyUncorrectable_absent {c : Copy} {o : Obj} {s : State} (ho : objOf? s c.obj = some o) (hid : o.id = c.obj)
    (ht : isThere c.state = true) (hi : stepActive s = false) : copyOf? (copyUncorrectable c s) c.obj c.tier = none := by
  have hd : copyOf? (retryEnsures (dropBad o c.tier s)) c.obj c.tier = none := by
    rw [retryEnsures_inactive, ← hid]
    · exact copyOf_dropBad_none s
    · exact (dropCopy_noCopyAppears o.id c.tier s).idle hi
  unfold copyUncorrectable
  rw [ho]
  dsimp only
  cases hc : c.state with
  | resident | pinned => exact hd
  | promoting | evicting | absent =>
    rw [hc] at ht
    cases ht

theorem copyAt_found {s : State} {b : Nat} {c : Copy} (h : copyAt? s b = some c) : c.tier = 2 ∧ ∃ o, objOf? s c.obj = some o := by
  have hp := List.find?_some h
  simp only [Bool.and_eq_true, beq_iff_eq] at hp
  obtain ⟨ht, ho⟩ := hp
  refine ⟨ht, ?_⟩
  cases hs : objOf? s c.obj with
  | none =>
    rw [hs] at ho
    cases ho
  | some o => exact ⟨o, rfl⟩

/-! ## Scrubs of SRAM -/

theorem dropAt_eq_eraseIdx {α : Type} (n : Nat) (l : List α) : dropAt n l = l.eraseIdx n := by
  induction n, l using dropAt.induct with
  | case1 n => simp [dropAt]
  | case2 a r => rfl
  | case3 n a r ih => simp [dropAt, ih]

theorem markWord_keepsErrs (k : Nat) (w : Option Nat) (s : State) : Keeps [.errs] s (markWord k w s) :=
  (markWord_keeps _ _ _ rfl).2 (.refl _ s)

/-- A word of a cluster's memories is known to be bad from then on. -/
theorem markWord_marks {k a : Nat} {s : State} (h : inCluster k (a / 8 * 8) = true) :
    a / 8 * 8 ∈ (markWord k (some a) s).errs.badWords := by
  unfold markWord
  dsimp only
  rw [h, Bool.true_and]
  split
  · exact List.mem_cons_self
  · next hc => simpa using hc

theorem markWord_rest (k : Nat) (w : Option Nat) (s : State) : (markWord k w s).errs.sramCe = s.errs.sramCe ∧
    (markWord k w s).errs.counts = s.errs.counts := by
  unfold markWord
  split
  · exact ⟨rfl, rfl⟩
  · dsimp only
    split <;> exact ⟨rfl, rfl⟩

/-! ## The unit map -/

section
variable {u : KV Nat} {k v : Nat}

theorem kvGet_of_mem (h : u.Pairwise fun a b => a.1 < b.1) (hm : (k, v) ∈ u) : kvGet? u k = some v := by
  induction u with
  | nil => cases hm
  | cons e r ih =>
    obtain ⟨e1, e2⟩ := e
    obtain ⟨h1, h2⟩ := List.pairwise_cons.1 h
    rcases List.mem_cons.1 hm with hm | hm
    · cases hm
      exact if_pos rfl
    · have := h1 _ hm
      simp only at this
      exact (if_neg (by omega)).trans (ih h2 hm)

theorem mem_of_kvGet (h : kvGet? u k = some v) : (k, v) ∈ u := by
  induction u with
  | nil => cases h
  | cons e r ih =>
    obtain ⟨e1, e2⟩ := e
    by_cases he : e1 = k
    · rw [show kvGet? ((e1, e2) :: r) k = some e2 from if_pos he] at h
      rw [he, Option.some_inj.1 h]
      exact List.mem_cons_self
    · exact List.mem_cons_of_mem _ (ih ((if_neg he).symm.trans h))

theorem kvGet_kvDel_ne {j : Nat} (h : k ≠ j) : kvGet? (kvDel u j) k = kvGet? u k := by
  induction u with
  | nil => rfl
  | cons e r ih =>
    obtain ⟨e1, e2⟩ := e
    unfold kvDel at ih ⊢
    by_cases he : e1 = j
    · have hd : ((e1, e2) :: r).filter (fun e => e.1 != j) = r.filter fun e => e.1 != j := List.filter_cons_of_neg (by simp [he])
      rw [hd, ih]
      exact (if_neg (by omega)).symm
    · have hd : ((e1, e2) :: r).filter (fun e => e.1 != j) = (e1, e2) :: r.filter fun e => e.1 != j :=
        List.filter_cons_of_pos (by simp [he])
      rw [hd]
      simp only [kvGet?, ih]

theorem kvDel_sorted (h : u.Pairwise fun a b => a.1 < b.1) (j : Nat) : (kvDel u j).Pairwise fun a b => a.1 < b.1 := h.filter _

theorem mem_kvPut {e : Nat × Nat} (h : e ∈ kvPut u k v) : e = (k, v) ∨ e ∈ u := by
  induction u with
  | nil => exact .inl (List.mem_singleton.1 h)
  | cons x r ih =>
    obtain ⟨x1, x2⟩ := x
    unfold kvPut at h
    split at h
    · exact List.mem_cons.1 h
    · split at h
      · rcases List.mem_cons.1 h with h | h
        · exact .inl h
        · exact .inr (List.mem_cons_of_mem _ h)
      · rcases List.mem_cons.1 h with h | h
        · exact .inr (h ▸ List.mem_cons_self)
        · exact (ih h).imp id (List.mem_cons_of_mem _)

theorem kvPut_sorted (h : u.Pairwise fun a b => a.1 < b.1) (k v : Nat) : (kvPut u k v).Pairwise fun a b => a.1 < b.1 := by
  induction u with
  | nil => exact List.pairwise_singleton _ _
  | cons x r ih =>
    obtain ⟨x1, x2⟩ := x
    obtain ⟨h1, h2⟩ := List.pairwise_cons.1 h
    unfold kvPut
    split
    · next hk =>
      refine List.pairwise_cons.2 ⟨fun e he => ?_, h⟩
      rcases List.mem_cons.1 he with rfl | he
      · exact hk
      · exact Nat.lt_trans hk (h1 e he)
    · split
      · next hk =>
        subst hk
        exact List.pairwise_cons.2 ⟨h1, h2⟩
      · next hlt hne =>
        refine List.pairwise_cons.2 ⟨fun e he => ?_, ih h2⟩
        rcases mem_kvPut he with rfl | he
        · show x1 < k
          omega
        · exact h1 e he

end

/-! ## What a retirement leaves of the unit map -/

/-- The cells out of use, the unit map and the cell under test are as they were. -/
structure UnitStands (s t : State) : Prop where
  bad : t.errs.bad = s.errs.bad
  unit : t.errs.unit = s.errs.unit
  testing : t.errs.testing = s.errs.testing

namespace UnitStands
variable {s t u : State}

theorem refl (s : State) : UnitStands s s := ⟨rfl, rfl, rfl⟩
theorem trans (h : UnitStands s t) (g : UnitStands t u) : UnitStands s u :=
  ⟨g.bad.trans h.bad, g.unit.trans h.unit, g.testing.trans h.testing⟩
theorem of_eq (h : t.errs = s.errs) : UnitStands s t := ⟨by rw [h], by rw [h], by rw [h]⟩
theorem of_fault (h : FaultOnly s t) : UnitStands s t := ⟨h.bad, h.unit, h.testing⟩

theorem foldl {α : Type} {f : State → α → State} (h : ∀ t a, UnitStands t (f t a)) (l : List α) (s : State) :
    UnitStands s (l.foldl f s) := by
  induction l generalizing s with
  | nil => exact refl s
  | cons a r ih => exact (h s a).trans (ih _)

end UnitStands

theorem putMem_unit (a n : Nat) (m : Mem) (s : State) : UnitStands s (putMem a n m s) := ⟨rfl, rfl, rfl⟩

theorem countBadSource_unit (o : Obj) (c : Copy) (s : State) : UnitStands s (countBadSource o c s) := by
  unfold countBadSource
  split
  · exact ⟨rfl, rfl, rfl⟩
  · exact ⟨rfl, rfl, rfl⟩
  · split <;> exact ⟨rfl, rfl, rfl⟩

theorem refillTier_unit (o : Obj) (c : Copy) (n : Nat) (s : State) : UnitStands s (refillTier? o c n s).2 := by
  induction n generalizing s with
  | zero => exact .refl s
  | succ n ih =>
    unfold refillTier?
    dsimp only
    split
    · exact .refl s
    · split
      · exact countBadSource_unit _ _ s
      · exact (countBadSource_unit _ _ s).trans (.trans (.of_fault (dropBad_faultOnly _ _ _)) (ih _))

theorem refillCopy_unit (s : State) (c : Copy) : UnitStands s (refillCopy s c) := by
  unfold refillCopy
  split
  · exact .refl s
  · next o _ =>
    dsimp only
    have h := refillTier_unit o c 3 s
    split
    · exact h.trans (putMem_unit _ _ _ _)
    · exact h.trans (.of_fault (dropCopy_faultOnly _ _ _))
    · exact .refl s

theorem freshCell_unit (cell : Nat) (s : State) : UnitStands s (freshCell cell s) := by
  refine .trans ?_ (UnitStands.foldl refillCopy_unit _ _)
  exact ⟨rfl, rfl, rfl⟩

theorem takeOverCell_unit (cell old : Nat) (s : State) : UnitStands s (takeOverCell cell old s) := by
  unfold takeOverCell
  dsimp only
  have h := UnitStands.foldl (f := fun t c => dropCopy c.obj 0 t) (fun t c => .of_fault (dropCopy_faultOnly c.obj 0 t)) (scratchCopies s old) s
  generalize (scratchCopies s old).foldl (fun t c => dropCopy c.obj 0 t) s = u at h
  refine h.trans (.trans ?_ (UnitStands.foldl refillCopy_unit _ _))
  exact ⟨rfl, rfl, rfl⟩

theorem changeDigest_unit (s : State) : UnitStands s (changeDigest s) :=
  .of_eq (((changeDigest_keeps (k := [.boot, .cells, .ctr, .job, .ctl, .exch, .tier]) _ rfl).2 (.refl _ s)).errs_eq rfl)

/-- A physical cell has left the unit map, and every other that is in it stays. -/
structure Retires (p : Nat) (s t : State) : Prop where
  bad : t.errs.bad = p :: s.errs.bad
  testing : t.errs.testing = s.errs.testing
  sorted : t.errs.unit.Pairwise fun a b => a.1 < b.1
  stays : ∀ q, q ≠ p → (∃ k, kvGet? s.errs.unit k = some q) → ∃ k, kvGet? t.errs.unit k = some q

theorem Retires.of_unit {p : Nat} {s t u : State} (h : Retires p s t) (g : UnitStands t u) : Retires p s u :=
  ⟨g.bad.trans h.bad, g.testing.trans h.testing, by rw [g.unit]; exact h.sorted, by rw [g.unit]; exact h.stays⟩

section
variable {s : State} {cell p : Nat} (hs : s.errs.unit.Pairwise fun a b => a.1 < b.1) (hc : kvGet? s.errs.unit cell = some p)
include hs hc

theorem retireCell_retires : Retires p s (retireCell cell s) := by
  have hp : physOf s cell = p := by rw [physOf, hc]; rfl
  have hne {q k : Nat} (hq : q ≠ p) (hk : kvGet? s.errs.unit k = some q) : k ≠ cell := by
    rintro rfl
    rw [hc] at hk
    exact hq (Option.some_inj.1 hk).symm
  unfold retireCell
  dsimp only
  rw [hp]
  split
  · next v _ =>
    refine Retires.of_unit ?_ (freshCell_unit _ _)
    refine ⟨rfl, rfl, kvPut_sorted hs _ _, fun q hq ⟨k, hk⟩ => ⟨k, ?_⟩⟩
    exact (kvGet_kvPut_ne _ _ (hne hq hk)).trans hk
  · split
    · exact ⟨rfl, rfl, hs, fun q _ h => h⟩
    · next last _ =>
      split
      · next hl =>
        refine Retires.of_unit ?_ (changeDigest_unit _)
        refine ⟨rfl, rfl, kvDel_sorted hs _, fun q hq ⟨k, hk⟩ => ⟨k, ?_⟩⟩
        exact (kvGet_kvDel_ne (hne hq hk)).trans hk
      · next hl =>
        generalize hu : takeOverCell cell last _ = u
        have ku : UnitStands { s with errs := { s.errs with bad := p :: s.errs.bad } } u := hu ▸ takeOverCell_unit _ _ _
        refine Retires.of_unit ?_ (changeDigest_unit _)
        refine ⟨ku.bad, ku.testing, ?_, fun q hq ⟨k, hk⟩ => ?_⟩
        · exact kvPut_sorted (kvDel_sorted (by rw [ku.unit]; exact hs) _) _ _
        · show ∃ k, kvGet? (kvPut (kvDel u.errs.unit last) cell _) k = some q
          rw [ku.unit]
          by_cases hk' : k = last
          · subst hk'
            refine ⟨cell, (kvGet_kvPut_self _ _ _).trans ?_⟩
            show some ((kvGet? s.errs.unit k).getD 0) = some q
            rw [hk]
            rfl
          · exact ⟨k, (kvGet_kvPut_ne _ _ (hne hq hk)).trans ((kvGet_kvDel_ne hk').trans hk)⟩

/-- The test of a physical cell that has failed retires it. -/
theorem testPhys_retires : Retires p s (testPhys p true s) := by
  unfold testPhys
  rw [if_pos (.inl rfl)]
  cases hf : s.errs.unit.find? fun e => e.2 == p with
  | none => exact absurd (List.find?_eq_none.1 hf _ (mem_of_kvGet hc)) (by simp)
  | some e =>
    obtain ⟨k, v⟩ := e
    have hv : v = p := by simpa using List.find?_some hf
    subst hv
    exact retireCell_retires hs (kvGet_of_mem hs (List.mem_of_find?_eq_some hf))

end

/-! ## The report after a cell test -/

theorem settleReport_unit (s : State) (hd : ∀ u : State, FaultOnly u (deviceFault 2 u)) : UnitStands s (settleReport s) := by
  have hw (m : Mem) (u : State) : UnitStands u (writeReport m u) := by
    unfold writeReport
    split
    · exact .refl u
    · dsimp only
      split
      · exact (putMem_unit _ _ _ u).trans ⟨rfl, rfl, rfl⟩
      · exact .of_fault (hd u)
  have hl (l : List Mem) (u : State) : UnitStands u (writeReports l u) := by
    induction l generalizing u with
    | nil => exact .refl u
    | cons m r ih =>
      unfold writeReports
      split
      · refine .trans (.trans ?_ (hw _ _)) (ih _)
        exact ⟨rfl, rfl, rfl⟩
      · exact .refl u
  unfold settleReport
  split
  · exact hl _ s
  · exact .refl s

end Sys2Proof.Machine

namespace Sys2Proof.Claims

open Sys2Proof.Machine

theorem deviceFault_faultOnly (cause : Nat) (s : State) : FaultOnly s (deviceFault cause s) := by
  unfold FaultOnly
  rw [deviceFault_errs]

section
variable {s : State}

/-! ## HBM -/

theorem hbmScrub_finds {a : Nat} (hf : firmwareRuns s = true) (ha : a < hbmBytes) :
    exec (.hbmScrub a .clean) s = .next s ∧
    (∃ t, exec (.hbmScrub a .corrected) s = .next t ∧ Keeps [.errs] s t ∧
      tblGet t.errs.counts tcHbmCe = tblGet s.errs.counts tcHbmCe + 1) ∧
    (∃ t, exec (.hbmScrub a .uncorrectable) s = .next t ∧
      tblGet t.errs.counts tcHbmUe = tblGet s.errs.counts tcHbmUe + 1 ∧ a / 64 * 64 ∈ t.errs.badBursts ∧
      (reserveBase ≤ a / 64 * 64 → Raised 3 s t) ∧
      (∀ c : Copy, a / 64 * 64 < reserveBase → stepActive s = false → copyAt? s (a / 64 * 64) = some c →
        isThere c.state = true → c.tier = 2 → (∀ x ∈ s.tier.copies, ¬ (x.obj = c.obj ∧ x.state = .promoting)) →
        copyOf? t c.obj 2 = none)) := by
  have hx (f : ScrubFinding) : exec (.hbmScrub a f) s = .next (hbmScrubEffect a f s) := congrArg Host.Outcome.next (if_pos ⟨hf, ha⟩)
  refine ⟨hx _, ⟨_, hx _, hbmCorrected_counts a s⟩, _, hx _, ?_⟩
  unfold hbmScrubEffect
  dsimp only
  obtain ⟨hn, hm⟩ := hbmUncorrectable_counts a s
  split
  · next hr =>
    have hb := BurstsStand.of_fault (deviceFault_faultOnly 3 (hbmUncorrectable a s))
    exact ⟨hb.count.trans hn, by rw [hb.bursts]; exact hm, fun _ => raised_deviceFault 3 (hbmUncorrectable a s),
      fun c hlt => absurd hr (by omega)⟩
  · next hr =>
    have hs : copyAt? (hbmUncorrectable a s) (a / 64 * 64) = copyAt? s (a / 64 * 64) := rfl
    rw [hs]
    cases hat : copyAt? s (a / 64 * 64) with
    | none => exact ⟨hn, hm, fun h => absurd h hr, fun c _ _ hc => nomatch hc⟩
    | some x =>
      have hb := copyUncorrectable_bursts x (hbmUncorrectable a s)
      refine ⟨hb.count.trans hn, hb.bursts.symm ▸ hm, fun h => absurd h hr, fun c _ hi hc ht h2 _ => ?_⟩
      obtain rfl := Option.some_inj.1 hc
      obtain ⟨-, o, ho⟩ := copyAt_found hat
      exact h2 ▸ copyUncorrectable_absent (s := hbmUncorrectable a s) (o := o) ho (objOf_id ho) ht hi

/-! ## SRAM -/

theorem exec_sramScrub (hf : firmwareRuns s = true) {f : SramFinding} (hs : scrubs s f.site = true) :
    exec (.sramScrub f) s = .next (sramScrubEffect f s) := congrArg Host.Outcome.next (if_pos ⟨hf, hs⟩)

theorem sramScrub_cluster {cl : Nat} (hf : firmwareRuns s = true) (hlt : cl < 16) (hh : s.boot.scrubHold.getLsbD cl = false)
    (w : Option Nat) : (∃ t, exec (.sramScrub ⟨.cluster cl w, .corrected⟩) s = .next t ∧ Keeps [.errs] s t ∧
      tblGet t.errs.sramCe cl = min (tblGet s.errs.sramCe cl + 1) 0xFFFFFFFF) ∧
    ∃ t, exec (.sramScrub ⟨.cluster cl w, .uncorrectable⟩) s = .next t ∧ Keeps [.errs] s t ∧
      (∀ a : Nat, w = some a → inCluster cl (a / 8 * 8) = true → a / 8 * 8 ∈ t.errs.badWords) ∧
      t.errs.sramCe = s.errs.sramCe ∧ tblGet t.errs.counts tcSramUe = tblGet s.errs.counts tcSramUe + 1 := by
  have hx (f : ScrubFinding) : exec (.sramScrub ⟨.cluster cl w, f⟩) s = .next (sramScrubEffect ⟨.cluster cl w, f⟩ s) :=
    exec_sramScrub hf (by
      show (decide (cl < 16) && !s.boot.scrubHold.getLsbD cl) = true
      rw [hh, decide_eq_true hlt]
      rfl)
  refine ⟨⟨_, hx _, (sramCorrected_keeps _ _ rfl).2 (.refl _ s), tblGet_tblPut_self _ _ (by
    show min _ 0xFFFFFFFF ≠ 0
    omega)⟩, _, hx _, ?_⟩
  obtain ⟨h1, h2⟩ := markWord_rest cl w (addCount tcSramUe 1 s)
  refine ⟨.trans (t := addCount tcSramUe 1 s) ((addCount_keeps _ _ _ rfl).2 (.refl _ s)) (markWord_keepsErrs _ _ _), ?_, h1, ?_⟩
  · rintro a rfl ha
    exact markWord_marks ha
  · exact (congrArg (tblGet · tcSramUe) h2).trans (tblGet_tblAdd_self _ _ Nat.one_pos)

theorem sramScrub_portDie (hf : firmwareRuns s = true) {n : Nat} {x : TxItem} (hx : s.rem.tx[n]? = some x) :
    ∃ t, exec (.sramScrub ⟨.portDie n, .uncorrectable⟩) s = .next t ∧ Keeps [.rem, .fab, .errs] s t ∧
      tblGet t.errs.counts tcSramUe = tblGet s.errs.counts tcSramUe + 1 ∧
      t.rem.tx = (if x.transit then s.rem.tx.eraseIdx n else s.rem.tx) := by
  have hn : tblGet (addCount tcSramUe 1 s).errs.counts tcSramUe = tblGet s.errs.counts tcSramUe + 1 := tblGet_tblAdd_self _ _ Nat.one_pos
  have kc : Keeps [.errs] s (addCount tcSramUe 1 s) := (addCount_keeps _ _ _ rfl).2 (.refl _ s)
  refine ⟨_, exec_sramScrub hf rfl, ?_⟩
  show Keeps [.rem, .fab, .errs] s (dropBuffered n (addCount tcSramUe 1 s)) ∧ _
  have hd : dropBuffered n (addCount tcSramUe 1 s) =
      if x.transit then unqueue n x (addCount tcSramUe 1 s) else addCount tcSramUe 1 s := by
    unfold dropBuffered
    rw [show (addCount tcSramUe 1 s).rem.tx[n]? = some x from hx]
  show _ ∧ tblGet (dropBuffered n (addCount tcSramUe 1 s)).errs.counts tcSramUe = _ ∧ (dropBuffered n (addCount tcSramUe 1 s)).rem.tx = _
  rw [hd]
  cases x.transit
  · exact ⟨kc.mono rfl, hn, rfl⟩
  · rw [if_pos rfl, if_pos rfl]
    have ku : Keeps [.rem, .fab] (addCount tcSramUe 1 s) (unqueue n x (addCount tcSramUe 1 s)) := (unqueue_keeps _ _ _ rfl).2 (.refl _ _)
    refine ⟨(kc.mono rfl).trans (ku.mono rfl), by rw [ku.errs_eq rfl]; exact hn, ?_⟩
    rw [← dropAt_eq_eraseIdx]
    exact congrArg Remote.tx (((leaveCredit_keeps (k := [.fab]) _ _ rfl).2 (.refl _ _)).rem_eq rfl)

/-! ## The cell test -/

theorem cellTest_passes {cell : Nat} (ht : s.errs.testing = some cell) (hn : recentFaults s (physOf s cell) < 3) :
    ∃ t, exec (.cellTest ⟨false, none⟩) s = .next t ∧ t.errs.testing = none ∧ t.errs.bad = s.errs.bad ∧ t.errs.unit = s.errs.unit := by
  refine ⟨_, rfl, ?_⟩
  unfold cellTestEffect
  rw [ht]
  dsimp only
  have hp : testPhys (physOf s cell) false { s with errs := { s.errs with testing := none } } =
      { s with errs := { s.errs with testing := none } } := if_neg (by
    rintro (h | h)
    · cases h
    · exact absurd h (by show ¬ 3 ≤ recentFaults s (physOf s cell); omega))
  show (settleReport (testPhys (physOf s cell) false _)).errs.testing = none ∧ _
  rw [hp]
  have h := settleReport_unit { s with errs := { s.errs with testing := none } } (deviceFault_faultOnly 2)
  exact ⟨h.testing, h.bad, h.unit⟩

theorem phys_of_enabled {cell : Nat} (h : cellEnabled s cell = true) : kvGet? s.errs.unit cell = some (physOf s cell) := by
  simp only [cellEnabled, Bool.and_eq_true] at h
  obtain ⟨v, hv⟩ := Option.isSome_iff_exists.1 h.2
  rw [physOf, hv]
  rfl

theorem unit_injective {u : KV Nat} (h : u.Pairwise fun a b => a.1 < b.1 ∧ a.2 ≠ b.2) {j k v : Nat} (hj : kvGet? u j = some v)
    (hk : kvGet? u k = some v) : j = k := by
  have h1 := mem_of_kvGet hj
  have h2 := mem_of_kvGet hk
  have hn : (u.map Prod.snd).Nodup := List.pairwise_map.2 (h.imp And.right)
  exact congrArg Prod.fst (List.inj_on_of_nodup_map hn h1 h2 rfl)

section
variable {cell : Nat} (ht : s.errs.testing = some cell) (he : cellEnabled s cell = true)
  (hu : s.errs.unit.Pairwise fun a b => a.1 < b.1 ∧ a.2 ≠ b.2)
include ht he hu

theorem cellTest_retires : ∃ t, exec (.cellTest ⟨true, none⟩) s = .next t ∧ t.errs.testing = none ∧
    t.errs.bad = physOf s cell :: s.errs.bad := by
  refine ⟨_, rfl, ?_⟩
  unfold cellTestEffect
  rw [ht]
  dsimp only
  have hr := (testPhys_retires (s := { s with errs := { s.errs with testing := none } }) (hu.imp And.left)
    (phys_of_enabled he)).of_unit (settleReport_unit _ (deviceFault_faultOnly 2))
  exact ⟨hr.testing, hr.bad⟩

theorem cellTest_retiresTwo {other : Nat} (hne : other ≠ cell) (hcl : clusterOf other = clusterOf cell)
    (ho : cellEnabled s other = true) : ∃ t, exec (.cellTest ⟨true, some (other, true)⟩) s = .next t ∧ t.errs.testing = none ∧
      t.errs.bad = (if physOf s other < physOf s cell then [physOf s cell, physOf s other]
        else [physOf s other, physOf s cell]) ++ s.errs.bad := by
  have hp := phys_of_enabled he
  have hq := phys_of_enabled ho
  have hpq : physOf s other ≠ physOf s cell := fun h => hne (unit_injective hu (h ▸ hq) hp)
  have hs : secondTest? s cell ⟨true, some (other, true)⟩ = some (other, true) :=
    if_pos ⟨hne, hcl, by rw [hq]; rfl⟩
  refine ⟨_, rfl, ?_⟩
  unfold cellTestEffect
  rw [ht]
  dsimp only
  rw [hs]
  dsimp only
  generalize hw : ({ s with errs := { s.errs with testing := none, cellFaults := _ } } : State) = w
  have hwu : w.errs.unit = s.errs.unit := by rw [← hw]
  have hwb : w.errs.bad = s.errs.bad := by rw [← hw]
  have hwt : w.errs.testing = none := by rw [← hw]
  have two {a b : Nat} (hab : b ≠ a) (ha : ∃ k, kvGet? s.errs.unit k = some a) (hb : ∃ k, kvGet? s.errs.unit k = some b) :
      (settleReport (testPhys b true (testPhys a true w))).errs.testing = none ∧
        (settleReport (testPhys b true (testPhys a true w))).errs.bad = [b, a] ++ s.errs.bad := by
    obtain ⟨k, hk⟩ := ha
    have h1 : Retires a w (testPhys a true w) :=
      testPhys_retires (s := w) (by rw [hwu]; exact hu.imp And.left) (cell := k) (by rw [hwu]; exact hk)
    obtain ⟨j, hj⟩ := h1.stays b hab (by rw [hwu]; exact hb)
    have h2 := (testPhys_retires h1.sorted hj).of_unit (settleReport_unit _ (deviceFault_faultOnly 2))
    exact ⟨h2.testing.trans (h1.testing.trans hwt), by rw [h2.bad, h1.bad, hwb]; rfl⟩
  split
  · exact two hpq.symm ⟨_, hq⟩ ⟨_, hp⟩
  · exact two hpq ⟨_, hp⟩ ⟨_, hq⟩

end

end

/-- Settles O55. -/
theorem scrubsAndCellTests : Obligations.ScrubsAndCellTests := by
  unfold Obligations.ScrubsAndCellTests
  intro s
  refine ⟨fun a hf ha => hbmScrub_finds hf ha, fun cl hf hlt hh w => sramScrub_cluster hf hlt hh w, fun hf => ⟨?_, fun n x hx => sramScrub_portDie hf hx⟩,
    fun cell ht => ⟨cellTest_passes ht, fun he hu => ⟨cellTest_retires ht he hu, fun other hne hcl ho => cellTest_retiresTwo ht he hu hne hcl ho⟩⟩⟩
  exact ⟨_, exec_sramScrub hf rfl, raised_deviceFault 3 (addCount tcSramUe 1 s)⟩

end Sys2Proof.Claims
end

section
/-! SUPPORT. The ports' links (R308 to R311, R315). -/

namespace Sys2Proof.Machine

theorem takeAck_keeps_service (a : BitVec 12) (q : Port) : (takeAck a q).1.flitsTx = q.flitsTx ∧ (takeAck a q).1.state = q.state := by
  unfold takeAck
  dsimp only
  split <;> exact ⟨rfl, rfl⟩

/-- An ACK without progress leaves the run of NAKs. -/
theorem takeAck_naks {a : BitVec 12} {q : Port} (h : (takeAck a q).2 = 0) : (takeAck a q).1.naks = q.naks := by
  unfold takeAck at h ⊢
  dsimp only at h ⊢
  split
  · next hn =>
    rw [if_pos hn] at h
    exact if_pos h
  · rfl

section
variable (s : State) (port : Nat)

theorem portOf_replayWindow : portOf (replayWindowEffect port s) port = { portOf s port with unacked := [], used := [], due := [] } :=
  portOf_mapPort_self s port fun q => { q with unacked := [], used := [], due := [] }

theorem portOf_trainedUp (st : PortState) (phys : BitVec 24) (logical : BitVec 20) :
    (portOf (trainedUp port st phys logical s) port).state =
        (if tableNeighbour s.fab.active port = 0xFFFFFF ∨ tableNeighbour s.fab.active port = phys.toNat then st else .miscabled) ∧
      (portOf (trainedUp port st phys logical s) port).phys = phys ∧
      (portOf (trainedUp port st phys logical s) port).logical = logical := by
  unfold trainedUp
  dsimp only
  rw [portOf_mapPort_self]
  exact ⟨rfl, rfl, rfl⟩

end

end Sys2Proof.Machine

namespace Sys2Proof.Claims

open Sys2Proof.Machine

section
variable {s : State} {port : Nat}

theorem exec_linkReplay (h : portUp s port = true) (e : LinkError) : exec (.linkReplay port e) s = .next (match e with
    | .nak ack =>
      let x := takeAck ack (portOf s port)
      let naks := if x.2 = 0 then x.1.naks + 1 else 0
      let s := setPort port { x.1 with naks := naks, flitsTx := x.1.flitsTx + unackedData x.1 } s
      if 32 ≤ naks then retrain port s else s
    | .badCrc => mapPort port sendNak s
    | .badFec => mapPort port (fun q => { sendNak q with fecUncorrected := q.fecUncorrected + 1 }) s) :=
  congrArg Host.Outcome.next (if_pos h)

/-- A NAK replays the DATA flits that wait; the 32nd without progress retrains the port. -/
theorem nak_replays (h : portUp s port = true) (a : BitVec 12) : ∃ t, exec (.linkReplay port (.nak a)) s = .next t ∧
    (portOf t port).flitsTx = (portOf s port).flitsTx + unackedData (takeAck a (portOf s port)).1 ∧
    ((takeAck a (portOf s port)).2 ≠ 0 → (portOf t port).naks = 0 ∧ (portOf t port).state = (portOf s port).state) ∧
    ((takeAck a (portOf s port)).2 = 0 → (portOf s port).naks + 1 < 32 → (portOf t port).naks = (portOf s port).naks + 1) ∧
    ((takeAck a (portOf s port)).2 = 0 → 32 ≤ (portOf s port).naks + 1 → (portOf t port).state = .training) := by
  obtain ⟨hf, hst⟩ := takeAck_keeps_service a (portOf s port)
  refine ⟨_, exec_linkReplay h _, ?_⟩
  dsimp only
  by_cases h0 : (takeAck a (portOf s port)).2 = 0
  · have hn := takeAck_naks h0
    rw [if_pos h0, hn]
    by_cases h32 : 32 ≤ (portOf s port).naks + 1
    · rw [if_pos h32, portOf_retrain, portOf_setPort]
      exact ⟨by rw [← hf], fun h => absurd h0 h, fun _ h => absurd h32 (by omega), fun _ _ => rfl⟩
    · rw [if_neg h32, portOf_setPort]
      exact ⟨by rw [← hf], fun h => absurd h0 h, fun _ _ => rfl, fun _ h => absurd h h32⟩
  · rw [if_neg h0, if_neg (by omega), portOf_setPort]
    exact ⟨by rw [← hf], fun _ => ⟨rfl, hst⟩, fun h => absurd h h0, fun h => absurd h h0⟩

/-- A lane failure takes the port out of service, and a packet that it holds in part is discarded. -/
theorem laneFail_retrains (h : portUp s port = true) (part : Bool) : ∃ t, exec (.laneFail port part) s = .next t ∧
    (portOf t port).state = .training ∧
    tblGet t.errs.counts tcDiscardPartial = tblGet s.errs.counts tcDiscardPartial + if part then 1 else 0 := by
  refine ⟨_, congrArg Host.Outcome.next (if_pos h), by rw [portOf_leaveService_self], ?_⟩
  unfold leaveService
  dsimp only
  rw [h, Bool.true_and]
  cases part
  · rfl
  · exact tblGet_tblAdd_self _ _ Nat.one_pos

/-- How a training ends. -/
theorem portTrained_ends (h : (portOf s port).state = .training) (phys : BitVec 24) (logical : BitVec 20) :
    (∃ t, exec (.portTrained port (.upFull phys logical)) s = .next t ∧ (portOf t port).state =
        (if tableNeighbour s.fab.active port = 0xFFFFFF ∨ tableNeighbour s.fab.active port = phys.toNat then .upFull else .miscabled) ∧
      (portOf t port).phys = phys ∧ (portOf t port).logical = logical) ∧
    (∃ t, exec (.portTrained port (.upHalf phys logical)) s = .next t ∧ (portOf t port).state =
      if tableNeighbour s.fab.active port = 0xFFFFFF ∨ tableNeighbour s.fab.active port = phys.toNat then .upHalf else .miscabled) ∧
    (∃ t, exec (.portTrained port .down) s = .next t ∧ (portOf t port).state = .down) := by
  refine ⟨⟨_, congrArg Host.Outcome.next (if_pos h), portOf_trainedUp s port .upFull phys logical⟩,
    ⟨_, congrArg Host.Outcome.next (if_pos h), (portOf_trainedUp s port .upHalf phys logical).1⟩,
    ⟨_, congrArg Host.Outcome.next (if_pos h), ?_⟩⟩
  dsimp only
  rw [portOf_mapPort_self]

theorem retrain_trains (s : State) (port : Nat) : (portOf (retrain port s) port).state = .training := by rw [portOf_retrain]

end

/-- Settles O50. -/
theorem portsChangeState : Obligations.PortsChangeState := by
  unfold Obligations.PortsChangeState
  intro s port q nak
  refine ⟨fun h => ⟨⟨_, exec_linkReplay h _, ?_⟩, ⟨_, exec_linkReplay h _, ?_⟩, nak_replays h, laneFail_retrains h⟩,
    fun h => ⟨_, congrArg Host.Outcome.next (if_neg (by simp [h])), portOf_replayWindow s port⟩, portTrained_ends,
    fun h => ⟨_, congrArg Host.Outcome.next (if_pos h), retrain_trains s port⟩,
    fun h => ⟨_, congrArg Host.Outcome.next (if_pos h), retrain_trains s port⟩⟩
  · exact portOf_mapPort_self s port _
  · exact portOf_mapPort_self s port _

end Sys2Proof.Claims
end

section
/-! SUPPORT. Packets that come in by a port, and the time messages (R362 to R367). -/

namespace Sys2Proof.Machine

/-! ## What a packet that comes in by a port leaves -/

/-- The state in which a packet that came in by a port is handled. -/
def landed (port : Nat) (p : Packet) (s : State) : State :=
  leaveBuffer (some port) p (countFlits port p { s with rem := { s.rem with arrival := some port } })

section
variable (port : Nat) (p : Packet) (s : State)

theorem landed_keeps : Keeps [.rem, .fab] s (landed port p s) :=
  (leaveBuffer_keeps _ _ _ rfl).2 ((countFlits_keeps _ _ _ rfl).2 (by simp [within]))

theorem landed_rem : (landed port p s).rem = { s.rem with arrival := some port } := by
  rw [landed, leaveBuffer_rem]
  rfl

theorem landed_portsOnly : PortsOnly s (landed port p s) := rfl

theorem selfId_portsOnly {s t : State} (h : PortsOnly s t) : selfId t = selfId s := by rw [selfId, selfId, h.active, h.hasActive]

theorem settleDue_state (q : Port) : (settleDue q).state = q.state := by
  unfold settleDue
  generalize 24 = n
  induction n generalizing q with
  | zero => rfl
  | succ n ih =>
    unfold returnDue
    split
    · exact (ih _).trans rfl
    · rfl

theorem mapPort_state {f : Port → Port} (h : ∀ q, (f q).state = q.state) (other : Nat) :
    (portOf (mapPort port f s) other).state = (portOf s other).state := by
  by_cases ho : other = port
  · subst ho
    rw [portOf_mapPort_self, h]
  · rw [portOf_mapPort_ne _ _ _ ho]

theorem countFlits_state (other : Nat) : (portOf (countFlits port p s) other).state = (portOf s other).state :=
  mapPort_state (f := fun q => { q with
    flitsRx := q.flitsRx + packetUnits p, rxAck := q.rxAck + BitVec.ofNat 12 (packetUnits p) }) port s (fun _ => rfl) other

theorem giveUnits_state (lane n other : Nat) : (portOf (giveUnits port lane n s) other).state = (portOf s other).state :=
  mapPort_state (f := fun q => settleDue { q with due := tblAdd q.due lane n }) port s (fun _ => settleDue_state _) other

theorem portUp_landed (other : Nat) : portUp (landed port p s) other = portUp s other := by
  have h : (portOf (landed port p s) other).state = (portOf s other).state :=
    (giveUnits_state port _ _ _ other).trans (countFlits_state port p _ other)
  unfold portUp portIsUp
  rw [h]

end

/-! ## Control packets -/

theorem opOf_controlPacket (s : State) {op : Nat} (h : op < 32) (payload : List Byte) : opOf (controlPacket s op payload) = op := by
  show (BitVec.ofNat 8 op).toNat % 32 = op
  rw [BitVec.toNat_ofNat]
  omega

theorem payload_controlPacket (s : State) (op : Nat) (payload : List Byte) : (controlPacket s op payload).payload = payload := rfl

/-- A packet in its out-queue. -/
def outItem (port : Nat) (q : Packet) : TxItem :=
  { packet := q, request := false, port := some port, transit := false, source := 146, credit := none }

/-- A control packet but a Gong joins the queue of its port. -/
theorem queueControl_tx {q : Packet} (h : opOf q ≠ 0x11) (port : Nat) (s : State) :
    queueControl port q s = { s with rem := { s.rem with tx := s.rem.tx ++ [outItem port q] } } := by
  unfold queueControl
  rw [beq_false_of_ne h, Bool.false_and, if_neg (by simp)]
  rfl

/-! ## Time messages -/

/-- TIME messages are built, and neighbours chosen, alike in two states. -/
structure TimeAlike (s t : State) : Prop where
  time : t.time = s.time
  self : selfId t = selfId s
  phys : t.mgmt.physId = s.mgmt.physId
  ports : ∀ q, portUp t q = portUp s q

section
variable {s t : State} (h : TimeAlike s t)
include h

theorem ownKey_alike : ownKey t = ownKey s := by rw [ownKey, ownKey, h.self, h.phys]
theorem heard_alike : heard t = heard s := by simp only [heard, h.time, h.ports]
theorem upPorts_alike : upPorts t = upPorts s := by
  unfold upPorts
  exact List.filter_congr fun q _ => h.ports q

end

theorem setParent_time (p : Option Nat) (s : State) : (setParent p s).time = { s.time with parent := p } := by
  unfold setParent
  dsimp only
  split <;> rfl

theorem setParent_stateTime (p : Option Nat) (s : State) : (setParent p s).time.state = s.time.state := by rw [setParent_time]

theorem ownKey_setParent (p : Option Nat) (s : State) : ownKey (setParent p s) = ownKey s := by
  have k : Keeps [.time, .errs] s (setParent p s) := (setParent_keeps _ _ rfl).2 (.refl _ s)
  rw [ownKey, ownKey, selfId_congr (k.fab_eq rfl), k.mgmt_eq rfl]

theorem chooseParent_alike {s t : State} (h : TimeAlike s t) (waited : Bool) : (chooseParent waited t).time = (chooseParent waited s).time := by
  unfold chooseParent
  dsimp only
  rw [heard_alike h, ownKey_alike h, upPorts_alike h]
  split
  · simp only [setParent_time, h.time]
  · split
    · simp only [setParent_time, h.time, ownKey_setParent, ownKey_alike h]
    · simp only [setParent_time, h.time]

/-- A choice of a parent leaves the counter as it is. -/
theorem chooseParent_beat (waited : Bool) (s : State) : (chooseParent waited s).time.beat = s.time.beat ∧
    (chooseParent waited s).time.stopped = s.time.stopped ∧ (chooseParent waited s).time.neighbours = s.time.neighbours := by
  unfold chooseParent
  dsimp only
  split
  · simp only [setParent_time, and_self]
  · split
    · simp only [setParent_time, and_self]
    · simp only [setParent_time, and_self]

/-- The neighbour that a TIME message tells of. -/
def tellsOf (p : Packet) : Neighbour := ⟨fieldOf p.payload 1 1, fieldOf p.payload 2 1, fieldOf p.payload 4 8 % 2 ^ 44⟩

/-- The neighbour that sent a TIME message is known. -/
def withNeighbour (port : Nat) (p : Packet) (s : State) : State :=
  { s with time := { s.time with neighbours := kvPut s.time.neighbours port (tellsOf p) } }

theorem noteNeighbour_eq (port : Nat) (p : Packet) (s : State) : noteNeighbour port p s =
    if staysRoot (withNeighbour port p s) then withNeighbour port p s else chooseParent false (withNeighbour port p s) := rfl

theorem noteNeighbour_keepsTime (port : Nat) (p : Packet) (s : State) : Keeps [.time, .errs] s (noteNeighbour port p s) :=
  (noteNeighbour_keeps _ _ _ rfl).2 (.refl _ s)

theorem noteNeighbour_beat (port : Nat) (p : Packet) (s : State) : (noteNeighbour port p s).time.beat = s.time.beat ∧
    (noteNeighbour port p s).time.stopped = s.time.stopped ∧
    kvGet? (noteNeighbour port p s).time.neighbours port = some (tellsOf p) := by
  rw [noteNeighbour_eq]
  have hn : kvGet? (withNeighbour port p s).time.neighbours port = some (tellsOf p) := kvGet_kvPut_self _ _ _
  split
  · exact ⟨rfl, rfl, hn⟩
  · obtain ⟨h1, h2, h3⟩ := chooseParent_beat false (withNeighbour port p s)
    exact ⟨h1, h2, h3 ▸ hn⟩

theorem noteNeighbour_alike {s t : State} (h : TimeAlike s t) (port : Nat) (p : Packet) :
    TimeAlike (noteNeighbour port p s) (noteNeighbour port p t) := by
  have hw : TimeAlike (withNeighbour port p s) (withNeighbour port p t) :=
    ⟨by unfold withNeighbour; rw [h.time], h.self, h.phys, h.ports⟩
  have hr : staysRoot (withNeighbour port p t) = staysRoot (withNeighbour port p s) := by
    simp only [staysRoot, hw.time, heard_alike hw, ownKey_alike hw]
  have ht : (noteNeighbour port p t).time = (noteNeighbour port p s).time := by
    rw [noteNeighbour_eq, noteNeighbour_eq, hr]
    split
    · exact hw.time
    · exact chooseParent_alike hw false
  have ks := noteNeighbour_keepsTime port p s
  have kt := noteNeighbour_keepsTime port p t
  refine ⟨ht, ?_, ?_, fun q => ?_⟩
  · rw [selfId_congr (kt.fab_eq rfl), selfId_congr (ks.fab_eq rfl), h.self]
  · rw [kt.mgmt_eq rfl, ks.mgmt_eq rfl, h.phys]
  · rw [portUp, portUp, portOf_congr q (kt.fab_eq rfl), portOf_congr q (ks.fab_eq rfl)]
    exact h.ports q

theorem timePayload_alike {s t : State} (h : TimeAlike s t) (kind seq t1 t2 : Nat) :
    timePayload kind seq t1 t2 t = timePayload kind seq t1 t2 s := by
  simp only [timePayload, rootKeyOf, h.time, ownKey_alike h]

theorem landed_alike (port : Nat) (p : Packet) (s : State) : TimeAlike s (landed port p s) :=
  ⟨(landed_keeps port p s).time_eq rfl, selfId_portsOnly (landed_portsOnly port p s),
    congrArg Mgmt.physId ((landed_keeps port p s).mgmt_eq rfl), portUp_landed port p s⟩

theorem alike_of_keeps {s t : State} (h : Keeps [.rem] s t) : TimeAlike s t :=
  ⟨h.time_eq rfl, selfId_congr (h.fab_eq rfl), congrArg Mgmt.physId (h.mgmt_eq rfl), fun q => by
    rw [portUp, portUp, portOf_congr q (h.fab_eq rfl)]⟩

/-! ## Queues of the ports -/

section
variable (port : Nat) (payload : List Byte) (s : State)

theorem queueTime_keepsRem : Keeps [.rem] s (queueTime port payload s) := (queueTime_keeps _ _ _ rfl).2 (.refl _ s)

theorem queueTime_tx : (queueTime port payload s).rem.tx = s.rem.tx ++
    if outQueueLen s port < 32 then [outItem port (controlPacket s 0x12 payload)] else [] := by
  unfold queueTime
  split
  · rw [queueControl_tx (by rw [opOf_controlPacket s (by omega)]; decide)]
  · exact (List.append_nil _).symm

/-- What waits for one port is of no account for another. -/
theorem outQueueLen_queueTime {other : Nat} (h : other ≠ port) : outQueueLen (queueTime port payload s) other = outQueueLen s other := by
  unfold outQueueLen
  rw [queueTime_tx, List.filter_append]
  split
  · have hf : [outItem port (controlPacket s 0x12 payload)].filter (inOutQueue other) = [] := by
      refine List.filter_cons_of_neg ?_
      simp only [inOutQueue, outItem, beq_iff_eq, Option.some.injEq]
      omega
    rw [hf, List.append_nil]
  · rw [List.filter_nil, List.append_nil]

end

/-- A SYNC on every port of a list. -/
def sendSyncs (ports : List Nat) (s : State) : State :=
  ports.foldl (fun t p => queueTime p (timePayload 0 t.time.seq.toNat 0 0 t) t) s

theorem sendSyncs_keeps (ports : List Nat) (s : State) : Keeps [.rem] s (sendSyncs ports s) := by
  unfold sendSyncs
  induction ports generalizing s with
  | nil => exact .refl _ s
  | cons p r ih => exact .trans (queueTime_keepsRem p _ s) (ih _)

theorem mem_tx_sendSyncs {ports : List Nat} {s : State} {x : TxItem} (h : x ∈ s.rem.tx) : x ∈ (sendSyncs ports s).rem.tx := by
  unfold sendSyncs
  induction ports generalizing s with
  | nil => exact h
  | cons p r ih =>
    refine ih ?_
    rw [queueTime_tx]
    exact List.mem_append_left _ h

end Sys2Proof.Machine

namespace Sys2Proof.Claims

open Sys2Proof.Machine

/-- A link-local packet that arrives is handled once it has left its buffer. -/
theorem receive_linkLocal {op port : Nat} {p : Packet} {s : State} (a : Arrives op true (some port) p s) (k : State → State) :
    receive op true (some port) p k s = k (landed port p s) := by
  obtain ⟨u, hu, hk⟩ := receive_of_arrives a
  rw [hk]
  unfold arrive? at hu
  obtain ⟨-, hu⟩ := Option.ite_none_right_eq_some.1 hu
  obtain rfl := Option.some_inj.1 hu
  rfl

section
variable {s : State} {port : Nat}

theorem queued_outItem (payload : List Byte) {t u : State} {op : Nat} (ho : op < 32)
    (h : outItem port (controlPacket u op payload) ∈ t.rem.tx) : Queued port op payload t :=
  ⟨_, h, rfl, opOf_controlPacket u ho payload, rfl⟩

theorem queueTime_queued (payload : List Byte) (h : outQueueLen s port < 32) : Queued port 0x12 payload (queueTime port payload s) := by
  refine queued_outItem (u := s) payload (by omega) ?_
  rw [queueTime_tx, if_pos h]
  exact List.mem_append_right _ List.mem_cons_self

/-- Every port of the list with room has its SYNC. -/
theorem sendSyncs_queued {ports : List Nat} (hn : ports.Nodup) (hp : port ∈ ports) (hq : outQueueLen s port < 32) :
    Queued port 0x12 (timePayload 0 s.time.seq.toNat 0 0 s) (sendSyncs ports s) := by
  induction ports generalizing s with
  | nil => cases hp
  | cons p r ih =>
    obtain ⟨h1, h2⟩ := List.nodup_cons.1 hn
    show Queued _ _ _ (sendSyncs r (queueTime p (timePayload 0 s.time.seq.toNat 0 0 s) s))
    rcases List.mem_cons.1 hp with rfl | hp
    · obtain ⟨x, hx, hrest⟩ := queueTime_queued (timePayload 0 s.time.seq.toNat 0 0 s) hq
      exact ⟨x, mem_tx_sendSyncs hx, hrest⟩
    · have ha := alike_of_keeps (queueTime_keepsRem p (timePayload 0 s.time.seq.toNat 0 0 s) s)
      have := ih (s := queueTime p (timePayload 0 s.time.seq.toNat 0 0 s) s) h2 hp
        (by rw [outQueueLen_queueTime p _ s (fun e : port = p => h1 (by rw [← e]; exact hp))]; exact hq)
      rw [timePayload_alike ha, ha.time] at this
      exact this

/-- SYNC_SEND sends a SYNC on every port that is up. -/
theorem syncSend_sends (hs : s.boot.stage = .ready) (hst : s.time.stopped = false) (hm : s.time.missed < 3) :
    ∃ t, exec .syncSend s = .next t ∧ t.time.seq = s.time.seq + 1 ∧ t.time.beat = s.time.beat ∧
      ∀ port : Nat, portUp s port = true → port < 128 → outQueueLen s port < 32 →
        Queued port 0x12 (timePayload 0 s.time.seq.toNat 0 0 s) t := by
  refine ⟨_, rfl, ?_⟩
  have hc : chooseAfterMisses s = s := if_neg (fun h => absurd h.2 (by omega))
  unfold syncSendEffect
  rw [hs, hst, if_pos (by decide)]
  dsimp only
  rw [hc]
  have hk := sendSyncs_keeps (upPorts s) s
  refine ⟨congrArg (fun t : Time => t.seq + 1) (hk.time_eq rfl), congrArg Time.beat (hk.time_eq rfl), fun port hup hlt hq => ?_⟩
  exact sendSyncs_queued (List.Nodup.filter _ List.nodup_range) (List.mem_filter.2 ⟨List.mem_range.2 hlt, hup⟩) hq

/-- A SYNC is answered with a FOLLOW. -/
theorem sync_answered {p : Packet} (a : Arrives 0x12 true (some port) p s) (h0 : fieldOf p.payload 0 1 = 0) :
    ∃ t, exec (.sync port p) s = .next t ∧ t.time.beat = s.time.beat ∧
      kvGet? t.time.neighbours port = some ⟨fieldOf p.payload 1 1, fieldOf p.payload 2 1, fieldOf p.payload 4 8 % 2 ^ 44⟩ ∧
      (outQueueLen s port < 32 → Queued port 0x12 (timePayload 1 (fieldOf p.payload 12 4) (fieldOf p.payload 16 8)
        s.time.beat (noteNeighbour port p s)) t) := by
  refine ⟨_, congrArg Host.Outcome.next (receive_linkLocal a _), ?_⟩
  rw [if_pos h0]
  unfold syncEffect
  dsimp only
  have ha := noteNeighbour_alike (landed_alike port p s) port p
  obtain ⟨hb, -, hn⟩ := noteNeighbour_beat port p s
  have kv := noteNeighbour_keepsTime port p (landed port p s)
  generalize noteNeighbour port p (landed port p s) = v at ha kv
  have kt := queueTime_keepsRem port (timePayload 1 (fieldOf p.payload 12 4) (fieldOf p.payload 16 8) v.time.beat v) v
  refine ⟨?_, ?_, fun hq => ?_⟩
  · rw [kt.time_eq rfl, ha.time, hb]
  · rw [kt.time_eq rfl, ha.time]
    exact hn
  · have hl : outQueueLen v port < 32 := by
      rw [outQueueLen, kv.rem_eq rfl, landed_rem]
      exact hq
    have := queueTime_queued (timePayload 1 (fieldOf p.payload 12 4) (fieldOf p.payload 16 8) v.time.beat v) hl
    rw [timePayload_alike ha, ha.time, hb] at this
    rw [timePayload_alike ha, ha.time, hb]
    exact this

theorem exec_follow {p : Packet} (a : Arrives 0x12 true (some port) p s) (h1 : fieldOf p.payload 0 1 = 1) :
    exec (.follow port p) s = .next (followEffect port p (landed port p s)) :=
  congrArg Host.Outcome.next ((receive_linkLocal a _).trans (if_pos h1))

/-- Twice a half is the whole, or one more or less. -/
theorem halfOf_near (x : Int) (s : State) : (2 * (halfOf x s).1 = x ∨ 2 * (halfOf x s).1 = x + 1 ∨ 2 * (halfOf x s).1 = x - 1) ∧
    ∃ n, (halfOf x s).2.time = { s.time with freeUses := n } := by
  unfold halfOf
  split
  · exact ⟨.inl (by show 2 * (x / 2) = x; omega), _, rfl⟩
  · dsimp only
    refine ⟨?_, _, rfl⟩
    cases (freeChoice s).1
    · rw [if_neg (by simp)]
      omega
    · rw [if_pos rfl]
      omega

/-- The first lock loads what the parent's answer says. -/
theorem disciplined_loads {p : Packet} {v : State} {t4 : Nat} (hb : v.time.beat = t4) (hu : v.time.state = .unlocked) : ∃ d : Int,
    (2 * d = ((fieldOf p.payload 24 8 : Nat) - (fieldOf p.payload 16 8 : Nat) : Int) + ((t4 : Nat) - (fieldOf p.payload 32 8 : Nat)) ∨
      2 * d = ((fieldOf p.payload 24 8 : Nat) - (fieldOf p.payload 16 8 : Nat) : Int) + ((t4 : Nat) - (fieldOf p.payload 32 8 : Nat)) + 1 ∨
      2 * d = ((fieldOf p.payload 24 8 : Nat) - (fieldOf p.payload 16 8 : Nat) : Int) + ((t4 : Nat) - (fieldOf p.payload 32 8 : Nat)) - 1) ∧
    (disciplined p v).time.state = .locked ∧ (disciplined p v).time.beat = ((fieldOf p.payload 32 8 : Nat) + d).toNat ∧
    (disciplined p v).time.missed = 0 := by
  subst hb
  unfold disciplined
  dsimp only
  rw [if_pos hu]
  obtain ⟨hnear, n, hn⟩ := halfOf_near (((fieldOf p.payload 24 8 : Nat) - (fieldOf p.payload 16 8 : Nat) : Int) +
    ((v.time.beat : Nat) - (fieldOf p.payload 32 8 : Nat))) { v with time := { v.time with missed := 0 } }
  generalize halfOf _ _ = y at hnear hn
  exact ⟨y.1, hnear, rfl, rfl, congrArg Time.missed hn⟩

/-- A later answer gives the offset. -/
theorem disciplined_offset {p : Packet} {v : State} {t4 : Nat} (hb : v.time.beat = t4) (hu : v.time.state ≠ .unlocked) : ∃ o : Int,
    (2 * o = ((fieldOf p.payload 24 8 : Nat) - (fieldOf p.payload 16 8 : Nat) : Int) - ((t4 : Nat) - (fieldOf p.payload 32 8 : Nat)) ∨
      2 * o = ((fieldOf p.payload 24 8 : Nat) - (fieldOf p.payload 16 8 : Nat) : Int) - ((t4 : Nat) - (fieldOf p.payload 32 8 : Nat)) + 1 ∨
      2 * o = ((fieldOf p.payload 24 8 : Nat) - (fieldOf p.payload 16 8 : Nat) : Int) - ((t4 : Nat) - (fieldOf p.payload 32 8 : Nat)) - 1) ∧
    (disciplined p v).time.offset = o ∧ (disciplined p v).time.beat = t4 ∧
    (disciplined p v).time.catchingUp = decide (1250 < o) ∧
    (disciplined p v).time.state = if o < -1250 then .diverged else .locked := by
  subst hb
  unfold disciplined
  dsimp only
  rw [if_neg hu]
  obtain ⟨hnear, n, hn⟩ := halfOf_near (((fieldOf p.payload 24 8 : Nat) - (fieldOf p.payload 16 8 : Nat) : Int) -
    ((v.time.beat : Nat) - (fieldOf p.payload 32 8 : Nat))) { v with time := { v.time with missed := 0 } }
  generalize halfOf _ _ = y at hnear hn
  have ht : (takeOffset y.1 y.2).time = { y.2.time with
      offset := y.1, state := if y.1 < -1250 then .diverged else .locked, catchingUp := decide (1250 < y.1) } := by
    unfold takeOffset
    dsimp only
    split <;> rfl
  rw [ht]
  refine ⟨y.1, hnear, rfl, ?_, rfl, rfl⟩
  show y.2.time.beat = _
  rw [hn]

section
variable {p : Packet} (a : Arrives 0x12 true (some port) p s) (h1 : fieldOf p.payload 0 1 = 1)
include a h1

/-- A stopped counter is neither loaded nor disciplined. -/
theorem follow_stopped (hs : s.time.stopped = true) : ∃ t, exec (.follow port p) s = .next t ∧
    t.time.beat = s.time.beat ∧ t.time.state = (noteNeighbour port p s).time.state := by
  refine ⟨_, exec_follow a h1, ?_⟩
  have ha := noteNeighbour_alike (landed_alike port p s) port p
  obtain ⟨hb, hstop, -⟩ := noteNeighbour_beat port p s
  unfold followEffect
  dsimp only
  rw [if_neg (by rw [ha.time, hstop, hs]; simp), ha.time]
  exact ⟨hb, rfl⟩

variable (hp : (noteNeighbour port p s).time.parent = some port) (hs : s.time.stopped = false)
include hp hs

theorem followEffect_parent : followEffect port p (landed port p s) = disciplined p (noteNeighbour port p (landed port p s)) := by
  have ha := noteNeighbour_alike (landed_alike port p s) port p
  exact if_pos ⟨by rw [ha.time]; exact hp, by rw [ha.time, (noteNeighbour_beat port p s).2.1]; exact hs⟩

theorem exec_follow_parent : exec (.follow port p) s = .next (disciplined p (noteNeighbour port p (landed port p s))) :=
  (exec_follow a h1).trans (congrArg _ (followEffect_parent a h1 hp hs))

end

end

/-- Settles O51. -/
theorem timeMessagesKeepTheBeat : Obligations.TimeMessagesKeepTheBeat := by
  unfold Obligations.TimeMessagesKeepTheBeat
  intro s
  refine ⟨syncSend_sends, fun port p a => ⟨sync_answered a, follow_stopped a, fun h1 hp hs => ?_⟩⟩
  have ha := noteNeighbour_alike (landed_alike port p s) port p
  have hb := (noteNeighbour_beat port p s).1
  rw [← ha.time] at hb
  refine ⟨fun hu => ?_, fun hu => ?_⟩
  · obtain ⟨d, h⟩ := disciplined_loads (p := p) hb (by rw [ha.time]; exact hu)
    exact ⟨_, d, exec_follow_parent a h1 hp hs, h⟩
  · obtain ⟨o, h⟩ := disciplined_offset (p := p) hb (by rw [ha.time]; exact hu)
    exact ⟨_, o, exec_follow_parent a h1 hp hs, h⟩

end Sys2Proof.Claims
end

section
/-! SUPPORT. The counterexample to O53: a Gong that waits for a port as a request's packet is withdrawn with its request. -/

namespace Sys2Proof.Machine

/-- A Gong of device 5 for step 1. -/
def passingGong : Packet :=
  sealPacket { dst := 0xFFFFF, src := 5, job := 0, vcop := 0x11, flags := 0, addr := 0, length := 16, arr := 0, psn := 0, hcrc := 0
               payload := gongPayload 5 1 0 7 }

/-- A Gong of the job that waits for port 1, marked as a request's packet: nothing in the premises says that a request carries no
Gong. -/
def waitingItem : TxItem :=
  { packet := passingGong, request := true, port := some 1, transit := false, source := 146, credit := none }

/-- The request that it belongs to, which has not left the device. -/
def unsentRequest : Request where
  dst := 0xFFFFF
  packet := passingGong
  cluster := 0
  cell := 0
  index := 0
  step := 0
  answerAt := none
  landing := none
  bg := false
  timer := 0
  sent := 0
  port := none

/-- Ports 0 and 1 are up, a job is open, and its step 3 is ARMED. -/
def gongMeetsRequest : State :=
  { State.reset with
    job := { State.reset.job with opened := true, id := 0 }
    ctl := { State.reset.ctl with armed := some ⟨3, 0, false, ⟨3, none, 0, [], [], none⟩, false, 0, 0⟩ }
    fab := { State.reset.fab with ports := [(0, { Port.init with state := .upFull }), (1, { Port.init with state := .upFull })] }
    rem := { State.reset.rem with tx := [waitingItem], requests := [unsentRequest] } }

/-- Whether a Gong waits for port 1 in the state that a command leaves. -/
def gongWaits (o : Host.Outcome State Fault Refusal) : Option Bool :=
  match o with
  | .next t => some (t.rem.tx.any fun x => x.port == some 1 && opOf x.packet == 0x11)
  | _ => none

/-- The Gong ends the ARMED step, whose latch drops the unsent request, and with it the copy that waited for port 1. -/
theorem gongMeetsRequest_drops : gongWaits (exec (.gong 0 passingGong) gongMeetsRequest) = some false := by decide +kernel

end Sys2Proof.Machine

namespace Sys2Proof.Claims

open Sys2Proof.Machine

theorem passingGong_arrives : Arrives 0x11 true (some 0) passingGong gongMeetsRequest := by decide +kernel

/-- The Gong is new to the device, and port 1 is up. -/
theorem passingGong_unknown : ((liveGongs gongMeetsRequest).any fun k => k.origin == fieldOf passingGong.payload 0 4 % 2 ^ 20 &&
      (k.step == BitVec.ofNat 32 (fieldOf passingGong.payload 4 4) && k.attempt == BitVec.ofNat 32 (fieldOf passingGong.payload 8 4))) = false ∧
    portUp gongMeetsRequest 1 = true := by decide +kernel

/-- Refutes O53: a Gong that is new goes on to every other port that is up, but where one of its job waits there already as the
packet of an unsent request, none is queued beside it, and the latch of the ARMED step drops that one with its request. -/
theorem not_decisionPointAndGong : ¬ Obligations.DecisionPointAndGong := by
  unfold Obligations.DecisionPointAndGong
  intro h
  obtain ⟨hnew, hup⟩ := passingGong_unknown
  obtain ⟨t, ht, hports, -⟩ := ((h gongMeetsRequest).2 0 passingGong passingGong_arrives).2 hnew
  obtain ⟨x, hx, hport, hop, -⟩ := hports 1 hup (by omega) (by omega)
  have hdrop := gongMeetsRequest_drops
  rw [ht] at hdrop
  have hwaits : (t.rem.tx.any fun x => x.port == some 1 && opOf x.packet == 0x11) = true :=
    List.any_eq_true.2 ⟨x, hx, by rw [hport, hop]; rfl⟩
  rw [show gongWaits (.next t) = some (t.rem.tx.any fun x => x.port == some 1 && opOf x.packet == 0x11) from rfl, hwaits] at hdrop
  cases hdrop

end Sys2Proof.Claims
end

section
/-! SUPPORT. Peal messages (R373 to R378). -/

namespace Sys2Proof.Machine

theorem opOf_peal (s : State) (payload : List Byte) : opOf (controlPacket s 0x10 payload) ≠ 0x11 := by
  rw [opOf_controlPacket s (by omega)]
  decide

/-- Every port of the list has its copy of a control packet but a Gong. -/
theorem queueControls_tx {q : Packet} (h : opOf q ≠ 0x11) (ports : List Nat) (s : State) :
    (queueControls q ports s).rem.tx = s.rem.tx ++ ports.map fun p => outItem p q := by
  induction ports generalizing s with
  | nil => exact (List.append_nil _).symm
  | cons p r ih =>
    unfold queueControls
    rw [ih, queueControl_tx h, List.append_assoc]
    rfl

section
variable {s : State} {p : Packet} {tr : Tree} (ht : s.launch.tree = some tr)
include ht

theorem forwardPeal_tree : forwardPeal p s = if s.launch.fwd.contains (pealKey p) then s
    else noteForward (pealKey p) (queueControls (controlPacket s 0x10 p.payload) (treeChildren tr (pealTree p)) s) := by
  simp only [forwardPeal, ht] <;> rfl

/-- Forwarding a copy leaves the launch but for the copies noted. -/
theorem forwardPeal_launch : (forwardPeal p s).launch.pend = s.launch.pend ∧ (forwardPeal p s).launch.tree = some tr := by
  rw [forwardPeal_tree ht]
  split
  · exact ⟨rfl, ht⟩
  · have k := (queueControls_keeps (k := [.rem]) (controlPacket s 0x10 p.payload) (treeChildren tr (pealTree p)) s rfl).2 (.refl _ s)
    refine ⟨?_, ?_⟩
    · show (queueControls _ _ s).launch.pend = _
      rw [k.launch_eq rfl]
    · show (queueControls _ _ s).launch.tree = _
      rw [k.launch_eq rfl, ht]

/-- The first copy goes to every child of its tree. -/
theorem forwardPeal_tx (hk : pealKey p ∉ s.launch.fwd) : (forwardPeal p s).rem.tx =
    s.rem.tx ++ (treeChildren tr (pealTree p)).map fun c => outItem c (controlPacket s 0x10 p.payload) := by
  rw [forwardPeal_tree ht, if_neg (by simpa using hk)]
  exact queueControls_tx (opOf_peal s _) _ s

end

theorem forwardPeal_rest (p : Packet) (s : State) : Keeps [.rem, .launch] s (forwardPeal p s) := (forwardPeal_keeps _ _ rfl).2 (.refl _ s)

theorem pastDecision_congr {s t : State} (h : t.time = s.time) (d : Nat) : pastDecision t d = pastDecision s d := by
  rw [pastDecision, pastDecision, h]

/-- An ARM that arms leaves what waits for the ports as it is, unless a launch gives way to it. -/
theorem armFresh_arms {s : State} {p : Packet} (h : pastDecision s (pealD p) = false) (first : Bool) :
    (armFresh first p s).launch.pend = some (Pending.start (pealId p) (pealD p) (pealStep p) true) ∧
      (armFresh first p s).launch.downbeat = pealD p ∧ (s.launch.pend = none → (armFresh first p s).rem = s.rem) := by
  unfold armFresh
  rw [if_neg (by simp [h])]
  refine ⟨rfl, rfl, fun hn => ?_⟩
  rw [hn]
  rfl

/-- What ARM notes of the launches that it has heard of. -/
def notesLaunch (p : Packet) (s : State) : State :=
  { s with launch := { s.launch with
    known := if !s.launch.known.contains (pealId p, pealD p) then (pealId p, pealD p) :: s.launch.known else s.launch.known } }

/-- What an ARM does once it is noted. -/
def armNoted (p : Packet) (first : Bool) (u : State) : State :=
  match u.launch.pend with
  | some q =>
    if q.id = pealId p then (if pastDecision u (pealD p) then addCount tcLateArm 1 u else u)
    else if q.armed then addCount tcStrayPeal 1 u
    else armFresh first p u
  | none => armFresh first p u

theorem armEffect_eq (p : Packet) (s : State) : armEffect p s =
    armNoted p (!(forwardPeal p s).launch.known.contains (pealId p, pealD p)) (notesLaunch p (forwardPeal p s)) := rfl

section
variable {p : Packet} {u : State} (first : Bool)

theorem armNoted_none (h : u.launch.pend = none) : armNoted p first u = armFresh first p u := by simp only [armNoted, h]

theorem armNoted_other {w : Pending} (h : u.launch.pend = some w) (hw : w.id ≠ pealId p) :
    armNoted p first u = if w.armed then addCount tcStrayPeal 1 u else armFresh first p u := by
  simp only [armNoted, h, if_neg hw]

end

theorem disarmEffect_disarms {p : Packet} {s : State} {w : Pending} (h : (forwardPeal p s).launch.pend = some w) (hw : w.id = pealId p)
    (hp : pastDecision (forwardPeal p s) (pealD p) = false) (ha : w.abandoned = false) :
    (disarmEffect p s).launch.pend = some { w with armed := false, disarmed := true } := by
  unfold disarmEffect
  dsimp only
  rw [if_neg (by simp [hp]), h]
  dsimp only
  rw [if_neg (by simp [hw]), if_neg (by simp [ha])]
  rfl

/-- Before the deadline of the acknowledgements nothing is sent. -/
theorem ackDeadline_before {s : State} {tr : Tree} {w : Pending} (ht : s.launch.tree = some tr) (hw : s.launch.pend = some w)
    (h : s.time.beat + guardTicks + 1250 * tr.depth < w.downbeat) : ackDeadlineEffect s = s := by
  unfold ackDeadlineEffect
  rw [ht, hw]
  exact if_neg fun ⟨_, _, hd, _⟩ => absurd hd (by omega)

theorem sendDisarm_pend (q : Pending) (t : Tree) (s : State) :
    (sendDisarm q t s).launch.pend = some { q with disarmSent := true, armed := false, disarmed := q.disarmed || !q.abandoned } := rfl

/-- The device's index, sent up one tree. -/
def sendsIndex (tr : Tree) (w : Pending) (tree : Nat) (u : State) : State :=
  queueControls (controlPacket u 0x10 (pealPayload 1 tree w [tr.index])) (treeParent tr tree).toList u

theorem sendsIndex_tx (tr : Tree) (w : Pending) (tree : Nat) (u : State) : (sendsIndex tr w tree u).rem.tx = u.rem.tx ++
    (treeParent tr tree).toList.map fun c => outItem c (controlPacket u 0x10 (pealPayload 1 tree w [tr.index])) :=
  queueControls_tx (opOf_peal u _) _ u

section
variable {s : State} {tr : Tree} {w : Pending} (ht : s.launch.tree = some tr) (hw : s.launch.pend = some w)
include ht hw

theorem armAcknowledge_root (hm : mayAcknowledge w s = true) (hr : isRoot tr = true)
    (h : s.time.beat + guardTicks + 1250 * tr.depth < w.downbeat) :
    armAcknowledgeEffect s = setPending { w with acked := true, acks := mergeIndices tr.members [tr.index] w.acks } s := by
  unfold armAcknowledgeEffect
  rw [ht, hw]
  dsimp only
  rw [if_pos hm, if_pos hr, if_neg (by omega)]

theorem armAcknowledge_up (hm : mayAcknowledge w s = true) (hr : isRoot tr = false) :
    armAcknowledgeEffect s = setPending { w with acked := true } (sendsIndex tr w 1 (sendsIndex tr w 0 s)) := by
  unfold armAcknowledgeEffect
  rw [ht, hw]
  dsimp only
  rw [if_pos hm, if_neg (by simp [hr])]
  rfl

theorem ackDeadline_disarms (hr : isRoot tr = true) (hd : w.disarmSent = false)
    (h : w.downbeat ≤ s.time.beat + guardTicks + 1250 * tr.depth) (ha : w.acks.length < tr.members) :
    ackDeadlineEffect s = sendDisarm w tr s := by
  unfold ackDeadlineEffect
  rw [ht, hw]
  exact if_pos ⟨hr, hd, h, ha⟩

end

end Sys2Proof.Machine

namespace Sys2Proof.Claims

open Sys2Proof.Machine

section
variable {s : State} {tr : Tree} {port : Nat} {p : Packet}

/-- A Peal message of the open job that is well formed is handled. -/
theorem receivePeal_handles (a : Arrives 0x10 true (some port) p s) (ho : s.job.opened = true) (hj : p.job = s.job.id)
    (hp : pealTree p ≤ 1) {kind : Nat} (hk : pealKind p = kind) (hk2 : kind ≤ 2) (f : State → State) :
    receivePeal kind port p f s = f (landed port p s) := by
  unfold receivePeal
  rw [receive_linkLocal a]
  have hjob : (landed port p s).job = s.job := (landed_keeps port p s).job_eq rfl
  rw [if_neg, if_pos hk]
  rw [hjob]
  rintro (h | h | h)
  · exact h ⟨ho, hj⟩
  · omega
  · omega

theorem landed_launch : (landed port p s).launch = s.launch := (landed_keeps port p s).launch_eq rfl

theorem landed_past (d : Nat) : pastDecision (landed port p s) d = pastDecision s d :=
  pastDecision_congr ((landed_keeps port p s).time_eq rfl) d

theorem forwarded_past (d : Nat) : pastDecision (forwardPeal p (landed port p s)) d = pastDecision s d :=
  (pastDecision_congr ((forwardPeal_rest p _).time_eq rfl) d).trans (landed_past d)

variable (ht : s.launch.tree = some tr)
include ht

theorem landed_tree : (landed port p s).launch.tree = some tr := by rw [landed_launch, ht]

theorem forwarded_pend : (forwardPeal p (landed port p s)).launch.pend = s.launch.pend :=
  (forwardPeal_launch (landed_tree ht)).1.trans (by rw [landed_launch])

section
variable (a : Arrives 0x10 true (some port) p s) (ho : s.job.opened = true) (hj : p.job = s.job.id) (hp : pealTree p ≤ 1)
include a ho hj hp

theorem exec_pealArm (hk : pealKind p = 0) : exec (.pealArm port p) s = .next (armEffect p (landed port p s)) :=
  congrArg Host.Outcome.next (receivePeal_handles a ho hj hp hk (by omega) _)

/-- An ARM that finds no launch arms the device, and goes on to the children of its tree. -/
theorem pealArm_arms (hk : pealKind p = 0) (hn : s.launch.pend = none) (hd : pastDecision s (pealD p) = false) :
    ∃ t, exec (.pealArm port p) s = .next t ∧
      t.launch.pend = some (Pending.start (pealId p) (pealD p) (pealStep p) true) ∧ t.launch.downbeat = pealD p ∧
      (pealKey p ∉ s.launch.fwd → ∀ c ∈ treeChildren tr (pealTree p), Queued c 0x10 p.payload t) := by
  refine ⟨_, exec_pealArm ht a ho hj hp hk, ?_⟩
  have hpend := (forwarded_pend (port := port) (p := p) ht).trans hn
  rw [armEffect_eq, armNoted_none (u := notesLaunch p (forwardPeal p (landed port p s))) _ hpend]
  obtain ⟨h1, h2, h3⟩ := armFresh_arms (s := notesLaunch p (forwardPeal p (landed port p s))) (p := p)
    ((forwarded_past _).trans hd) (!(forwardPeal p (landed port p s)).launch.known.contains (pealId p, pealD p))
  refine ⟨h1, h2, fun hf c hc => queued_outItem (u := landed port p s) p.payload (by omega) ?_⟩
  rw [h3 hpend]
  show _ ∈ (forwardPeal p (landed port p s)).rem.tx
  rw [forwardPeal_tx (landed_tree ht) (by rw [landed_launch]; exact hf)]
  exact List.mem_append_right _ (List.mem_map.2 ⟨c, hc, rfl⟩)

/-- An ARM of another launch counts beside an armed one, and takes the place of one that is armed no more. -/
theorem pealArm_beside {w : Pending} (hk : pealKind p = 0) (hw : s.launch.pend = some w) (hid : w.id ≠ pealId p) :
    (w.armed = true → ∃ t, exec (.pealArm port p) s = .next t ∧ t.launch.pend = some w ∧
      tblGet t.errs.counts tcStrayPeal = tblGet s.errs.counts tcStrayPeal + 1) ∧
    (w.armed = false → pastDecision s (pealD p) = false → ∃ t, exec (.pealArm port p) s = .next t ∧
      t.launch.pend = some (Pending.start (pealId p) (pealD p) (pealStep p) true) ∧ t.launch.downbeat = pealD p) := by
  have hpend := (forwarded_pend (port := port) (p := p) ht).trans hw
  have hx := (exec_pealArm ht a ho hj hp hk).trans (congrArg _ ((armEffect_eq p _).trans
    (armNoted_other (u := notesLaunch p (forwardPeal p (landed port p s))) _ hpend hid)))
  refine ⟨fun ha => ⟨_, hx, ?_⟩, fun ha hd => ⟨_, hx, ?_⟩⟩
  · rw [if_pos ha]
    have he : (forwardPeal p (landed port p s)).errs = s.errs :=
      ((forwardPeal_rest p _).errs_eq rfl).trans ((landed_keeps port p s).errs_eq rfl)
    refine ⟨hpend, ?_⟩
    show tblGet (tblAdd (forwardPeal p (landed port p s)).errs.counts tcStrayPeal 1) tcStrayPeal = _
    rw [he]
    exact tblGet_tblAdd_self _ _ Nat.one_pos
  · rw [if_neg (by simp [ha])]
    obtain ⟨h1, h2, -⟩ := armFresh_arms (s := notesLaunch p (forwardPeal p (landed port p s))) (p := p)
      ((forwarded_past _).trans hd) (!(forwardPeal p (landed port p s)).launch.known.contains (pealId p, pealD p))
    exact ⟨h1, h2⟩

/-- A DISARM of the pending launch disarms it. -/
theorem pealDisarm_disarms {w : Pending} (hw : s.launch.pend = some w) (hid : w.id = pealId p) (hk : pealKind p = 2)
    (hd : pastDecision s (pealD p) = false) (hb : w.abandoned = false) : ∃ t, exec (.pealDisarm port p) s = .next t ∧
      t.launch.pend = some { w with armed := false, disarmed := true } :=
  ⟨_, congrArg Host.Outcome.next (receivePeal_handles a ho hj hp hk (by omega) _),
    disarmEffect_disarms ((forwarded_pend ht).trans hw) hid ((forwarded_past _).trans hd) hb⟩

/-- The root collects the indices of an ACK. -/
theorem pealAck_collected {w : Pending} (hw : s.launch.pend = some w) (hid : w.id = pealId p) (hk : pealKind p = 1)
    (hc : port ∈ treeChildren tr (pealTree p)) (hr : treeParent tr (pealTree p) = none)
    (hd : s.time.beat + guardTicks + 1250 * tr.depth < w.downbeat) : ∃ t, exec (.pealAck port p) s = .next t ∧
      t.launch.pend = some { w with acks := mergeIndices tr.members (pealIndices p) w.acks } := by
  refine ⟨_, congrArg Host.Outcome.next (receivePeal_handles a ho hj hp hk (by omega) _), ?_⟩
  have hb := ackDeadline_before (landed_tree (port := port) (p := p) ht) (by rw [landed_launch]; exact hw)
    (by rw [(landed_keeps port p s).time_eq rfl]; exact hd)
  have hl : (landed port p s).launch.pend = some w := by rw [landed_launch]; exact hw
  unfold ackPealEffect
  rw [landed_tree ht]
  dsimp only
  rw [if_neg (by simpa using hc), hr]
  dsimp only
  rw [hb, hl]
  dsimp only
  rw [if_neg (by simp [hid])]
  rfl

/-- An ACK goes up its tree. -/
theorem pealAck_relayed {up : Nat} (hk : pealKind p = 1) (hc : port ∈ treeChildren tr (pealTree p))
    (hu : treeParent tr (pealTree p) = some up) : ∃ t, exec (.pealAck port p) s = .next t ∧ Queued up 0x10 p.payload t ∧
      t.launch = s.launch := by
  refine ⟨_, congrArg Host.Outcome.next (receivePeal_handles a ho hj hp hk (by omega) _), ?_⟩
  unfold ackPealEffect
  rw [landed_tree ht]
  dsimp only
  rw [if_neg (by simpa using hc), hu]
  dsimp only
  rw [queueControl_tx (opOf_peal _ _)]
  exact ⟨queued_outItem (u := landed port p s) p.payload (by omega) (List.mem_append_right _ List.mem_cons_self),
    landed_launch (port := port) (p := p)⟩

end

/-- The armed device sends its index up its trees. -/
theorem armAcknowledge_sends {w : Pending} (hw : s.launch.pend = some w) (hm : mayAcknowledge w s = true) {up : Nat}
    (hr : isRoot tr = false) (hu : tr.pParent = some up ∨ tr.sParent = some up) :
    ∃ t tree, exec .armAcknowledge s = .next t ∧ t.launch.pend = some { w with acked := true } ∧
      Queued up 0x10 (pealPayload 1 tree w [tr.index]) t := by
  have hx : exec .armAcknowledge s = .next (setPending { w with acked := true } (sendsIndex tr w 1 (sendsIndex tr w 0 s))) :=
    congrArg Host.Outcome.next (armAcknowledge_up ht hw hm hr)
  rcases hu with hu | hu
  · refine ⟨_, 0, hx, rfl, queued_outItem (u := s) _ (by omega) ?_⟩
    show _ ∈ (sendsIndex tr w 1 (sendsIndex tr w 0 s)).rem.tx
    rw [sendsIndex_tx, sendsIndex_tx, show treeParent tr 0 = some up from hu]
    exact List.mem_append_left _ (List.mem_append_right _ List.mem_cons_self)
  · refine ⟨_, 1, hx, rfl, queued_outItem (u := sendsIndex tr w 0 s) _ (by omega) ?_⟩
    show _ ∈ (sendsIndex tr w 1 (sendsIndex tr w 0 s)).rem.tx
    rw [sendsIndex_tx _ _ 1, show treeParent tr 1 = some up from hu]
    exact List.mem_append_right _ List.mem_cons_self

end

/-- Settles O52. -/
theorem launchMessagesTakeEffect : Obligations.LaunchMessagesTakeEffect := by
  unfold Obligations.LaunchMessagesTakeEffect
  intro s tr ht
  refine ⟨fun port p a ho hj hp => ⟨pealArm_arms ht a ho hj hp, fun w hk hw hid => pealArm_beside ht a ho hj hp hk hw hid,
    fun w hw hid => ⟨pealDisarm_disarms ht a ho hj hp hw hid, pealAck_collected ht a ho hj hp hw hid⟩,
    fun up hk hc hu => pealAck_relayed ht a ho hj hp hk hc hu⟩, fun w hw => ⟨fun hm => ⟨fun up hr hu =>
      armAcknowledge_sends ht hw hm hr hu, fun hr hd => ⟨_, congrArg Host.Outcome.next (armAcknowledge_root ht hw hm hr hd), rfl⟩⟩,
    fun hr hs hb hd ha => ⟨_, congrArg Host.Outcome.next (ackDeadline_disarms ht hw hr hs hd ha), ?_⟩⟩⟩
  rw [sendDisarm_pend, hb, Bool.not_false, Bool.or_true]

end Sys2Proof.Claims
end

section
/-! SUPPORT. The flash tier's background (R275 to R278, R281 to R284, R303): what Ibten's work leaves of the tier, of each
block, and of the copies whose promotion a failed read ends. -/

namespace Sys2Proof.Machine

/-! ## Blocks -/

theorem blockOf_mapBlock_self (b : Nat) (g : Block → Block) (f : Flash) : blockOf (mapBlock b g f) b = g (blockOf f b) :=
  blockOf_of_get (kvGet_kvPut_self _ _ _)

theorem blockOf_mapBlock_ne {b c : Nat} (h : c ≠ b) (g : Block → Block) (f : Flash) :
    blockOf (mapBlock b g f) c = blockOf f c := by
  show kvGetD (kvPut f.blocks b _) c _ = _
  rw [kvGetD, kvGet_kvPut_ne _ _ h]
  rfl

theorem kvGet_mapKeyed {α : Type} (g : Nat → α → α) (t : KV α) (b : Nat) :
    kvGet? (t.map fun e => (e.1, g e.1 e.2)) b = (kvGet? t b).map (g b) := by
  induction t with
  | nil => rfl
  | cons e r ih =>
    simp only [List.map_cons, kvGet?]
    split <;> simp_all

/-- Blocks differ only in whether they are in use and where their data moves. -/
def BlocksMoved (f g : Flash) : Prop := ∀ b, ∃ u m, blockOf g b = { blockOf f b with used := u, moving := m }

namespace BlocksMoved
variable {f g h : Flash}

theorem refl (f : Flash) : BlocksMoved f f := fun _ => ⟨_, _, rfl⟩

theorem trans (a : BlocksMoved f g) (c : BlocksMoved g h) : BlocksMoved f h := fun b => by
  obtain ⟨_, _, e⟩ := a b
  obtain ⟨u, m, e'⟩ := c b
  exact ⟨u, m, by rw [e', e]⟩

theorem foldl {α : Type} {k : Flash → α → Flash} (a : ∀ f x, BlocksMoved f (k f x)) (l : List α) (f : Flash) :
    BlocksMoved f (l.foldl k f) := by
  induction l generalizing f with
  | nil => exact .refl f
  | cons x r ih => exact (a f x).trans (ih _)

theorem bad (a : BlocksMoved f g) (b : Nat) : (blockOf g b).bad = (blockOf f b).bad := by
  obtain ⟨_, _, e⟩ := a b
  rw [e]

theorem reads (a : BlocksMoved f g) (b : Nat) : (blockOf g b).reads = (blockOf f b).reads := by
  obtain ⟨_, _, e⟩ := a b
  rw [e]

theorem erased (a : BlocksMoved f g) (b : Nat) : (blockOf g b).erasing = (blockOf f b).erasing ∧
    (blockOf g b).erases = (blockOf f b).erases ∧ (blockOf g b).reads = (blockOf f b).reads := by
  obtain ⟨_, _, e⟩ := a b
  rw [e]
  exact ⟨rfl, rfl, rfl⟩

end BlocksMoved

theorem mapBlock_blocksMoved {k : Block → Block} (h : ∀ x : Block, ∃ u m, k x = { x with used := u, moving := m }) (b : Nat)
    (f : Flash) : BlocksMoved f (mapBlock b k f) := fun c => by
  by_cases e : c = b
  · subst e
    rw [blockOf_mapBlock_self]
    exact h _
  · exact ⟨_, _, blockOf_mapBlock_ne e k f⟩

theorem beginMove_blocksMoved (d : Option Nat) (b : Nat) (f : Flash) : BlocksMoved f (beginMove d b f) := by
  unfold beginMove
  dsimp only
  split
  · split
    · exact .refl f
    · exact (mapBlock_blocksMoved (fun _ => ⟨_, _, rfl⟩) _ f).trans (mapBlock_blocksMoved (fun _ => ⟨_, _, rfl⟩) _ _)
  · exact .refl f

theorem relocate_blocksMoved (b : Nat) (f : Flash) : BlocksMoved f (relocate b f) := by
  unfold relocate
  split
  · exact .refl f
  · exact beginMove_blocksMoved _ _ _

theorem retryMoves_blocksMoved (ch : Nat) (f : Flash) : BlocksMoved f (retryMoves ch f) := by
  refine .foldl (fun g e => ?_) _ f
  split
  · exact beginMove_blocksMoved _ _ _
  · exact relocate_blocksMoved _ _

/-- A block after relocations onto a die were given up. -/
def targetDropped (d : Nat) (f : Flash) (b : Nat) (x : Block) : Block :=
  if isTarget f b ∧ dieOf f.geom b = d then { x with used := false }
  else if x.moving.any (fun t => dieOf f.geom t == d) then { x with moving := none } else x

theorem dropTargets_blocksMoved (d : Nat) (f : Flash) : BlocksMoved f (dropTargets d f) := fun b => by
  have hg : kvGet? (dropTargets d f).blocks b = (kvGet? f.blocks b).map (targetDropped d f b) :=
    kvGet_mapKeyed (targetDropped d f) _ _
  have hx (x : Block) : ∃ u m, targetDropped d f b x = { x with used := u, moving := m } := by
    unfold targetDropped
    split
    · exact ⟨_, _, rfl⟩
    · split <;> exact ⟨_, _, rfl⟩
  show ∃ u m, kvGetD _ b _ = { kvGetD f.blocks b (Block.fresh f) with used := u, moving := m }
  rw [kvGetD, kvGetD, hg]
  cases kvGet? f.blocks b with
  | none => exact ⟨_, _, rfl⟩
  | some x => exact hx x

theorem retireCore_blocksMoved (d : Nat) (f : Flash) : BlocksMoved f (retireCore d f) := by
  have h0 : BlocksMoved f { f with retiredDies := d :: f.retiredDies } := .refl f
  unfold retireCore settleDie
  dsimp only
  split
  · exact h0.trans (dropTargets_blocksMoved d { f with retiredDies := d :: f.retiredDies })
  · exact (h0.trans (dropTargets_blocksMoved d { f with retiredDies := d :: f.retiredDies })).trans
      (.foldl (fun f b => beginMove_blocksMoved _ b f) _ _)

/-! ## What the background leaves of the tier -/

/-- Two states of the tier differ only in what relocation changes, in grown bad blocks and in retired dies. -/
def WorkOnly (f g : Flash) : Prop := ∃ h gr rd, MovesOnly f h ∧ g = { h with grown := gr, retiredDies := rd }

namespace WorkOnly
variable {f g h : Flash}

theorem of_moves (a : MovesOnly f g) : WorkOnly f g := ⟨g, _, _, a, rfl⟩

theorem refl (f : Flash) : WorkOnly f f := .of_moves (.refl f)

theorem trans (a : WorkOnly f g) (b : WorkOnly g h) : WorkOnly f h := by
  obtain ⟨_, _, _, ⟨_, _, _, _, rfl⟩, rfl⟩ := a
  obtain ⟨_, _, _, ⟨_, _, _, _, rfl⟩, rfl⟩ := b
  exact ⟨_, _, _, ⟨_, _, _, _, rfl⟩, rfl⟩

theorem counts (a : WorkOnly f g) : g.retries = f.retries ∧ g.rebuilds = f.rebuilds ∧ g.relocations = f.relocations ∧
    g.extents = f.extents ∧ g.patrolled = f.patrolled := by
  obtain ⟨_, _, _, ⟨_, _, _, _, rfl⟩, rfl⟩ := a
  exact ⟨rfl, rfl, rfl, rfl, rfl⟩

end WorkOnly

theorem addReads_movesOnly (b n : Nat) (f : Flash) : MovesOnly f (addReads b n f) := by
  unfold addReads
  dsimp only
  split
  · exact (mapBlock_movesOnly _ _ f).trans (relocate_movesOnly _ _)
  · exact mapBlock_movesOnly _ _ f

theorem addReadsAll_movesOnly (n : Nat) (l : List Nat) (f : Flash) : MovesOnly f (addReadsAll n l f) := by
  induction l generalizing f with
  | nil => exact .refl f
  | cons b r ih => exact (addReads_movesOnly b n f).trans (ih _)

/-- A block's reads are counted whether or not its relocation starts. -/
theorem blockOf_addReads (b n : Nat) (f : Flash) : (blockOf (addReads b n f) b).reads = (blockOf f b).reads + n := by
  have h : (blockOf (mapBlock b (fun x => { x with reads := x.reads + n }) f) b).reads = (blockOf f b).reads + n := by
    rw [blockOf_mapBlock_self]
  unfold addReads
  dsimp only
  split
  · rw [(relocate_blocksMoved _ _).reads, h]
  · exact h

theorem updateFlash_workOnly {k : Flash → Flash} (s : State) (h : WorkOnly s.flash (k s.flash)) :
    WorkOnly s.flash (updateFlash k s).flash := by
  rw [Claims.updateFlash_flash]
  exact h.trans (.of_moves (judgeReserve_movesOnly _))

theorem updateFlash_blocksMoved {k : Flash → Flash} (s : State) (h : BlocksMoved s.flash (k s.flash)) :
    BlocksMoved s.flash (updateFlash k s).flash := by
  rw [Claims.updateFlash_flash]
  exact h

theorem retireCore_workOnly (d : Nat) (f : Flash) : WorkOnly f (retireCore d f) :=
  .trans ⟨f, _, _, .refl f, rfl⟩ (.of_moves (settleDie_movesOnly d { f with retiredDies := d :: f.retiredDies }))

theorem retireCore_retiredDies (d : Nat) (f : Flash) : (retireCore d f).retiredDies = d :: f.retiredDies := by
  obtain ⟨_, _, _, _, e⟩ := settleDie_movesOnly d { f with retiredDies := d :: f.retiredDies }
  unfold retireCore
  rw [e]

theorem retireDie_flash (d : Nat) (s : State) : (retireDie d s).flash =
    if s.flash.retiredDies.contains d then s.flash else judgeReserve (retireCore d s.flash) := by
  unfold retireDie
  dsimp only
  split
  · rfl
  · rw [Claims.flashEvent_flash, Claims.updateFlash_flash]

theorem retireDie_workOnly (d : Nat) (s : State) : WorkOnly s.flash (retireDie d s).flash := by
  rw [retireDie_flash]
  split
  · exact .refl _
  · exact (retireCore_workOnly d _).trans (.of_moves (judgeReserve_movesOnly _))

theorem retireDie_blocksMoved (d : Nat) (s : State) : BlocksMoved s.flash (retireDie d s).flash := by
  rw [retireDie_flash]
  split
  · exact .refl _
  · exact retireCore_blocksMoved d s.flash

theorem growBad_workOnly (b : Nat) (s : State) : WorkOnly s.flash (growBad b s).flash := by
  unfold growBad
  split
  · exact .refl _
  · dsimp only
    refine .trans (updateFlash_workOnly (k := fun f =>
      beginMove none b (mapBlock b (fun x => { x with bad := true, erasing := false })
        { f with grown := (dieOf s.flash.geom b, s.time.uptime) :: f.grown.filter fun e => s.time.uptime < e.2 + hourTicks }))
      s ?_) ?_
    · exact .trans ⟨s.flash, _, _, .refl _, rfl⟩ (.of_moves ((mapBlock_movesOnly _ _ _).trans (beginMove_movesOnly _ _ _)))
    · split
      · exact retireDie_workOnly _ _
      · exact .refl _

/-- A grown bad block stays bad, whether or not its die is retired with it. -/
theorem growBad_bad (b : Nat) (s : State) : (blockOf (growBad b s).flash b).bad = true := by
  unfold growBad
  split
  · assumption
  · dsimp only
    generalize hu : updateFlash _ s = u
    have hb : (blockOf u.flash b).bad = true := by
      rw [← hu, Claims.updateFlash_flash]
      show (blockOf (beginMove none b _) b).bad = true
      rw [(beginMove_blocksMoved _ _ _).bad, blockOf_mapBlock_self]
    split
    · rw [(retireDie_blocksMoved _ u).bad, hb]
    · exact hb

/-! ## Codeword reads -/

/-- The tier at a codeword read, with its counts of retries and rebuilds. -/
def readCounted (r : Ladder) (f : Flash) : Flash :=
  match r with
  | .hard => f
  | .failure => f
  | .retry _ => { f with retries := f.retries + 1 }
  | .soft => { f with retries := f.retries + 1 }
  | .rebuild _ => { f with rebuilds := f.rebuilds + 1 }

/-- Beside its counts, a codeword read does only what Ibten's work does. -/
theorem ladderEffect_workOnly (b first : Nat) (r : Ladder) (s : State) :
    WorkOnly (readCounted r s.flash) (ladderEffect b first r s).flash := by
  unfold ladderEffect
  cases r with
  | hard =>
    simp only [readCounted, Claims.updateFlash_flash]
    exact .of_moves ((addReads_movesOnly _ _ _).trans (judgeReserve_movesOnly _))
  | retry n =>
    simp only [readCounted, Claims.updateFlash_flash]
    exact .of_moves ((addReads_movesOnly _ _ _).trans (judgeReserve_movesOnly _))
  | soft =>
    simp only [readCounted, Claims.updateFlash_flash]
    exact .of_moves ((addReads_movesOnly _ _ _).trans (judgeReserve_movesOnly _))
  | failure =>
    simp only [readCounted, Claims.updateFlash_flash]
    exact .of_moves (((addReads_movesOnly _ _ _).trans (addReadsAll_movesOnly _ _ _)).trans (judgeReserve_movesOnly _))
  | rebuild second =>
    dsimp only
    generalize hu : updateFlash _ s = u
    have hw : WorkOnly (readCounted (.rebuild second) s.flash) u.flash := by
      rw [← hu, Claims.updateFlash_flash]
      exact .of_moves ((((addReads_movesOnly _ _ _).trans (addReadsAll_movesOnly _ _ _)).trans (mapBlock_movesOnly _ _ _)).trans
        (judgeReserve_movesOnly _))
    have hg (again : Bool) : WorkOnly u.flash (if again then growBad b u else updateFlash (beginMove none b) u).flash := by
      cases again with
      | true => exact growBad_workOnly b u
      | false => exact updateFlash_workOnly u (.of_moves (beginMove_movesOnly _ _ _))
    split
    · exact hw
    · exact hw.trans (hg _)

theorem markReaders_flash (r : Ladder) (cs : List Copy) (s : State) : (markReaders r cs s).flash = s.flash := by
  have marked (k : Copy → Copy) : (cs.foldl (fun t c => mapCopy c.obj c.tier k t) s).flash = s.flash := by
    induction cs generalizing s with
    | nil => rfl
    | cons c r ih => exact (ih _).trans rfl
  unfold markReaders
  cases r with
  | hard => rfl
  | failure => rfl
  | retry n => exact marked _
  | soft => exact marked _
  | rebuild second => exact marked _

/-! ## Promotions that a failed read ends -/

theorem stepFault_noCopyAppears (cause : Nat) (s : State) : NoCopyAppears s (stepFault cause s) := by
  have k : Keeps [.ctl, .rem, .launch] s (stepFault cause s) := (stepFault_keeps _ _ rfl).2 (.refl _ s)
  refine ⟨fun h => by rw [stepFault_inactive h]; exact h, by rw [k.errs_eq rfl], fun o t h => ?_⟩
  rwa [copyOf?, k.tier_eq rfl]

theorem failCopy_appearsNone (obj tier : Nat) (s : State) :
    NoCopyAppears s (failCopy obj tier s) ∧ copyOf? (failCopy obj tier s) obj tier = none := by
  unfold failCopy
  split
  · next hn => exact ⟨.refl s, hn⟩
  · next c _ =>
    dsimp only
    have he : CopiesStand (dropCopy obj tier s) (residencyEvents obj tier 0x04 stStepFault c.pinTags
        (residencyEvents obj tier 0x02 stStepFault c.hostTags (dropCopy obj tier s))) :=
      .trans (residencyEvents_copies _ _ _ _ _ _) (residencyEvents_copies _ _ _ _ _ _)
    have hf (c : Bool) (u : State) : NoCopyAppears u (faultIf c fcPromoteFailed u) := by
      unfold faultIf
      split
      · exact stepFault_noCopyAppears _ _
      · exact .refl u
    exact ⟨((dropCopy_noCopyAppears obj tier s).trans (.of_stand he)).trans (hf _ _),
      (hf _ _).none _ _ (he.copyOf_none (copyOf_dropCopy obj tier s))⟩

theorem NoCopyAppears.foldl {α : Type} {k : State → α → State} (a : ∀ s x, NoCopyAppears s (k s x)) (l : List α) (s : State) :
    NoCopyAppears s (l.foldl k s) := by
  induction l generalizing s with
  | nil => exact .refl s
  | cons x r ih => exact (a s x).trans (ih _)

theorem failPromotion_appearsNone (obj tier : Nat) (s : State) :
    NoCopyAppears s (failPromotion obj tier s) ∧ copyOf? (failPromotion obj tier s) obj tier = none := by
  obtain ⟨h1, hn⟩ := failCopy_appearsNone obj tier s
  have h2 : NoCopyAppears (failCopy obj tier s) (failPromotion obj tier s) :=
    .foldl (fun t k => (failCopy_appearsNone obj k t).1) _ _
  exact ⟨h1.trans h2, h2.none _ _ hn⟩

/-- Every promotion of a list fails. -/
theorem copyOf_failedPromotions (cs : List Copy) (s : State) :
    ∀ c ∈ cs, copyOf? (cs.foldl (fun t c => failPromotion c.obj c.tier t) s) c.obj c.tier = none := by
  induction cs generalizing s with
  | nil => exact fun c h => absurd h List.not_mem_nil
  | cons d r ih =>
    intro c hc
    obtain rfl | hr := List.mem_cons.1 hc
    · exact (NoCopyAppears.foldl (fun t (c : Copy) => (failPromotion_appearsNone c.obj c.tier t).1) r _).none _ _
        (failPromotion_appearsNone c.obj c.tier s).2
    · exact ih _ c hr

theorem neededCopies_eq_nil_iff {s : State} : neededCopies s = [] ↔
    ∀ e ∈ s.cells, ∀ f ∈ e.2.flight, f.finished = false → f.needs = none := by
  simp only [neededCopies, List.flatMap_eq_nil_iff, List.filterMap_eq_nil_iff, List.mem_filter, Bool.not_eq_true', and_imp]

theorem noteCause_needs (s : State) (f : Flight) : (noteCause s f).needs = f.needs ∧ (noteCause s f).finished = f.finished := by
  unfold noteCause
  split
  · exact ⟨rfl, rfl⟩
  · split <;> exact ⟨rfl, rfl⟩

theorem neededCopies_noteCauses {s : State} (h : neededCopies s = []) : neededCopies (noteCauses s) = [] := by
  rw [neededCopies_eq_nil_iff] at h ⊢
  intro e he f hf hn
  obtain ⟨e', he', rfl⟩ := List.mem_map.1 he
  obtain ⟨f', hf', rfl⟩ := List.mem_map.1 hf
  obtain ⟨a, b⟩ := noteCause_needs s f'
  rw [a]
  exact h e' he' f' hf' (b ▸ hn)

theorem neededCopies_congr {s t : State} (h : t.cells = s.cells) : neededCopies t = neededCopies s := by
  unfold neededCopies
  rw [h]

/-- With no task that waits for an object, trying again brings no copy. -/
theorem copyOf_retryEnsures {s : State} (h : neededCopies s = []) (obj tier : Nat) :
    copyOf? (retryEnsures s) obj tier = copyOf? s obj tier := by
  unfold retryEnsures
  rw [h]
  split <;> rfl

theorem copyOf_failPromotions {s : State} (h : neededCopies s = []) (cs : List Copy) :
    ∀ c ∈ cs, copyOf? (failPromotions cs s) c.obj c.tier = none := by
  intro c hc
  have hne : cs.isEmpty = false := by
    cases cs with
    | nil => exact absurd hc List.not_mem_nil
    | cons _ _ => rfl
  have kept (l : List Copy) (u : State) : (l.foldl (fun t c => failPromotion c.obj c.tier t) u).cells = u.cells := by
    induction l generalizing u with
    | nil => rfl
    | cons d r ih => exact (ih _).trans (cells_of_allBut (by simp))
  unfold failPromotions
  rw [hne, if_neg Bool.false_ne_true,
    copyOf_retryEnsures ((neededCopies_congr (kept cs (noteCauses s))).trans (neededCopies_noteCauses h))]
  exact copyOf_failedPromotions cs _ c hc

end Sys2Proof.Machine

namespace Sys2Proof.Claims

open Sys2Proof.Machine

/-! ## Codeword reads -/

section
variable {s : State} {x : Extent} {w : CodewordAt} (ho : s.flash.state = .online)
  (hx : extentOfBlock? s.flash w.block = some x) (hc : hasCodeword s.flash x w = true)

include ho hx hc in
/-- What a read of sealed data does with an outcome that the ladder allows. -/
theorem codewordRead_of_ladder {r q : Ladder} (h : ladderResult? s w.block r = some q) : exec (.codewordRead w r) s = .next (
    if q = .failure then failPromotions (flashReaders s x w)
      (markReaders q (flashReaders s x w) (ladderEffect w.block (if w.sensed then 1 else 0) q s))
    else markReaders q (flashReaders s x w) (ladderEffect w.block (if w.sensed then 1 else 0) q s)) := by
  show Host.Outcome.next (codewordReadEffect w r s) = _
  simp only [codewordReadEffect, ho, hx, h, if_pos hc]

include ho hx hc in
theorem codewordRead_counts {r : Ladder} (h : ladderResult? s w.block r = some r) (hr : r ≠ .failure) :
    ∃ t, exec (.codewordRead w r) s = .next t ∧
      t.flash = (ladderEffect w.block (if w.sensed then 1 else 0) r s).flash ∧
      t.flash.retries = (readCounted r s.flash).retries ∧ t.flash.rebuilds = (readCounted r s.flash).rebuilds := by
  have hf := markReaders_flash r (flashReaders s x w) (ladderEffect w.block (if w.sensed then 1 else 0) r s)
  obtain ⟨h1, h2, -⟩ := (ladderEffect_workOnly w.block (if w.sensed then 1 else 0) r s).counts
  refine ⟨_, (codewordRead_of_ladder ho hx hc h).trans (congrArg _ (if_neg hr)), hf, ?_⟩
  rw [hf]
  exact ⟨h1, h2⟩

include ho hx hc in
theorem codewordRead_hard (ha : absent s w.block = false) : ∃ t, exec (.codewordRead w .hard) s = .next t ∧
    (blockOf t.flash w.block).reads = (blockOf s.flash w.block).reads + (if w.sensed then 1 else 0) ∧
    t.flash.retries = s.flash.retries ∧ t.flash.rebuilds = s.flash.rebuilds := by
  obtain ⟨t, h, hf, hn⟩ := codewordRead_counts ho hx hc (r := .hard) (by simp [ladderResult?, ha]) nofun
  refine ⟨t, h, ?_, hn⟩
  rw [hf, ladderEffect]
  simp only [updateFlash_flash]
  exact (blockOf_addReads _ _ _).trans (by simp [ladderReads, ha])

include ho hx hc in
/-- A codeword that is lost fails the promotions that read it. -/
theorem codewordRead_failure (hn : neededCopies s = []) : ∃ t, exec (.codewordRead w .failure) s = .next t ∧
    ∀ c ∈ flashReaders s x w, copyOf? t c.obj c.tier = none := by
  refine ⟨_, (codewordRead_of_ladder ho hx hc rfl).trans (congrArg _ (if_pos rfl)), copyOf_failPromotions ?_ _⟩
  exact (neededCopies_congr (cells_of_allBut (by simp))).trans hn

end

/-! ## The patrol, relocation and wear -/

theorem retentionPatrol_notes {s : State} {p : PatrolFinding} (ho : s.flash.state = .online) (hb : isBlock s.flash p.block = true)
    (hu : blockUp s p.block = true) (hd : patrolDue s.flash p.block = true)
    (hl : (ladderResult? s p.block p.ladder).isSome = true) :
    kvGet? (retentionPatrolEffect p s).flash.patrolled p.block = some s.time.uptime := by
  obtain ⟨q, hq⟩ := Option.isSome_iff_exists.1 hl
  simp only [retentionPatrolEffect, ho, hb, hu, hd, hq, Bool.and_self]
  generalize hv : updateFlash (fun f => addReads p.block 2 (notePatrol p.block s.time.uptime f)) s = v
  have h0 : kvGet? v.flash.patrolled p.block = some s.time.uptime := by
    obtain ⟨-, -, -, -, e⟩ := (WorkOnly.of_moves (addReads_movesOnly p.block 2 (notePatrol p.block s.time.uptime s.flash))).counts
    rw [← hv, updateFlash_flash]
    show kvGet? (addReads _ _ _).patrolled _ = _
    rw [e]
    exact kvGet_kvPut_self _ _ _
  have h1 : kvGet? (ladderEffect p.block 1 q v).flash.patrolled p.block = some s.time.uptime := by
    obtain ⟨-, -, -, -, e⟩ := (ladderEffect_workOnly p.block 1 q v).counts
    have e0 : (readCounted q v.flash).patrolled = v.flash.patrolled := by cases q <;> rfl
    rw [e, e0, h0]
  split
  · obtain ⟨-, -, -, -, e⟩ := (updateFlash_workOnly (ladderEffect p.block 1 q v) (.of_moves (relocate_movesOnly p.block _))).counts
    rw [e, h1]
  · exact h1

theorem relocationReads_movesOnly (b : Nat) (s : State) (f : Flash) : MovesOnly f (relocationReads b s f) := by
  unfold relocationReads
  dsimp only
  split
  · exact addReadsAll_movesOnly _ _ _
  · exact mapBlock_movesOnly _ _ _

theorem relocationEnd_ends {s : State} {b k : Nat} (ho : s.flash.state = .online) (hm : (blockOf s.flash b).moving = some k)
    (hu : blockUp s b = true) : ∃ t, exec (.relocationEnd b) s = .next t ∧
      t.flash.relocations = s.flash.relocations + 1 ∧ (blockOf t.flash b).used = false ∧
      (blockOf t.flash b).moving = none ∧ t.flash.extents = remap b k s.flash.extents := by
  obtain ⟨-, -, hr, hx, -⟩ := (WorkOnly.of_moves (relocationReads_movesOnly b s s.flash)).counts
  refine ⟨_, rfl, ?_⟩
  simp only [relocationEndEffect, ho, hm, if_pos hu, updateFlash_flash]
  generalize relocationReads b s s.flash = g at hr hx
  have hb (y : Block → Block) (f : Flash) : blockOf (judgeReserve (mapBlock b y f)) b = y (blockOf f b) :=
    blockOf_mapBlock_self b y f
  exact ⟨congrArg (· + 1) hr, congrArg Block.used (hb _ _), congrArg Block.moving (hb _ _), congrArg (remap b k) hx⟩

theorem wearLevel_moves {s : State} {die b k : Nat} (ho : s.flash.state = .online)
    (hd : die < 48 * diesPerChannel s.flash.geom) (hc : channelUp s (dieChannel s.flash.geom die) = true)
    (hw : s.flash.worn = false)
    (hl : leastErased s.flash ((dieBlocks s.flash.geom die).filter fun z => !(blockOf s.flash z).bad) = some b)
    (he : s.flash.geom.endurance < 10 * (maxErases s.flash ((dieBlocks s.flash.geom die).filter fun z =>
      !(blockOf s.flash z).bad) - (blockOf s.flash b).erases))
    (hu : (blockOf s.flash b).used = true) (hm : (blockOf s.flash b).moving = none)
    (hk : drawBlock? s.flash (channelOf s.flash.geom b) none = some k) :
    ∃ t, exec (.wearLevel die) s = .next t ∧ (blockOf t.flash b).moving = some k := by
  refine ⟨_, rfl, ?_⟩
  simp only [wearLevelEffect, if_pos (And.intro ho (And.intro hd hc)), hl, if_pos he, updateFlash_flash]
  show (blockOf (relocate b s.flash) b).moving = some k
  simp only [relocate, hw, Bool.false_eq_true, if_false, beginMove, if_pos (And.intro hu hm), hk, blockOf_mapBlock_self]

theorem dieRetire_retires {s : State} {die : Nat} (ho : s.flash.state = .online)
    (hd : die < 48 * diesPerChannel s.flash.geom) (hc : channelUp s (dieChannel s.flash.geom die) = true) :
    ∃ t, exec (.dieRetire die) s = .next t ∧ die ∈ t.flash.retiredDies ∧ ∀ x ∈ s.flash.retiredDies, x ∈ t.flash.retiredDies := by
  refine ⟨_, rfl, ?_⟩
  simp only [dieRetireEffect, if_pos (And.intro ho (And.intro hd hc))]
  rw [retireDie_flash]
  split
  · next h => exact ⟨List.contains_iff_mem.1 h, fun x h => h⟩
  · show die ∈ (retireCore die s.flash).retiredDies ∧ ∀ x ∈ s.flash.retiredDies, x ∈ (retireCore die s.flash).retiredDies
    rw [retireCore_retiredDies]
    exact ⟨List.mem_cons_self, fun x => List.mem_cons_of_mem _⟩

/-! ## Programs and erases -/

/-- With no stripe that ends and none that waits, ending stripes leaves extents and stages. -/
theorem endStages_none {s : State} {ext : Nat} {which : Staged → Bool} (hq : s.flash.stageQueue = [])
    (hw : ∀ k ∈ s.flash.stages, which k = false) :
    (endStages ext which s).flash.extents = s.flash.extents ∧ (endStages ext which s).flash.stages = s.flash.stages := by
  have h1 : (s.flash.stages.filter fun g => g.ext == ext && which g) = [] :=
    List.filter_eq_nil_iff.2 fun k hk => by simp [hw k hk]
  have h2 : (s.flash.stages.filter fun g => !(g.ext == ext && which g)) = s.flash.stages :=
    List.filter_eq_self.2 fun k hk => by simp [hw k hk]
  simp only [endStages, h1, h2, hq, List.filterMap_nil, List.foldl_nil, startStages]
  exact ⟨trivial, trivial⟩

section
variable {s : State} {b : Nat} (ho : s.flash.state = .online) (hu : (blockOf s.flash b).used = true) (hc : blockUp s b = true)

include ho hu hc in
theorem nandProgramEnd_of (ok : Bool) :
    exec (.nandProgramEnd b ok) s = .next (if ok then pageProgrammed b s else growBad b s) :=
  congrArg Host.Outcome.next (if_pos ⟨ho, hu, hc⟩)

include ho hu hc in
theorem nandProgramEnd_noExtent (h : ∀ x ∈ s.flash.extents, x.sealedExt = true ∨ b ∉ x.blocks) :
    exec (.nandProgramEnd b true) s = .next s := by
  have hn : (s.flash.extents.find? fun x => !x.sealedExt && x.blocks.contains b) = none :=
    List.find?_eq_none.2 fun x hx => by obtain e | e := h x hx <;> simp [e]
  rw [nandProgramEnd_of ho hu hc, if_pos rfl, pageProgrammed, hn]

include ho hu hc in
theorem nandProgramEnd_marks {x : Extent} {g : Staged}
    (hx : s.flash.extents.find? (fun x => !x.sealedExt && x.blocks.contains b) = some x)
    (hg : s.flash.stages.find? (awaitsProgram s.flash x b) = some g) (hq : s.flash.stageQueue = [])
    (hk : ∀ k ∈ s.flash.stages, k.programmed.length < 47) : ∃ t, exec (.nandProgramEnd b true) s = .next t ∧
      t.flash.extents = s.flash.extents ∧ t.flash.stages = s.flash.stages.map fun k =>
        if awaitsProgram s.flash x b k && k.stripe / 4 == g.stripe / 4 then
          { k with programmed := x.blocks.findIdx (fun c => c == b) % 48 :: k.programmed } else k := by
  refine ⟨_, (nandProgramEnd_of ho hu hc true).trans (congrArg _ (if_pos rfl)), ?_⟩
  simp only [pageProgrammed, hx, hg]
  refine endStages_none (s := { s with flash := { s.flash with stages := s.flash.stages.map _ } }) hq fun k hm => ?_
  obtain ⟨y, hy, rfl⟩ := List.mem_map.1 hm
  have hlen := hk y hy
  rw [beq_eq_false_iff_ne]
  split
  · rw [List.length_cons]
    omega
  · omega

end

theorem nandEraseEnd_good {s : State} {b : Nat} (ho : s.flash.state = .online) (he : (blockOf s.flash b).erasing = true)
    (hc : blockUp s b = true) : ∃ t, exec (.nandEraseEnd b true) s = .next t ∧ (blockOf t.flash b).erasing = false ∧
      (blockOf t.flash b).erases = (blockOf s.flash b).erases + 1 ∧ (blockOf t.flash b).reads = 0 := by
  refine ⟨_, congrArg Host.Outcome.next (if_pos ⟨ho, he, hc⟩), ?_⟩
  rw [if_pos rfl, updateFlash_flash]
  show (blockOf (retryMoves _ _) b).erasing = _ ∧ (blockOf (retryMoves _ _) b).erases = _ ∧ (blockOf (retryMoves _ _) b).reads = _
  generalize hf : mapBlock b _ s.flash = f
  obtain ⟨h1, h2, h3⟩ := (retryMoves_blocksMoved (channelOf s.flash.geom b) f).erased b
  rw [h1, h2, h3, ← hf, blockOf_mapBlock_self]
  exact ⟨rfl, rfl, rfl⟩

theorem nandEraseEnd_bad {s : State} {b : Nat} (ho : s.flash.state = .online) (he : (blockOf s.flash b).erasing = true)
    (hc : blockUp s b = true) : ∃ t, exec (.nandEraseEnd b false) s = .next t ∧ (blockOf t.flash b).bad = true := by
  refine ⟨_, congrArg Host.Outcome.next (if_pos ⟨ho, he, hc⟩), ?_⟩
  rw [if_neg Bool.false_ne_true]
  exact growBad_bad b _

/-- Settles O54. -/
theorem flashBackgroundWork : Obligations.FlashBackgroundWork := by
  unfold Obligations.FlashBackgroundWork
  intro s b ho
  refine ⟨?_, congrArg Host.Outcome.next (if_pos ho),
    fun p hb hu hd hl => ⟨_, rfl, retentionPatrol_notes ho hb hu hd hl⟩, fun k hm hu => relocationEnd_ends ho hm hu,
    fun die k hd hc hw hl he hu hm hk => wearLevel_moves ho hd hc hw hl he hu hm hk,
    fun die hd hc => dieRetire_retires ho hd hc, fun hu hc => ⟨nandProgramEnd_noExtent ho hu hc,
      fun x g hx hg hq hk => nandProgramEnd_marks ho hu hc hx hg hq hk, fun _ => ⟨_, nandProgramEnd_of ho hu hc false, ?_⟩⟩,
    fun he hc => ⟨nandEraseEnd_good ho he hc, nandEraseEnd_bad ho he hc⟩⟩
  · rintro x w rfl hx hc
    refine ⟨codewordRead_hard ho hx hc, fun n ha h0 hn => ?_, fun ha => ?_, fun second => ⟨fun hl => ?_, fun hl => ?_⟩,
      codewordRead_failure ho hx hc⟩
    · have hq : ladderResult? s w.block (.retry n) = some (.retry n) :=
        if_neg (by simp only [ha, Bool.false_eq_true, false_or]; omega)
      obtain ⟨t, h, -, hr, hb⟩ := codewordRead_counts ho hx hc hq nofun
      exact ⟨t, h, hr, hb⟩
    · obtain ⟨t, h, -, hr, -⟩ := codewordRead_counts ho hx hc (r := .soft) (by simp [ladderResult?, ha]) nofun
      exact ⟨t, h, hr⟩
    · obtain ⟨t, h, -, hr, hb⟩ := codewordRead_counts ho hx hc (r := .rebuild second) (if_pos hl) nofun
      exact ⟨t, h, hb, hr⟩
    · rw [codewordRead_of_ladder ho hx hc (r := .rebuild second) (if_neg (by omega)),
        codewordRead_of_ladder ho hx hc (r := .failure) rfl]
  · rw [if_neg Bool.false_ne_true]
    exact growBad_bad b s

end Sys2Proof.Claims
end

section
/-! SUPPORT. The counterexample to O44: an atomic whose own bytes the device may access, but not the whole of their line. -/

namespace Sys2Proof.Machine

/-- An ATOMIC of this device on 8 bytes at the start of window 0, on its way by loopback. -/
def atomicOnWindow : Packet :=
  sealPacket { dst := 0, src := 0, job := 0, vcop := 0x68, flags := 0, addr := 0, length := 24, arr := 0, psn := 0, hcrc := 0
               payload := List.replicate 24 0 }

/-- A job is open with a window for atomics over the first lines of host-die memory, and the host die does not back bytes 8 to 15:
nothing in the premises says that the window was taken by WIN_SET, which allows none there. -/
def lineNotBacked : State :=
  { State.reset with
    job := { State.reset.job with opened := true, id := 0 }
    unbacked := [(hostBase + 8, 8)]
    fab := { State.reset.fab with hasActive := true }
    rem := { State.reset.rem with
      loop := [atomicOnWindow]
      windows := [(0, { Window.none with flags := 0x84, base := hostBase, size := 128 })] } }

/-- Whether an ATOMIC_RESP is on its way in the state that a command leaves. -/
def atomicAnswered (o : Host.Outcome State Fault Refusal) : Option Bool :=
  match o with
  | .next t => some ((t.rem.loop ++ t.rem.tx.map (·.packet)).any fun q => opOf q == 0x09)
  | _ => none

/-- The line is to be read from memory, which R246 forbids for its unbacked bytes: the atomic is not applied. -/
theorem lineNotBacked_silent : atomicAnswered (exec (.atomic none atomicOnWindow) lineNotBacked) = some false := by
  decide +kernel

end Sys2Proof.Machine

namespace Sys2Proof.Claims

open Sys2Proof.Machine

/-- The atomic arrives, passes every check of R344, and its answer has room. -/
theorem atomicOnWindow_served : Arrives 0x08 false none atomicOnWindow lineNotBacked ∧ Served atomicOnWindow lineNotBacked ∧
    answerRoom lineNotBacked none = true := by decide +kernel

/-- It is not discarded, the store of kept results has room, and its target lies in one line, for which there is room. -/
theorem atomicOnWindow_inLine : discarding lineNotBacked atomicOnWindow = false ∧ keptCount lineNotBacked < 262144 ∧
    oneLine (requestAddr lineNotBacked atomicOnWindow) (requestLen atomicOnWindow) = true ∧
    lineRoom lineNotBacked (requestAddr lineNotBacked atomicOnWindow / 64) = true := by decide +kernel

/-- Refutes O44: an atomic on a line that is not held reads the whole line from memory, and Served says only of its own bytes that
the device may access them. -/
theorem not_requestsAreServedRefusedOrRepeated : ¬ Obligations.RequestsAreServedRefusedOrRepeated := by
  unfold Obligations.RequestsAreServedRefusedOrRepeated
  intro h
  obtain ⟨harr, hserved, hroom⟩ := atomicOnWindow_served
  obtain ⟨hdisc, hkept, hline, hlineRoom⟩ := atomicOnWindow_inLine
  obtain ⟨-, -, -, hatomic, -⟩ := (h lineNotBacked none atomicOnWindow rfl).1 hserved hroom
  obtain ⟨t, ht, ⟨q, hq, -, hop, -⟩, -⟩ := hatomic harr hdisc hkept hline hlineRoom
  have hsilent := lineNotBacked_silent
  rw [ht] at hsilent
  have hany : ((t.rem.loop ++ t.rem.tx.map (·.packet)).any fun q => opOf q == 0x09) = true :=
    List.any_eq_true.2 ⟨q, hq, by rw [hop]; rfl⟩
  rw [show atomicAnswered (.next t) = some ((t.rem.loop ++ t.rem.tx.map (·.packet)).any fun q => opOf q == 0x09) from rfl,
    hany] at hsilent
  cases hsilent

end Sys2Proof.Claims
end

section
/-! SUPPORT. Arrivals, answers and the timers of remote memory (R326, R343, R350 to R357): what an arrival leaves of the state, that
an answer is on its way once it is made, and that faults and landings only add packets to those that wait. -/

namespace Sys2Proof.Machine

/-! ## Packets that wait -/

/-- Of remote memory only packets that wait to leave have been added. -/
def TxGrows (s t : State) : Prop := ∃ l, t.rem = { s.rem with tx := s.rem.tx ++ l }

namespace TxGrows
variable {s t u : State}

theorem refl (s : State) : TxGrows s s := ⟨[], by simp⟩

theorem of_eq (h : t.rem = s.rem) : TxGrows s t := ⟨[], by simp [h]⟩

theorem trans (h : TxGrows s t) (g : TxGrows t u) : TxGrows s u := by
  obtain ⟨l, h⟩ := h
  obtain ⟨m, g⟩ := g
  exact ⟨l ++ m, by rw [g, h, List.append_assoc]⟩

theorem foldl {α : Type} {f : State → α → State} (h : ∀ t a, TxGrows t (f t a)) (l : List α) (s : State) :
    TxGrows s (l.foldl f s) := by
  induction l generalizing s with
  | nil => exact refl s
  | cons a r ih => exact (h s a).trans (ih _)

theorem lanes (h : TxGrows s t) : t.rem.lanes = s.rem.lanes := by obtain ⟨_, h⟩ := h; rw [h]
theorem lines (h : TxGrows s t) : t.rem.lines = s.rem.lines := by obtain ⟨_, h⟩ := h; rw [h]
theorem requests (h : TxGrows s t) : t.rem.requests = s.rem.requests := by obtain ⟨_, h⟩ := h; rw [h]
theorem firstRefuse (h : TxGrows s t) : t.rem.firstRefuse = s.rem.firstRefuse := by obtain ⟨_, h⟩ := h; rw [h]

end TxGrows

theorem queueControl_txGrows (port : Nat) (p : Packet) (s : State) : TxGrows s (queueControl port p s) := by
  unfold queueControl
  split
  · exact .refl s
  · exact ⟨_, rfl⟩

theorem queueControls_txGrows (p : Packet) (l : List Nat) (s : State) : TxGrows s (queueControls p l s) := by
  induction l generalizing s with
  | nil => exact .refl s
  | cons port r ih => exact (queueControl_txGrows port p s).trans (ih _)

/-- A step fault sounds the Gong. -/
theorem stepFault_txGrows (cause : Nat) (s : State) : TxGrows s (stepFault cause s) := by
  unfold stepFault
  split
  · exact .refl s
  · split
    · exact .refl s
    · exact .trans (.of_eq rfl) (queueControls_txGrows _ _ _)

theorem landCount_txGrows (cl ctr amount step : Nat) (s : State) : TxGrows s (landCount cl ctr amount step s) := by
  have noted (u : State) : TxGrows u (noteLanding cl u) :=
    .of_eq ((progress_keeps (k := [.ctl, .dbg]) _ rfl).2 ((strobe_keeps (k := [.ctl, .dbg]) _ _ rfl).2
      ((perfAdd_keeps (k := [.ctl, .dbg]) _ _ _ _ rfl).2 (.refl _ u))) |>.rem_eq rfl)
  unfold landCount
  split
  · exact .refl s
  · exact .trans (.of_eq rfl) (noted _)
  · refine .trans ?_ (noted _)
    unfold arrAdd faultIf
    dsimp only
    split
    · exact .trans (.of_eq rfl) (stepFault_txGrows _ _)
    · exact .of_eq rfl

/-! ## Answers -/

theorem fieldOf_append {a : List Byte} {k : Nat} (h : a.length = k) (b : List Byte) (n : Nat) :
    fieldOf (a ++ b) k n = fieldOf b 0 n := by
  rw [fieldOf, List.drop_left' h, fieldOf, List.drop_zero]

theorem fieldOf_natLe (n v : Nat) (b : List Byte) : fieldOf (natLe n v ++ b) 0 n = v % 256 ^ n := by
  rw [fieldOf, List.drop_zero, List.take_left' (length_natLe n v), leNat_natLe]

theorem responseHead_length (psn : Word) (status reason kind : Nat) (cum : Word) :
    (responseHead psn status reason kind cum).length = 16 := by
  simp [responseHead]

theorem responseHead_psn (psn : Word) (status reason kind : Nat) (cum : Word) (data : List Byte) :
    fieldOf (responseHead psn status reason kind cum ++ data) 0 4 = psn.toNat := by
  simp only [responseHead, List.append_assoc]
  rw [fieldOf_natLe]
  omega

theorem responseHead_kind (psn : Word) (status reason : Nat) {kind : Nat} (h : kind < 256) (cum : Word) (data : List Byte) :
    fieldOf (responseHead psn status reason kind cum ++ data) 7 1 = kind := by
  have e : responseHead psn status reason kind cum ++ data = (natLe 4 psn.toNat ++ natLe 2 status ++ natLe 1 reason) ++
      (natLe 1 kind ++ (natLe 4 cum.toNat ++ natLe 4 0 ++ data)) := by
    simp only [responseHead, List.append_assoc]
  rw [e, fieldOf_append (by simp), fieldOf_natLe, Nat.pow_one, Nat.mod_eq_of_lt h]

/-- The packet of an answer. -/
def answerPacket (dst op vc : Nat) (psn : Word) (status reason kind : Nat) (data : List Byte) (s : State) : Packet :=
  packetOf s { dst := dst, op := op, vc := vc, unit := false, arrEn := false, addr := 0, arr := 0
               payload := responseHead psn status reason kind (cumOf (pairOf s dst).doneTo) ++ data } 0

theorem answerPacket_payload (dst op vc : Nat) (psn : Word) (status reason kind : Nat) (data : List Byte) (s : State) :
    (answerPacket dst op vc psn status reason kind data s).payload =
      responseHead psn status reason kind (cumOf (pairOf s dst).doneTo) ++ data := rfl

theorem sendAnswer_eq (source dst op vc : Nat) (psn : Word) (status reason kind : Nat) (data : List Byte) (s : State) :
    sendAnswer source dst op vc psn status reason kind data s =
      dispatchPacket (answerPacket dst op vc psn status reason kind data s) false source s := rfl

theorem opOf_answerPacket {op : Nat} (h : op < 32) (dst vc : Nat) (psn : Word) (status reason kind : Nat) (data : List Byte)
    (s : State) : opOf (answerPacket dst op vc psn status reason kind data s) = op := by
  show (BitVec.ofNat 8 (32 * vc + op)).toNat % 32 = op
  rw [BitVec.toNat_ofNat]
  omega

open Sys2Proof.Claims in
/-- An answer is on its way once it is made. -/
theorem sendAnswer_answers (source dst : Nat) {op vc kind : Nat} (hop : op < 32) (hk : kind < 256) (psn : Word)
    (status reason : Nat) (data : List Byte) (s : State) :
    Answers dst op psn kind data (sendAnswer source dst op vc psn status reason kind data s) := by
  rw [sendAnswer_eq]
  obtain ⟨-, -, -, -, -, hway⟩ :=
    dispatchPacket_posts (answerPacket dst op vc psn status reason kind data s) false source s
  refine ⟨answerPacket dst op vc psn status reason kind data s, List.mem_append.2 ?_, rfl, opOf_answerPacket hop .., ?_, ?_, ?_,
    packetOf_hcrc s _ 0⟩
  · split at hway
    · exact .inl hway
    · obtain ⟨x, hx, hp⟩ := hway
      exact .inr (List.mem_map.2 ⟨x, hx, hp⟩)
  · rw [reqPsn, answerPacket_payload, responseHead_psn, BitVec.ofNat_toNat, BitVec.setWidth_eq]
  · rw [answerPacket_payload, responseHead_kind psn status reason hk]
  · rw [answerPacket_payload, List.drop_left' (responseHead_length _ _ _ _ _)]

open Sys2Proof.Claims in
/-- An answer stays on its way while packets are added. -/
theorem Answers.grows {dst op kind : Nat} {psn : Word} {data : List Byte} {s t : State} (h : Answers dst op psn kind data s)
    (g : TxGrows s t) : Answers dst op psn kind data t := by
  obtain ⟨q, hq, h⟩ := h
  obtain ⟨l, g⟩ := g
  refine ⟨q, ?_, h⟩
  rw [g, List.map_append, ← List.append_assoc]
  exact List.mem_append_left _ hq

/-! ## Arrivals -/

/-- What the state in which an arrived packet is handled has of the one before its arrival: no more than the buffer of its port,
and by loopback the requests that it carries, their pair, and a count, have changed. -/
structure Came (f : Option Nat) (p : Packet) (s v : State) : Prop where
  keeps : Keeps [.rem, .fab, .errs] s v
  counts : CountsOnly s v
  ports : PortsOnly s v
  rem : ∃ rq ps ar lp, v.rem = { s.rem with requests := rq, pairs := ps, arrival := ar, loop := lp }
  pairs : ∀ d, ∃ c i, pairOf v d = { pairOf s d with sentCum := c, inRun := i }
  requests : ∃ g : Request → Request, v.rem.requests = s.rem.requests.map g ∧
    ∀ r, (g r).packet = r.packet ∧ (opOf p ≠ opOf r.packet → g r = r)
  ported : f.isSome = true → v.rem.requests = s.rem.requests

/-- A request as a packet that leaves by loopback leaves it. -/
def leftBy (p : Packet) (r : Request) : Request :=
  if carries p r then { r with sent := r.sent + 1, timer := 0, port := none } else r

/-- A pair put for another with only what was sent changed. -/
theorem pairOf_put {s : State} {d c : Nat} {i : Bool} (e : Nat) :
    ∃ c' i', pairOf (setPair d { pairOf s d with sentCum := c, inRun := i } s) e = { pairOf s e with sentCum := c', inRun := i' } := by
  by_cases h : e = d
  · subst h
    exact ⟨c, i, pairOf_setPair _ _ _⟩
  · exact ⟨_, _, pairOf_setPair_ne _ _ h⟩

/-- The count of a request that leaves again. -/
def countedAgain (p : Packet) (s : State) : State :=
  if (s.rem.requests.any fun r => carries p r && decide (0 < r.sent)) = true then addCount tcE2eRetries 1 s else s

theorem countedAgain_came (p : Packet) (s : State) : (countedAgain p s).rem = s.rem ∧ CountsOnly s (countedAgain p s) := by
  unfold countedAgain
  split
  · exact ⟨rfl, rfl⟩
  · exact ⟨rfl, .refl s⟩

/-- The requests that a packet carries leave with it. -/
def withLeft (p : Packet) (s : State) : State := { s with rem := { s.rem with requests := s.rem.requests.map (leftBy p) } }

theorem pairOf_withLeft {p : Packet} {s w : State} (h : w.rem = s.rem) (d : Nat) : pairOf (withLeft p w) d = pairOf s d := by
  rw [pairOf, pairOf, withLeft, h]

theorem noteLeft_eq (p : Packet) (s : State) : noteLeft none p s =
    if s.rem.requests.any (carries p) = true then
      setPair (p.dst.toNat % 2 ^ 20) { pairOf s (p.dst.toNat % 2 ^ 20) with
        inRun := (pairOf s (p.dst.toNat % 2 ^ 20)).inRun || stepActive (countedAgain p s) }
        (withLeft p (countedAgain p s))
    else if ([0x05, 0x09, 0x0C, 0x0D, 0x0E].contains (opOf p) && p.src.toNat % 2 ^ 20 == selfId s) = true then
      setPair (p.dst.toNat % 2 ^ 20) { pairOf s (p.dst.toNat % 2 ^ 20) with
        sentCum := countOfCum (pairOf s (p.dst.toNat % 2 ^ 20)) (headCum p) } s
    else s := rfl

theorem noteLeft_rem (p : Packet) (s : State) : (∃ rq ps, (noteLeft none p s).rem = { s.rem with requests := rq, pairs := ps }) ∧
    CountsOnly s (noteLeft none p s) ∧
    ∀ d, ∃ c i, pairOf (noteLeft none p s) d = { pairOf s d with sentCum := c, inRun := i } := by
  obtain ⟨hr, hc⟩ := countedAgain_came p s
  rw [noteLeft_eq]
  split
  · generalize countedAgain p s = w at hr hc
    refine ⟨⟨_, _, by rw [setPair, withLeft, hr]⟩, hc, fun d => ?_⟩
    rw [← pairOf_withLeft (p := p) hr d, ← pairOf_withLeft (p := p) hr (p.dst.toNat % 2 ^ 20)]
    exact pairOf_put d
  · split
    · exact ⟨⟨_, _, rfl⟩, rfl, pairOf_put⟩
    · exact ⟨⟨_, _, rfl⟩, .refl s, fun d => ⟨_, _, rfl⟩⟩

theorem noteLeft_came (p : Packet) (s : State) : Came none p s (noteLeft none p s) := by
  have hk : Keeps [.rem, .errs] s (noteLeft none p s) := (noteLeft_keeps _ _ _ rfl).2 (.refl _ s)
  obtain ⟨⟨rq, ps, hr⟩, hc, hp⟩ := noteLeft_rem p s
  refine ⟨hk.mono rfl, hc, .of_eq (hk.fab_eq rfl), ⟨rq, ps, _, _, hr⟩, hp, ⟨leftBy p, noteLeft_requests none p s, fun r => ⟨?_, fun hn =>
    if_neg fun hc => hn (opOf_eq_of_carries hc)⟩⟩, fun h => absurd h Bool.false_ne_true⟩
  unfold leftBy
  split <;> rfl

theorem came_of_arrive {f : Option Nat} {p : Packet} {s u : State} (e : arrive? f p s = some u) :
    Came f p s (leaveBuffer f p u) := by
  unfold arrive? at e
  cases f with
  | some port =>
    obtain ⟨-, e⟩ := Option.ite_none_right_eq_some.1 e
    cases e
    show Came (some port) p s (landed port p s)
    have hk := landed_keeps port p s
    have hr := landed_rem port p s
    have hp := landed_portsOnly port p s
    generalize landed port p s = v at hk hr hp
    exact ⟨hk.mono rfl, .of_eq (hk.errs_eq rfl), hp, ⟨_, _, _, _, hr⟩, fun d => ⟨_, _, by rw [pairOf, hr]; rfl⟩,
      ⟨id, by rw [List.map_id, hr], fun r => ⟨rfl, fun _ => rfl⟩⟩, fun _ => by rw [hr]⟩
  | none =>
    obtain ⟨-, e⟩ := Option.ite_none_right_eq_some.1 e
    cases e
    generalize hw : ({ s with rem := { s.rem with loop := _, arrival := none } } : State) = w
    obtain ⟨hk, hc, hp, ⟨rq, ps, ar, lp, hr⟩, hpairs, hreq, -⟩ := noteLeft_came p w
    subst hw
    exact ⟨.trans (by simp [within]) hk, hc, hp, ⟨rq, ps, ar, lp, hr⟩, hpairs, hreq, fun h => absurd h Bool.false_ne_true⟩

/-- A packet that arrives and need not wait is handled in a state in which little else has changed. -/
theorem receive_came {op : Nat} {l : Bool} {f : Option Nat} {p : Packet} {s : State} (a : Claims.Arrives op l f p s) :
    ∃ v, Came f p s v ∧ ∀ k, receive op l f p k s = k v := by
  obtain ⟨u, e, h⟩ := receive_of_arrives a
  exact ⟨_, came_of_arrive e, h⟩

namespace Came
variable {f : Option Nat} {p : Packet} {s v : State} (h : Came f p s v)
include h

theorem lanes : v.rem.lanes = s.rem.lanes := by obtain ⟨_, _, _, _, e⟩ := h.rem; rw [e]
theorem lines : v.rem.lines = s.rem.lines := by obtain ⟨_, _, _, _, e⟩ := h.rem; rw [e]
theorem firstRefuse : v.rem.firstRefuse = s.rem.firstRefuse := by obtain ⟨_, _, _, _, e⟩ := h.rem; rw [e]
theorem tx : v.rem.tx = s.rem.tx := by obtain ⟨_, _, _, _, e⟩ := h.rem; rw [e]
theorem probes : v.fab.probes = s.fab.probes := by
  have e : ({ v.fab with ports := [] } : Fabric) = { s.fab with ports := [] } := h.ports
  have := congrArg Fabric.probes e
  exact this
theorem self : selfId v = selfId s := selfId_portsOnly h.ports

end Came

/-! ## Combining lines -/

/-- With no request in its lane nothing is taken. -/
theorem settleLanes_empty {s : State} (h : s.rem.lanes = []) : settleLanes s = s := by
  simp [settleLanes, noteKeptFull, takeLanes, h]

theorem countedLandings_txGrows (l : List (Nat × Nat × Nat × Bool)) (s : State) :
    TxGrows s (l.foldl (fun t x => landCount x.1 x.2.1 x.2.2.1 (if x.2.2.2 then 1 else 0) t) s) :=
  .foldl (fun t x => landCount_txGrows _ _ _ _ t) l s

theorem countedLandings_mem (l : List (Nat × Nat × Nat × Bool)) (s : State) :
    (l.foldl (fun t x => landCount x.1 x.2.1 x.2.2.1 (if x.2.2.2 then 1 else 0) t) s).mem = s.mem :=
  mem_of_allBut (by simp)

/-- A line goes back to memory and is free. -/
theorem writeLine_writes (l : Line) (s : State) : (writeLine l s).mem = memWrite s.mem (64 * l.line) l.data ∧
    (writeLine l s).rem.lines = (s.rem.lines.filter fun x => x.line != l.line) ∧ (writeLine l s).rem.lanes = s.rem.lanes := by
  have g := countedLandings_txGrows l.landings { putBytes (64 * l.line) l.data s with
    rem := { s.rem with lines := s.rem.lines.filter fun x => x.line != l.line } }
  exact ⟨countedLandings_mem _ _, g.lines, g.lanes⟩

end Sys2Proof.Machine

namespace Sys2Proof.Claims

open Sys2Proof.Machine

theorem lineWriteBack_writes {s : State} {l : Line} (hl : s.rem.lanes = [])
    (hf : (s.rem.lines.find? fun z => z.line == l.line) = some l) : ∃ t, exec (.lineWriteBack l.line) s = .next t ∧
      t.mem = memWrite s.mem (64 * l.line) l.data ∧ ∀ z ∈ t.rem.lines, z.line ≠ l.line := by
  obtain ⟨hm, hlines, hlanes⟩ := writeLine_writes l s
  have ha : lineAwaited s l.line = false := by simp [lineAwaited, hl]
  have he : lineWriteBackEffect l.line s = writeLine l s := by simp [lineWriteBackEffect, hf, ha]
  refine ⟨_, congrArg Host.Outcome.next ((congrArg settleLanes he).trans (settleLanes_empty (hlanes.trans hl))), hm, fun z hz => ?_⟩
  rw [hlines] at hz
  simpa using (List.mem_filter.1 hz).2

theorem lineWriteBack_awaited {s : State} {line : Nat} (h : lineAwaited s line = true) :
    exec (.lineWriteBack line) s = .next (settleLanes s) := by
  refine congrArg (Host.Outcome.next ∘ settleLanes) ?_
  unfold lineWriteBackEffect
  split
  · exact if_pos h
  · rfl

/-! ## Request timers -/

/-- A request whose timer starts anew. -/
def timerReset (r x : Request) : Request :=
  if x.dst == r.dst && x.packet.psn == r.packet.psn then { x with timer := 0 } else x

section
variable {s : State} {r : Request}
  (hf : (s.rem.requests.find? fun z => z.dst == r.dst && z.packet.psn == r.packet.psn) = some r) (ht : 62500 ≤ r.timer)

include hf ht in
theorem e2eRetry_expired : exec (.e2eRetry r.dst r.packet.psn) s = .next (
    if ofRun s r then
      if 8 ≤ r.sent then stepFault fcRemoteTimeout (dropRequest r s)
      else dispatchPacket r.packet true (exchangeSource r.cluster)
        { s with rem := { s.rem with requests := s.rem.requests.map (timerReset r) } }
    else dropRequest r s) := by
  show Host.Outcome.next (e2eRetryEffect r.dst r.packet.psn s) = _
  unfold e2eRetryEffect
  rw [hf]
  exact congrArg Host.Outcome.next (if_pos ht)

include hf ht in
theorem e2eRetry_repeats (ho : ofRun s r = true) (h8 : r.sent < 8) : ∃ t, exec (.e2eRetry r.dst r.packet.psn) s = .next t ∧
    tblGet t.errs.counts tcE2eRetries = tblGet s.errs.counts tcE2eRetries ∧
    (r.packet ∈ t.rem.loop ∨ ∃ x ∈ t.rem.tx, x.packet = r.packet) ∧ t.rem.requests.length = s.rem.requests.length := by
  refine ⟨_, (e2eRetry_expired hf ht).trans (congrArg _ ((if_pos ho).trans (if_neg (by omega)))), ?_⟩
  generalize hu : ({ s with rem := { s.rem with requests := s.rem.requests.map (timerReset r) } } : State) = u
  obtain ⟨-, hr, -, -, -, hway⟩ := dispatchPacket_posts r.packet true (exchangeSource r.cluster) u
  have hk : Keeps [.rem] u (dispatchPacket r.packet true (exchangeSource r.cluster) u) :=
    (dispatchPacket_keeps _ _ _ _ rfl).2 (.refl _ u)
  refine ⟨by rw [hk.errs_eq rfl, ← hu], ?_, by rw [hr, ← hu, List.length_map]⟩
  split at hway
  · exact .inl hway
  · exact .inr hway

include hf ht in
theorem e2eRetry_timesOut (ho : ofRun s r = true) (h8 : 8 ≤ r.sent) :
    ∃ t, exec (.e2eRetry r.dst r.packet.psn) s = .next t ∧ Stopped 0x13 s t := by
  have ha : stepActive (dropRequest r s) = true := by
    unfold ofRun at ho
    exact (Bool.and_eq_true_iff.1 ho).1
  exact ⟨_, (e2eRetry_expired hf ht).trans (congrArg _ ((if_pos ho).trans (if_pos h8))), runFault_stepFault ha _⟩

theorem dropRequest_gone (r : Request) (s : State) : ∀ z ∈ (dropRequest r s).rem.requests,
    ¬ (z.dst = r.dst ∧ z.packet.psn = r.packet.psn) := by
  intro z hz ⟨hd, hp⟩
  have := (List.mem_filter.1 hz).2
  simp [hd, hp] at this

include hf ht in
theorem e2eRetry_abandons (ho : ofRun s r = false) : ∃ t, exec (.e2eRetry r.dst r.packet.psn) s = .next t ∧ Keeps [.rem] s t ∧
    ∀ z ∈ t.rem.requests, ¬ (z.dst = r.dst ∧ z.packet.psn = r.packet.psn) :=
  ⟨_, (e2eRetry_expired hf ht).trans (congrArg _ (if_neg (by simp [ho]))), by simp [within, dropRequest], dropRequest_gone r s⟩

end

/-! ## CUM and probes -/

theorem cumAck_sends {s : State} {dst : Nat} (h : (pairOf s dst).doneTo ≠ (pairOf s dst).sentCum) :
    ∃ t, exec (.cumAck dst) s = .next t ∧ Keeps [.rem] s t ∧ Answers dst 0x0D 0 1 [] t :=
  ⟨_, congrArg Host.Outcome.next (if_neg h), (sendCum_keeps _ _ rfl).2 (.refl _ s),
    sendAnswer_answers 147 dst (by decide) (by decide) 0 0 0 [] s⟩

theorem probe_noted {s : State} {f : Option Nat} {p : Packet} (a : Arrives 0x13 false f p s) :
    ∃ t, exec (.probe f p) s = .next t ∧
      t.fab.probes = (srcOf p, s.time.beat - fieldOf p.payload Config.probeStampAt 8) :: s.fab.probes := by
  obtain ⟨v, hc, hr⟩ := receive_came a
  refine ⟨_, congrArg Host.Outcome.next (hr _), ?_⟩
  have hp : v.fab.probes = s.fab.probes := hc.probes
  show (srcOf p, v.time.beat - _) :: v.fab.probes = _
  rw [hp, hc.keeps.time_eq rfl]

/-- Settles O49. -/
theorem remoteTimersAndProbes : Obligations.RemoteTimersAndProbes := by
  unfold Obligations.RemoteTimersAndProbes
  exact fun s => ⟨fun l hl hf => lineWriteBack_writes hl hf, fun line h => lineWriteBack_awaited h,
    fun r hf ht => ⟨e2eRetry_repeats hf ht, e2eRetry_timesOut hf ht, e2eRetry_abandons hf ht⟩, fun dst h => cumAck_sends h,
    fun f p a => probe_noted a⟩

end Sys2Proof.Claims
end

section
/-! SUPPORT. Answers as they arrive (R343, R345, R351, R353): the request that an answer ends is the one it answered before its
arrival, and what its handler finds. -/

namespace Sys2Proof.Machine

/-! ## The request that an answer ends -/

theorem accessOk_counts {s t : State} (h : CountsOnly s t) (g : t.unbacked = s.unbacked) (a n : Nat) :
    accessOk t a n = accessOk s a n := by
  have hu : t.errs.unit = s.errs.unit := by have := congrArg Errs.unit h; exact this
  have hm : t.errs.mapUp = s.errs.mapUp := by have := congrArg Errs.mapUp h; exact this
  simp only [accessOk, cellEnabled, hostBacked, hu, hm, g]

/-- What an answer asks of the request that it ends. -/
def answers (p : Packet) (ops : List Nat) (r : Request) : Bool :=
  r.dst == srcOf p && (r.packet.psn == reqPsn p && (ops.contains (opOf r.packet) && decide (0 < r.sent)))

theorem answered_eq (s : State) (p : Packet) (ops : List Nat) : answered? s p ops =
    if p.job = s.job.id ∧ s.job.opened = true then s.rem.requests.find? (answers p ops) else none := rfl

theorem contains_of_answers {p : Packet} {ops : List Nat} {r : Request} (h : answers p ops r = true) : opOf r.packet ∈ ops := by
  simp only [answers, Bool.and_eq_true] at h
  obtain ⟨-, -, h, -⟩ := h
  exact List.contains_iff_mem.1 h

/-- An arrival changes no request that a response of its operation answers. -/
theorem Came.answered {f : Option Nat} {p : Packet} {s v : State} (h : Came f p s v) {ops : List Nat} (n : opOf p ∉ ops) :
    answered? v p ops = answered? s p ops := by
  obtain ⟨g, hr, hg⟩ := h.requests
  have none_of (r : Request) (e : opOf r.packet = opOf p) : answers p ops r = false :=
    Bool.eq_false_iff.2 fun q => n (e ▸ contains_of_answers q)
  have same (r : Request) : answers p ops (g r) = answers p ops r := by
    obtain ⟨hp, hk⟩ := hg r
    by_cases e : opOf p = opOf r.packet
    · rw [none_of (g r) (by rw [hp, e]), none_of r e.symm]
    · rw [hk e]
  rw [answered_eq, answered_eq, h.keeps.job_eq rfl, hr, List.find?_map]
  have hfind : s.rem.requests.find? (answers p ops ∘ g) = s.rem.requests.find? (answers p ops) :=
    congrArg (fun q => s.rem.requests.find? q) (funext same)
  rw [hfind]
  split
  · cases hf : s.rem.requests.find? (answers p ops) with
    | none => rfl
    | some r =>
      have ha := contains_of_answers (List.find?_some hf)
      rw [Option.map_some, (hg r).2 fun e => n (e ▸ ha)]
  · rfl

/-- The request has ended in a state that differs little from the one before its answer arrived. -/
structure Ended (r : Request) (s w : State) : Prop where
  keeps : Keeps [.rem, .fab, .errs] s w
  counts : CountsOnly s w
  self : selfId w = selfId s
  lanes : w.rem.lanes = s.rem.lanes
  firstRefuse : w.rem.firstRefuse = s.rem.firstRefuse
  gone : ∀ x ∈ w.rem.requests, ¬ (x.dst = r.dst ∧ x.packet.psn = r.packet.psn)

theorem takeCum_rem (d : Nat) (c : Word) (s : State) : ∃ ps, (takeCum d c s).rem = { s.rem with pairs := ps } := by
  unfold takeCum
  dsimp only
  split <;> exact ⟨_, rfl⟩

theorem ended_of_came {f : Option Nat} {p : Packet} {s v : State} (h : Came f p s v) (r : Request) (d : Nat) (c : Word) :
    Ended r s (endRequest r (takeCum d c v)) := by
  have hk : Keeps [.rem] v (takeCum d c v) := (takeCum_keeps _ _ _ rfl).2 (.refl _ v)
  obtain ⟨ps, hr⟩ := takeCum_rem d c v
  generalize takeCum d c v = u at hk hr
  have he : Keeps [.rem] u (endRequest r u) := (endRequest_keeps _ _ rfl).2 (.refl _ u)
  have ke : Keeps [.rem] v (endRequest r u) := hk.trans he
  refine ⟨h.keeps.trans (ke.mono rfl), h.counts.trans (.of_eq (ke.errs_eq rfl)), (selfId_congr (ke.fab_eq rfl)).trans h.self, ?_, ?_,
    ?_⟩
  · exact (congrArg Remote.lanes hr).trans h.lanes
  · exact (congrArg Remote.firstRefuse hr).trans h.firstRefuse
  · exact Claims.dropRequest_gone r u

open Sys2Proof.Claims in
/-- An answer that finds its request is handled once that has ended. -/
theorem answer_handled {op : Nat} {f : Option Nat} {p : Packet} {s : State} {ops : List Nat} {r : Request}
    {g : Request → State → State} (a : Arrives op false f p s) (n : op ∉ ops) (ha : answered? s p ops = some r)
    (hl : s.rem.lanes = []) (hg : ∀ w, (g r w).rem.lanes = w.rem.lanes) :
    ∃ w, receive op false f p (takeAnswer ops g p) s = g r w ∧ Ended r s w := by
  obtain ⟨v, hc, hr⟩ := receive_came a
  obtain ⟨-, -, -, hop, -⟩ := a
  have hv : answered? v p ops = some r := by rw [hc.answered (hop ▸ n), ha]
  have he := ended_of_came hc r (srcOf p) (headCum p)
  refine ⟨_, ?_, he⟩
  rw [hr]
  simp only [takeAnswer, hv]
  exact settleLanes_empty ((hg _).trans (he.lanes.trans hl))

/-! ## Answer data -/

section
variable {p : Packet} {r : Request}

theorem placeAnswer_some {w : State} {a : Nat} (h : r.answerAt = some a) (hk : accessOk w a (p.payload.length - 16) = true) :
    (placeAnswer p r w).mem = memWrite w.mem a (p.payload.drop 16) ∧ (placeAnswer p r w).rem = w.rem := by
  rw [← List.length_drop] at hk
  have he : placeAnswer p r w = progress (putBytes a (p.payload.drop 16) w) := by simp only [placeAnswer, h, if_pos hk]
  have kp : Keeps [.ctl] (putBytes a (p.payload.drop 16) w) (progress (putBytes a (p.payload.drop 16) w)) :=
    (progress_keeps _ rfl).2 (.refl _ _)
  rw [he, kp.mem_eq rfl, kp.rem_eq rfl]
  exact ⟨rfl, rfl⟩

theorem placeAnswer_none {w : State} (h : r.answerAt = none) :
    (placeAnswer p r w).mem = w.mem ∧ (placeAnswer p r w).rem = w.rem := by
  have he : placeAnswer p r w = progress w := by simp only [placeAnswer, h]
  have kp : Keeps [.ctl] w (progress w) := (progress_keeps _ rfl).2 (.refl _ _)
  rw [he]
  exact ⟨kp.mem_eq rfl, kp.rem_eq rfl⟩

theorem placeAnswer_txGrows (p : Packet) (r : Request) (w : State) : TxGrows w (placeAnswer p r w) := by
  have kp (u : State) : TxGrows u (progress u) := .of_eq (((progress_keeps (k := [.ctl]) _ rfl).2 (.refl _ _)).rem_eq rfl)
  unfold placeAnswer
  dsimp only
  split
  · exact kp w
  · split
    · exact .trans (.of_eq rfl) (kp _)
    · exact stepFault_txGrows _ _

/-- GET_DATA lands as another answer does, and its counted landing leaves memory. -/
theorem placeGet_lands (p : Packet) (r : Request) (w : State) :
    TxGrows (placeAnswer p r w) (placeGet p r w) ∧ (placeGet p r w).mem = (placeAnswer p r w).mem := by
  unfold placeGet
  dsimp only
  split
  · exact ⟨.refl _, rfl⟩
  · exact ⟨landCount_txGrows _ _ _ _ _, ((landCount_keeps (k := [.ctr, .ctl, .rem, .launch, .dbg]) _ _ _ _ _ rfl).2
      (.refl _ _)).mem_eq rfl⟩

end

end Sys2Proof.Machine

namespace Sys2Proof.Claims

open Sys2Proof.Machine

section
variable {s : State} {f : Option Nat} {p : Packet} {r : Request}

/-- Data lands where its request said, by a handler that lands as placeAnswer does. -/
theorem answerData_lands {op : Nat} {ops : List Nat} {i : Instr} {g : Request → State → State} (hl : s.rem.lanes = [])
    (a : Arrives op false f p s) (n : op ∉ ops) (hi : exec i s = .next (receive op false f p (takeAnswer ops g p) s))
    (hg : ∀ r w, TxGrows (placeAnswer p r w) (g r w) ∧ (g r w).mem = (placeAnswer p r w).mem)
    (ha : answered? s p ops = some r) :
    (∀ k : Nat, r.answerAt = some k → accessOk s k (p.payload.length - 16) = true →
      ∃ t, exec i s = .next t ∧ (∀ x ∈ t.rem.requests, ¬ (x.dst = r.dst ∧ x.packet.psn = r.packet.psn)) ∧
        t.mem = memWrite s.mem k (p.payload.drop 16)) ∧
    (r.answerAt = none → ∃ t, exec i s = .next t ∧
      (∀ x ∈ t.rem.requests, ¬ (x.dst = r.dst ∧ x.packet.psn = r.packet.psn)) ∧ t.mem = s.mem) := by
  obtain ⟨w, hw, he⟩ := answer_handled a n ha hl fun w => (hg r w).1.lanes.trans (placeAnswer_txGrows p r w).lanes
  obtain ⟨hgrow, hmem⟩ := hg r w
  refine ⟨fun k hk hok => ?_, fun hnone => ?_⟩
  · obtain ⟨hm, hr⟩ := placeAnswer_some (w := w) hk ((accessOk_counts he.counts (he.keeps.unbacked_eq rfl) _ _).trans hok)
    refine ⟨_, hi.trans (congrArg _ hw), ?_, by rw [hmem, hm, he.keeps.mem_eq rfl]⟩
    rw [hgrow.requests, hr]
    exact he.gone
  · obtain ⟨hm, hr⟩ := placeAnswer_none (p := p) (w := w) hnone
    refine ⟨_, hi.trans (congrArg _ hw), ?_, by rw [hmem, hm, he.keeps.mem_eq rfl]⟩
    rw [hgrow.requests, hr]
    exact he.gone

theorem ack_ends (hl : s.rem.lanes = []) (a : Arrives 0x0D false f p s) (hk : fieldOf p.payload 7 1 ≠ 1)
    (ha : answered? s p [0x01, 0x02, 0x06, 0x07, 0x0A] = some r) : ∃ t, exec (.ack f p) s = .next t ∧
      (∀ x ∈ t.rem.requests, ¬ (x.dst = r.dst ∧ x.packet.psn = r.packet.psn)) ∧ t.mem = s.mem := by
  obtain ⟨w, hw, he⟩ := answer_handled (g := fun _ t => t) a (by simp) ha hl fun _ => rfl
  have hack : ackEffect p = takeAnswer [0x01, 0x02, 0x06, 0x07, 0x0A] (fun _ t => t) p := funext fun _ => if_neg hk
  exact ⟨w, congrArg Host.Outcome.next ((congrArg (fun k => receive 0x0D false f p k s) hack).trans hw), he.gone,
    he.keeps.mem_eq rfl⟩

/-- A CUM of the open job is taken for its pair. -/
theorem ack_cum (hl : s.rem.lanes = []) (a : Arrives 0x0D false f p s) (hk : fieldOf p.payload 7 1 = 1)
    (hj : p.job = s.job.id) (ho : s.job.opened = true) :
    ∃ v, Came f p s v ∧ exec (.ack f p) s = .next (takeCum (srcOf p) (headCum p) v) := by
  obtain ⟨v, hc, hr⟩ := receive_came a
  refine ⟨v, hc, congrArg Host.Outcome.next ((hr _).trans ?_)⟩
  have hj' : p.job = v.job.id ∧ v.job.opened = true := by rw [hc.keeps.job_eq rfl]; exact ⟨hj, ho⟩
  obtain ⟨ps, hrem⟩ := takeCum_rem (srcOf p) (headCum p) v
  simp only [ackEffect, if_pos hk, if_pos hj']
  exact settleLanes_empty (by rw [hrem]; exact hc.lanes.trans hl)

theorem ack_cumMoves (hl : s.rem.lanes = []) (a : Arrives 0x0D false f p s) (hk : fieldOf p.payload 7 1 = 1)
    (hj : p.job = s.job.id) (ho : s.job.opened = true) (h0 : headCum p ≠ 0)
    (hn : (headCum p + 1 - (pairOf s (srcOf p)).peerCum).toNat < 2 ^ 31) :
    ∃ t, exec (.ack f p) s = .next t ∧ (pairOf t (srcOf p)).peerCum = headCum p + 1 ∧
      (f.isSome = true → t.rem.requests = s.rem.requests) := by
  obtain ⟨v, hc, he⟩ := ack_cum hl a hk hj ho
  obtain ⟨c, i, hp⟩ := hc.pairs (srcOf p)
  have hn' : headCum p ≠ 0 ∧ (headCum p + 1 - (pairOf v (srcOf p)).peerCum).toNat < 2 ^ 31 := ⟨h0, by rw [hp]; exact hn⟩
  obtain ⟨ps, hrem⟩ := takeCum_rem (srcOf p) (headCum p) v
  refine ⟨_, he, ?_, fun hf => by rw [hrem]; exact hc.ported hf⟩
  simp only [takeCum, if_pos hn', pairOf_setPair]

theorem ack_cumZero (hl : s.rem.lanes = []) (a : Arrives 0x0D false f p s) (hk : fieldOf p.payload 7 1 = 1)
    (hj : p.job = s.job.id) (ho : s.job.opened = true) (h0 : headCum p = 0) :
    ∃ t, exec (.ack f p) s = .next t ∧ (pairOf t (srcOf p)).peerCum = (pairOf s (srcOf p)).peerCum ∧
      (pairOf t (srcOf p)).seen = (pairOf s (srcOf p)).seen ∧ (pairOf t (srcOf p)).kept = (pairOf s (srcOf p)).kept := by
  obtain ⟨v, hc, he⟩ := ack_cum hl a hk hj ho
  obtain ⟨c, i, hp⟩ := hc.pairs (srcOf p)
  have ht : takeCum (srcOf p) (headCum p) v = v := if_neg fun h => h.1 h0
  rw [ht] at he
  refine ⟨v, he, ?_⟩
  rw [hp]
  exact ⟨rfl, rfl, rfl⟩

/-- The first REFUSE since JOB_OPEN, this one if none has come. -/
def refuseNoted (p : Packet) (t : State) : State :=
  let first := match t.rem.firstRefuse with
    | some x => x
    | none => (fieldOf p.payload 6 1, fieldOf p.payload 4 2)
  { t with rem := { t.rem with firstRefuse := some first } }

theorem refuseEffect_eq (p : Packet) : refuseEffect p = takeAnswer [0x04, 0x06, 0x07, 0x08, 0x0A, 0x0B]
    (fun _ t => stepFault fcRemoteRefused (refuseNoted p t)) p := rfl

theorem refuse_stops (hl : s.rem.lanes = []) (a : Arrives 0x0E false f p s) (hs : stepActive s = true)
    (ha : answered? s p [0x04, 0x06, 0x07, 0x08, 0x0A, 0x0B] = some r) : ∃ t, exec (.refuse f p) s = .next t ∧
      (∀ x ∈ t.rem.requests, ¬ (x.dst = r.dst ∧ x.packet.psn = r.packet.psn)) ∧ Stopped 0x12 s t ∧
      (s.rem.firstRefuse = none → t.rem.firstRefuse = some (fieldOf p.payload 6 1, fieldOf p.payload 4 2)) := by
  obtain ⟨w, hw, he⟩ := answer_handled (g := fun _ t => stepFault fcRemoteRefused (refuseNoted p t)) a (by simp) ha hl
    fun w => (stepFault_txGrows _ _).lanes
  have hg := stepFault_txGrows fcRemoteRefused (refuseNoted p w)
  refine ⟨_, congrArg Host.Outcome.next ((congrArg (fun k => receive 0x0E false f p k s) (refuseEffect_eq p)).trans hw), ?_, ?_,
    fun hn => ?_⟩
  · rw [hg.requests]
    exact he.gone
  · have hact : stepActive (refuseNoted p w) = true := (stepActive_congr (he.keeps.ctl_eq rfl)).trans hs
    have hself : selfId (refuseNoted p w) = selfId s := he.self
    exact (runFault_stepFault hact _).trans (by rw [hself]; rfl)
  · rw [hg.firstRefuse]
    simp only [refuseNoted, he.firstRefuse.trans hn]

end

/-- Settles O45. -/
theorem answersEndTheirRequests : Obligations.AnswersEndTheirRequests := by
  unfold Obligations.AnswersEndTheirRequests
  intro s f p hl
  refine ⟨List.forall_mem_cons.2 ⟨fun a r ha => ?_, List.forall_mem_cons.2 ⟨fun a r ha => ?_, List.forall_mem_cons.2
    ⟨fun a r ha => ?_, by simp⟩⟩⟩, fun a => ⟨fun r hk ha => ack_ends hl a hk ha, fun hk hj ho =>
      ⟨ack_cumMoves hl a hk hj ho, ack_cumZero hl a hk hj ho⟩⟩, fun r a hs ha => refuse_stops hl a hs ha⟩
  · exact answerData_lands hl a (by simp) rfl (fun _ _ => ⟨.refl _, rfl⟩) ha
  · exact answerData_lands hl a (by simp) rfl (fun _ _ => ⟨.refl _, rfl⟩) ha
  · exact answerData_lands hl a (by simp) rfl (placeGet_lands p) ha

end Sys2Proof.Claims
end

section
/-! SUPPORT. Exchange and collective packets as they land (R202 to R221, R386): what an arrival leaves of the checks, and what the
landing of a whole message leaves of the messages that are still open. -/

namespace Sys2Proof.Machine

/-! ## The checks of a packet that has arrived -/

theorem State.eq_of_keeps {s v : State} (k : Keeps [.rem, .fab, .errs] s v) :
    v = { s with rem := v.rem, fab := v.fab, errs := v.errs } := by
  cases v
  simp only [State.mk.injEq, true_and, and_true]
  exact ⟨k.pending_eq rfl, k.mb_eq rfl, k.boot_eq rfl, k.mem_eq rfl, k.unbacked_eq rfl, k.tiles_eq rfl, k.cells_eq rfl, k.ctr_eq rfl,
    k.job_eq rfl, k.ctl_eq rfl, k.exch_eq rfl, k.tier_eq rfl, k.flash_eq rfl, k.pools_eq rfl, k.time_eq rfl, k.launch_eq rfl,
    k.mgmt_eq rfl, k.dbg_eq rfl, k.pins_eq rfl⟩

/-- Whether a landing's digest shows a skew at once (R205). -/
def biasSkewed (s : State) (step digest : Word) : Bool :=
  if inForce s step then digest != s.job.lasting.biasDigest
  else
    match s.ctl.armed with
    | some g => if g.step = step then digest != stagedDigest s g else false
    | none => false

theorem biasCheck_skewed (step digest : Word) (s : State) : (biasCheck step digest s).1 = biasSkewed s step digest := by
  unfold biasCheck biasSkewed
  split
  · rfl
  · cases s.ctl.armed with
    | some g => by_cases h : g.step = step <;> simp only [h, if_true, if_false]
    | none => cases hk : s.ctl.keptDigest <;> simp only

section
variable (s : State) (r : Remote) (f : Fabric) (e : Errs)

/-- A state with other links, remote memory and errors. -/
def withArrival : State := { s with rem := r, fab := f, errs := e }

theorem targets_withArrival (src : Nat) (h : XHead) (l : List Nat) :
    targets? (withArrival s r f e) src h l = targets? s src h l := by
  induction l with
  | nil => rfl
  | cons c l ih =>
    have hc : targetOf? (withArrival s r f e) src h c = targetOf? s src h c := rfl
    rw [targets?, targets?, ih, hc]

theorem messageTargets_withArrival (src : Nat) (h : XHead) :
    messageTargets? (withArrival s r f e) src h = messageTargets? s src h := by
  rw [messageTargets?, messageTargets?, targets_withArrival]
  rfl

theorem roomOk_withArrival (h : XHead) (ts : List Target) (m : Msg) :
    roomOk (withArrival s r f e) h ts m = roomOk s h ts m := rfl

theorem collSenderOk_withArrival (src : Nat) (h : CHead) :
    collSenderOk (withArrival s r f e) src h = collSenderOk s src h := rfl

theorem biasSkewed_withArrival (step digest : Word) :
    biasSkewed (withArrival s r f e) step digest = biasSkewed s step digest := rfl

theorem stepSkewed_withArrival (step : Word) : stepSkewed (withArrival s r f e) step = stepSkewed s step := rfl

theorem discarding_withArrival (p : Packet) : discarding (withArrival s r f e) p = discarding s p := rfl

end

theorem Came.eq_withArrival {f : Option Nat} {p : Packet} {s v : State} (h : Came f p s v) :
    v = withArrival s v.rem v.fab v.errs := State.eq_of_keeps h.keeps

theorem Came.isSeen {f : Option Nat} {p : Packet} {s v : State} (h : Came f p s v) (q : Packet) :
    isSeen v q = Machine.isSeen s q := by
  obtain ⟨_, _, e⟩ := h.pairs (srcOf q)
  rw [Machine.isSeen, Machine.isSeen, e]

open Sys2Proof.Claims in
/-- A bulk packet that is no duplicate and not discarded is placed. -/
theorem bulk_handled {op : Nat} {f : Option Nat} {p : Packet} {s : State} {place : Packet → State → State}
    (a : Arrives op false f p s) (hd : discarding s p = false) (hs : isSeen s p = false) :
    ∃ v, Came f p s v ∧ receive op false f p (bulkArrival place p) s = place p v := by
  obtain ⟨v, hc, hr⟩ := receive_came a
  refine ⟨v, hc, (hr _).trans ?_⟩
  have hd' : discarding v p = false := by rw [hc.eq_withArrival, discarding_withArrival, hd]
  have hs' : isSeen v p = false := by rw [hc.isSeen, hs]
  simp only [bulkArrival, hd', hs', Bool.false_eq_true, if_false]

/-- A packet that has been placed is seen and acknowledged. -/
def placed (p : Packet) (u : State) : State := progress (ackLanded p (addSeen p u))

open Sys2Proof.Claims in
theorem placed_answers (p : Packet) (u : State) :
    Keeps [.ctl, .rem] u (placed p u) ∧ Answers (srcOf p) 0x0D p.psn 0 [] (placed p u) := by
  have kp (w : State) : Keeps [.ctl] w (progress w) := (progress_keeps _ rfl).2 (.refl _ w)
  have ka : Keeps [.ctl, .rem] u (placed p u) := by
    unfold placed
    exact (progress_keeps _ rfl).2 ((ackLanded_keeps _ _ rfl).2 ((addSeen_keeps _ _ rfl).2 (.refl _ u)))
  exact ⟨ka, Answers.grows (sendAnswer_answers _ _ (by decide) (by decide) _ _ _ _ _) (.of_eq ((kp _).rem_eq rfl))⟩

/-! ## Open messages -/

/-- The open messages and those that have landed are as they were. -/
def MsgsStand (s t : State) : Prop := t.exch.msgs = s.exch.msgs ∧ t.exch.landed = s.exch.landed

namespace MsgsStand
variable {s t u : State}

theorem refl (s : State) : MsgsStand s s := ⟨rfl, rfl⟩
theorem trans (h : MsgsStand s t) (g : MsgsStand t u) : MsgsStand s u := ⟨g.1.trans h.1, g.2.trans h.2⟩
theorem of_eq (h : t.exch = s.exch) : MsgsStand s t := ⟨by rw [h], by rw [h]⟩

theorem foldl {α : Type} {f : State → α → State} (h : ∀ t a, MsgsStand t (f t a)) (l : List α) (s : State) :
    MsgsStand s (l.foldl f s) := by
  induction l generalizing s with
  | nil => exact refl s
  | cons a r ih => exact (h s a).trans (ih _)

end MsgsStand

theorem landingFault_msgsStand (step : Word) (cause : Nat) (s : State) : MsgsStand s (landingFault step cause s) :=
  .of_eq (((landingFault_keeps (k := [.ctl, .rem, .launch]) _ _ _ rfl).2 (.refl _ s)).exch_eq rfl)

theorem applyLanding_msgsStand (a : Landing) (s : State) : MsgsStand s (applyLanding a s) := by
  have kw : Keeps [.mem, .errs] s (writeAll a.writes s) := (writeAll_keeps _ _ rfl).2 (.refl _ s)
  unfold applyLanding
  dsimp only
  have ka (u : State) : MsgsStand u (addStepCount ccStaleReturn a.stale u) :=
    .of_eq (((addStepCount_keeps (k := [.ctl]) _ _ _ rfl).2 (.refl _ u)).exch_eq rfl)
  refine .trans (MsgsStand.of_eq (kw.exch_eq rfl)) (.trans ?_ (ka _))
  exact ⟨rfl, rfl⟩

theorem applyLandings_msgsStand (h : XHead) (ls : Nat ⊕ List Landing) (s : State) : MsgsStand s (applyLandings h ls s) := by
  unfold applyLandings
  split
  · exact landingFault_msgsStand _ _ s
  · exact .foldl (fun t a => applyLanding_msgsStand a t) _ s

theorem tallyAnswers_msgsStand (h : XHead) (t : Target) (s : State) : MsgsStand s (tallyAnswers h t s) := by
  have kf (l : Layer) (x : XPlan) (u : State) : MsgsStand u (fillAnswers l x u) :=
    .of_eq (((fillAnswers_keeps (k := [.mem, .ctl]) _ _ _ rfl).2 (.refl _ u)).exch_eq rfl)
  unfold tallyAnswers
  dsimp only
  split
  · split
    · refine .trans ?_ (kf _ _ _)
      exact ⟨rfl, rfl⟩
    · exact ⟨rfl, rfl⟩
  · exact .refl s

theorem placeMessage_msgsStand (m : Msg) (s : State) : MsgsStand s (placeMessage m s) := by
  unfold placeMessage
  dsimp only
  split
  · exact landingFault_msgsStand _ _ s
  · exact (applyLandings_msgsStand _ _ s).trans (.foldl (fun t x => tallyAnswers_msgsStand _ x t) _ _)

theorem countTarget_msgsStand (h : XHead) (t : Target) (s : State) : MsgsStand s (countTarget h t s) :=
  .of_eq (((landCount_keeps (k := [.ctr, .ctl, .rem, .launch, .dbg]) _ _ _ _ _ rfl).2 (.refl _ s)).exch_eq rfl)

/-- The landing of a whole message leaves the other open messages. -/
theorem landExchange_msgsStand (m : Msg) (s : State) : MsgsStand (closeMsg m.key s) (landExchange m s) := by
  unfold landExchange
  dsimp only
  generalize closeMsg m.key s = u
  split
  · exact landingFault_msgsStand _ _ u
  · next ts _ =>
    split
    · exact landingFault_msgsStand _ _ u
    · have hb : MsgsStand u (if m.bodyLen = 0 then u else countBodies (headOfKey m.key m.bodyLen) m 0 ts u) := by
        split
        · exact .refl u
        · exact .of_eq (((countBodies_keeps (k := [.dbg]) _ _ _ _ _ rfl).2 (.refl _ u)).exch_eq rfl)
      generalize (if m.bodyLen = 0 then u else countBodies (headOfKey m.key m.bodyLen) m 0 ts u) = w at hb
      have ha := applyLandings_msgsStand (headOfKey m.key m.bodyLen)
        (landSections (landFixed w) w (headOfKey m.key m.bodyLen) m ts 0 ts []) w
      generalize applyLandings (headOfKey m.key m.bodyLen)
        (landSections (landFixed w) w (headOfKey m.key m.bodyLen) m ts 0 ts []) w = x at ha
      refine (hb.trans ha).trans (.trans ?_ (.foldl (fun t x => countTarget_msgsStand _ x t) _ _))
      split
      · exact ⟨rfl, rfl⟩
      · exact placeMessage_msgsStand m x

theorem landAgain_msgsStand (m : Msg) (s : State) : MsgsStand (closeMsg m.key s) (landAgain m s) := by
  unfold landAgain
  dsimp only
  generalize closeMsg m.key s = u
  split
  · exact .refl u
  · split
    · exact .refl u
    · exact applyLandings_msgsStand _ _ u

theorem landCollective_msgsStand (m : Msg) (s : State) : MsgsStand (closeMsg m.key s) (landCollective m s) := by
  unfold landCollective
  dsimp only
  generalize closeMsg m.key s = u
  split
  · exact .refl u
  · exact .of_eq (((landCount_keeps (k := [.ctr, .ctl, .rem, .launch, .dbg]) _ _ _ _ _ rfl).2
      ((perfAdd_keeps _ _ _ _ rfl).2 (.refl _ u))).exch_eq rfl)

theorem closeMsg_closes (k : MsgKey) (s : State) : k ∈ (closeMsg k s).exch.landed ∧ ∀ z ∈ (closeMsg k s).exch.msgs, z.key ≠ k := by
  refine ⟨List.mem_cons_self, fun z hz => ?_⟩
  simpa using (List.mem_filter.1 hz).2

theorem MsgsStand.closed {k : MsgKey} {s t : State} (h : MsgsStand (closeMsg k s) t) :
    k ∈ t.exch.landed ∧ ∀ z ∈ t.exch.msgs, z.key ≠ k := by
  rw [h.1, h.2]
  exact closeMsg_closes k s

/-! ## The count of a collective message -/

theorem landRule_congr {s t : State} (h : t.ctl = s.ctl) (step : Nat) : landRule t step = landRule s step := by
  simp only [landRule, currentStep?, h]

theorem landCollective_counts {m : Msg} {s : State} {cl : Nat} (hc : collCluster? s m.key.layer = some cl)
    (hr : landRule s m.key.step.toNat = .counter) : (landCollective m s).mem = s.mem ∧
      arrGet (landCollective m s) cl ((cplanOf s m.key.layer).ctr + m.key.kind) =
        min (arrGet s cl ((cplanOf s m.key.layer).ctr + m.key.kind) + 1) ctrMax := by
  have he : landCollective m s = landCount cl ((cplanOf s m.key.layer).ctr + m.key.kind) 1 m.key.step.toNat
      (perfAdd cl 0x0A m.bodyLen (closeMsg m.key s)) := by
    have hc' : collCluster? (closeMsg m.key s) m.key.layer = some cl := hc
    unfold landCollective
    dsimp only
    rw [hc']
    rfl
  have kp : Keeps [.exch, .dbg] s (perfAdd cl 0x0A m.bodyLen (closeMsg m.key s)) :=
    (perfAdd_keeps _ _ _ _ rfl).2 ((closeMsg_keeps _ _ rfl).2 (.refl _ s))
  rw [he]
  generalize perfAdd cl 0x0A m.bodyLen (closeMsg m.key s) = y at kp
  have hr' : landRule y m.key.step.toNat = .counter := by rw [landRule_congr (kp.ctl_eq rfl), hr]
  have kl : Keeps [.ctr, .ctl, .rem, .launch, .dbg] y (landCount cl ((cplanOf s m.key.layer).ctr + m.key.kind) 1 m.key.step.toNat y) :=
    (landCount_keeps _ _ _ _ _ rfl).2 (.refl _ y)
  have kn (u : State) : Keeps [.ctl, .dbg] u (noteLanding cl u) := by
    unfold noteLanding
    exact (progress_keeps _ rfl).2 ((strobe_keeps _ _ rfl).2 ((perfAdd_keeps _ _ _ _ rfl).2 (.refl _ u)))
  refine ⟨(kl.mem_eq rfl).trans (kp.mem_eq rfl), ?_⟩
  simp only [landCount, hr']
  rw [arrGet_congr ((kn _).ctr_eq rfl) ((kn _).job_eq rfl), arrGet_arrAdd, arrGet_congr (kp.ctr_eq rfl) (kp.job_eq rfl)]

end Sys2Proof.Machine

namespace Sys2Proof.Claims

open Sys2Proof.Machine

section
variable {s : State} {f : Option Nat} {p : Packet}

/-- An exchange packet that keeps R204 adds its bytes to its message. -/
theorem exchange_lands (a : Arrives 0x01 false f p s) (hd : discarding s p = false) (hs : isSeen s p = false)
    (h32 : 32 ≤ p.payload.length) (hstep : stepSkewed s (xheadOf p.payload).step = false)
    (him : imageMatches s (xheadOf p.payload).imageId = true)
    (hbias : (biasCheck (xheadOf p.payload).step (xheadOf p.payload).digest s).1 = false) {ts : List Target}
    (hts : messageTargets? s (srcOf p) (xheadOf p.payload) = some ts)
    (hlen : (xheadOf p.payload).ofs + (p.payload.drop 32).length ≤ (xheadOf p.payload).bodyLen) {m2 : Msg}
    (hm2 : m2 = { msgOf s (keyOf (srcOf p) (xheadOf p.payload)) (xheadOf p.payload).bodyLen with
      got := ((xheadOf p.payload).ofs, (p.payload.drop 32).length) ::
        (msgOf s (keyOf (srcOf p) (xheadOf p.payload)) (xheadOf p.payload).bodyLen).got
      body := memWrite (msgOf s (keyOf (srcOf p) (xheadOf p.payload)) (xheadOf p.payload).bodyLen).body (xheadOf p.payload).ofs
        (p.payload.drop 32) })
    (hroom : roomOk s (xheadOf p.payload) ts m2 = true) :
    ∃ t, exec (.exchange f p) s = .next t ∧ t.mem = s.mem ∧ Answers (srcOf p) 0x0D p.psn 0 [] t ∧
      (t.exch.msgs.find? fun z => z.key == m2.key) = some m2 := by
  obtain ⟨v, hc, hr⟩ := bulk_handled (place := placeExchange) a hd hs
  generalize hh : xheadOf p.payload = h at hstep him hbias hts hlen hm2 hroom
  have hv : v = withArrival s v.rem v.fab v.errs := hc.eq_withArrival
  have h1 : stepSkewed v h.step = false := by rw [hv, stepSkewed_withArrival, hstep]
  have h2 : imageMatches v h.imageId = true := by rw [imageMatches, boundImage?, hc.keeps.job_eq rfl]; exact him
  have h3 : (biasCheck h.step h.digest v).1 = false := by
    rw [biasCheck_skewed, hv, biasSkewed_withArrival, ← biasCheck_skewed, hbias]
  have h4 : messageTargets? v (srcOf p) h = some ts := by rw [hv, messageTargets_withArrival, hts]
  have h5 : msgOf v (keyOf (srcOf p) h) h.bodyLen = msgOf s (keyOf (srcOf p) h) h.bodyLen := by
    rw [msgOf, msgOf, hc.keeps.exch_eq rfl]
  have h6 : ¬ (h.bodyLen < h.ofs + (p.payload.drop 32).length ∨ roomOk v h ts m2 = false) := by
    rw [hv, roomOk_withArrival, hroom]
    simp only [Bool.true_eq_false, or_false]
    omega
  have hp : placeExchange p v = placed p (putMsg m2 (noteEntryStep h.step (biasCheck h.step h.digest v).2)) := by
    simp only [placeExchange, hh, if_neg (Nat.not_lt.2 h32), h1, h2, h3, h4, h5, ← hm2, if_neg h6, Bool.not_true,
      Bool.false_eq_true, if_false]
    rfl
  have kb : Keeps [.ctl] v (noteEntryStep h.step (biasCheck h.step h.digest v).2) :=
    (noteEntryStep_keeps _ _ rfl).2 ((biasCheck_keeps _ _ _ rfl).2 (.refl _ v))
  obtain ⟨kt, hans⟩ := placed_answers p (putMsg m2 (noteEntryStep h.step (biasCheck h.step h.digest v).2))
  refine ⟨_, congrArg Host.Outcome.next (hr.trans hp), ?_, hans, ?_⟩
  · exact (kt.mem_eq rfl).trans ((kb.mem_eq rfl).trans (hc.keeps.mem_eq rfl))
  · rw [kt.exch_eq rfl]
    simp [putMsg]

/-- A collective packet that keeps R386 writes its bytes by OFFSET. -/
theorem collective_lands (a : Arrives 0x02 false f p s) (hd : discarding s p = false) (hs : isSeen s p = false)
    (h32 : 32 ≤ p.payload.length) {h : CHead} (hh : cheadOf p.payload = h) (hstep : stepSkewed s h.step = false)
    (him : imageMatches s h.imageId = true) (hsend : collSenderOk s (srcOf p) h = true)
    (hlen : h.ofs + (p.payload.drop 32).length ≤ h.bodyLen) (hpitch : h.bodyLen ≤ chunkPitch (cplanOf s h.plan))
    (hwin : h.window = (cplanOf s h.plan).window) :
    ∃ t, exec (.collective f p) s = .next t ∧
      t.mem = memWrite s.mem (collPlace (cplanOf s h.plan) h + h.ofs) (p.payload.drop 32) ∧
      Answers (srcOf p) 0x0D p.psn 0 [] t := by
  obtain ⟨v, hc, hr⟩ := bulk_handled (place := placeCollective) a hd hs
  have hv : v = withArrival s v.rem v.fab v.errs := hc.eq_withArrival
  have h1 : stepSkewed v h.step = false := by rw [hv, stepSkewed_withArrival, hstep]
  have h2 : imageMatches v h.imageId = true := by rw [imageMatches, boundImage?, hc.keeps.job_eq rfl]; exact him
  have h3 : collSenderOk v (srcOf p) h = true := by rw [hv, collSenderOk_withArrival, hsend]
  have h4 : cplanOf v h.plan = cplanOf s h.plan := by rw [cplanOf, hc.keeps.job_eq rfl]; rfl
  have h5 : ¬ (h.bodyLen < h.ofs + (p.payload.drop 32).length ∨ chunkPitch (cplanOf s h.plan) < h.bodyLen) := by omega
  obtain ⟨m, hp⟩ : ∃ m, placeCollective p v = placed p (putMsg m (noteEntryStep h.step
      (putBytes (collPlace (cplanOf s h.plan) h + h.ofs) (p.payload.drop 32) v))) := by
    refine ⟨{ msgOf v (collKey (srcOf p) h) h.bodyLen with
      got := (h.ofs, (p.payload.drop 32).length) :: (msgOf v (collKey (srcOf p) h) h.bodyLen).got }, ?_⟩
    simp only [placeCollective, hh, if_neg (Nat.not_lt.2 h32), h1, h2, h3, h4, if_neg h5, hwin, ne_eq, not_true_eq_false,
      Bool.not_true, Bool.false_eq_true, if_false]
    rfl
  generalize hu : putBytes (collPlace (cplanOf s h.plan) h + h.ofs) (p.payload.drop 32) v = u at hp
  have kb : Keeps [.ctl] u (noteEntryStep h.step u) := (noteEntryStep_keeps _ _ rfl).2 (.refl _ u)
  obtain ⟨kt, hans⟩ := placed_answers p (putMsg m (noteEntryStep h.step u))
  refine ⟨_, congrArg Host.Outcome.next (hr.trans hp), ?_, hans⟩
  rw [kt.mem_eq rfl]
  refine (kb.mem_eq rfl).trans ?_
  rw [← hu, ← hc.keeps.mem_eq rfl]
  rfl

end

section
variable {s : State} {m : Msg} (hm : (s.exch.msgs.find? fun z => z.key == m.key) = some m) (hb : hasBytes m m.bodyLen = true)

include hm hb in
theorem messageLanded_of : exec (.messageLanded m.key) s = .next (
    if s.exch.landed.contains m.key then
      if m.key.collective = false ∧ m.key.kind / 16 = 4 then landAgain m s else closeMsg m.key s
    else if m.key.collective then landCollective m s
    else landExchange m s) := by
  show Host.Outcome.next (messageLandedEffect m.key s) = _
  simp only [messageLandedEffect, hm, hb, if_true]

include hm hb in
theorem messageLanded_again (hl : m.key ∈ s.exch.landed) : ∃ t, exec (.messageLanded m.key) s = .next t ∧
    (m.key.collective = true ∨ m.key.kind / 16 ≠ 4 → Keeps [.exch] s t) ∧ ∀ z ∈ t.exch.msgs, z.key ≠ m.key := by
  have he := (messageLanded_of hm hb).trans (congrArg _ (if_pos (List.contains_iff_mem.2 hl)))
  by_cases hk : m.key.collective = false ∧ m.key.kind / 16 = 4
  · refine ⟨_, he.trans (congrArg _ (if_pos hk)), fun hn => ?_, (landAgain_msgsStand m s).closed.2⟩
    obtain ⟨hc, h4⟩ := hk
    exact hn.elim (fun h => by simp [hc] at h) fun h => absurd h4 h
  · exact ⟨_, he.trans (congrArg _ (if_neg hk)), fun _ => (closeMsg_keeps _ _ rfl).2 (.refl _ s), (closeMsg_closes _ s).2⟩

include hm hb in
theorem messageLanded_first (hl : m.key ∉ s.exch.landed) : ∃ t, exec (.messageLanded m.key) s = .next t ∧
    m.key ∈ t.exch.landed ∧ (∀ z ∈ t.exch.msgs, z.key ≠ m.key) ∧
    ∀ cl : Nat, m.key.collective = true → collCluster? s m.key.layer = some cl →
      landRule s m.key.step.toNat = .counter → t.mem = s.mem ∧
      arrGet t cl ((cplanOf s m.key.layer).ctr + m.key.kind) =
        min (arrGet s cl ((cplanOf s m.key.layer).ctr + m.key.kind) + 1) ctrMax := by
  have he := (messageLanded_of hm hb).trans (congrArg _ (if_neg fun h => hl (List.contains_iff_mem.1 h)))
  cases hc : m.key.collective with
  | true =>
    obtain ⟨h1, h2⟩ := (landCollective_msgsStand m s).closed
    exact ⟨_, he.trans (congrArg _ (if_pos hc)), h1, h2, fun cl _ hcl hr => landCollective_counts hcl hr⟩
  | false =>
    obtain ⟨h1, h2⟩ := (landExchange_msgsStand m s).closed
    exact ⟨_, he.trans (congrArg _ (if_neg (by simp [hc]))), h1, h2, fun cl h => absurd h Bool.false_ne_true⟩

end

/-- Settles O47. -/
theorem bulkTrafficLands : Obligations.BulkTrafficLands := by
  unfold Obligations.BulkTrafficLands
  intro s f p
  refine ⟨fun a hd hs h32 hstep him hbias ts hts hlen hroom => ?_, fun a hd hs h32 hstep him hsend hlen hpitch hwin =>
    collective_lands a hd hs h32 rfl hstep him hsend hlen hpitch hwin, fun m hm hb =>
      ⟨messageLanded_again hm hb, messageLanded_first hm hb⟩⟩
  obtain ⟨t, ht, hmem, hans, hfind⟩ := exchange_lands a hd hs h32 hstep him hbias hts hlen rfl hroom
  refine ⟨t, ht, hmem, hans, (congrArg _ hfind).trans rfl⟩

end Sys2Proof.Claims
end
